-- ==== Sys2Proof/Word.lean ====
section
/-!
DEFINITION. The word types of the model and the plainest data shapes: bytes, 64-bit words, sparse maps in one
canonical form, and the index types of the package (00_scope.md R1, R4; 01_package_and_stacks.md R11).
-/

namespace Sys2Proof

/-- One byte. -/
abbrev Byte := BitVec 8

/-- One 64-bit word: the unit of a descriptor, of the scalar registers and of poison (06 R131; 04 Table 4.1; 07 R170). -/
abbrev Word := BitVec 64

/-- A sparse map from numbers, kept in canonical form: keys strictly rising, and no entry equal to the default.
`Sys2Proof.Machine.mget` and `mput` read and write it. -/
abbrev SMap (α : Type) := List (Nat × α)

/-- A compute die, with its base tile, tier, HBM stack and stack controller (01 R11). -/
abbrev Die := Fin 8

/-- A die of the package fabric: 0 to 7 the compute dies, 8 the hub (08 R181). -/
abbrev Die9 := Fin 9

/-- A queue: 0 to 63 of die 0, and so on, and 512 to 527 of the hub (06 R126). -/
abbrev QId := Fin 528

/-- A bell: its number divided by 512 is its die (06 R147). -/
abbrev BellId := Fin 4096

/-- An array: its number divided by 8 is its die (00 R4). -/
abbrev ArrId := Fin 64

/-- A plane port: six directions times eight planes (09 R199). -/
abbrev Port := Fin 48

/-- A fibre transceiver: seven positions on each of eight ribbons (10 R234). -/
abbrev Xcvr := Fin 56

/-- A wavelength of a fibre or of a die pair: 0 to 17 (08 R182; 10 R233). -/
abbrev Lam := Fin 18

end Sys2Proof
end

