-- ==== Sys2Proof/Syntax.lean ====
section
/-!
DEFINITION. The syntax of the block's commands: the operand types, written from the message, packet and record
tables of the spec, and `Instr`, the one inductive of commands, one constructor for each row of
spec/opcode_table.json (each docstring gives the row's mnemonic, its rule and its summary).
-/

namespace Sys2Proof

/-- Who sent a dictionary request: the PCIe mailbox, or an IPv6 source on the management drop (15 R335, R338). -/
inductive Source where
  | mailbox
  | udp (addr : BitVec 128)
  deriving DecidableEq, Repr

/-- The trailer of a signed message (15 R341). -/
structure Trailer where
  keyId : Word
  nonce : BitVec 128
  sig   : List Byte
  deriving DecidableEq, Repr

/-- How a dictionary write that has a row of its own arrived: its source, its SEQ and its trailer (15 R332, R341). -/
structure WriteCtx where
  src     : Source
  seq     : BitVec 32
  trailer : Option Trailer
  deriving DecidableEq, Repr

/-- A whole BDP message and its source (15 R332). -/
structure BdpMsg where
  src   : Source
  bytes : List Byte
  deriving DecidableEq, Repr

/-- A vertical signal group of Table 1.2 (01 R15).  `tx` is the direction of a lane away from the die. -/
inductive BumpGroup where
  | d2dLane (d : Die) (peer : Die9) (l : Lam) (tx : Bool)
  | fabLane (d : Die) (t : Fin 7) (l : Lam) (tx : Bool)
  | hbmPc (d : Die) (pc : Fin 64) (k : Fin 3)
  /-- A lane of the HBM4 interface that the stack's own lane repair cannot cover (01, below Table 1.2; 07 R172). -/
  | hbmLane (d : Die) (pc : Fin 64)
  | baseCtl (d : Die) (k : Fin 4) (twin : Bool)
  | tierRead (d : Die) (port : Fin 8) (g : Fin 288)
  | tierWrite (d : Die) (port : Fin 8) (g : Fin 72)
  | tierCmd (d : Die) (port : Fin 8) (g : Fin 8)
  | tierCtl (d : Die) (k : Fin 2) (twin : Bool)
  | hubLane (peer : Die) (l : Lam) (tx : Bool)
  | hubPcie (lane : Fin 16) (tx : Bool)
  | hubCtl (k : Fin 4) (twin : Bool)
  deriving DecidableEq, Repr

/-- A die that multiplies the 350 MHz reference (01 Table 1.5, R26). -/
inductive ClockUser where
  | cd (d : Die)
  | tier (d : Die)
  | hub
  deriving DecidableEq, Repr

/-- The identity memory of a laser bank (10 R258): the power of each λ recorded at commissioning, in mdBm, and the source
in use of each, 1 the spare. -/
structure BankMem where
  power  : List Int
  source : List Nat
  deriving DecidableEq, Repr

/-- What one start of the hub or of a stack measures and finds (17 Table 17.1): the inputs of the start-up sequence. -/
structure BootEnv where
  viaLost    : BitVec 2                    -- hub clock vias with no edge (01 R26)
  pllLocked  : Bool                        -- the master PLL has locked
  noGood     : BitVec 30                   -- domains that do not report power good (16 R355)
  flashOk    : Bool                        -- Table 17.3 check 1
  identityOk : Bool                        -- the derivation's self-test (17 R372)
  straps     : BitVec 4                    -- the slot straps (18 R383)
  bankOk     : BitVec 2                    -- bay holds a readable bank of the right part (18 R390)
  slow       : BitVec 8                    -- stacks that miss a limit of Table 17.1 (17 R367)
  katFail    : BitVec 64                   -- arrays that fail their start-up test (02 R53)
  bumps      : List BumpGroup              -- groups with a bump that fails training (01 R16)
  pcFail     : List (Die × Fin 64)         -- pseudo-channels that fail training (07 R172)
  laneFail   : List (Die9 × Die9 × Lam)    -- die-to-die lanes that fail training (08 R187)
  vmin       : List Nat                    -- the stepped survey's VMIN of each domain, mV (16 R364)
  slackPs    : List Int                    -- and its least slack, ps
  duplicate  : Bool                        -- duplicate address detection finds one (15 R337)
  copyAOk    : Bool                        -- flash copy A of the dictionary reads without error (15 R347)
  copyBOk    : Bool
  memAOk     : Bool                        -- flash copy A of the memory record passes its check (07 R178)
  memBOk     : Bool
  ratios     : List (List Nat)             -- of each domain's via groups, R_meas ÷ R_nom in thousandths (01 R22)
  banks      : List (Option BankMem)       -- identity memory of a bank put into each bay since (10 R258)
  sourceFail : BitVec 36                   -- laser sources that do not lock: bank A λ in bits 17:0, bank B in 35:18
  deriving DecidableEq, Repr

/-- The status of a completion of a host read (14 R322 rule 6): successful, Unsupported Request, Completer Abort. -/
inductive CplStatus where
  | sc
  | ur
  | ca
  deriving DecidableEq, Repr

/-- One in-service survey of a domain (16 R364; 01 R22): the lowest rail reading in mV, the least slack in ps, and
for each via group of the path R_meas ÷ R_nom in thousandths. -/
structure SurveyReading where
  railMv  : Int
  slackPs : Int
  ratios  : List Nat
  deriving DecidableEq, Repr

/-- What error correction reports of a word that is read (07 R168): corrected by the on-die layer of an HBM stack alone,
corrected in one bit by SECDED, after an on-die correction or without one, or uncorrectable in either layer. -/
inductive WordErr where
  | onDie
  | secded (bit : Fin 72) (onDie : Bool)
  | failed
  deriving DecidableEq, Repr

/-- One word that a read finds in error (07 R160, R164, R168, R169): its offset in the die's map, and the report. -/
structure WordFind where
  off : Nat
  err : WordErr
  deriving DecidableEq, Repr

/-- One word of a store of the package that the reads of a command find in error, by the die that holds it (07 R160,
R168). -/
structure ReadErr where
  die  : Die
  word : WordFind
  deriving DecidableEq, Repr

/-- One word of an array's accumulator buffer, or of its feeder's feed buffer, that a read finds in error (02 R47; 07
R163): its row and its place in the row, its corrected bit or none where it is uncorrectable, and of a feed buffer the
tile row whose beats the word goes into, none where it goes into the beats of every row (a weight, a channel scale). -/
structure BufErr where
  feed : Bool
  row  : Nat
  word : Nat
  bit  : Option (Fin 72)
  beat : Option Nat
  deriving DecidableEq, Repr

/-- An operand of a command whose reads of memory may find words in error, with those words (07 R160, R168). -/
structure Reading (α : Type) where
  arg  : α
  errs : List ReadErr
  deriving DecidableEq, Repr

/-- The ring index of a tile's descriptor, and the words in error that its reads find, of memory and of the buffers of the
array that runs it (02 R47; 07 R163). -/
structure TileRun where
  i    : BitVec 32
  errs : List ReadErr
  bufs : List BufErr
  deriving DecidableEq, Repr

/-- A context of an array that is emitted, and the words in error of its buffers that the drain finds (02 R47). -/
structure TileDrain where
  ctx  : Fin 16
  bufs : List BufErr
  deriving DecidableEq, Repr

/-- The die whose retirement has copied a batch, and the words in error that the reads of its rows find (07 R175). -/
structure BatchRead where
  die   : Die
  finds : List WordFind
  deriving DecidableEq, Repr

/-- What the phases of a requalification find (13 Table 13.9): the phase that does not complete, the arrays that fail
their known-answer test, the words of the stores and of the arrays' buffers found in error, the die-to-die lanes that
fail on the training pattern, and the stepped survey. -/
structure RequalEnv where
  failed   : Option (Fin 9)
  katFail  : BitVec 64
  words    : List ReadErr
  buffers  : List (ArrId × BufErr)
  laneFail : List (Die9 × Die9 × Lam)
  vmin     : List Nat
  slackPs  : List Int
  ratios   : List (List Nat)
  deriving DecidableEq, Repr

/-- A 256-byte die-to-die flit as it arrives (08 R182). -/
structure D2dFlit where
  bytes : List Byte
  deriving DecidableEq, Repr

/-- A die-to-die message (08 Table 8.2, 8.3): `data` holds LEN bytes, `poison` one mark for each 64-bit word (empty
with PX = 0).  For WRM the data is the 64-byte mask followed by the line. -/
structure D2dMsg where
  typ    : BitVec 8
  src    : Die9
  dst    : Die9
  tag    : BitVec 16
  len    : BitVec 13
  addr   : BitVec 48
  data   : List Byte
  poison : List Bool
  deriving DecidableEq, Repr

/-- A fabric packet: the fields of Table 9.2, its data and poison map, the plane it is on, the port it came in by and
the circuit lane it travels in, if any (09 R207, R219). -/
structure Packet where
  dst    : BitVec 18
  src    : BitVec 18
  cls    : BitVec 3
  typ    : BitVec 5
  srcDie : BitVec 4
  dstDie : BitVec 4
  id     : BitVec 12
  epoch  : BitVec 16
  tag    : BitVec 16
  len    : BitVec 13
  px     : Bool
  mcast  : Bool
  mcAxis : BitVec 2
  mcDir  : Bool
  mcSpan : BitVec 5
  offset : BitVec 48
  aux    : Word
  data   : List Byte
  poison : List Bool
  plane  : Fin 8
  inPort : Option Port
  lane   : Option (Fin 16)
  deriving DecidableEq, Repr

/-- One circuit entry "input port, lane, output port" (09 R220). -/
structure HopEntry where
  inPort  : Port
  lane    : Fin 16
  outPort : Port
  deriving DecidableEq, Repr

/-- A flit of a fibre direction as it is received: its number in the stream of flits since training, idle ones counted, and
the symbols received of each codeword in which it has a byte (10 R241). -/
structure FibreFlit where
  number : Word
  words  : List (List (BitVec 10))
  deriving DecidableEq, Repr

/-- A lane-control message (10 Table 10.6); `map` gives one code of Table 10.5 for each λ. -/
structure LaneMsg where
  op     : BitVec 8
  reason : BitVec 4
  tick   : Word
  cw     : Word
  map    : List (BitVec 5)
  deriving DecidableEq, Repr

/-- What the training of one fibre pair measures and exchanges (10 Table 10.8; 09 R201, R227, R228): the λ of the
transmit direction that the far receiver has verified, the margin in mdB and the bit error ratio (a binary32 pattern) of
each λ of the receive direction, the peer's coordinate and order for the plane, the loop, the dark devices spanned, the
peer's free counts of the six classes and of the sixteen circuit lanes, CAL_SCHED's origin, and the far transceiver. -/
structure TrainResult where
  txPass    : BitVec 18
  rxMargins : List Int
  rxBers    : List (BitVec 32)
  peer      : BitVec 18
  peerOrder : Byte
  loopNs    : BitVec 32
  spans     : BitVec 2
  free      : List Nat
  laneFree  : List Nat
  origin    : Word
  far       : Xcvr
  deriving DecidableEq, Repr

/-- One direction of a transceiver's fibre: the transmitting or the receiving one (10 R245). -/
structure FibreDir where
  xcvr : Xcvr
  tx   : Bool
  deriving DecidableEq, Repr

/-- What a judged window of codewords shows of a wavelength: its pre-FEC error ratio, as binary32, and its margin in mdB
(10 R248, R261). -/
structure LaneReading where
  ber       : BitVec 32
  marginMdb : Int
  deriving DecidableEq, Repr

/-- The verify step of a calibration window (10 R253, R261): bit error ratio as a binary32 pattern, margin in mdB,
heater reserve in µW, and whether the step passed. -/
structure VerifyResult where
  pass      : Bool
  ber       : BitVec 32
  marginMdb : Int
  reserveUw : Nat
  deriving DecidableEq, Repr

/-- Where a ring stands (10 R256): in a fibre transceiver (`tx` its transmit side), or on a die pair. -/
inductive RingSite where
  | fibre (f : Xcvr) (tx : Bool)
  | pair (a b : Die9)
  deriving DecidableEq, Repr

/-- A tempo flit (12 Table 12.2) as it is judged: `ok` says that FEC and CRC passed, `age` is the time since its
codeword arrived, in units of 1/256 ns. -/
structure TempoFlit where
  ok       : Bool
  txTick   : Word
  txCw     : Word
  echoTx   : Word
  echoRx   : Word
  txFrac   : Byte
  echoTxFrac : Byte
  echoRxFrac : Byte
  depth    : Byte
  priority : Byte
  root     : BitVec 18
  sync     : BitVec 2
  age      : Nat
  deriving DecidableEq, Repr

/-- A ghost record (13 Table 13.2). -/
structure GhostRec where
  kind         : Byte
  mode         : Byte
  domain       : BitVec 32
  epoch        : Word
  blocks       : Word
  crc          : Word
  regionBytes  : List Byte
  journalBytes : Word
  reason       : Word
  deriving DecidableEq, Repr

/-- One reading of a stack's sensors, in thousandths of a degree Celsius, and its power in mW (01 R28; 16 R361). -/
structure SensorReading where
  base : List Int
  cd   : List Int
  tier : List Int
  mw   : Nat
  deriving DecidableEq, Repr

/-- A word of a vector engine's register file that an instruction reads in error (04 R91): the register of the kind V, S
or M, and whether the word is corrected. -/
structure RegErr where
  kind      : Fin 3
  reg       : Fin 64
  corrected : Bool
  deriving DecidableEq, Repr

/-- The die whose vector engine, or update lane, runs a fixed kernel or a fixed algorithm, and the words of the stores and of
the register file that its reads find in error (04 R91, R97, R101). -/
structure LaneRun where
  die  : Die
  errs : List ReadErr
  regs : List RegErr
  deriving DecidableEq, Repr

/-- What an instruction of a vector engine runs with: its context, the main one or that of the update lane (04 R86,
R100), and the words of the stores and of the register file that its reads find in error (07 R160, R168; 04 R91). -/
structure VeCtx where
  upd   : Bool
  words : List ReadErr
  regs  : List RegErr
  deriving DecidableEq, Repr

/-- The main context, and that of the update lane, with every word read clean. -/
def VeCtx.main : VeCtx := { upd := false, words := [], regs := [] }
def VeCtx.update : VeCtx := { upd := true, words := [], regs := [] }

/-- The commands of the block: one constructor for each row of spec/opcode_table.json. -/
inductive Instr where
  /-- INPUT_GOOD (R367): The input has been at or above 45.5 V for 10 ms, and the device runs the power-up sequence of Table 17.1. -/
  | inputGood (env : BootEnv)
  /-- UNDERVOLTAGE_STOP (R353): The input has been below 44.0 V for 100 µs, so every domain switches off and LAST_STOP records undervoltage. -/
  | undervoltageStop
  /-- OVERVOLTAGE_STOP (R353): The input has been above 58.0 V for 10 µs, so every domain switches off and LAST_STOP records overvoltage. -/
  | overvoltageStop
  /-- INPUT_OVERCURRENT_STOP (R353): The input current limit is exceeded, so the module stops and LAST_STOP records overcurrent. -/
  | inputOvercurrentStop
  /-- INPUT_OUT_OF_RANGE (R352): The input has been outside 46–56 V for 10 ms, which sets 0xA010:0C. -/
  | inputOutOfRange (mv : Nat)
  /-- DOMAIN_FAULT (R356): A domain overcurrent, rail excursion or loss of power good switches off the domain and its dependents, with the consequences of Table 16.4. -/
  | domainFault (d : Fin 30)
  /-- MODULE_RESET_N (R376): MODULE_RESET_N is held low for 10 µs or more, which causes a module reset. -/
  | moduleResetN (env : BootEnv)
  /-- PERST_N (R369): An assertion of PERST_N while the device runs acts as a function-level reset together with a link loss. -/
  | perstN
  /-- FUNCTION_LEVEL_RESET (R326): A function-level reset stops host requests, disables every queue and resets MSI-X and the mailbox. -/
  | functionLevelReset
  /-- RESET_CMD_MODULE (R376): RESET_CMD 1 performs a module reset 10 ms after its reply has been sent. -/
  | resetCmdModule (env : BootEnv)
  /-- RESET_CMD_HUB (R376): RESET_CMD 2 performs a hub reset that cycles the hub, core and tier domains and keeps HBM in self-refresh. -/
  | resetCmdHub (env : BootEnv)
  /-- RESET_CMD_DIE (R377): RESET_CMD 3 resets the compute dies selected in RESET_DIE_MASK. -/
  | resetCmdDie (env : BootEnv)
  /-- WATCHDOG_EXPIRY (R376): The hub watchdog goes 1 s without service and causes a hub reset with RESET_CAUSE 3. -/
  | watchdogExpiry (env : BootEnv)
  /-- LASER_LATCH_OPEN (R390): A laser bank latch opens, and that bank's LASER domain is switched off as a domain fault. -/
  | laserLatchOpen (b : Fin 2)
  /-- BOOT_COMPLETE (R368): At the end of start-up, RWL entries lock, HOST_STATUS bit 4 is set, entry 8 is logged and queues may be enabled. -/
  | bootComplete
  /-- ROM_STATUS (R374): A loader mailbox request that returns the ROM state, the rejection reason and ROM_VERSION. -/
  | romStatus
  /-- RECOVERY_LOAD (R374): A loader request that verifies the image pushed into the hub buffer, writes it to flash and boots it. -/
  | recoveryLoad (len : BitVec 32) (env : BootEnv)
  /-- FW_UPDATE_CMD_UPDATE (R375): Writing 1 to FW_UPDATE_CMD verifies the image staged in the hub buffer and starts writing it to the flash slot. -/
  | fwUpdateCmdUpdate (w : WriteCtx)
  /-- FW_UPDATE_CMD_SVN (R375): Writing 2 to FW_UPDATE_CMD advances FUSED_SVN to the SVN of the running image. -/
  | fwUpdateCmdSvn (w : WriteCtx)
  /-- FW_UPDATE_FLASH_DONE (R375): The flash write of an update completes, is read back and verified, and TYPE 10 is logged. -/
  | fwUpdateFlashDone (readBackOk : Bool)
  /-- ATTEST_CHALLENGE (R373): A 32-byte challenge write makes the root of trust form a signed attestation quote. -/
  | attestChallenge (data : List Byte) (w : WriteCtx)
  /-- TAIL_WRITE (R321): The driver writes a queue's TAIL doorbell, which is applied after every earlier BAR2 write. -/
  | tailWrite (q : QId) (v : BitVec 32)
  /-- QCTL_ENABLE (R128): ENABLE = 1 with PARK = 0 moves a DISABLED queue to RUNNING and zeroes its branch inputs. -/
  | qctlEnable (q : QId) (v : BitVec 64)
  /-- QCTL_PARK (R128): PARK = 1 moves a RUNNING queue to PARKING and discards decoded descriptors that have not issued. -/
  | qctlPark (q : QId) (v : BitVec 64)
  /-- QCTL_RESUME (R128): PARK = 0 with ENABLE = 1 resumes a PARKED queue at HEAD. -/
  | qctlResume (q : QId) (v : BitVec 64)
  /-- QCTL_DISABLE (R128): ENABLE = 0 moves a PARKED queue to DISABLED. -/
  | qctlDisable (q : QId) (v : BitVec 64)
  /-- QCTL_ERR_ACK (R128): ERR_ACK = 1 moves a queue in ERROR to PARKED, or holds until INFLIGHT reaches 0. -/
  | qctlErrAck (q : QId) (v : BitVec 64)
  /-- QUEUE_REGISTER_WRITE (R127): A write to a queue or other register that has no row of its own, subject to state and field masking. -/
  | queueRegisterWrite (off : BitVec 24) (wide : Bool) (v : BitVec 64)
  /-- BELL_STRIKE_WINDOW (R319): A host write to the bell strike window strikes the bell through a STRIKE message to its die. -/
  | bellStrikeWindow (b : BellId) (wide : Bool) (v : BitVec 64)
  /-- BELL_SET_WINDOW (R319): A host write to the bell set window SETs the bell through a SETB message to its die. -/
  | bellSetWindow (b : BellId) (wide : Bool) (v : BitVec 64)
  /-- BAR0_RESERVED_ACCESS (R319): An access to a reserved BAR0 offset reads 0 or is dropped, and sets 0xA0D0:04. -/
  | bar0ReservedAccess (off : BitVec 24) (write : Bool)
  /-- BAR2_ACCESS (R320): A host read or write to BAR2 is served by the hub as uncached RD or WR messages to the owning die. -/
  | bar2Access (off : BitVec 41) (len : Nat) (data : Reading (Option (List Byte)))
  /-- MBX_GO (R325): Writing GO submits the mailbox request to the management controller. -/
  | mbxGo (reqLen : BitVec 16)
  /-- MSIX_UNMASK (R323): Unmasking an MSI-X vector delivers its pending raise as one message. -/
  | msixUnmask (v : Option (Fin 2048))
  /-- IRQ_HOLDOFF_EXPIRY (R139): The IRQ_HOLDOFF interval ends, and the raises held during it are delivered as one. -/
  | irqHoldoffExpiry (q : QId)
  /-- HOST_LINK_DOWN (R327): The PCIe link goes down, outstanding host requests fail and queues with host rings stop. -/
  | hostLinkDown
  /-- HOST_LINK_TRAINED (R327): The host link trains, and a reduced width or rate sets 0xA0D0:02. -/
  | hostLinkTrained (width rate : Byte)
  /-- HOST_READ_COMPLETION (R322): A host read completion arrives, and its data is written with poison marking if EP = 1, or the descriptor fails on UR or CA. -/
  | hostReadCompletion (tag : Nat) (status : CplStatus) (ep : Bool) (data : List Byte)
  /-- HOST_READ_TIMEOUT (R322): A host read exceeds the completion timeout and completes its descriptor with HOST_READ_ERROR. -/
  | hostReadTimeout (tag : Nat)
  /-- DESCRIPTOR_FETCH (R396): The command processor reads a whole 128-byte descriptor from its ring. -/
  | descriptorFetch (q : Reading QId)
  /-- DESCRIPTOR_ISSUE (R139): A descriptor issues once every condition of R139 holds. -/
  | descriptorIssue (q : QId)
  /-- DESC_NOP (R131): A NOP descriptor performs only its header wait and strike. -/
  | descNop (q : QId) (i : BitVec 32)
  /-- MATRIX (R132): A MATRIX descriptor cuts its reduction into chunks and issues the tile to an array. -/
  | matrix (q : QId) (r : TileRun)
  /-- DIAGONAL_TILE (R51): A MATRIX descriptor with DIAG = 1 forms element-wise products in one chunk. -/
  | diagonalTile (q : QId) (r : TileRun)
  /-- VE_DESCRIPTOR (R135): A VE descriptor loads ARG0–ARG7 into S0–S7 and runs its program. -/
  | veDescriptor (q : QId) (i : BitVec 32)
  /-- REPLAY (R121): A REPLAY descriptor reissues a recorded block with PHASE 2, or completes with NO_RECORD. -/
  | replay (q : QId) (i : Reading (BitVec 32))
  /-- BRANCH (R136): A BRANCH descriptor is decoded, and its outcome is predicted or resolved at once for PRED 7. -/
  | branch (q : QId) (i : BitVec 32)
  /-- BELL_ENTRY_STRIKE (R137): A BELL entry adds ADD to a local or remote bell. -/
  | bellEntryStrike (q : QId) (i : BitVec 32) (e : Fin 3)
  /-- BELL_ENTRY_SET (R137): A BELL entry with SET writes ADD as the value of a local bell. -/
  | bellEntrySet (q : QId) (i : BitVec 32) (e : Fin 3)
  /-- BELL_ENTRY_STRIKE_AT (R151): A BELL entry with AT_TICK enters a strike in a scheduled-strike table or sends STRIKE_AT. -/
  | bellEntryStrikeAt (q : QId) (i : BitVec 32) (e : Fin 3)
  /-- COPY (R137): A COPY descriptor moves LENGTH bytes from SRC to DST. -/
  | copy (q : QId) (i : Reading (BitVec 32))
  /-- PUT (R230): A PUT descriptor writes into a window of a target device. -/
  | put (q : QId) (i : Reading (BitVec 32))
  /-- PULL (R230): A PUT descriptor with PULL reads the target's window into this device's LWINDOW. -/
  | pull (q : QId) (i : BitVec 32)
  /-- MCAST_PUT (R222): A PUT descriptor with MCAST writes the same window on every member along one axis. -/
  | mcastPut (q : QId) (i : Reading (BitVec 32))
  /-- CIRCUIT_PUT (R221): A PUT descriptor with CIRCUIT_EN sends its packets in a circuit's lanes. -/
  | circuitPut (q : QId) (i : Reading (BitVec 32))
  /-- SEND (R231): A SEND descriptor sends one message to a receive queue of a target device. -/
  | send (q : QId) (i : Reading (BitVec 32))
  /-- REDUCE_SCATTER (R265): A COLLECTIVE with OP 0 reduce-scatters along each axis in AXIS_SEQ order. -/
  | reduceScatter (q : QId) (i : BitVec 32)
  /-- ALL_GATHER (R265): A COLLECTIVE with OP 1 all-gathers along each axis in reverse AXIS_SEQ order. -/
  | allGather (q : QId) (i : BitVec 32)
  /-- ALL_REDUCE (R265): A COLLECTIVE with OP 2 reduce-scatters and then all-gathers. -/
  | allReduce (q : QId) (i : BitVec 32)
  /-- BROADCAST (R265): A COLLECTIVE with OP 3 copies ROOT's data to every member. -/
  | broadcast (q : QId) (i : BitVec 32)
  /-- CIRCUIT_OPEN (R220): A FABRIC operation that sends CSETUP along a circuit's path. -/
  | circuitOpen (q : QId) (i : BitVec 32)
  /-- CIRCUIT_CLOSE (R221): A FABRIC operation that waits for the circuit's puts to be acknowledged and then sends CTEAR. -/
  | circuitClose (q : QId) (i : BitVec 32)
  /-- DETOUR_LOAD (R211): A FABRIC operation that replaces the detour table. -/
  | detourLoad (q : QId) (i : BitVec 32)
  /-- WINDOW_REG (R204): A FABRIC operation that registers a window. -/
  | windowReg (q : QId) (i : BitVec 32)
  /-- WINDOW_DEREG (R204): A FABRIC operation that deregisters a window once every accepted packet for it has been written. -/
  | windowDereg (q : QId) (i : BitVec 32)
  /-- RQ_REG (R205): A FABRIC operation that registers a receive queue. -/
  | rqReg (q : QId) (i : BitVec 32)
  /-- RQ_DEREG (R205): A FABRIC operation that deregisters a receive queue. -/
  | rqDereg (q : QId) (i : BitVec 32)
  /-- DESCRIPTOR_COMPLETE (R139): A descriptor completes, writes its completion record, strikes and raises its vector. -/
  | descriptorComplete (q : QId) (i : BitVec 32)
  /-- BRANCH_RESOLVE (R136): A branch resolves once every earlier VE descriptor of its queue has completed, and trains the predictor. -/
  | branchResolve (q : QId) (i : BitVec 32)
  /-- BELL_WAIT_TIMEOUT (R149): A wait not satisfied within its timeout completes with BELL_TIMEOUT and sends UNWATCH for a remote watch. -/
  | bellWaitTimeout (q : QId)
  /-- SCHEDULED_STRIKE (R151): Local tempo reaches the TICK of a scheduled strike, and the strike is performed. -/
  | scheduledStrike (d : Die) (remote : Bool) (k : Nat)
  /-- SPECULATIVE_FILL (R142): A SPEC copy on a predicted path reads its HBM source into clean remote-cache lines. -/
  | speculativeFill (q : QId) (i : Reading (BitVec 32))
  /-- ARRAY_HANDOVER (R145): At a tile boundary, array ownership passes to the next waiting queue or the array becomes free. -/
  | arrayHandover (a : ArrId)
  /-- ARRAY_QUANTUM_EXPIRY (R145): ARRAY_QUANTUM beats pass with another queue waiting, so no further tile of the owner is issued to the array. -/
  | arrayQuantumExpiry (a : ArrId)
  /-- PHASE_SWITCH (R114): Once the current phase's descriptors and updates have completed, the device switches to the held phase. -/
  | phaseSwitch
  /-- TILE_EMIT (R46): After the last chunk has completed in every row, the drain emits the tile with its scales. -/
  | tileEmit (a : ArrId) (r : TileDrain)
  /-- CHAINED_BLOCK_START (R99): A chained fixed kernel starts a 128-row block once the drain has emitted those rows. -/
  | chainedBlockStart (r : LaneRun)
  /-- ARRAY_KAT_START (R53): ARRAY_KAT_INTERVAL elapses, and the array is taken at a tile boundary for its known-answer test. -/
  | arrayKatStart (a : ArrId)
  /-- ARRAY_KAT_DONE (R54): A known-answer test ends, and a mismatch leads to a repeat or to retirement. -/
  | arrayKatDone (a : ArrId) (pass repeatPass : Bool)
  /-- VE_NOP (R89): A VE instruction that does nothing. -/
  | veNop (d : Die) (c : VeCtx)
  /-- VLD (R90): Loads one vector register of 2,048 consecutive elements. -/
  | vld (d : Die) (c : VeCtx)
  /-- VST (R90): Stores the unmasked elements of one vector register. -/
  | vst (d : Die) (c : VeCtx)
  /-- VLDH (R90): A load instruction of the load class. -/
  | vldh (d : Die) (c : VeCtx)
  /-- VSTH (R90): A store instruction of the store class. -/
  | vsth (d : Die) (c : VeCtx)
  /-- VLDS (R90): Loads 32 strided pieces of 64 elements. -/
  | vlds (d : Die) (c : VeCtx)
  /-- VSTS (R90): Stores 32 strided pieces of 64 elements in ascending piece order. -/
  | vsts (d : Die) (c : VeCtx)
  /-- VBCAST (R89): Broadcasts a scalar into a vector register. -/
  | vbcast (d : Die) (c : VeCtx)
  /-- FADD (R66): Floating-point addition. -/
  | fadd (d : Die) (c : VeCtx)
  /-- FSUB (R66): Floating-point subtraction. -/
  | fsub (d : Die) (c : VeCtx)
  /-- FMUL (R66): Floating-point multiplication. -/
  | fmul (d : Die) (c : VeCtx)
  /-- FMA (R66): FP32 fused multiply-add. -/
  | fma (d : Die) (c : VeCtx)
  /-- FDIV (R66): FP32 division. -/
  | fdiv (d : Die) (c : VeCtx)
  /-- FSQRT (R66): FP32 square root. -/
  | fsqrt (d : Die) (c : VeCtx)
  /-- FMAX (R73): IEEE 754 maximum. -/
  | fmax (d : Die) (c : VeCtx)
  /-- FMIN (R73): IEEE 754 minimum. -/
  | fmin (d : Die) (c : VeCtx)
  /-- FMAXM (R66): IEEE 754 maximumMagnitude. -/
  | fmaxm (d : Die) (c : VeCtx)
  /-- FMINM (R66): IEEE 754 minimumMagnitude. -/
  | fminm (d : Die) (c : VeCtx)
  /-- FABS (R71): Clears the sign bit without raising a flag. -/
  | fabs (d : Die) (c : VeCtx)
  /-- FNEG (R71): Flips the sign bit without raising a flag. -/
  | fneg (d : Die) (c : VeCtx)
  /-- FCPSGN (R71): Copies a sign bit without raising a flag. -/
  | fcpsgn (d : Die) (c : VeCtx)
  /-- FSCALEB (R89): scaleB of VA by the INT32 element of VB. -/
  | fscaleb (d : Die) (c : VeCtx)
  /-- FLOGB (R66): FP32 logB. -/
  | flogb (d : Die) (c : VeCtx)
  /-- FRINT (R66): roundToIntegral in the direction RND selects. -/
  | frint (d : Die) (c : VeCtx)
  /-- IADD (R74): Integer or FX64 addition under SAT. -/
  | iadd (d : Die) (c : VeCtx)
  /-- ISUB (R74): Integer or FX64 subtraction under SAT. -/
  | isub (d : Die) (c : VeCtx)
  /-- IMUL (R74): Integer multiplication under SAT. -/
  | imul (d : Die) (c : VeCtx)
  /-- IMAD (R74): Integer multiply-add under SAT. -/
  | imad (d : Die) (c : VeCtx)
  /-- IDIV (R74): Integer division rounding toward zero. -/
  | idiv (d : Die) (c : VeCtx)
  /-- ISHL (R74): Integer shift left under SAT. -/
  | ishl (d : Die) (c : VeCtx)
  /-- ISHR (R89): Integer shift right. -/
  | ishr (d : Die) (c : VeCtx)
  /-- INEG (R74): Integer negation under SAT. -/
  | ineg (d : Die) (c : VeCtx)
  /-- IAND (R89): Bitwise AND. -/
  | iand (d : Die) (c : VeCtx)
  /-- IOR (R89): Bitwise OR. -/
  | ior (d : Die) (c : VeCtx)
  /-- IXOR (R89): Bitwise XOR. -/
  | ixor (d : Die) (c : VeCtx)
  /-- IMAX (R89): Integer maximum. -/
  | imax (d : Die) (c : VeCtx)
  /-- IMIN (R89): Integer minimum. -/
  | imin (d : Die) (c : VeCtx)
  /-- FCMP (R66): Floating-point compare into a mask register. -/
  | fcmp (d : Die) (c : VeCtx)
  /-- ICMP (R89): Integer compare into a mask register. -/
  | icmp (d : Die) (c : VeCtx)
  /-- SEL (R71): Selects elements unchanged under a mask. -/
  | sel (d : Die) (c : VeCtx)
  /-- CVT (R77): Converts elements between formats. -/
  | cvt (d : Die) (c : VeCtx)
  /-- MXEXP (R81): Expands MX blocks using their E8M0 scales. -/
  | mxexp (d : Die) (c : VeCtx)
  /-- MXPACK (R82): Quantises FP32 blocks into MX elements and scales. -/
  | mxpack (d : Die) (c : VeCtx)
  /-- FEXP (R93): Correctly rounded e to the x. -/
  | fexp (d : Die) (c : VeCtx)
  /-- FEXP2 (R93): Correctly rounded 2 to the x. -/
  | fexp2 (d : Die) (c : VeCtx)
  /-- FLOG (R93): Correctly rounded natural logarithm. -/
  | flog (d : Die) (c : VeCtx)
  /-- FLOG2 (R93): Correctly rounded base-2 logarithm. -/
  | flog2 (d : Die) (c : VeCtx)
  /-- FRCP (R93): Correctly rounded reciprocal. -/
  | frcp (d : Die) (c : VeCtx)
  /-- FRSQ (R93): Correctly rounded reciprocal square root. -/
  | frsq (d : Die) (c : VeCtx)
  /-- FTANH (R93): Correctly rounded hyperbolic tangent. -/
  | ftanh (d : Die) (c : VeCtx)
  /-- FSIGM (R93): Correctly rounded logistic sigmoid. -/
  | fsigm (d : Die) (c : VeCtx)
  /-- FERF (R93): Correctly rounded error function. -/
  | ferf (d : Die) (c : VeCtx)
  /-- RSUM (R92): Reduces a register to a scalar sum. -/
  | rsum (d : Die) (c : VeCtx)
  /-- RMAX (R92): Reduces a register to its maximum. -/
  | rmax (d : Die) (c : VeCtx)
  /-- RMIN (R92): Reduces a register to its minimum. -/
  | rmin (d : Die) (c : VeCtx)
  /-- RSUMC (R92): Adds a register's sum to the scalar already in VD. -/
  | rsumc (d : Die) (c : VeCtx)
  /-- RMAXC (R92): Combines a register's maximum with the scalar already in VD. -/
  | rmaxc (d : Die) (c : VeCtx)
  /-- RMINC (R92): Combines a register's minimum with the scalar already in VD. -/
  | rminc (d : Die) (c : VeCtx)
  /-- VPERM (R89): Permutes elements unchanged. -/
  | vperm (d : Die) (c : VeCtx)
  /-- VREV (R89): Reverses element order. -/
  | vrev (d : Die) (c : VeCtx)
  /-- VSHL (R89): Shifts elements across positions. -/
  | vshl (d : Die) (c : VeCtx)
  /-- SMOV (R89): Scalar move. -/
  | smov (d : Die) (c : VeCtx)
  /-- SADD (R89): Scalar addition. -/
  | sadd (d : Die) (c : VeCtx)
  /-- SMUL (R89): Scalar multiplication. -/
  | smul (d : Die) (c : VeCtx)
  /-- SGET (R89): Moves a vector element into a scalar. -/
  | sget (d : Die) (c : VeCtx)
  /-- LOOP (R94): Loop control that revisits program indices. -/
  | loop (d : Die) (c : VeCtx)
  /-- BR (R94): Branches within the program. -/
  | br (d : Die) (c : VeCtx)
  /-- BRZ (R94): Branches within the program if a scalar is zero. -/
  | brz (d : Die) (c : VeCtx)
  /-- PUB (R95): Copies a scalar to a branch input of the queue's command processor. -/
  | pub (d : Die) (c : VeCtx)
  /-- END (R94): Ends the program. -/
  | veEnd (d : Die) (c : VeCtx)
  /-- KNORMF (R97): Fixed kernel for layer or RMS normalisation forward. -/
  | knormf (r : LaneRun)
  /-- KNORMB (R97): Fixed kernel for layer or RMS normalisation backward. -/
  | knormb (r : LaneRun)
  /-- KSMAXF (R97): Fixed kernel for soft-maximum forward. -/
  | ksmaxf (r : LaneRun)
  /-- KSMAXB (R97): Fixed kernel for soft-maximum backward. -/
  | ksmaxb (r : LaneRun)
  /-- VE_PROGRAM_LIMIT_EXCEEDED (R94): A program retires more than VE_PROGRAM_LIMIT issue cycles and is ended with a limit status. -/
  | veProgramLimitExceeded (d : Die)
  /-- UPDATE_REQUEST_START (R100): The update lane starts a request once its bell reaches the request's value. -/
  | updateRequestStart (d : Reading Die)
  /-- UPDATE_SGD (R101): The update lane applies SGD to a slice. -/
  | updateSgd (r : LaneRun)
  /-- UPDATE_SGD_MOMENTUM (R101): The update lane applies SGD with momentum to a slice. -/
  | updateSgdMomentum (r : LaneRun)
  /-- UPDATE_ADAMW (R101): The update lane applies AdamW to a slice. -/
  | updateAdamw (r : LaneRun)
  /-- UPDATE_USER_PROGRAM (R101): The update lane runs the user program on each block of a slice. -/
  | updateUserProgram (d : Reading Die)
  /-- UPDATE_WAIT_TIMEOUT (R103): The update lane's bell wait times out, and the request ends without touching any block. -/
  | updateWaitTimeout (d : Die)
  /-- BUMP_FAILED (R16): A bump meets the failure criterion, and its spare is brought in or the exhaustion action of Table 1.2 follows. -/
  | bumpFailed (g : BumpGroup)
  /-- SPARE_SWAP_END (R17): At cycle 320 of a swap, the port resumes if training passed or is retired if it failed. -/
  | spareSwapEnd (g : BumpGroup) (pass : Bool)
  /-- CLOCK_VIA_LOSS (R26): A clock via delivers no edge for 8 reference cycles, and the die switches to the twin via. -/
  | clockViaLoss (who : ClockUser) (twinDead : Bool)
  /-- MARGIN_SURVEY (R364): A domain's in-service margin survey runs every MARGIN_SURVEY_INTERVAL beats. -/
  | marginSurvey (d : Fin 30) (r : SurveyReading)
  /-- TIER_SCRUB (R164): Background scrub reads, corrects and writes back tier rows. -/
  | tierScrub (d : Die) (row : Nat) (finds : List WordFind)
  /-- HBM_SCRUB (R169): Patrol scrub reads each HBM line and writes back corrected words. -/
  | hbmScrub (d : Die) (line : Nat) (finds : List WordFind)
  /-- PC_RECORD_DURABLE (R173): The retirement record becomes durable, and the notice begins. -/
  | pcRecordDurable (d : Die)
  /-- PC_NOTICE_END (R173): The notice ends, the highest GiB leaves the map and cursor 0 is written. -/
  | pcNoticeEnd (d : Die)
  /-- PC_CURSOR_DURABLE (R175): A migration cursor becomes durable, and its batch flips or migration completes. -/
  | pcCursorDurable (d : Die)
  /-- PC_BATCH_COPIED (R175): A migration batch has been copied, and its cursor is written. -/
  | pcBatchCopied (r : BatchRead)
  /-- TIER_RC_MIB_WRITE (R159): A write to TIER_RC_MIB resizes the remote-cache region, or is held until every queue is disabled. -/
  | tierRcMibWrite (d : Die) (v : Byte) (w : WriteCtx)
  /-- D2D_FLIT_RECEIVED (R184): A die-to-die flit is accepted or discarded, and NAK, ACK and credits are processed. -/
  | d2dFlitReceived (a b : Die9) (f : D2dFlit)
  /-- D2D_SWAP (R188): A SWAP lane-control flit is received, and the switch SEQ is fixed and SWAP_ACK sent. -/
  | d2dSwap (a b : Die9) (lane spare : Lam)
  /-- D2D_SWAP_ACK (R188): A SWAP_ACK is received by the pair's receiver. -/
  | d2dSwapAck (a b : Die9) (lane spare : Lam) (k : BitVec 12)
  /-- D2D_LANE_SWITCH (R188): At switch SEQ k, the lane moves onto the spare wavelength. -/
  | d2dLaneSwitch (a b : Die9)
  /-- D2D_RD (R191): An RD request is served by the owning die from its own store. -/
  | d2dRd (m : Reading D2dMsg)
  /-- D2D_WR (R191): A WR request is written by the owning die. -/
  | d2dWr (m : D2dMsg)
  /-- D2D_WRM (R193): A masked line write-back is written under its byte mask. -/
  | d2dWrm (m : D2dMsg)
  /-- D2D_RDR (R193): Read data returns to the requester and fills or merges its line. -/
  | d2dRdr (m : D2dMsg)
  /-- D2D_WRA (R194): A write completion returns to the requester and counts toward its release. -/
  | d2dWra (m : D2dMsg)
  /-- D2D_ERR (R197): A failed request's descriptor completes with ACCESS_FAULT or DIE_LOST. -/
  | d2dErr (m : D2dMsg)
  /-- D2D_STRIKE (R150): A package strike is added to the bell. -/
  | d2dStrike (m : D2dMsg)
  /-- D2D_STRIKE_AT (R151): A scheduled strike from another die is entered in the bell die's table. -/
  | d2dStrikeAt (m : D2dMsg)
  /-- D2D_SETB (R137): A SET from a BELL entry or the host is applied to the bell. -/
  | d2dSetb (m : D2dMsg)
  /-- D2D_WATCH (R149): A watch is registered on the bell's die. -/
  | d2dWatch (m : D2dMsg)
  /-- D2D_NOTIFY (R149): A satisfied watch releases the waiter, or is discarded if the wait has timed out. -/
  | d2dNotify (m : D2dMsg)
  /-- D2D_UNWATCH (R149): A timed-out watch is freed at the bell's die. -/
  | d2dUnwatch (m : D2dMsg)
  /-- D2D_REQUEST_TIMEOUT (R197): A request with no reply within 1 ms completes with DIE_LOST. -/
  | d2dRequestTimeout (d : Die9) (tag : BitVec 16)
  /-- PACKET_TRANSIT (R200): A transit packet is switched cut-through within a plane slice. -/
  | packetTransit (p : Packet)
  /-- FAB_LD (R202): A board-local read packet is served by the named die. -/
  | fabLd (p : Reading Packet)
  /-- FAB_ST (R202): A board-local write packet is written and answered with STA. -/
  | fabSt (p : Packet)
  /-- FAB_STM (R202): A board-local masked line write-back is written. -/
  | fabStm (p : Packet)
  /-- FAB_PUT (R204): A put packet is checked against its window and written. -/
  | fabPut (p : Packet)
  /-- FAB_SEND (R205): A message is written into a receive-queue slot, or refused. -/
  | fabSend (p : Packet)
  /-- FAB_PULL (R204): A pull reads a window and returns PULLD. -/
  | fabPull (p : Reading Packet)
  /-- FAB_CSETUP (R220): A hop reserves circuit lanes, or answers CIRCUIT_REFUSED. -/
  | fabCsetup (p : Packet)
  /-- FAB_CTEAR (R220): A hop releases a circuit's reservations. -/
  | fabCtear (p : Packet)
  /-- FAB_PULLD (R206): Pulled data is written as a put into the requester's window. -/
  | fabPulld (p : Packet)
  /-- FAB_LDR (R206): Read data returns to the requester. -/
  | fabLdr (p : Packet)
  /-- FAB_STA (R202): A store acknowledgement counts toward the requester's release. -/
  | fabSta (p : Packet)
  /-- FAB_PUTA (R221): A put acknowledgement counts packets and multicast members. -/
  | fabPuta (p : Packet)
  /-- FAB_SENDA (R206): A send acknowledgement completes the SEND. -/
  | fabSenda (p : Packet)
  /-- FAB_CACK (R220): A circuit open or close completes. -/
  | fabCack (p : Packet)
  /-- FAB_ERR (R226): An error reply completes its descriptor with the carried status. -/
  | fabErr (p : Packet)
  /-- FAB_STRIKE (R150): A remote bell strike is applied at most once, or discarded. -/
  | fabStrike (p : Packet)
  /-- FAB_STRIKE_AT (R151): A remote scheduled strike is entered in the remote table, or discarded. -/
  | fabStrikeAt (p : Packet)
  /-- FAB_REQ_TIMEOUT (R225): A request with no reply for FAB_REQ_TIMEOUT completes with FABRIC_TIMEOUT. -/
  | fabReqTimeout (tag : BitVec 16)
  /-- CIRCUIT_RESEND_EXPIRY (R221): A circuit packet not acknowledged in time is resent once, or breaks the circuit. -/
  | circuitResendExpiry (tag : BitVec 16)
  /-- BELL_CREDIT_RESTORE (R215): A BELL credit not freed within 16 µs is treated as returned. -/
  | bellCreditRestore (port : Port)
  /-- ENDPOINT_COORD_WRITE (R201): A write to the endpoint coordinate is checked against the board-slot straps. -/
  | endpointCoordWrite (v : BitVec 32) (w : WriteCtx)
  /-- DARK_RELEASE (R229): Writing 1 releases dark-through, heats the ports and installs straight-through circuits. -/
  | darkRelease (v : Byte) (w : WriteCtx) (circuits : List HopEntry)
  /-- LINK_FLIT_RECEIVED (R243): A fibre flit is judged by FEC, CRC and SEQ, and ACK and NAK are processed. -/
  | linkFlitReceived (f : Xcvr) (fl : FibreFlit)
  /-- LINK_REPLAY_TIMEOUT (R243): ACK does not advance for 20 µs, and the sender resends from the oldest flit it holds. -/
  | linkReplayTimeout (f : Xcvr)
  /-- CHANGE_REQ (R247): A lane-map change is proposed at a tick, and the receiver answers CHANGE_ACK. -/
  | changeReq (f : Xcvr) (m : LaneMsg)
  /-- CHANGE_ACK (R247): The transmitter computes codeword C and sends COMMIT. -/
  | changeAck (f : Xcvr) (m : LaneMsg)
  /-- COMMIT (R246): The receiver schedules the new map at codeword C. -/
  | commit (f : Xcvr) (m : LaneMsg)
  /-- LANE_FAULT (R248): The transmitter proposes a change that takes the failed wavelength out. -/
  | laneFault (f : Xcvr) (m : LaneMsg)
  /-- LOST (R249): The transmitter applies the receiver's map at C and discards later changes. -/
  | lost (f : Xcvr) (m : LaneMsg)
  /-- CAL_SCHED (R252): The round origin of the calibration schedule is received. -/
  | calSched (f : Xcvr) (m : LaneMsg)
  /-- LANE_MAP_APPLY (R246): Codeword C is reached, and both ends switch to the new map. -/
  | laneMapApply (f : Xcvr) (tx : Bool)
  /-- LANE_SIGNAL_LOSS (R249): A receiver that loses signal or lock chooses a new map and sends LOST. -/
  | laneSignalLoss (f : Xcvr) (l : Lam)
  /-- LANE_BER_CHECK (R248): The pre-FEC error ratio is judged over 2^24 codewords and may fail the wavelength. -/
  | laneBerCheck (f : Xcvr) (l : Lam) (r : LaneReading)
  /-- TRAINING_START (R251): A fibre pair begins training, with sweeps, bit lock and verify. -/
  | trainingStart (f : Xcvr)
  /-- TRAINING_DONE (R251): Training finishes, the initial maps are set and the port comes up. -/
  | trainingDone (f : Xcvr) (r : TrainResult)
  /-- TRAINING_TIMEOUT (R251): Training that does not finish in 100 ms starts again, and three failures set FIBRE_DOWN. -/
  | trainingTimeout (f : Xcvr)
  /-- PORT_MAP_APPLY (R235): The written port maps are applied, or refused. -/
  | portMapApply (v : Byte) (w : WriteCtx)
  /-- PORT_LOSS_OF_SIGNAL (R227): A neighbour goes dark, and replay flits toward it are discarded. -/
  | portLossOfSignal (port : Port)
  /-- CAL_CHANGE_PROPOSE (R253): CHANGE_LEAD before a window, the active wavelength's lane is proposed to move. -/
  | calChangePropose (f : Xcvr)
  /-- CAL_WINDOW_START (R252): A calibration window opens and its wavelength becomes calibrating. -/
  | calWindowStart (e : FibreDir)
  /-- CAL_WINDOW_END (R253): A window ends, and the wavelength becomes free or fails its verify. -/
  | calWindowEnd (e : FibreDir) (r : VerifyResult)
  /-- CAL_MAX_GAP_EXPIRY (R255): An active wavelength uncalibrated for CAL_MAX_GAP has its lane dropped for one window. -/
  | calMaxGapExpiry (f : Xcvr)
  /-- RING_LOCK_LOST (R256): A ring's error or heater limit persists for four updates, and lock is lost. -/
  | ringLockLost (r : RingSite) (l : Lam)
  /-- RING_FEED_FORWARD (R257): Every 10 µs, die power is sent to the ring controllers for a heater correction. -/
  | ringFeedForward (d : Die) (mw : Nat)
  /-- LASER_POWER_CHECK (R259): At each beat boundary, each source's 16-beat mean is judged. -/
  | laserPowerCheck (b : Fin 2) (mdbm : List Int)
  /-- LASER_ABRUPT_LOSS (R259): A drop of more than 6 dB within 100 µs triggers an abrupt-loss vacate. -/
  | laserAbruptLoss (b : Fin 2) (l : Lam)
  /-- SPARE_SOURCE_LOCKED (R260): The spare source locks to the grid, and the bank switches over to it. -/
  | spareSourceLocked (b : Fin 2) (l : Lam)
  /-- SPARE_SOURCE_LOCK_TIMEOUT (R260): The spare fails to lock within 500 ms, and the wavelength is lost. -/
  | spareSourceLockTimeout (b : Fin 2) (l : Lam)
  /-- COLL_HANDSHAKE_START (R272): At the later of issue and START_TICK, the collective handshake starts. -/
  | collHandshakeStart (q : QId) (i : BitVec 32)
  /-- CHS (R272): A handshake packet is folded into the verdict and forwarded. -/
  | chs (p : Packet)
  /-- CDATA (R274): A data packet is combined, written or forwarded. -/
  | cdata (p : Packet)
  /-- CABORT (R278): A received abort ends the collective and is forwarded. -/
  | cabort (p : Packet)
  /-- COLL_PROGRESS_TIMEOUT (R277): No packet for TIMEOUT ticks aborts the collective with COLL_TIMEOUT. -/
  | collProgressTimeout (cid : BitVec 12)
  /-- TEMPO_FLIT_SEND (R288): A tempo flit is sent on each up plane port once per period. -/
  | tempoFlitSend (port : Port)
  /-- TEMPO_FLIT (R289): A received tempo flit yields a sample that is accepted, held or rejected. -/
  | tempoFlit (port : Port) (t : TempoFlit)
  /-- TEMPO_SERVO (R289): At each beat, the increment is set from the median offset. -/
  | tempoServo
  /-- TEMPO_PARENT_SELECT (R287): At each beat, the parent is chosen again from the heard vectors. -/
  | tempoParentSelect
  /-- TEMPO_ROOT_SELECT (R287): After ROOT_WAIT with no better vector heard, the device becomes root. -/
  | tempoRootSelect
  /-- TEMPO_PARENT_LOST (R291): No sample for TEMPO_LOSS_BEATS loses the parent, leading to replacement or HOLDOVER. -/
  | tempoParentLost
  /-- HOLDOVER_EXPIRED (R291): HOLDOVER_BEATS in holdover returns the device to FREE. -/
  | holdoverExpired
  /-- FABRIC_EPOCH_WRITE (R295): A new fabric epoch takes effect and aborts open collectives. -/
  | fabricEpochWrite (v : BitVec 16) (w : WriteCtx)
  /-- FENCE_ENTRY_WRITE (R296): A fence entry is enforced within 10 µs. -/
  | fenceEntryWrite (k : Fin 64) (v : BitVec 32) (w : WriteCtx)
  /-- FENCE_SELF_WRITE (R297): Writing 1 puts the device in the fenced state. -/
  | fenceSelfWrite (v : Byte) (w : WriteCtx)
  /-- NEIGHBOUR_SUSPECTED (R299): DETECT_BEATS of silence from a neighbour records a suspicion. -/
  | neighbourSuspected (dir : Fin 6)
  /-- GHOST_MODE_WRITE (R303): Leaving mode 0 sends HELLO, and the mode selects how marks are taken. -/
  | ghostModeWrite (v : Byte) (w : WriteCtx)
  /-- GHOST_MARK (R304): At a marking beat, the open epoch closes, or the mark is skipped. -/
  | ghostMark
  /-- GHOST_BLOCK_SEND (R306): The engine sends the next closing block into the host window. -/
  | ghostBlockSend
  /-- GHOST_HELLO (R303): The host checks a HELLO, then answers ACK or REFUSE. -/
  | ghostHello (r : GhostRec)
  /-- GHOST_COMMIT (R307): The host checks a COMMIT and applies the journal, or refuses. -/
  | ghostCommit (r : GhostRec)
  /-- GHOST_ACK (R307): The owner records the acknowledged epoch and clears its closing set. -/
  | ghostAck (r : GhostRec)
  /-- GHOST_REFUSE (R303): The owner stops pairing or resends the epoch. -/
  | ghostRefuse (r : GhostRec)
  /-- GHOST_APPLY_DONE (R307): The journal copy ends, the ghost becomes STABLE and ACK is sent. -/
  | ghostApplyDone
  /-- GHOST_ROLLBACK (R309): GHOST_CMD 1 pulls the dirty blocks back from the host. -/
  | ghostRollback (v : Byte) (w : WriteCtx)
  /-- SHADOW_RECORD (R310): The follower compares a leader's digest record with its own. -/
  | shadowRecord (bytes : List Byte)
  /-- ADMIT (R311): After a passed shadow join, the fenced state ends and the epoch is set. -/
  | admitDevice (v : BitVec 16) (w : WriteCtx)
  /-- HEALTH_EVALUATION (R314): At each beat, the health score and state are judged. -/
  | healthEvaluation
  /-- EVENT_DEBT_DECAY (R313): Event debt falls by 1 every 1,024 beats. -/
  | eventDebtDecay
  /-- REQUAL_START (R315): Writing REQUAL_START starts in-place requalification, or is refused. -/
  | requalStart (v : Byte) (w : WriteCtx)
  /-- REQUAL_VERDICT (R315): The phases end, and the requalification passes or fails. -/
  | requalVerdict (e : RequalEnv)
  /-- BDP_READ (R333): A READ request returns an entry's value or a piece of it. -/
  | bdpRead (m : BdpMsg)
  /-- BDP_WRITE (R333): A WRITE request writes an entry that has no row of its own, after its checks. -/
  | bdpWrite (m : BdpMsg)
  /-- BDP_DESCRIBE (R333): A DESCRIBE request returns an entry's description. -/
  | bdpDescribe (m : BdpMsg)
  /-- BDP_NONCE (R342): A NONCE request issues a fresh nonce to the requesting source. -/
  | bdpNonce (m : BdpMsg)
  /-- STORE_DURABLE (R346): A persistent image is read back, and the value is applied or STORE_FAILED is returned. -/
  | storeDurable (readBackOk : Bool)
  /-- NONCE_EXPIRED (R342): A nonce passes NONCE_LIFETIME_MS and becomes invalid. -/
  | nonceExpired
  /-- PLCA_SETTING_WRITE (R336): A PLCA setting takes effect after its reply has been sent. -/
  | plcaSettingWrite (sub : Fin 4) (v : Byte) (w : WriteCtx)
  /-- PLCA_BEACON_LOSS (R336): No beacon for 400 µs makes the node fall back to CSMA/CD. -/
  | plcaBeaconLoss
  /-- PLCA_BEACON (R336): A beacon returns the node to PLCA. -/
  | plcaBeacon
  /-- PLCA_COLLISION (R336): A collision under PLCA is counted, and the frame is retransmitted with backoff. -/
  | plcaCollision (attempt : Nat)
  /-- NEIGHBOR_SOLICITATION (R337): A Neighbor Solicitation for the device's address is answered. -/
  | neighborSolicitation (target : BitVec 128)
  /-- ECHO_REQUEST (R337): An ICMPv6 echo from a known source is answered. -/
  | echoRequest (src : BitVec 128)
  /-- JOURNAL_FLUSH (R349): Error journal entries reach flash at up to 64 per second. -/
  | journalFlush
  /-- POWER_CAP_CHECK (R359): Every 100 µs, input power against the limit moves the power cap. -/
  | powerCapCheck (meanW meanMsW meanMsMa : Nat)
  /-- CURRENT_CAP_CHECK (R358): The mean core current against the path limit moves the current cap. -/
  | currentCapCheck (d : Die) (meanMa : Nat)
  /-- THERMAL_MODEL_UPDATE (R360): Every 10 µs, the filtered power and T_model are updated. -/
  | thermalModelUpdate (d : Die) (mw : Nat) (inA inB : Int)
  /-- MODEL_REFINE (R360): At a beat boundary, R_j and τ move toward their fit. -/
  | modelRefine (d : Die) (fitR fitTau : Nat)
  /-- SENSOR_CROSS_CHECK (R361): Every 1 ms, sensors are checked against their layer bounds. -/
  | sensorCrossCheck (d : Die) (r : SensorReading)
  /-- THERMAL_CAP_CHECK (R363): T_gov moves the thermal cap. -/
  | thermalCapCheck (d : Die)
  /-- THERMAL_CRIT_TIMEOUT (R363): Still critical 10 ms later, the stack is retired. -/
  | thermalCritTimeout (d : Die)
  /-- DROOP_DETECTED (R357): A droop threshold or monitor slack raises the stretch level. -/
  | droopDetected (d : Die9) (mv : Nat) (slackPs : Int)
  /-- STRETCH_RELEASE (R357): After 64 cycles of the release condition, the stretch level falls by one. -/
  | stretchRelease (d : Die9) (mv : Nat) (slackPs : Int)
  /-- COOLANT_CHECK (R387): Every second, the outlet rise is compared with 20 K. -/
  | coolantCheck (inA inB outA outB : Int)
  /-- BUS_MASTER_ENABLE (R322): The host changes Bus Master Enable, which stops or resumes every device request, and descriptors waiting on the host then issue. -/
  | busMasterEnable (on : Bool)
  /-- POWER_STATE_CHANGE (R317): The host moves the function between D0 and D3hot, which stops or resumes DMA and vectors while every domain stays on. -/
  | powerStateChange (d3hot : Bool)
  /-- D2D_RETRAIN_DONE (R187): A die-to-die pair finishes its retraining of at most 2 µs, and traffic held in the replay buffers resumes. -/
  | d2dRetrainDone (a b : Die9)
  /-- D2D_LOSS_OF_SIGNAL (R187): A die-to-die lane's detector reports loss of signal, and the lane is judged failed and moved to a spare or dropped. -/
  | d2dLossOfSignal (a b : Die9) (lane : Lam)
  /-- BAD_FRAME (R332): A management frame that fails its FCS, or a BDP message whose MAGIC or VERSION is wrong, is discarded and counted in 0x80E0:02. -/
  | badFrame (fcsBad : Bool)
  deriving DecidableEq, Repr

end Sys2Proof
end

