-- ==== Sys2Proof/Config.lean ====
section
/-!
DEFINITION. The free values: what the spec leaves open, as constants without a body (log 3).  A free value is applied
to the state's counter `free`, so two uses are never known to be equal, or to the operands it depends on.
-/

namespace Sys2Proof

/-- A word the spec leaves open: one for each value of the state's counter `free` (log 3). -/
opaque Config.freeWord : Nat → Word

/-- The predicate that IMM of FCMP and ICMP names: bit 0 true where less, bit 1 where equal, bit 2 where greater, bit 3
where unordered, and bit 4 a signalling predicate (04 Table 4.2 gives no codes; log 24). -/
opaque Config.cmpPred : Nat → Nat

/-- The element of VA that VPERM, spelled by the word, takes for element i whose element of VB is given (04 R89; log 24). -/
opaque Config.permIndex : Word → Nat → Nat → Nat

/-- The distance by which the VSHL that the word spells moves elements, and what it leaves in a vacated element (04 R89;
log 24). -/
opaque Config.shiftDistance : Word → Int
opaque Config.shiftFill : Word → Nat → Nat

/-- Whether the ISHR that the word spells shifts in copies of the sign bit (04 R89; log 24). -/
opaque Config.shiftArithmetic : Word → Bool

/-- The target of the control-flow instruction that the word spells, at a program index (04 R94; log 24). -/
opaque Config.branchTarget : Word → Nat → Nat

/-- Whether LOOP, spelled by the word, branches at a pass of it (04 R94; log 24). -/
opaque Config.loopTaken : Word → Word → Bool

/-- The byte offset of element i of a VLDH or VSTH spelled by the word, and whether it moves the element (04 R90; log 24). -/
opaque Config.halfOffset : Word → Nat → Nat
opaque Config.halfMoves : Word → Nat → Bool

/-- The element that SGET, spelled by the word, takes (04 R89; log 24). -/
opaque Config.getIndex : Word → Nat

/-- The branch input that PUB, spelled by the word, writes (04 R95; log 24). -/
opaque Config.pubInput : Word → Nat

/-- The value of a function approximation that the model's interval arithmetic does not decide (03 R68; log 3). -/
opaque Config.approx : Nat → Nat → Nat

/-- The factory values of the ring controllers' thermal model, by tile: its gain in mK per W, and its time constant in ns
(10 R257; log 81). -/
opaque Config.ringGain : Nat → Word
opaque Config.ringTau : Nat → Word

/-- The identity key's public half, by the fuses' serial (17 R372; log 3). -/
opaque Config.identityKey : List Byte → List Byte

/-- The identity key's signature over a digest (17 R373; log 3). -/
opaque Config.identitySign : List Byte → List Byte

/-- The boot ROM's digests of the four signing keys, as far as the spec does not give them (17 R370; log 3). -/
opaque Config.romKey : Nat → List Byte

/-- The digest of the boot ROM that it measures (17 Table 17.4; log 3). -/
opaque Config.romMeasure : List Byte

/-- The digest of the vertical repair map and the memory record, whose layouts the spec does not give, at a use of the
counter (17 Table 17.4; log 3). -/
opaque Config.mapMeasure : Nat → List Byte

/-- The root of trust's random source: the 128-bit nonce of a draw (15 R342; log 3). -/
opaque Config.nonce : Nat → BitVec 128

end Sys2Proof
end

