-- ==== Sys2Proof/Machine/DictTable.lean ====
section
/-!
DEFINITION. The object dictionary's table of entries: for each index and range of subs its name, type, access code,
default, range and persistence, as the spec's entry tables give them (00 Table 0.2, 0.5; 01 to 17, the tables headed
Index:Sub; 15 R329, R330, Table 15.5).  The values are in Sys2Proof/Machine/Ops.lean and Operands.lean.
-/

namespace Sys2Proof.Machine

/-- The dictionary types, with their codes on the wire (15 Table 15.1). -/
inductive EType where
  | u8
  | u16
  | u32
  | u64
  | i32
  | f32
  | str
  | blob
  deriving DecidableEq, Repr

/-- The access codes (00 Table 0.5). -/
inductive Access where
  | ro
  | rw
  | wo
  | w1c
  | rws
  | rwl
  deriving DecidableEq, Repr

/-- The range of an entry: its type's own limits, a span (of binary32 patterns for F32), a set of bits, a span of
multiples, or a length in bytes. -/
inductive ERange where
  | full
  | span (lo hi : Nat)
  | mask (m : Nat)
  | multiple (k lo hi : Nat)
  | bytes (lo hi : Nat)
  deriving DecidableEq, Repr

/-- A row of the dictionary: subs `sub` to `last` of an index.  `dev` marks a default that is set per device; `keep`
marks a persistent entry (15 R344). -/
structure Entry where
  index : Nat
  sub   : Nat
  last  : Nat
  name  : String
  ty    : EType
  acc   : Access
  dflt  : Nat
  dev   : Bool
  range : ERange
  keep  : Bool
  deriving DecidableEq, Repr

/-- Entries of 0x1000 (00 R6, 03 R85, 15 R351). -/
def dictPart1a : List Entry :=
  [ ⟨0x1000, 1, 1, "PART_NUMBER", .str, .ro, 0x0, true, .bytes 10 10, false⟩,
    ⟨0x1000, 2, 2, "SILICON_REV", .u8, .ro, 0xA1, false, .span 161 161, false⟩,
    ⟨0x1000, 3, 3, "FW_VERSION", .u32, .ro, 0x0, true, .full, false⟩,
    ⟨0x1000, 4, 4, "SERIAL", .str, .ro, 0x0, true, .bytes 16 16, false⟩,
    ⟨0x1000, 5, 5, "ARITH_REV", .u16, .ro, 0x1, false, .span 1 1, false⟩,
    ⟨0x1000, 6, 6, "MGMT_MAC", .u64, .ro, 0x0, true, .mask 0xFFFFFFFFFFFF, false⟩,
    ⟨0x1000, 7, 7, "MGMT_LINK_LOCAL", .blob, .ro, 0x0, true, .bytes 16 16, false⟩,
    ⟨0x1010, 1, 1, "ARRAY_MASK_FUSED", .u64, .ro, 0x0, true, .full, false⟩,
    ⟨0x1010, 2, 2, "ARRAY_COUNT_FUSED", .u8, .ro, 0x0, true, .span 56 64, false⟩,
    ⟨0x1010, 3, 3, "ARRAY_MASK_IN_SERVICE", .u64, .ro, 0x0, true, .full, false⟩,
    ⟨0x1010, 4, 4, "ARRAY_COUNT_IN_SERVICE", .u8, .ro, 0x0, true, .span 0 64, false⟩ ]

/-- Entries of 0x2000 (02 R58, 04 R108, 05 R125, 06 R154, 08 R199, 10 R262, 11 R283, 15 R351). -/
def dictPart2a : List Entry :=
  [ ⟨0x2020, 1, 1, "ARRAY_KAT_INTERVAL", .u32, .rw, 0x4000, false, .span 1024 1048576, true⟩,
    ⟨0x2040, 1, 1, "VE_PROGRAM_LIMIT", .u32, .rw, 0x1000000, false, .span 65536 2147483648, true⟩,
    ⟨0x2040, 2, 2, "UPDATE_SHARE", .u8, .rw, 0x2, false, .span 0 8, true⟩,
    ⟨0x2050, 1, 1, "FROZEN_RANGE_COUNT", .u8, .rw, 0x0, false, .span 0 16, false⟩,
    ⟨0x2050, 2, 2, "SLICE_SLOTS", .u8, .rw, 0x10, false, .span 2 64, false⟩,
    ⟨0x2051, 1, 16, "FROZEN_BASE", .u64, .rw, 0x0, false, .mask 0xFFFFFFFFFFFFFF, false⟩,
    ⟨0x2052, 1, 16, "FROZEN_LENGTH", .u64, .rw, 0x0, false, .span 0 281474976710656, false⟩,
    ⟨0x2060, 1, 1, "ARRAY_QUANTUM", .u8, .rw, 0x1, false, .span 1 64, true⟩,
    ⟨0x2060, 2, 2, "BELL_WAIT_TIMEOUT", .u32, .rw, 0xEE6B3, false, .span 1 4294967295, true⟩,
    ⟨0x2060, 3, 3, "PREFETCH_LIMIT", .u8, .rw, 0x20, false, .span 0 128, true⟩,
    ⟨0x2060, 4, 4, "RUN_AHEAD", .u16, .rw, 0x100, false, .span 1 256, true⟩,
    ⟨0x2080, 1, 1, "D2D_LANE_ERR_LIMIT", .u8, .rw, 0x8, false, .span 2 64, true⟩,
    ⟨0x20A0, 1, 1, "LANE_MIN", .u8, .rw, 0x4, false, .span 1 16, true⟩,
    ⟨0x20A0, 2, 2, "LANE_BER_LIMIT", .f32, .rw, 0x3727C5AC, false, .span 0x322BCC77 0x3A83126F, true⟩,
    ⟨0x20A0, 3, 3, "CHANGE_LEAD", .u32, .rw, 0x10000, false, .span 8192 1048576, true⟩,
    ⟨0x20A0, 4, 4, "CAL_MAX_GAP", .u16, .rw, 0x258, false, .span 10 3600, true⟩,
    ⟨0x20A0, 5, 5, "FF_ENABLE", .u8, .rw, 0x1, false, .span 0 1, true⟩,
    ⟨0x20B0, 1, 1, "COLL_TIMEOUT", .u32, .rw, 0x17D79, false, .span 1 4294967295, true⟩,
    ⟨0x20E0, 1, 1, "PLCA_NODE_ID", .u8, .rws, 0xFF, false, .span 0 255, true⟩,
    ⟨0x20E0, 2, 2, "PLCA_NODE_COUNT", .u8, .rws, 0x8, false, .span 1 255, true⟩,
    ⟨0x20E0, 3, 3, "PLCA_TO_TIMER", .u8, .rws, 0x20, false, .span 8 255, true⟩,
    ⟨0x20E0, 4, 4, "PLCA_BURST_COUNT", .u8, .rws, 0x0, false, .span 0 15, true⟩,
    ⟨0x20E0, 5, 5, "BDP_PORT", .u16, .rws, 0xBD01, false, .span 1024 65535, true⟩,
    ⟨0x20E0, 6, 6, "BDP_WRITE_POLICY", .u8, .rws, 0x1, false, .span 0 1, true⟩,
    ⟨0x20E0, 7, 7, "BDP_RATE_LIMIT", .u16, .rw, 0xC8, false, .span 10 1000, true⟩,
    ⟨0x20E0, 8, 8, "NONCE_LIFETIME_MS", .u16, .rw, 0x2710, false, .span 1000 60000, true⟩ ]

/-- Entries of 0x3000 (01 R29, 02 R58, 10 R262, 13 R316, 14 R328, 15 R351). -/
def dictPart3a : List Entry :=
  [ ⟨0x3010, 1, 9, "SIG_GROUPS_SPARED", .u16, .ro, 0x0, false, .span 0 4080, false⟩,
    ⟨0x3011, 1, 8, "TIER_PORT_MAP", .u8, .ro, 0xFF, false, .span 0 255, false⟩,
    ⟨0x3012, 1, 8, "CORE_CURRENT_LIMIT", .f32, .ro, 0x43910000, false, .span 0x0 0x43910000, false⟩,
    ⟨0x3013, 1, 8, "CORE_CLOCK_CAP", .u32, .ro, 0x155CC0, false, .span 0 1400000, false⟩,
    ⟨0x3014, 1, 9, "CLOCK_SOURCE", .u8, .ro, 0x0, false, .span 0 2, false⟩,
    ⟨0x3015, 1, 1, "STACK_MASK_IN_SERVICE", .u8, .ro, 0xFF, false, .span 0 255, false⟩,
    ⟨0x3020, 1, 64, "ARRAY_LAST_KAT_BEAT", .u64, .ro, 0x0, false, .full, false⟩,
    ⟨0x30A0, 1, 56, "RX_MARGIN_DB", .f32, .ro, 0x0, false, .full, false⟩,
    ⟨0x30A1, 1, 56, "RX_PREFEC_BER", .f32, .ro, 0x0, false, .full, false⟩,
    ⟨0x30A2, 1, 56, "RING_RESERVE_MW", .f32, .ro, 0x0, false, .span 0x0 0x41400000, false⟩,
    ⟨0x30A3, 1, 1, "OPT_SURVEY_COMPLETE", .u8, .ro, 0x0, false, .span 0 1, false⟩,
    ⟨0x30C0, 1, 1, "HEALTH_SCORE", .u16, .ro, 0x1F4, false, .span 0 1000, false⟩,
    ⟨0x30C0, 2, 2, "HEALTH_STATE", .u8, .ro, 0x0, false, .span 0 3, false⟩,
    ⟨0x30C0, 3, 3, "HEALTH_V", .u16, .ro, 0x1F4, false, .span 0 1000, false⟩,
    ⟨0x30C0, 4, 4, "HEALTH_T", .u16, .ro, 0x1F4, false, .span 0 1000, false⟩,
    ⟨0x30C0, 5, 5, "HEALTH_O", .u16, .ro, 0x1F4, false, .span 0 1000, false⟩,
    ⟨0x30C0, 6, 6, "HEALTH_E", .u16, .ro, 0x1F4, false, .span 0 1000, false⟩,
    ⟨0x30C0, 7, 7, "HEALTH_STATE_BEAT", .u64, .ro, 0x0, false, .full, false⟩,
    ⟨0x30C1, 1, 1, "HEALTH_UP", .u16, .rw, 0x2EE, false, .span 0 1000, true⟩,
    ⟨0x30C1, 2, 2, "HEALTH_DOWN", .u16, .rw, 0x28A, false, .span 0 1000, true⟩,
    ⟨0x30C1, 3, 3, "HEALTH_FAIL", .u16, .rw, 0x12C, false, .span 0 1000, true⟩,
    ⟨0x30C1, 4, 4, "HEALTH_DWELL", .u32, .rw, 0x1000, false, .span 1 16777216, true⟩,
    ⟨0x30C2, 1, 1, "REQUAL_START", .u8, .wo, 0x0, false, .mask 0x3, false⟩,
    ⟨0x30C2, 2, 2, "REQUAL_STATE", .u8, .ro, 0x0, false, .span 0 4, false⟩,
    ⟨0x30C2, 3, 3, "REQUAL_LIMIT", .u8, .rw, 0x3, false, .span 1 16, true⟩,
    ⟨0x30C2, 4, 4, "REQUAL_WINDOW", .u32, .rw, 0x4000000, false, .span 1024 4294967295, true⟩,
    ⟨0x30C2, 5, 5, "REQUAL_FAIL_PHASE", .u8, .ro, 0x0, false, .span 0 9, false⟩,
    ⟨0x30D0, 1, 1, "HOST_LINK_STATUS", .u32, .ro, 0x0, false, .full, false⟩,
    ⟨0x30E0, 1, 1, "PLCA_STATUS", .u8, .ro, 0x0, false, .span 0 2, false⟩,
    ⟨0x30E0, 2, 2, "DICT_STORE_SEQ", .u32, .ro, 0x0, false, .full, false⟩,
    ⟨0x30E0, 3, 3, "DICT_STORE_VALID", .u8, .ro, 0x0, false, .mask 0x3, false⟩,
    ⟨0x30E0, 4, 4, "POWER_UP_COUNT", .u32, .ro, 0x0, false, .full, true⟩,
    ⟨0x30E0, 5, 5, "DICT_DEFAULTED", .u16, .ro, 0x0, false, .full, false⟩,
    ⟨0x30E0, 6, 6, "NONCES_OUTSTANDING", .u8, .ro, 0x0, false, .span 0 68, false⟩ ]

/-- Entries of 0x4000 (08 R199, 10 R262, 18 R393). -/
def dictPart4a : List Entry :=
  [ ⟨0x4080, 1, 9, "D2D_LANES_ACTIVE", .blob, .ro, 0x0, false, .bytes 9 9, false⟩,
    ⟨0x4081, 1, 9, "D2D_SPARES_LEFT", .blob, .ro, 0x0, false, .bytes 9 9, false⟩,
    ⟨0x4082, 1, 9, "D2D_RELAY", .u16, .ro, 0x0, false, .mask 0x1FF, false⟩,
    ⟨0x40A0, 1, 8, "PORT_MAP", .blob, .rw, 0x0, false, .bytes 6 6, false⟩,
    ⟨0x40A0, 9, 9, "PORT_MAP_APPLY", .u8, .wo, 0x0, false, .span 1 1, false⟩,
    ⟨0x40A1, 1, 56, "TX_LANE_MAP", .blob, .ro, 0x0, false, .bytes 18 18, false⟩,
    ⟨0x40A2, 1, 56, "RX_LANE_MAP", .blob, .ro, 0x0, false, .bytes 18 18, false⟩,
    ⟨0x40A3, 1, 2, "LASER_SOURCE_STATE", .blob, .ro, 0x0, false, .bytes 18 18, false⟩,
    ⟨0x40A4, 1, 18, "LASER_A_POWER", .f32, .ro, 0x0, false, .span 0xC2200000 0x40400000, false⟩,
    ⟨0x40A5, 1, 18, "LASER_B_POWER", .f32, .ro, 0x0, false, .span 0xC2200000 0x40400000, false⟩,
    ⟨0x40A6, 1, 56, "LINK_LOOP_NS", .u32, .ro, 0x0, false, .span 0 8000, false⟩,
    ⟨0x40A7, 1, 2, "LASER_BANK_SERIAL", .str, .ro, 0x0, false, .bytes 0 16, false⟩,
    ⟨0x40A8, 1, 1, "LASER_BANK_PRESENT", .u8, .ro, 0x0, false, .mask 0x3, false⟩ ]

/-- Entries of 0x5000 (07 R180). -/
def dictPart5a : List Entry :=
  [ ⟨0x5000, 1, 8, "TIER_RC_MIB", .u8, .rw, 0x10, false, .multiple 4 0 128, true⟩,
    ⟨0x5001, 1, 8, "TIER_CAPACITY_MIB", .u16, .ro, 0x170, false, .span 0 384, false⟩,
    ⟨0x5002, 1, 8, "RC_LENT_LINES", .u32, .ro, 0x0, false, .span 0 262144, false⟩,
    ⟨0x5003, 1, 8, "TIER_ROW_SPARES_LEFT", .u16, .ro, 0x0, true, .span 0 48, false⟩,
    ⟨0x5010, 1, 8, "HBM_CAPACITY_GIB", .u8, .ro, 0x40, false, .span 0 64, false⟩,
    ⟨0x5011, 1, 8, "PC_IN_SERVICE", .u64, .ro, 0xFFFFFFFFFFFFFFFF, false, .full, false⟩,
    ⟨0x5012, 1, 8, "PC_MIGRATION", .u32, .ro, 0x0, false, .full, false⟩,
    ⟨0x5013, 1, 1, "PC_CE_LIMIT", .u32, .rw, 0x100, false, .span 16 65535, true⟩,
    ⟨0x5013, 2, 2, "PC_RETIRE_NOTICE", .u16, .rw, 0x20, false, .span 0 1024, true⟩,
    ⟨0x5013, 3, 3, "PC_RETIRE_MAX", .u8, .rw, 0x8, false, .span 0 16, true⟩,
    ⟨0x5014, 1, 1, "HBM_SCRUB_HOURS", .u8, .rw, 0x18, false, .span 1 168, true⟩,
    ⟨0x5014, 2, 2, "TIER_SCRUB_SECONDS", .u16, .rw, 0x3C, false, .span 10 3600, true⟩ ]

/-- Entries of 0x6000 (16 R366, 18 R393). -/
def dictPart6a : List Entry :=
  [ ⟨0x6000, 1, 1, "INPUT_VOLTAGE", .f32, .ro, 0x0, false, .span 0x0 0x428C0000, false⟩,
    ⟨0x6000, 2, 2, "INPUT_CURRENT", .f32, .ro, 0x0, false, .span 0x0 0x42700000, false⟩,
    ⟨0x6000, 3, 3, "INPUT_POWER", .f32, .ro, 0x0, false, .span 0x0 0x453B8000, false⟩,
    ⟨0x6000, 4, 4, "BUS_12V", .f32, .ro, 0x0, false, .span 0x0 0x41600000, false⟩,
    ⟨0x6000, 5, 5, "INPUT_ENERGY", .u64, .ro, 0x0, false, .full, false⟩,
    ⟨0x6000, 6, 6, "LAST_STOP", .u8, .ro, 0x0, true, .span 0 4, false⟩,
    ⟨0x6001, 1, 1, "INPUT_POWER_LIMIT", .u16, .rw, 0x898, false, .span 1000 2600, false⟩,
    ⟨0x6001, 2, 2, "POWER_WINDOW_MS", .u16, .rw, 0xA, false, .span 1 1000, false⟩,
    ⟨0x6010, 1, 30, "DOMAIN_VOLTAGE", .f32, .ro, 0x0, false, .full, false⟩,
    ⟨0x6011, 1, 30, "DOMAIN_CURRENT", .f32, .ro, 0x0, false, .full, false⟩,
    ⟨0x6012, 1, 1, "DOMAIN_ON", .u32, .ro, 0x0, false, .mask 0x3FFFFFFF, false⟩,
    ⟨0x6020, 1, 8, "T_GOVERNING", .f32, .ro, 0x0, false, .full, false⟩,
    ⟨0x6021, 1, 8, "T_MODEL", .f32, .ro, 0x0, false, .full, false⟩,
    ⟨0x6022, 1, 8, "T_CD_TRUSTED_MAX", .f32, .ro, 0xC3888000, false, .full, false⟩,
    ⟨0x6023, 1, 8, "CD_SENSOR_SUSPECT", .u32, .ro, 0x0, false, .full, false⟩,
    ⟨0x6024, 1, 8, "OUTER_SENSOR_SUSPECT", .u32, .ro, 0x0, false, .full, false⟩,
    ⟨0x6025, 1, 4, "COOLANT_TEMP", .f32, .ro, 0x0, false, .full, false⟩,
    ⟨0x6026, 1, 1, "T_THROTTLE", .f32, .rw, 0x42BE0000, false, .span 0x428C0000 0x42C80000, false⟩,
    ⟨0x6026, 2, 2, "T_CRIT", .f32, .ro, 0x42DC0000, false, .span 0x42DC0000 0x42DC0000, false⟩,
    ⟨0x6027, 1, 8, "MODEL_R_J", .f32, .ro, 0x0, true, .full, false⟩,
    ⟨0x6028, 1, 8, "MODEL_TAU_US", .f32, .ro, 0x0, true, .full, false⟩,
    ⟨0x6029, 1, 1, "COOLANT_RISE", .f32, .ro, 0x0, false, .full, false⟩,
    ⟨0x6030, 1, 8, "CLOCK_CAP_POWER", .u32, .ro, 0x155CC0, false, .span 350000 1400000, false⟩,
    ⟨0x6031, 1, 8, "CLOCK_CAP_CURRENT", .u32, .ro, 0x155CC0, false, .span 350000 1400000, false⟩,
    ⟨0x6032, 1, 9, "CLOCK_CAP_THERMAL", .u32, .ro, 0x155CC0, false, .span 350000 1400000, false⟩,
    ⟨0x6033, 1, 8, "CLOCK_EFFECTIVE", .u32, .ro, 0x155CC0, false, .span 350000 1400000, false⟩,
    ⟨0x6040, 1, 30, "VOLTAGE_MARGIN_MV", .f32, .ro, 0x0, false, .full, false⟩,
    ⟨0x6041, 1, 30, "TIMING_MARGIN_PS", .f32, .ro, 0x0, false, .full, false⟩,
    ⟨0x6042, 1, 30, "VMIN_MV", .f32, .ro, 0x0, false, .full, false⟩,
    ⟨0x6043, 1, 1, "MARGIN_SURVEY_DONE", .u8, .ro, 0x0, false, .span 0 1, false⟩,
    ⟨0x6043, 2, 2, "MARGIN_SURVEY_INTERVAL", .u32, .rw, 0x400, false, .span 64 65536, false⟩,
    ⟨0x6050, 1, 9, "STRETCH_EVENTS", .u64, .ro, 0x0, false, .full, false⟩,
    ⟨0x6051, 1, 9, "STRETCH_NS_LOST", .u64, .ro, 0x0, false, .full, false⟩ ]

/-- Entries of 0x7000 (15 R351, 17 R381). -/
def dictPart7a : List Entry :=
  [ ⟨0x7000, 1, 1, "ROM_VERSION", .u16, .ro, 0x0, true, .full, false⟩,
    ⟨0x7000, 2, 2, "IMAGE_SVN", .u16, .ro, 0x0, true, .full, false⟩,
    ⟨0x7000, 3, 3, "FUSED_SVN", .u16, .ro, 0x0, true, .span 0 1023, false⟩,
    ⟨0x7000, 4, 4, "KEY_INDEX", .u8, .ro, 0x0, true, .span 0 3, false⟩,
    ⟨0x7000, 5, 5, "KEY_REVOKED", .u8, .ro, 0x0, true, .mask 0xF, false⟩,
    ⟨0x7000, 6, 6, "IMAGE_DIGEST", .blob, .ro, 0x0, true, .bytes 64 64, false⟩,
    ⟨0x7001, 1, 1, "IDENTITY_PUBKEY", .blob, .ro, 0x0, true, .bytes 32 32, false⟩,
    ⟨0x7001, 2, 2, "IDENTITY_CERT", .blob, .ro, 0x0, true, .bytes 1 4096, false⟩,
    ⟨0x7002, 1, 1, "ATTEST_CHALLENGE", .blob, .wo, 0x0, false, .bytes 32 32, false⟩,
    ⟨0x7002, 2, 2, "ATTEST_QUOTE", .blob, .ro, 0x0, false, .bytes 256 256, false⟩,
    ⟨0x7003, 1, 1, "BOOT_LOG", .blob, .ro, 0x0, false, .bytes 0 20480, false⟩,
    ⟨0x7003, 2, 2, "BOOT_LOG_COUNT", .u16, .ro, 0x0, false, .span 0 256, false⟩,
    ⟨0x7003, 3, 3, "BOOT_LOG_RUNNING", .blob, .ro, 0x0, false, .bytes 64 64, false⟩,
    ⟨0x7004, 1, 1, "DEBUG_ENABLE", .u8, .rwl, 0x0, false, .span 0 1, false⟩,
    ⟨0x7005, 1, 1, "FW_UPDATE_CMD", .u8, .rws, 0x0, false, .span 1 2, false⟩,
    ⟨0x7005, 2, 2, "FW_UPDATE_STATE", .u8, .ro, 0x0, false, .span 0 4, false⟩,
    ⟨0x7005, 3, 3, "IMAGE_REJECT_REASON", .u8, .ro, 0x0, false, .span 0 7, false⟩,
    ⟨0x7006, 1, 1, "RESET_CAUSE", .u8, .ro, 0x0, true, .span 0 5, false⟩,
    ⟨0x7006, 2, 2, "RESET_CMD", .u8, .rws, 0x0, false, .span 1 3, false⟩,
    ⟨0x7006, 3, 3, "RESET_DIE_MASK", .u8, .rw, 0x0, false, .mask 0xFF, false⟩,
    ⟨0x7010, 1, 8, "OPERATOR_KEY", .blob, .rws, 0x0, false, .bytes 32 32, true⟩,
    ⟨0x7011, 1, 16, "KNOWN_SOURCE", .blob, .rws, 0x0, false, .bytes 16 16, true⟩ ]

/-- Entries of 0x8000 (02 R58, 04 R108, 05 R125, 06 R154, 07 R180, 08 R199, 09 R233, 10 R262, 12 R294). -/
def dictPart8a : List Entry :=
  [ ⟨0x8020, 1, 64, "ARRAY_VALID_CYCLES", .u64, .ro, 0x0, false, .full, false⟩,
    ⟨0x8021, 1, 64, "ARRAY_BUBBLE_CYCLES", .u64, .ro, 0x0, false, .full, false⟩,
    ⟨0x8022, 1, 8, "ACCUM_CORRECTED", .u32, .ro, 0x0, false, .full, false⟩,
    ⟨0x8040, 1, 8, "VE_MAIN_CYCLES", .u64, .ro, 0x0, false, .full, false⟩,
    ⟨0x8041, 1, 8, "VE_UPDATE_CYCLES", .u64, .ro, 0x0, false, .full, false⟩,
    ⟨0x8042, 1, 8, "VE_COLLECTIVE_CYCLES", .u64, .ro, 0x0, false, .full, false⟩,
    ⟨0x8043, 1, 8, "VE_REG_CORRECTED", .u32, .ro, 0x0, false, .full, false⟩,
    ⟨0x8050, 1, 1, "PHASE_SWITCHES", .u64, .ro, 0x0, false, .full, false⟩,
    ⟨0x8050, 2, 2, "REPLAYS", .u64, .ro, 0x0, false, .full, false⟩,
    ⟨0x8050, 3, 3, "FROZEN_SKIPS", .u64, .ro, 0x0, false, .full, false⟩,
    ⟨0x8051, 1, 8, "SLICE_WAIT_CYCLES", .u64, .ro, 0x0, false, .full, false⟩,
    ⟨0x8060, 1, 8, "BRANCHES_RESOLVED", .u64, .ro, 0x0, false, .full, false⟩,
    ⟨0x8061, 1, 8, "MISPREDICTS", .u64, .ro, 0x0, false, .full, false⟩,
    ⟨0x8062, 1, 8, "PREFETCH_BYTES_USED", .u64, .ro, 0x0, false, .full, false⟩,
    ⟨0x8063, 1, 8, "PREFETCH_BYTES_DISCARDED", .u64, .ro, 0x0, false, .full, false⟩,
    ⟨0x8064, 1, 8, "BELL_FRAMES_DISCARDED", .u64, .ro, 0x0, false, .full, false⟩,
    ⟨0x8065, 1, 8, "LATE_STRIKES", .u64, .ro, 0x0, false, .full, false⟩,
    ⟨0x8066, 1, 8, "ARRAY_HANDOVERS", .u64, .ro, 0x0, false, .full, false⟩,
    ⟨0x8070, 1, 8, "HBM_ODECC_CORRECTED", .u64, .ro, 0x0, false, .full, false⟩,
    ⟨0x8071, 1, 8, "HBM_SECDED_CORRECTED", .u64, .ro, 0x0, false, .full, false⟩,
    ⟨0x8072, 1, 8, "TIER_CORRECTED", .u64, .ro, 0x0, false, .full, false⟩,
    ⟨0x8073, 1, 8, "POISON_CARRIED", .u64, .ro, 0x0, false, .full, false⟩,
    ⟨0x8074, 1, 8, "PC_MIGRATED_BYTES", .u64, .ro, 0x0, false, .full, false⟩,
    ⟨0x8080, 1, 9, "D2D_FLITS_RESENT", .u64, .ro, 0x0, false, .full, false⟩,
    ⟨0x8081, 1, 8, "RC_HITS", .u64, .ro, 0x0, false, .full, false⟩,
    ⟨0x8082, 1, 8, "RC_MISSES", .u64, .ro, 0x0, false, .full, false⟩,
    ⟨0x8083, 1, 8, "RC_WRITEBACKS", .u64, .ro, 0x0, false, .full, false⟩,
    ⟨0x8084, 1, 8, "RC_ACQUIRES", .u64, .ro, 0x0, false, .full, false⟩,
    ⟨0x8090, 1, 8, "FAB_FLITS_FORWARDED", .u64, .ro, 0x0, false, .full, false⟩,
    ⟨0x8091, 1, 8, "FAB_PACKETS_DROPPED", .u64, .ro, 0x0, false, .full, false⟩,
    ⟨0x8092, 1, 8, "FAB_CREDIT_WAIT", .u64, .ro, 0x0, false, .full, false⟩,
    ⟨0x8093, 1, 8, "BELL_CREDITS_RESTORED", .u64, .ro, 0x0, false, .full, false⟩,
    ⟨0x8094, 1, 1, "TEMPO_FLITS_DISCARDED", .u64, .ro, 0x0, false, .full, false⟩,
    ⟨0x8094, 2, 2, "TEMPO_SAMPLES_REJECTED", .u64, .ro, 0x0, false, .full, false⟩,
    ⟨0x8094, 3, 3, "TEMPO_STEPS", .u64, .ro, 0x0, false, .full, false⟩,
    ⟨0x80A0, 1, 56, "FEC_CORRECTED_BITS", .u64, .ro, 0x0, false, .full, false⟩,
    ⟨0x80A1, 1, 56, "FEC_UNCORRECTABLE", .u64, .ro, 0x0, false, .full, false⟩,
    ⟨0x80A2, 1, 56, "LINK_FLITS_RESENT", .u64, .ro, 0x0, false, .full, false⟩,
    ⟨0x80A3, 1, 56, "LANE_CHANGES", .u64, .ro, 0x0, false, .full, false⟩,
    ⟨0x80A4, 1, 56, "CAL_WINDOWS", .u64, .ro, 0x0, false, .full, false⟩ ]

/-- Entries of 0x8000 (11 R283, 13 R316, 14 R328, 15 R351). -/
def dictPart8b : List Entry :=
  [ ⟨0x80B0, 1, 1, "COLL_COMPLETED", .u64, .ro, 0x0, false, .full, false⟩,
    ⟨0x80B0, 2, 2, "COLL_ABORTS", .u64, .ro, 0x0, false, .full, false⟩,
    ⟨0x80B0, 3, 3, "COLL_BYTES_SENT", .u64, .ro, 0x0, false, .full, false⟩,
    ⟨0x80B0, 4, 4, "COLL_STALE_DISCARDED", .u64, .ro, 0x0, false, .full, false⟩,
    ⟨0x80C0, 1, 1, "FENCED_DISCARDS", .u64, .ro, 0x0, false, .full, false⟩,
    ⟨0x80C0, 2, 2, "GHOST_BYTES_SENT", .u64, .ro, 0x0, false, .full, false⟩,
    ⟨0x80C0, 3, 3, "GHOST_MARKS_SKIPPED", .u64, .ro, 0x0, false, .full, false⟩,
    ⟨0x80C0, 4, 4, "GHOST_COW_WAIT_CYCLES", .u64, .ro, 0x0, false, .full, false⟩,
    ⟨0x80C0, 5, 5, "GHOST_EPOCHS_ACKED", .u64, .ro, 0x0, false, .full, false⟩,
    ⟨0x80D0, 1, 1, "HOST_BYTES_READ", .u64, .ro, 0x0, false, .full, false⟩,
    ⟨0x80D0, 2, 2, "HOST_BYTES_WRITTEN", .u64, .ro, 0x0, false, .full, false⟩,
    ⟨0x80D0, 3, 3, "HOST_RETRAINS", .u64, .ro, 0x0, false, .full, false⟩,
    ⟨0x80D0, 4, 4, "MSIX_RAISED", .u64, .ro, 0x0, false, .full, false⟩,
    ⟨0x80E0, 1, 1, "BDP_FRAMES_RX", .u64, .ro, 0x0, false, .full, false⟩,
    ⟨0x80E0, 2, 2, "BDP_FRAMES_BAD", .u64, .ro, 0x0, false, .full, false⟩,
    ⟨0x80E0, 3, 3, "BDP_UNKNOWN_IGNORED", .u64, .ro, 0x0, false, .full, false⟩,
    ⟨0x80E0, 4, 4, "BDP_REPLIES", .u64, .ro, 0x0, false, .full, false⟩,
    ⟨0x80E0, 5, 5, "DICT_REFUSALS", .u64, .ro, 0x0, false, .full, false⟩,
    ⟨0x80E0, 6, 6, "BDP_SIG_FAILURES", .u64, .ro, 0x0, false, .full, false⟩,
    ⟨0x80E0, 7, 7, "BDP_RATE_DROPS", .u64, .ro, 0x0, false, .full, false⟩,
    ⟨0x80E0, 8, 8, "PLCA_COLLISIONS", .u64, .ro, 0x0, false, .full, false⟩,
    ⟨0x80E0, 9, 9, "BDP_TX_DROPS", .u64, .ro, 0x0, false, .full, false⟩,
    ⟨0x80E0, 10, 10, "MBX_REQUESTS", .u64, .ro, 0x0, false, .full, false⟩ ]

/-- Entries of 0x9000 (09 R233, 12 R294). -/
def dictPart9a : List Entry :=
  [ ⟨0x9000, 1, 1, "ENDPOINT_COORD", .u32, .rw, 0xFFFFFFFF, false, .mask 0x3FFFF, false⟩,
    ⟨0x9000, 2, 2, "BOARD_SLOT", .u8, .ro, 0x0, true, .mask 0xF, false⟩,
    ⟨0x9001, 1, 1, "PLANE_ORDER", .blob, .rw, 0x0, false, .bytes 8 8, false⟩,
    ⟨0x9001, 2, 2, "DARK_RELEASE", .u8, .rw, 0x0, false, .span 0 1, false⟩,
    ⟨0x9002, 1, 64, "DETOUR_ENTRY", .blob, .ro, 0x0, false, .bytes 16 16, false⟩,
    ⟨0x9003, 1, 1, "CLASS_MIN", .blob, .rw, 0x0, false, .bytes 12 12, false⟩,
    ⟨0x9003, 2, 2, "CIRCUIT_LANES_MAX", .u8, .rw, 0xC, false, .span 0 12, false⟩,
    ⟨0x9004, 1, 1, "FAB_REQ_TIMEOUT", .u32, .rw, 0xFA0, false, .span 100 1000000, false⟩,
    ⟨0x9004, 2, 2, "CIRCUIT_RESEND", .u32, .rw, 0x3E8, false, .span 50 100000, false⟩,
    ⟨0x9010, 1, 48, "PORT_STATE", .u32, .ro, 0x0, false, .full, false⟩,
    ⟨0x9011, 1, 48, "PORT_CIRCUIT_LANES", .u16, .ro, 0x0, false, .full, false⟩,
    ⟨0x9012, 1, 1, "WINDOWS_REGISTERED", .u16, .ro, 0x0, false, .span 0 4096, false⟩,
    ⟨0x9012, 2, 2, "RQS_REGISTERED", .u16, .ro, 0x0, false, .span 0 256, false⟩,
    ⟨0x9012, 3, 3, "CIRCUITS_OPEN", .u16, .ro, 0x0, false, .span 0 256, false⟩,
    ⟨0x9020, 1, 1, "TEMPO_NOW", .u64, .ro, 0x0, false, .full, false⟩,
    ⟨0x9020, 2, 2, "TEMPO_STATE", .u8, .ro, 0x0, false, .span 0 3, false⟩,
    ⟨0x9020, 3, 3, "TEMPO_ROOT", .u32, .ro, 0xFFFFFFFF, false, .mask 0x3FFFF, false⟩,
    ⟨0x9020, 4, 4, "TEMPO_DEPTH", .u8, .ro, 0x0, false, .span 0 61, false⟩,
    ⟨0x9020, 5, 5, "TEMPO_PARENT", .u8, .ro, 0x7, false, .span 0 7, false⟩,
    ⟨0x9020, 6, 6, "TEMPO_OFFSET_NS", .f32, .ro, 0x0, false, .full, false⟩,
    ⟨0x9020, 7, 7, "TEMPO_RATE_PPM", .f32, .ro, 0x0, false, .span 0xC3480000 0x43480000, false⟩,
    ⟨0x9021, 1, 1, "TEMPO_PRIORITY", .u8, .rw, 0x0, false, .span 0 255, true⟩,
    ⟨0x9021, 2, 2, "ROOT_WAIT", .u8, .rw, 0x8, false, .span 1 64, true⟩,
    ⟨0x9021, 3, 3, "TEMPO_LOSS_BEATS", .u8, .rw, 0x2, false, .span 1 16, true⟩,
    ⟨0x9021, 4, 4, "HOLDOVER_BEATS", .u16, .rw, 0x40, false, .span 0 1024, true⟩ ]

/-- Entries of 0xA000 (01 R29, 02 R58, 04 R108, 05 R125, 06 R154, 15 R351, 16 R366, 17 R381, 18 R393). -/
def dictPartAa : List Entry :=
  [ ⟨0xA010, 1, 1, "SIG_SPARE_USED", .u16, .w1c, 0x0, false, .mask 0x1FF, false⟩,
    ⟨0xA010, 2, 2, "TIER_PORT_RETIRED", .u64, .w1c, 0x0, false, .mask 0xFFFFFFFFFFFFFFFF, false⟩,
    ⟨0xA010, 3, 3, "TIER_QUADRANT_OUT", .u32, .w1c, 0x0, false, .mask 0xFFFFFFFF, false⟩,
    ⟨0xA010, 4, 4, "POWER_DERATED", .u32, .w1c, 0x0, false, .mask 0x1FFFFFF, false⟩,
    ⟨0xA010, 5, 5, "CLOCK_TWIN_IN_USE", .u16, .w1c, 0x0, false, .mask 0x1FF, false⟩,
    ⟨0xA010, 6, 6, "STACK_RETIRED", .u8, .w1c, 0x0, false, .mask 0xFF, false⟩,
    ⟨0xA010, 7, 7, "MODULE_CLOCK_FAULT", .u8, .w1c, 0x0, false, .mask 0x1, false⟩,
    ⟨0xA010, 8, 8, "THERMAL_THROTTLED", .u8, .w1c, 0x0, false, .mask 0xFF, false⟩,
    ⟨0xA010, 9, 9, "SENSOR_SUSPECT", .u8, .w1c, 0x0, false, .mask 0xFF, false⟩,
    ⟨0xA010, 10, 10, "THERMAL_CRITICAL", .u8, .w1c, 0x0, false, .mask 0xFF, false⟩,
    ⟨0xA010, 11, 11, "POWER_LIMITED", .u8, .w1c, 0x0, false, .mask 0x1, false⟩,
    ⟨0xA010, 12, 12, "INPUT_OUT_OF_RANGE", .u8, .w1c, 0x0, false, .mask 0x1, false⟩,
    ⟨0xA010, 13, 13, "DOMAIN_FAULT", .u32, .w1c, 0x0, false, .mask 0x3FFFFFFF, false⟩,
    ⟨0xA010, 14, 14, "COOLANT_RISE_HIGH", .u8, .w1c, 0x0, false, .mask 0x1, false⟩,
    ⟨0xA020, 1, 1, "ARRAY_RETIRED", .u64, .w1c, 0x0, false, .mask 0xFFFFFFFFFFFFFFFF, false⟩,
    ⟨0xA020, 2, 2, "ARRAY_KAT_MISMATCH", .u64, .w1c, 0x0, false, .mask 0xFFFFFFFFFFFFFFFF, false⟩,
    ⟨0xA020, 3, 3, "ACCUM_UNCORRECTABLE", .u8, .w1c, 0x0, false, .mask 0xFF, false⟩,
    ⟨0xA020, 4, 4, "FEED_UNCORRECTABLE", .u8, .w1c, 0x0, false, .mask 0xFF, false⟩,
    ⟨0xA020, 5, 5, "TILE_WORD_INVALID", .u8, .w1c, 0x0, false, .mask 0xFF, false⟩,
    ⟨0xA030, 1, 1, "DICT_DEFAULTS_LOADED", .u8, .w1c, 0x0, false, .mask 0x1, false⟩,
    ⟨0xA030, 2, 2, "DICT_COPY_BAD", .u8, .w1c, 0x0, false, .mask 0x1, false⟩,
    ⟨0xA030, 3, 3, "DICT_STORE_FAILED", .u8, .w1c, 0x0, false, .mask 0x1, false⟩,
    ⟨0xA030, 4, 4, "BDP_AUTH_FAILED", .u8, .w1c, 0x0, false, .mask 0x1, false⟩,
    ⟨0xA030, 5, 5, "BDP_MEDIUM_FAULT", .u8, .w1c, 0x0, false, .mask 0x1, false⟩,
    ⟨0xA030, 6, 6, "BDP_ADDRESS_CONFLICT", .u8, .w1c, 0x0, false, .mask 0x1, false⟩,
    ⟨0xA030, 7, 7, "DICT_ENTRY_DEFAULTED", .u8, .w1c, 0x0, false, .mask 0x1, false⟩,
    ⟨0xA030, 9, 9, "IMAGE_REJECTED", .u8, .w1c, 0x0, false, .mask 0x1, false⟩,
    ⟨0xA030, 10, 10, "WATCHDOG_RESET", .u8, .w1c, 0x0, false, .mask 0x1, false⟩,
    ⟨0xA030, 11, 11, "DEBUG_OPENED", .u8, .w1c, 0x0, false, .mask 0x1, false⟩,
    ⟨0xA030, 12, 12, "ATTEST_UNAVAILABLE", .u8, .w1c, 0x0, false, .mask 0x1, false⟩,
    ⟨0xA040, 1, 1, "VE_REG_UNCORRECTABLE", .u8, .w1c, 0x0, false, .mask 0xFF, false⟩,
    ⟨0xA040, 2, 2, "VE_INSTR_INVALID", .u8, .w1c, 0x0, false, .mask 0xFF, false⟩,
    ⟨0xA040, 3, 3, "VE_LIMIT", .u8, .w1c, 0x0, false, .mask 0xFF, false⟩,
    ⟨0xA040, 4, 4, "UPDATE_FAULT", .u8, .w1c, 0x0, false, .mask 0xFF, false⟩,
    ⟨0xA040, 5, 5, "UPDATE_POISONED", .u8, .w1c, 0x0, false, .mask 0xFF, false⟩,
    ⟨0xA050, 1, 1, "REPLAY_DIVERGED", .u8, .w1c, 0x0, false, .mask 0xFF, false⟩,
    ⟨0xA050, 2, 2, "REPLAY_NO_RECORD", .u8, .w1c, 0x0, false, .mask 0xFF, false⟩,
    ⟨0xA050, 3, 3, "FROZEN_WRITE_REFUSED", .u8, .w1c, 0x0, false, .mask 0xFF, false⟩,
    ⟨0xA050, 4, 4, "TRAIN_WORD_INVALID", .u8, .w1c, 0x0, false, .mask 0xFF, false⟩,
    ⟨0xA060, 1, 1, "DESC_INVALID", .u16, .w1c, 0x0, false, .mask 0x1FF, false⟩ ]

/-- Entries of 0xA000 (06 R154, 07 R180, 08 R199, 09 R233, 10 R262, 12 R294). -/
def dictPartAb : List Entry :=
  [ ⟨0xA060, 2, 2, "BELL_TIMEOUT", .u16, .w1c, 0x0, false, .mask 0x1FF, false⟩,
    ⟨0xA060, 3, 3, "BELL_WRAP", .u8, .w1c, 0x0, false, .mask 0xFF, false⟩,
    ⟨0xA060, 4, 4, "BELL_FRAME_DISCARDED", .u8, .w1c, 0x0, false, .mask 0xFF, false⟩,
    ⟨0xA060, 5, 5, "DESC_ADDRESS_FAULT", .u16, .w1c, 0x0, false, .mask 0x1FF, false⟩,
    ⟨0xA060, 6, 6, "DESC_POISONED", .u16, .w1c, 0x0, false, .mask 0x1FF, false⟩,
    ⟨0xA070, 1, 1, "HBM_UNCORRECTABLE", .u8, .w1c, 0x0, false, .mask 0xFF, false⟩,
    ⟨0xA070, 2, 2, "TIER_UNCORRECTABLE", .u8, .w1c, 0x0, false, .mask 0xFF, false⟩,
    ⟨0xA070, 3, 3, "PC_RETIRING", .u8, .w1c, 0x0, false, .mask 0xFF, false⟩,
    ⟨0xA070, 4, 4, "PC_RETIRED", .u8, .w1c, 0x0, false, .mask 0xFF, false⟩,
    ⟨0xA070, 5, 5, "PC_RETIRE_REFUSED", .u8, .w1c, 0x0, false, .mask 0xFF, false⟩,
    ⟨0xA070, 6, 6, "TIER_ROW_LENT", .u8, .w1c, 0x0, false, .mask 0xFF, false⟩,
    ⟨0xA070, 7, 7, "TIER_ROW_HOLE", .u8, .w1c, 0x0, false, .mask 0xFF, false⟩,
    ⟨0xA070, 8, 8, "MEM_RECORD_LOST", .u8, .w1c, 0x0, false, .mask 0x1, false⟩,
    ⟨0xA080, 1, 1, "D2D_LANE_RETIRED", .u16, .w1c, 0x0, false, .mask 0x1FF, false⟩,
    ⟨0xA080, 2, 2, "D2D_PAIR_DEGRADED", .u16, .w1c, 0x0, false, .mask 0x1FF, false⟩,
    ⟨0xA080, 3, 3, "D2D_PAIR_DOWN", .u16, .w1c, 0x0, false, .mask 0x1FF, false⟩,
    ⟨0xA080, 4, 4, "D2D_RETRAIN", .u16, .w1c, 0x0, false, .mask 0x1FF, false⟩,
    ⟨0xA080, 5, 5, "RC_WRITEBACK_LOST", .u8, .w1c, 0x0, false, .mask 0xFF, false⟩,
    ⟨0xA090, 1, 1, "FAB_UNREACHABLE", .u8, .w1c, 0x0, false, .mask 0xFF, false⟩,
    ⟨0xA090, 2, 2, "FAB_PORT_DOWN", .u64, .w1c, 0x0, false, .mask 0xFFFFFFFFFFFFFFFF, false⟩,
    ⟨0xA090, 3, 3, "FAB_CREDIT_RESYNC", .u64, .w1c, 0x0, false, .mask 0xFFFFFFFFFFFFFFFF, false⟩,
    ⟨0xA090, 4, 4, "FAB_TRAINING_MISMATCH", .u64, .w1c, 0x0, false, .mask 0xFFFFFFFFFFFFFFFF, false⟩,
    ⟨0xA090, 5, 5, "FAB_REFUSED_IN", .u8, .w1c, 0x0, false, .mask 0x1, false⟩,
    ⟨0xA090, 6, 6, "FAB_TIMEOUT", .u16, .w1c, 0x0, false, .mask 0x1FF, false⟩,
    ⟨0xA090, 7, 7, "FAB_CIRCUIT_BROKEN", .u8, .w1c, 0x0, false, .mask 0xFF, false⟩,
    ⟨0xA090, 8, 8, "TEMPO_STEPPED", .u8, .w1c, 0x0, false, .mask 0x1, false⟩,
    ⟨0xA090, 9, 9, "TEMPO_HOLDOVER", .u8, .w1c, 0x0, false, .mask 0x1, false⟩,
    ⟨0xA090, 10, 10, "TEMPO_LOST", .u8, .w1c, 0x0, false, .mask 0x1, false⟩,
    ⟨0xA090, 11, 11, "TEMPO_ROOT_CHANGED", .u8, .w1c, 0x0, false, .mask 0x1, false⟩,
    ⟨0xA0A0, 1, 1, "LANE_SPARED", .u64, .w1c, 0x0, false, .mask 0xFFFFFFFFFFFFFF, false⟩,
    ⟨0xA0A0, 2, 2, "FIBRE_DEGRADED", .u64, .w1c, 0x0, false, .mask 0xFFFFFFFFFFFFFF, false⟩,
    ⟨0xA0A0, 3, 3, "FIBRE_DOWN", .u64, .w1c, 0x0, false, .mask 0xFFFFFFFFFFFFFF, false⟩,
    ⟨0xA0A0, 4, 4, "LASER_WARN", .u64, .w1c, 0x0, false, .mask 0x3FFFF0003FFFF, false⟩,
    ⟨0xA0A0, 5, 5, "LASER_VACATED", .u64, .w1c, 0x0, false, .mask 0x3FFFF0003FFFF, false⟩,
    ⟨0xA0A0, 6, 6, "LASER_LOST", .u64, .w1c, 0x0, false, .mask 0x3FFFF0003FFFF, false⟩,
    ⟨0xA0A0, 7, 7, "RING_LOCK_LOST", .u64, .w1c, 0x0, false, .mask 0xFFFFFFFFFFFFFF, false⟩,
    ⟨0xA0A0, 8, 8, "LAMBDA_RETIRED", .u64, .w1c, 0x0, false, .mask 0xFFFFFFFFFFFFFF, false⟩,
    ⟨0xA0A0, 9, 9, "PORT_MAP_REFUSED", .u8, .w1c, 0x0, false, .mask 0x1, false⟩,
    ⟨0xA0A0, 10, 10, "CAL_OVERDUE", .u64, .w1c, 0x0, false, .mask 0xFFFFFFFFFFFFFF, false⟩,
    ⟨0xA0A0, 11, 11, "LINK_TOO_LONG", .u64, .w1c, 0x0, false, .mask 0xFFFFFFFFFFFFFF, false⟩ ]

/-- Entries of 0xA000 (11 R283, 13 R316, 14 R328, 15 R351). -/
def dictPartAc : List Entry :=
  [ ⟨0xA0B0, 1, 1, "COLL_MISMATCH", .u8, .w1c, 0x0, false, .mask 0x1, false⟩,
    ⟨0xA0B0, 2, 2, "COLL_TIMEOUT", .u8, .w1c, 0x0, false, .mask 0x1, false⟩,
    ⟨0xA0B0, 3, 3, "COLL_UNREACHABLE", .u8, .w1c, 0x0, false, .mask 0x1, false⟩,
    ⟨0xA0B0, 4, 4, "COLL_EPOCH", .u8, .w1c, 0x0, false, .mask 0x1, false⟩,
    ⟨0xA0B0, 5, 5, "COLL_PEER_ABORT", .u8, .w1c, 0x0, false, .mask 0x1, false⟩,
    ⟨0xA0B0, 6, 6, "COLL_PENDING_FULL", .u8, .w1c, 0x0, false, .mask 0x1, false⟩,
    ⟨0xA0C0, 1, 1, "FENCED", .u8, .w1c, 0x0, false, .mask 0x1, false⟩,
    ⟨0xA0C0, 2, 2, "NEIGHBOUR_LOST", .u8, .w1c, 0x0, false, .mask 0x3F, false⟩,
    ⟨0xA0C0, 3, 3, "GHOST_PAIR_REFUSED", .u8, .w1c, 0x0, false, .mask 0x1, false⟩,
    ⟨0xA0C0, 4, 4, "GHOST_DIRECT_EPOCH", .u8, .w1c, 0x0, false, .mask 0x1, false⟩,
    ⟨0xA0C0, 5, 5, "GHOST_HOST_LOST", .u8, .w1c, 0x0, false, .mask 0x1, false⟩,
    ⟨0xA0C0, 6, 6, "GHOSTED_LOST", .u8, .w1c, 0x0, false, .mask 0xFF, false⟩,
    ⟨0xA0C0, 7, 7, "SHADOW_FAILED", .u8, .w1c, 0x0, false, .mask 0x1, false⟩,
    ⟨0xA0C0, 8, 8, "HEALTH_FAILING", .u8, .w1c, 0x0, false, .mask 0x1, false⟩,
    ⟨0xA0C0, 9, 9, "REQUAL_FAILED", .u8, .w1c, 0x0, false, .mask 0x1, false⟩,
    ⟨0xA0C0, 10, 10, "REQUAL_REFUSED", .u8, .w1c, 0x0, false, .mask 0x1, false⟩,
    ⟨0xA0C0, 11, 11, "GHOST_STOPPED", .u8, .w1c, 0x0, false, .mask 0x1, false⟩,
    ⟨0xA0D0, 1, 1, "HOST_LINK_DOWN", .u8, .w1c, 0x0, false, .mask 0x1, false⟩,
    ⟨0xA0D0, 2, 2, "HOST_LINK_DEGRADED", .u8, .w1c, 0x0, false, .mask 0x1, false⟩,
    ⟨0xA0D0, 3, 3, "HOST_READ_ERROR", .u8, .w1c, 0x0, false, .mask 0x1, false⟩,
    ⟨0xA0D0, 4, 4, "HOST_BAR_FAULT", .u8, .w1c, 0x0, false, .mask 0x1, false⟩,
    ⟨0xA0D0, 5, 5, "HOST_POISON_OUT", .u8, .w1c, 0x0, false, .mask 0x1, false⟩,
    ⟨0xA0FF, 1, 1, "ERROR_JOURNAL", .blob, .ro, 0x0, false, .bytes 65536 65536, false⟩,
    ⟨0xA0FF, 2, 2, "ERROR_JOURNAL_COUNT", .u32, .ro, 0x0, false, .full, false⟩,
    ⟨0xA0FF, 3, 3, "ERROR_JOURNAL_DROPPED", .u32, .ro, 0x0, false, .full, false⟩ ]

/-- Entries of 0xB000 (05 R125, 06 R154, 11 R283). -/
def dictPartBa : List Entry :=
  [ ⟨0xB050, 1, 1, "STEP_PHASE", .u8, .ro, 0x0, false, .span 0 2, false⟩,
    ⟨0xB060, 1, 8, "QUEUES_ENABLED", .u64, .ro, 0x0, false, .full, false⟩,
    ⟨0xB060, 9, 9, "HUB_QUEUES_ENABLED", .u16, .ro, 0x0, false, .full, false⟩,
    ⟨0xB061, 1, 8, "QUEUES_IN_ERROR", .u64, .ro, 0x0, false, .full, false⟩,
    ⟨0xB0B0, 1, 1, "COLL_OPEN", .u8, .ro, 0x0, false, .span 0 8, false⟩,
    ⟨0xB0B0, 2, 2, "COLL_PENDING_HS", .u8, .ro, 0x0, false, .span 0 64, false⟩ ]

/-- Entries of 0xC000 (13 R316). -/
def dictPartCa : List Entry :=
  [ ⟨0xC000, 1, 1, "FABRIC_EPOCH", .u16, .rw, 0x0, false, .span 0 65535, false⟩,
    ⟨0xC000, 2, 2, "FENCE_SELF", .u8, .rw, 0x0, false, .span 0 1, false⟩,
    ⟨0xC000, 3, 3, "FAILURE_DOMAIN", .u32, .rw, 0x0, false, .full, true⟩,
    ⟨0xC001, 1, 64, "FENCE_ENTRY", .u32, .rw, 0x0, false, .mask 0x8003FFFF, false⟩,
    ⟨0xC002, 1, 1, "ADMIT", .u16, .wo, 0x0, false, .span 0 65535, false⟩,
    ⟨0xC003, 1, 1, "DETECT_BEATS", .u8, .rw, 0x4, false, .span 1 64, false⟩,
    ⟨0xC003, 2, 7, "NEIGHBOUR_SUSPECT", .u32, .ro, 0x0, false, .mask 0x8003FFFF, false⟩,
    ⟨0xC020, 1, 1, "GHOST_MODE", .u8, .rw, 0x0, false, .span 0 2, false⟩,
    ⟨0xC020, 2, 2, "GHOST_PARTNER", .u32, .rw, 0xFFFFFFFF, false, .mask 0x3FFFF, false⟩,
    ⟨0xC020, 3, 3, "GHOST_WINDOW", .u16, .rw, 0x0, false, .span 0 4088, false⟩,
    ⟨0xC020, 4, 4, "GHOST_ACK_WINDOW", .u16, .rw, 0x0, false, .span 0 4095, false⟩,
    ⟨0xC020, 5, 5, "GHOST_SHARE", .u8, .rw, 0x20, false, .span 1 128, false⟩,
    ⟨0xC020, 6, 6, "GHOST_PERIOD", .u32, .rw, 0x400, false, .span 1 1048576, false⟩,
    ⟨0xC020, 7, 7, "GHOST_BELL", .u16, .rw, 0x0, false, .span 0 4095, false⟩,
    ⟨0xC020, 8, 8, "GHOST_BELL_VALUE", .u64, .rw, 0x0, false, .full, false⟩,
    ⟨0xC020, 9, 9, "GHOST_BELL_STEP", .u64, .rw, 0x1, false, .full, false⟩,
    ⟨0xC020, 10, 10, "GHOST_JOURNAL_MIB", .u16, .rw, 0x0, false, .span 0 32767, false⟩,
    ⟨0xC020, 11, 11, "GHOST_STAGE_MIB", .u16, .rw, 0x100, false, .span 0 4096, false⟩,
    ⟨0xC020, 12, 12, "GHOST_CMD", .u8, .wo, 0x0, false, .span 1 1, false⟩,
    ⟨0xC021, 1, 16, "GHOST_REGION_BASE", .u64, .rw, 0x0, false, .mask 0xFFFFFFFFFFFFFF, false⟩,
    ⟨0xC022, 1, 16, "GHOST_REGION_LENGTH", .u64, .rw, 0x0, false, .multiple 65536 0 0xFFFFFFFFFFFFFFFF, false⟩,
    ⟨0xC023, 1, 1, "GHOST_ACKED_EPOCH", .u64, .ro, 0x0, false, .full, false⟩,
    ⟨0xC023, 2, 2, "GHOST_OWNER_STATE", .u8, .ro, 0x0, false, .span 0 4, false⟩,
    ⟨0xC023, 3, 3, "GHOST_DIRTY_BYTES", .u64, .ro, 0x0, false, .full, false⟩,
    ⟨0xC028, 1, 1, "GHOST_HOST_OWNER", .u32, .rw, 0xFFFFFFFF, false, .mask 0x3FFFF, false⟩,
    ⟨0xC028, 2, 2, "GHOST_HOST_WINDOW", .u16, .rw, 0x0, false, .span 0 4088, false⟩,
    ⟨0xC028, 3, 3, "GHOST_HOST_JOURNAL_MIB", .u16, .rw, 0x0, false, .span 0 32767, false⟩,
    ⟨0xC029, 1, 8, "GHOST_HOST_STATE", .u8, .ro, 0x0, false, .span 0 6, false⟩,
    ⟨0xC029, 9, 9, "GHOST_HOST_EPOCH", .u64, .ro, 0x0, false, .full, false⟩,
    ⟨0xC030, 1, 1, "SHADOW_ROLE", .u8, .rw, 0x0, false, .span 0 2, false⟩,
    ⟨0xC030, 2, 2, "SHADOW_PEER", .u32, .rw, 0xFFFFFFFF, false, .mask 0x3FFFF, false⟩,
    ⟨0xC030, 3, 3, "SHADOW_WINDOW", .u16, .rw, 0x0, false, .span 0 4095, false⟩,
    ⟨0xC030, 4, 4, "SHADOW_REQUIRED", .u32, .rw, 0x1000, false, .span 16 1048576, false⟩,
    ⟨0xC031, 1, 1, "SHADOW_RESULT", .u8, .ro, 0x0, false, .span 0 4, false⟩,
    ⟨0xC031, 2, 2, "SHADOW_MATCHED", .u32, .ro, 0x0, false, .full, false⟩,
    ⟨0xC031, 3, 3, "SHADOW_FAULT", .u64, .ro, 0x0, false, .full, false⟩ ]

/-- The whole table. -/
def dictTable : List Entry :=
  dictPart1a ++ dictPart2a ++ dictPart3a ++ dictPart4a ++ dictPart5a ++ dictPart6a ++ dictPart7a ++ dictPart8a ++ dictPart8b ++ dictPart9a ++ dictPartAa ++ dictPartAb ++ dictPartAc ++ dictPartBa ++ dictPartCa

end Sys2Proof.Machine
end

