-- ==== Sys2Proof/Machine/State.lean ====
section
/-!
DEFINITION. The state of the block: plain data, holding every piece of state the spec gives the module (each field
names the rule), the queue of waiting commands, the reasons a step may stop, and the state at reset: the module with
no input power (log 2).  `SMap` fields hold only entries that differ from their default.
-/

namespace Sys2Proof.Machine

/-- The reasons a step could stop as a fault.  No rule of the spec stops the machine: every failure of the spec is a
completion status, a sticky bit, a result or a refused access, and those are next states. -/
inductive Fault where
  /-- A step could not be told to end.  Raised by nothing in this model; safe. -/
  | stuck (why : String)
  deriving DecidableEq, Repr

/-- The reasons a command could be refused. -/
inductive Refusal where
  /-- The command has no meaning in this model yet, by its mnemonic.  Raised by `exec` only; safe. -/
  | notModelled (mnemonic : String)
  deriving DecidableEq, Repr

/-- The power stage, the sideband pins and the bays (16 R352 to R355; 18 R382, R383, R390). -/
structure Stage where
  inputGood    : Bool          -- the input is good (R352)
  domains      : BitVec 30     -- bit d: domain d reports power good (Table 16.2)
  lastStop     : Byte          -- 0x6000:06 (R353)
  resetCause   : Byte          -- 0x7006:01 (17 R376)
  moduleFailed : Bool          -- MODULE_FAULT_N is low while set (18 Table 18.1)
  straps       : BitVec 4      -- the straps as sampled at the last start of the hub (18 R383)
  latch        : BitVec 2      -- bit b: the latch of bay b is closed (18 R390)
  deriving DecidableEq, Repr

/-- What is fixed at production test or held in fuses (00 R3, R4, R6; 17 R370, R381). -/
structure Fuses where
  partNumber : List Byte
  serial     : List Byte
  mac        : BitVec 48
  cert       : List Byte
  mask       : Word             -- the fused array mask (00 R4)
  romVersion : BitVec 16
  keyRevoked : BitVec 4
  svn        : BitVec 16        -- FUSED_SVN
  deriving DecidableEq, Repr

/-- A persistent dictionary image in flash (15 R345): records by index·256 + sub. -/
structure DictCopy where
  valid : Bool
  seq   : Nat
  recs  : SMap (List Byte)
  deriving DecidableEq, Repr

/-- One entry of the error journal (15 R349). -/
structure JEntry where
  powerUps : BitVec 32
  beat     : Word
  index    : BitVec 16
  sub      : Byte
  bit      : Byte
  deriving DecidableEq, Repr

/-- One pseudo-channel retirement of a stack: its place in the retirement list (07 R174). -/
structure PcRetire where
  pc  : Nat
  gib : Nat
  deriving DecidableEq, Repr

/-- The memory record of one die (07 R178): tier repairs, lent lines, holes, the repairs of its arrays' buffers, the
retirement list and the record of a retirement in progress with its durable cursor (none: the removal is not durable).
A tier row is named by its place in the tier, quadrant · 196,608 + line within the quadrant (07 R157). -/
structure MemRec where
  rowSpares : SMap Nat            -- spare rows used, by bank
  colSpares : SMap Nat            -- column groups used, by bank
  spared    : List Nat            -- rows moved to a spare
  lent      : List Nat            -- rows lent a line (R161)
  holes     : List Nat            -- rows that are holes
  accSpares : SMap Nat            -- spare rows used of an array's accumulator buffer, by array (R163)
  feedSpares : SMap Nat           -- and of its feeder's feed buffer
  list      : List PcRetire       -- completed retirements
  active    : Option PcRetire     -- the retirement whose record is durable
  cursor    : Option Nat          -- its durable cursor
  deriving DecidableEq, Repr

/-- One of the two copies of the memory record in flash, of every die (07 R178). -/
structure MemCopy where
  valid : Bool
  seq   : Nat
  recs  : SMap MemRec
  deriving DecidableEq, Repr

/-- The lanes of an ordered die pair: lane i's wavelength, the spares that are free, and the die that relays a pair with
no lane left (08 R181, R188 to R190). -/
structure PairLanes where
  map    : List (Option Lam)
  spares : List Lam
  relay  : Option Nat
  deriving DecidableEq, Repr

/-- The module flash (17, first paragraph). -/
structure Flash where
  image      : List Byte          -- the firmware image slot (17 R374, R375)
  imageTorn  : Bool               -- an interrupted write left no bootable image (17 R375)
  factory    : Bool               -- the slot still holds the image that production test wrote and verified (log 4)
  copyA      : DictCopy
  copyB      : DictCopy
  retired    : Word               -- array retirements (02 R54)
  bumpSpared : List BumpGroup     -- vertical repair map: groups with the spare in use (01 R19)
  bumpDead   : List BumpGroup     -- and groups exhausted
  laneMaps   : SMap (Option PairLanes)   -- die-to-die lane maps by pair (08 R190)
  lambdas    : List (Xcvr × Lam × Bool)  -- fibre wavelengths retired for good (10 R250)
  mem        : SMap MemRec        -- the memory record that the stack controllers apply, by die (07 R178)
  memA       : MemCopy            -- its two copies
  memB       : MemCopy
  journal    : SMap JEntry        -- the error journal, by place (15 R349)
  journalCnt : Nat                -- 0xA0FF:02
  bankPower  : SMap Int           -- in the identity memory of the bank in each bay: commissioning power, by 18·bay + λ, mdBm (10 R258)
  bankSource : SMap Nat           -- and source in use, by 18·bay + λ: 1 the spare (10 R258)
  deriving DecidableEq, Repr

/-- One entry of the measured-boot log (17 R371). -/
structure LogEntry where
  typ    : Byte
  tick   : Word
  digest : List Byte
  deriving DecidableEq, Repr

/-- A reset that has been asked for through RESET_CMD and takes effect after its reply (17 R376). -/
inductive ResetAsk where
  | module
  | hub
  | die (mask : Byte)
  deriving DecidableEq, Repr

/-- Start-up and security state (17). -/
structure Boot where
  rom         : Byte              -- ROM STATE of Table 17.6
  reason      : Byte              -- 0x7005:03
  firmware    : Bool              -- the firmware runs
  loaded      : Bool              -- the dictionary is loaded (15 R347)
  complete    : Bool              -- boot complete (R368)
  dead        : Bool              -- both hub clock vias or the master PLL lost (01 R26)
  log         : List LogEntry
  running     : List Byte         -- the running digest, 64 bytes
  identityOk  : Bool              -- R372
  fwVersion   : BitVec 32         -- of the running image
  imageSvn    : BitVec 16
  keyIndex    : Byte
  imageDigest : List Byte
  quote       : List Byte         -- ATTEST_QUOTE
  update      : Byte              -- FW_UPDATE_STATE
  pendingImg  : List Byte         -- the image an update is writing
  reset       : Option ResetAsk   -- a reset asked for and not yet taken
  resetAt     : Word              -- tick at which its reply was sent (R376)
  watchdog    : Bool              -- the last start followed the watchdog
  deriving DecidableEq, Repr

/-- An MSI-X table entry (14 R323). -/
structure MsixEntry where
  addr   : Word
  data   : BitVec 32
  masked : Bool
  deriving DecidableEq, Repr

/-- What an outstanding host read is for (14 R322): a ring fetch, a piece of a COPY at an offset of it, a piece of the
payload of a PUT or SEND, or a ring fetch that has been discarded (06 R128, R144). -/
inductive ReadFor where
  | fetch (q : Nat) (idx : BitVec 32)
  | copy (q : Nat) (idx : BitVec 32) (off : Nat)
  | put (q : Nat) (idx : BitVec 32) (off : Nat)
  | dropped
  deriving DecidableEq, Repr

/-- An outstanding host read. -/
structure HostRead where
  tag  : Nat
  addr : Nat
  len  : Nat
  use  : ReadFor
  got  : List Byte               -- bytes that have come
  marks : List Bool              -- and whether each came with EP = 1
  deriving DecidableEq, Repr

/-- A write to host memory that waits while the function may issue no request (14 R322 rule 7). -/
structure HeldWrite where
  addr    : Nat
  data    : List Byte
  ep      : Bool
  relaxed : Bool
  deriving DecidableEq, Repr

/-- The PCIe function (14). -/
structure HostIf where
  errVector  : BitVec 11
  mgmtVector : BitVec 11
  msix       : SMap MsixEntry
  pba        : SMap Bool
  fnMask     : Bool
  msixEnable : Bool
  busMaster  : Bool
  d3hot      : Bool
  mps        : Nat
  mrrs       : Nat
  relaxed    : Bool
  linkUp     : Bool
  width      : Byte
  rate       : Byte
  perst      : Bool              -- PERST_N has been asserted and the link not yet trained again
  mbxBusy    : Bool
  mbxDone    : Bool
  mbxStatus  : Byte
  reqLen     : BitVec 16
  reqBuf     : SMap Byte
  rspBuf     : List Byte
  reads      : List HostRead
  nextTag    : Nat
  held       : List HeldWrite    -- writes to host memory that wait until requests may be issued, oldest first
  deriving DecidableEq, Repr

/-- The states of a queue (06 Table 6.3). -/
inductive QState where
  | disabled
  | running
  | parking
  | parked
  | error
  deriving DecidableEq, Repr

/-- A descriptor a queue has fetched and not issued (06 R142, R396): its ring index, its sixteen words and the first
poisoned word, if any. -/
structure Fetched where
  idx    : BitVec 32
  words  : List Word
  poison : Option Nat
  deriving DecidableEq, Repr

/-- How far an issued descriptor has come.  `ready` may run its type's step, `working` waits for replies or for its
tile, program, copies or collective, `finished` may complete. -/
inductive JobPhase where
  | ready
  | working
  | finished
  deriving DecidableEq, Repr

/-- An issued descriptor that has not completed (06 R139, R140). -/
structure Job where
  idx      : BitVec 32
  words    : List Word
  phase    : JobPhase
  status   : Byte
  detail   : BitVec 32
  fp       : Byte
  taken    : Bool
  predicted : Option Bool        -- the prediction of a BRANCH (06 R143)
  late     : Bool
  array    : Option Nat
  poisoned : Bool                -- a poisoned word moved or was produced
  need     : Nat                 -- replies and sub-operations still awaited
  entries  : Nat                 -- BELL: entries performed
  nextOff  : Nat                 -- bytes already sent; of a fixed kernel, rows stored; of a REPLAY, descriptors reissued
  plane    : Nat                 -- the next plane of the round-robin (09 R211)
  bitmap   : BitVec 32           -- MCAST: members written (09 R222)
  wrTags   : List (BitVec 16)    -- write-backs of its release still unacknowledged (08 R194)
  released : Bool                -- its release has been started
  replay   : Option (Nat × BitVec 32)  -- reissued by the REPLAY of this queue and ring index (05 R121)
  outcomes : List Bool           -- recorded outcomes still to use: of a REPLAY, or from a reissued BRANCH on
  waitFrom : Option Word         -- REPLAY: tick at which the wait of the descriptor it reissues next began
  watch    : Option (BitVec 16)  -- REPLAY: the tag of that wait's watch on another die
  notified : Bool                -- REPLAY: its NOTIFY has come
  parts    : List (Nat × List Byte × List Bool)  -- SEND: pieces of its payload read so far, with their marks
  cqOld    : Option (Word × BitVec 4 × BitVec 32)  -- the ring configured before a function-level reset (14 R326)
  deriving DecidableEq, Repr

/-- A hardware queue (06 Table 6.2, 6.3).  INFLIGHT is the number of its issued descriptors. -/
structure Queue where
  vector   : BitVec 11
  holdoff  : BitVec 16
  ringLog2 : BitVec 4
  state    : QState
  park     : Bool
  ringBase : Word
  tail     : BitVec 32
  head     : BitVec 32
  cqBase   : Word
  cqLog2   : BitVec 4
  cqTail   : BitVec 32
  cqHead   : BitVec 32
  ackHeld  : Bool
  inputs   : List Word
  fetched  : List Fetched
  fetchAt  : BitVec 32           -- ring index of the next fetch
  jobs     : List Job
  waitAt   : Option Word         -- tick at which the head's wait began (06 R149)
  watch    : Option (BitVec 16)  -- the tag of the watch that stands for it on another die
  notified : Bool                -- its NOTIFY has come
  waitOpen : Bool                -- the head's wait began in its open phase, which it holds open (05 R115)
  lastRaise : Option Word
  raiseHeld : Bool
  releaseTags : List (BitVec 16) -- PARKED waits for these write-backs (08 R194)
  deriving DecidableEq, Repr

/-- One block of the block table (05 R120). -/
structure Block where
  queue    : Nat
  first    : BitVec 32
  last     : BitVec 32
  record   : Bool
  live     : Bool                -- recording goes on
  outcomes : List Bool
  deriving DecidableEq, Repr

/-- A speculative fill (06 R142): the copy it is for, its source's cells from `lo` to `hi`, the lines it holds with the
way each has in its set, their data, the words of it that a scrub has marked poisoned, and the lines gone stale. -/
structure SpecFill where
  queue : Nat
  idx   : BitVec 32
  lo    : Nat
  hi    : Nat
  lines : List Nat
  ways  : List Nat
  data  : List Byte
  marks : List Nat
  stale : List Nat
  deriving DecidableEq, Repr

/-- A command processor (06; 05 R116, R120): die 0 to 7, 8 the hub. -/
structure Cp where
  predictor : SMap Nat           -- two-bit counters, default 1 (R143)
  blocks    : SMap Block
  specs     : List SpecFill
  slices    : Nat                -- slices emitted and not read (05 R116)
  deriving DecidableEq, Repr

/-- The device's training phase (05 R113, R114, R119). -/
structure Train where
  phase   : BitVec 2
  held    : BitVec 2             -- phase of a held descriptor, 0 none
  ranges  : List (Nat × Nat)     -- frozen ranges in force: base and length
  deriving DecidableEq, Repr

/-- A watch at a bell's die (06 R149). -/
structure Watch where
  bell  : Nat
  value : Word
  die   : Nat
  tag   : BitVec 16              -- names the wait at its die
  deriving DecidableEq, Repr

/-- A scheduled strike (06 R151). -/
structure Sched where
  bell : Nat
  add  : Word
  tick : Word
  src  : Option Nat              -- another die's strike: that die, whose allowance it holds
  deriving DecidableEq, Repr

/-- A tile open in an array's drain (02 R44; 06 R133).  `base` and `rows` are in rows of 2 KiB; `acc` is indexed by
512·row + column. -/
structure TileCtx where
  queue  : Nat
  idx    : BitVec 32
  base   : Nat
  rows   : Nat
  word   : Word                  -- the tile operation word
  acc    : SMap Word
  nans   : SMap Bool
  poison : SMap Bool
  fp     : Byte
  seq    : Nat                   -- its place in the array's issue order (02 R55; 06 R133)
  done   : Bool                  -- the last chunk has completed in every row
  held   : Bool                  -- waits for a slice slot (05 R116)
  rscale   : List Nat            -- row and channel scales, read with the last chunk (02 R46)
  cscale   : List Nat
  deriving DecidableEq, Repr

/-- An array with its feeder and drain (02; 06 R145). -/
structure Arr where
  owner    : Option Nat          -- owning queue
  since    : Word                -- on the clock of passed ticks: start of the beat in which the owner took it
  closing  : Bool                -- the quantum has passed and a queue waits
  tiles    : SMap (Option TileCtx)
  kat      : Bool                -- self-test in progress
  lastBad  : List Word           -- ticks of mismatches (02 R54)
  katTurn  : Word                -- tick at which its last known-answer test was taken (02 R53)
  accOut   : List Nat            -- rows of the accumulator buffer that wait for a spare (07 R163)
  feedOut  : List Nat            -- rows of the feed buffer that wait for one
  finds    : List (BufErr × Word)  -- corrected words of both buffers, with their ticks (07 R160, R163)
  deriving DecidableEq, Repr

/-- A vector register: its 2,048 elements and its poison flag (04 Table 4.1, R91). -/
structure VReg where
  elems   : List (BitVec 32)
  poison  : Bool
  deriving DecidableEq, Repr

/-- A line of a remote-cache region (08 R192, R193).  `slot` is the board slot and `die` the die of its owner. -/
structure RcLine where
  slot   : Nat
  die    : Nat
  line   : Nat
  data   : List Byte
  valid  : BitVec 512
  dirty  : BitVec 512
  poison : BitVec 64
  tag    : Nat
  use    : Nat
  way    : Nat                   -- its place in its set
  deriving DecidableEq, Repr

/-- One execution context of a vector engine (04 R86, R94). -/
structure VeRun where
  active  : Bool
  queue   : Nat
  idx     : BitVec 32
  prog    : Nat
  pc      : Nat
  cycles  : Nat
  fp      : Byte
  poison  : Bool
  v       : SMap VReg
  vw      : SMap Bool            -- V registers written by the program
  s       : SMap Word
  sw      : SMap Bool
  sp      : SMap Bool            -- scalar registers marked poisoned
  m       : SMap (List Nat)      -- mask registers: elements set
  mw      : SMap Bool
  mp      : SMap Bool            -- mask registers written from a poisoned source
  loops   : SMap Word            -- passes of a LOOP, by its index
  pubs    : List (Nat × Word)    -- branch inputs published, latest first (R95)
  lines   : List RcLine           -- lines of other dies delivered to the load that waits (08 R191)
  deriving DecidableEq, Repr

/-- A vector engine: its two contexts, its hold by a collective, and the staging registers (04 R86, R105, R106). -/
structure Ve where
  main   : VeRun
  update : VeRun
  hold   : Option Nat            -- COLL_ID that holds the die
  stage  : SMap VReg
  deriving DecidableEq, Repr

/-- An update request handed to a lane (04 R100; 05 R117). -/
structure UpdReq where
  queue  : Nat
  idx    : BitVec 32
  words  : List Word             -- the four words of Table 6.12
  slice  : Nat                   -- address of the emitted slice
  rows   : Nat
  cols   : Nat
  stride : Nat
  at_    : Word                  -- tick of the hand-off
  running : Bool
  block  : Nat                   -- blocks stored
  loaded : Bool                  -- the user program has been started on the next block (04 R101)
  wrTags : List (BitVec 16)
  fp     : Byte
  poisoned : Bool
  ending : Option (Byte × Nat)   -- it ends with this status and DETAIL once its release is acknowledged (08 R194)
  freed  : Bool                  -- its slice has been read whole and its count freed (05 R117)
  deriving DecidableEq, Repr

/-- A tier (07 R157 to R162; 01 R20). -/
structure Tier where
  quads    : List Nat            -- the quadrants in the map (Q of R157)
  clkTwin  : Bool                -- its twin clock via is in use (01 R26)
  out      : BitVec 4            -- quadrants mapped out
  ports    : BitVec 8            -- ports in service
  rcMib    : Nat                 -- region size in force
  rcHeld   : Option Nat          -- a held size
  rowFinds : List (Nat × Nat × Word)  -- corrected finds: row, bit position + 72·word, tick
  deriving DecidableEq, Repr

/-- An HBM stack (07 R165 to R177). -/
structure Hbm where
  retired   : BitVec 64          -- pseudo-channels out of service
  list      : List PcRetire
  removed   : Option Nat         -- a removal not yet complete: its GiB
  phase     : Nat                -- 0 idle, 1 record, 2 notice, 3 migration
  pc        : Nat
  gib       : Nat
  noticeAt  : Word               -- tick at which the notice began
  batch     : Nat                -- batches copied
  cursor    : Nat                -- durable cursor
  waiting   : List Nat
  ceTicks   : List (Nat × Word)  -- corrected words: pseudo-channel and tick
  ueRows    : List (Nat × Nat × Word)
  deriving DecidableEq, Repr

/-- A remote-cache region (08 R192, R195). -/
structure Rc where
  lines : List RcLine
  clock : Nat
  gen   : Nat
  deriving DecidableEq, Repr

/-- A lane swap in progress on a pair (08 Table 8.4): the switch SEQ, and whether B has read SWAP_ACK. -/
structure Swap where
  lane  : Nat
  spare : Nat
  at_   : Option (BitVec 12)
  acked : Bool
  deriving DecidableEq, Repr

/-- A message header that has been read from a header flit: its message without data, and PX (08 Table 8.2). -/
structure MsgHead where
  msg : D2dMsg
  px  : Bool
  deriving DecidableEq, Repr

/-- What the receiver of a pair holds of one class (08 R183, R185): the flits it has accepted and not drained, with
their kind, the headers drained from them, and the stream of data drained. -/
structure RxClass where
  buf    : List (Nat × List Byte)
  heads  : List MsgHead
  stream : List Byte
  deriving DecidableEq, Repr

/-- One flit's packet bytes, with SOP and EOP (09 R208, R209). -/
structure PktFlit where
  sop   : Bool
  eop   : Bool
  bytes : List Byte
  deriving DecidableEq, Repr

/-- The fabric's crossing of a die pair in flits of KIND 4 (09 R209): flits that wait at the sender, its credits, the
flits that the receiver holds, and the running counts of frees; classes 0 to 5, and 6 for circuits. -/
structure Cross where
  wait   : List (Nat × PktFlit)  -- flits that wait, with their class
  u      : List Nat              -- flits sent and not freed, by class
  shared : Nat                   -- shared credits free
  seen   : List (BitVec 8)       -- frees read, by class
  rx     : List (List PktFlit)   -- flits accepted and not drained, by class
  freed  : List (BitVec 8)       -- frees counted, by class
  told   : List (BitVec 8)       -- the counts last returned
  deriving DecidableEq, Repr

/-- One ordered die pair (08 R181 to R190). -/
structure Pair where
  next     : BitVec 12           -- sender: next SEQ
  acked    : BitVec 12           -- sender: last ACK read
  replay   : List (List Byte)    -- sender: flits sent and not acknowledged, oldest first (R184)
  wait     : List (Nat × D2dMsg) -- sender: messages with no flit formed yet, with their class on this pair
  ready    : List (Nat × Nat × List Byte)  -- sender: flits formed and not sent: class, kind, body
  sentMsgs : List (Nat × D2dMsg) -- messages with flits formed that the receiver has not taken, with their class
  ctlOut   : List (List Byte)    -- sender: lane-control bodies that wait for room
  seen     : List (BitVec 8)     -- sender: frees read, by class
  sent     : List Nat            -- sender: flits sent and not seen freed, by class
  turn4    : Bool                -- sender: the next flit is KIND 4's, if both kinds are ready (R182)
  cross    : Cross
  expect   : BitVec 12           -- receiver: next SEQ expected
  nak      : Bool                -- receiver: asks for a resend
  rx       : List RxClass        -- receiver: what it holds, by class
  ctl      : List (List Byte)    -- receiver: lane-control bodies accepted
  freed    : List (BitVec 8)     -- receiver: running counts of frees, by class
  bad      : List (List Byte)    -- receiver: the discarded copies of the flit expected
  flits    : Nat                 -- receiver: flits received, for the window of R187
  charges  : List (Nat × Nat)    -- receiver: lane and flit number of each charge
  lanes    : PairLanes
  degraded : Bool                -- it has lost a lane that no spare covers (R189)
  swaps    : List Swap
  retrain  : Bool
  deriving DecidableEq, Repr

/-- A message between dies that has not been received. -/
structure Flying where
  src : Nat
  dst : Nat
  msg : D2dMsg
  deriving DecidableEq, Repr

/-- What a request to another die, or to another device of the board, is for (08 R191 to R195; 09 R202): a write-back
of a release, of a queue that parks, of an update request; an evicted line of a writer tag, or a store past the region
with the descriptor that made it; a line that a vector-engine context waits for; a piece of a COPY, or of the payload of a PUT or SEND, at an offset of it. -/
inductive D2dFor where
  | release (q : Nat) (idx : BitVec 32)
  | park (q : Nat)
  | update
  | store (tag : Nat)
  | posted (tag : Nat) (q : Nat) (idx : BitVec 32)
  | fill (upd : Bool) (line : Nat)
  | copy (q : Nat) (idx : BitVec 32) (off : Nat)
  | put (q : Nat) (idx : BitVec 32) (off : Nat)
  deriving DecidableEq, Repr

/-- A request to another die, or to another device of the board, awaiting its reply (08 R191, R197). -/
structure D2dReq where
  die   : Nat                    -- the requester
  tag   : BitVec 16
  slot  : Nat                    -- the owner's board slot and die
  owner : Nat
  at_   : Word
  off   : Nat                    -- offset in the owner's map
  len   : Nat
  use   : D2dFor
  gen   : Nat                    -- of the requester's region when it was sent (08 R195)
  deriving DecidableEq, Repr

/-- A registered window (09 R204). -/
structure Window where
  base   : Nat
  len    : Nat
  put    : Bool
  pull   : Bool
  filter : Option (BitVec 18)
  deriving DecidableEq, Repr

/-- A registered receive queue (09 R205). -/
structure RecvQ where
  base      : Nat
  slotLog2  : Nat
  slotsLog2 : Nat
  ctrl      : Nat
  bell      : Option Nat
  deriving DecidableEq, Repr

/-- A circuit this device sources (09 R220, R221). -/
structure Circuit where
  id      : BitVec 12
  queue   : Nat
  idx     : BitVec 32
  dst     : BitVec 18
  window  : BitVec 12
  plane   : Nat
  lanes   : BitVec 16
  isOpen  : Bool
  closing : Bool
  deriving DecidableEq, Repr

/-- A detour entry (09 R211). -/
structure Detour where
  lo   : BitVec 18
  hi   : BitVec 18
  mask : Byte
  deriving DecidableEq, Repr

/-- A plane port (09 R201, R213 to R215; 13 R299). -/
structure PortSt where
  state    : Nat                 -- 0 down, 1 training, 2 up
  spans    : Nat
  peer     : BitVec 18
  lanes    : BitVec 16           -- outgoing circuit lanes reserved
  u        : List Nat            -- flits sent and not freed, by class
  sharedFree : Nat
  laneU    : SMap Nat
  freed    : SMap Nat            -- running counts of frees at this receiver, classes 0 to 5, lanes from 6
  told     : SMap Nat            -- the counts last returned
  turn     : Nat                 -- the class or lane whose turn it is to be returned (R214)
  rx       : SMap (List PktFlit) -- flits that this receiver holds, by class or lane (R213, R216)
  seen     : SMap Nat            -- frees read, by class or lane
  bells    : List Word           -- ticks of BELL flits not yet freed
  heard    : Word                -- tick of the last flit accepted
  known    : Bool                -- a peer has been heard since training
  mins     : List Nat            -- CLASS_MIN in force (effective at training)
  deriving DecidableEq, Repr

/-- An outstanding fabric request (09 R221, R225). -/
structure Req where
  tag     : BitVec 16
  queue   : Nat
  idx     : BitVec 32
  die     : Nat
  at_     : Word
  leftAt  : Option Word          -- when its last flit left a port (R221)
  typ     : BitVec 5
  packet  : Packet
  circuit : Option (BitVec 12)
  resent  : Bool
  ghost   : Bool                 -- a put of the ghost engine
  deriving DecidableEq, Repr

/-- The fabric router (09). -/
structure Fab where
  windows  : SMap (Option Window)
  rqs      : SMap (Option RecvQ)
  circuits : List Circuit
  hops     : List HopEntry
  detours  : List Detour
  coord    : Option (BitVec 18)  -- the coordinate in force
  orders   : List Byte           -- plane orders in force
  released : Bool
  ports    : SMap PortSt
  reqs     : List Req
  nextTag  : BitVec 16
  spent    : List (BitVec 16 × Word)  -- tags not to be reused yet (R225)
  held     : List (Nat × Packet) -- packets of the slice's own die that wait for credit, by port (R214)
  own      : List Packet         -- packets of this device to itself, not taken yet
  ends     : List (BitVec 18 × BitVec 12 × BitVec 12)  -- circuits that end here: source, circuit, window (R204, R220)
  deriving DecidableEq, Repr

/-- A change of one λ that a transmitter wants: its new code (17 to 19, or 16 to restore a dropped lane on it), the
REASON, and the tick to propose, if it is fixed (10 R247 to R255, R260). -/
structure Want where
  lam    : Nat
  code   : Nat
  reason : Nat
  tick   : Option Word
  lead   : Option Nat
  deriving DecidableEq, Repr

/-- A lane-map change that is proposed, agreed or committed (10 R246, R247), with the wish it serves. -/
structure Change where
  want      : Option Want
  reason    : BitVec 4
  tick      : Word
  cw        : Word
  map       : List (BitVec 5)
  committed : Bool
  isLost    : Bool
  deriving DecidableEq, Repr

/-- The calibration rotation of one fibre direction, as each of its two ends follows it (10 R252 to R255). -/
structure Rotation where
  window  : Nat                  -- next window
  done    : Nat                  -- windows of the rotation done: the next λ is this number modulo 18
  cal     : Option Lam           -- λ in its window
  retry   : Option Lam           -- λ to be calibrated ahead of the rotation (R254)
  badRuns : SMap Nat             -- verify failures in a row, by λ
  lastCal : SMap Word            -- tick of the last calibration, by λ
  rounds  : Nat                  -- rounds completed
  deriving DecidableEq, Repr

/-- A transceiver and its two fibre directions (10 R234 to R256). -/
structure Fibre where
  txMap    : List (BitVec 5)
  rxMap    : List (BitVec 5)
  txChange : Option Change
  rxChange : Option Change
  txLost   : List Change         -- LOSTs that wait for their codewords, in order (R249)
  rxLost   : List Change
  wants    : List Want           -- changes to be proposed when none is pending
  txCw     : Word                -- codeword that began at `txAt`, in 1/64 ns of the clock (R241)
  txAt     : Nat
  rxCw     : Word
  rxAt     : Nat
  nextSeq  : BitVec 13
  acked    : BitVec 13
  expect   : BitVec 13
  nak      : Bool
  replay   : List (List Byte)    -- flits sent that carry a SEQ and are not acknowledged, oldest first (R243)
  laneOut  : List LaneMsg        -- lane-control messages that wait for room in the replay buffer
  laneIn   : List LaneMsg        -- lane-control messages received and not acted on
  charged  : SMap Nat            -- bits corrected, by logical lane (R242)
  counted  : Word                -- codewords below this index have been counted, corrected or not (R242)
  ackAt    : Word                -- tick of the last advance of ACK
  training : Nat                 -- 0 untrained, 1 training, 2 trained
  trainAt  : Word                -- tick at which the training began
  fails    : Nat                 -- trainings failed in a row
  everUp   : Bool                -- working points are stored
  origin   : Word                -- round origin of the transmitting direction
  rxOrigin : Word
  far      : Nat                 -- the far transceiver's index modulo 16, which staggers its windows (R252)
  txCal    : Rotation            -- of the transmit direction
  rxCal    : Rotation            -- of the receive direction
  exchanged : Bool               -- the link's first tempo exchange has completed
  margins  : SMap Int            -- mdB, by λ
  bers     : SMap Nat            -- binary32 patterns, by λ
  reserve  : SMap Nat
  deriving DecidableEq, Repr

/-- A laser bank (10 R258 to R260): source state of each λ and the spare's readiness. -/
structure Bank where
  source  : SMap Nat             -- 0 primary, 1 spare, 2 vacating, 3 spare warming, 4 none
  locked  : SMap Bool            -- the warming spare has locked
  left    : List (Nat × Nat)     -- die pairs (9a + b) that a vacate took off a λ (R260)
  warmAt  : SMap Word            -- tick at which the spare of a λ was powered (R260)
  taps    : SMap (List Int)      -- tap readings of the last 16 beats, mdBm, newest first, by λ (R258)
  deriving DecidableEq, Repr

/-- The first-order thermal model of a tile's ring controllers (10 R257): its gain in mK per W and its time constant in
ns, the rise of the base it predicts, in µK, the die power last sent, in mW, and the heater correction, in nW. -/
structure RingModel where
  gain : Nat
  tau  : Nat
  rise : Int
  mw   : Nat
  heat : Int
  deriving DecidableEq, Repr

/-- An open collective (11). -/
structure Coll where
  cid      : BitVec 12
  queue    : Nat
  idx      : BitVec 32
  words    : List Word
  epoch    : BitVec 16
  started  : Bool
  ok       : Bool
  fail     : Option (BitVec 18)
  reason   : Bool
  axis     : Nat                 -- index in AXIS_SEQ
  lap      : Nat                 -- CHS laps seen on this axis
  data     : Bool                -- data phase
  step     : Nat                 -- steps done, reduce then gather
  got      : List Nat            -- element offsets received in the step
  lastPkt  : Word
  poisoned : Bool
  deriving DecidableEq, Repr

/-- The collective engine (11 R274, R280, R281).  `out` holds the packets that wait until a plane that their PLANE_MASK
permits is up (R266), each with its mask. -/
structure CollEng where
  opens  : List Coll
  closed : List (BitVec 12)
  pend   : List Packet
  early  : List Packet
  out    : List (Nat × Packet)
  deriving DecidableEq, Repr

/-- The vector last heard on a link, by direction (12 R287). -/
structure Heard where
  sync     : BitVec 2
  priority : Byte
  root     : BitVec 18
  depth    : Byte
  deriving DecidableEq, Repr

/-- The last tempo flit accepted on a port, for the echo (12 Table 12.2). -/
structure Echo where
  txTick : Word
  txFrac : Byte
  rxTick : Word
  rxFrac : Byte
  deriving DecidableEq, Repr

/-- Tempo (12).  Offsets θ and delays δ are in units of 1/512 ns; `incr` has 32 fraction bits. -/
structure Tempo where
  ticks    : Word
  passed   : Word                -- ticks as they pass: a step moves `ticks` alone (R285)
  frac     : BitVec 32
  incr     : Word
  state    : Nat                 -- Table 12.1
  isRoot   : Bool
  root     : Option (BitVec 18)
  rootPrio : Byte
  depth    : Nat
  parent   : Option (Fin 6)
  heard    : SMap (Option Heard)
  echoes   : SMap (Option Echo)
  beatOf   : List (Int × Int)    -- accepted samples of the beat: θ and δ
  held     : List (Int × Int)
  median   : Option Int          -- the previous beat's median δ, or its stand-in
  run      : Nat                 -- consecutive close samples
  sampleAt : Word                -- tick of the last accepted sample
  firstUp  : Option Word         -- tick at which the first port came up
  holdAt   : Word                -- tick at which HOLDOVER was entered
  waiting  : Bool                -- no sample accepted since LOCKING was entered from LOCKED
  lastDepth : Nat
  lastRoot : Option (BitVec 18)
  sent     : SMap (Option Nat)   -- the period of a port's last tempo flit (R288)
  servoAt  : Word                -- beat of the last servo (R289)
  selectAt : Word                -- beat of the last choice of a parent (R287)
  deriving DecidableEq, Repr

/-- A shadow record (13 R310). -/
structure Shadow where
  queue  : Nat
  idx    : BitVec 32
  digest : Word
  poisoned : Bool
  deriving DecidableEq, Repr

/-- The resilience engines (13). -/
structure Resil where
  fenced    : Bool
  mode      : Nat                -- GHOST_MODE in force
  owner     : Nat                -- GHOST_OWNER_STATE
  paired    : Bool               -- an ACK with EPOCH 0 has come
  openSet   : List Nat           -- dirty blocks of the open epoch
  closing   : List Nat           -- blocks of the closing set not yet sent
  unacked   : List Nat           -- blocks of the closing set sent in the epoch
  staged    : SMap (List Byte × List Bool)  -- old contents of staged blocks and their words' marks, by block
  epoch     : Word               -- number of the last mark's epoch
  direct    : Byte               -- stacks sent in direct mode
  jcount    : SMap Nat           -- journal entries used, by stack
  blocks    : Nat                -- blocks sent in the epoch
  crc       : Word               -- DATA_CRC so far
  puts      : Nat                -- puts not acknowledged
  bellNext  : Word               -- the threshold of mode 2
  stepped   : Bool               -- a forward step passed a marking beat (13 R304)
  markAt    : Word               -- beat whose boundary was last judged (13 R304)
  hostState : SMap Nat           -- Table 13.3, by stack
  hostNew   : Word               -- epoch being received or applied
  rx        : List (Nat × Nat)   -- host: 64 KiB units received, in order: stack and offset in its window
  records   : Nat                -- leader: records sent
  theirs    : List Shadow
  ours      : List Shadow
  passedOk  : Bool               -- SHADOW_RESULT has read 2 since the last fencing and hub reset
  deriving DecidableEq, Repr

/-- The health judgement (13 R312 to R315): the debt, the debt of what a running requalification finds, and the beats
that Table 13.8 and R315 count from. -/
structure Health where
  debt      : Nat
  found     : Nat
  failBeat  : Word               -- beat of the last failed check
  beatIn    : Word               -- beat of entry to the state
  starts    : List Word          -- moments of requalification starts, in ticks as they pass (12 R285)
  running   : Bool
  destroy   : Bool
  judgedAt  : Word               -- beat whose boundary was last judged (13 R314)
  decayAt   : Word               -- tick to which the debt has decayed (13 R313)
  survey    : Bool               -- a margin survey has run since power-up and the last requalification's start (13 R312)
  rounds    : SMap (Nat × Nat)   -- calibration rounds of each fibre at the last requalification's start (13 R312)
  deriving DecidableEq, Repr

/-- A nonce that has been issued (15 R342). -/
structure Nonce where
  src   : Source
  value : BitVec 128
  at_   : Word
  deriving DecidableEq, Repr

/-- A reply held for one source (15 R335). -/
structure Cached where
  src   : Source
  seq   : BitVec 32
  req   : List Byte
  reply : List Byte
  deriving DecidableEq, Repr

/-- A token bucket (15 R339): billionths of a token and the tick they were counted at. -/
structure Bucket where
  addr   : BitVec 128
  tokens : Nat
  at_    : Word
  deriving DecidableEq, Repr

/-- A persistent write waiting to be durable (15 R346). -/
structure StoreJob where
  msg   : BdpMsg
  key   : Nat
  value : List Byte
  again : Bool                   -- the first read-back failed
  silent : Bool                  -- its mailbox request was cleared: no reply (14 R326)
  deriving DecidableEq, Repr

/-- The management controller (15). -/
structure Mgmt where
  nonces   : List Nonce
  draws    : Nat
  cache    : List Cached
  buckets  : List Bucket
  dadBad   : Bool                -- a duplicate address was found (R337)
  txq      : Nat                 -- frames waiting for transmission
  store    : Option StoreJob
  waiting  : List (BdpMsg × List HopEntry)
  fallback : Bool                -- PLCA has fallen back to CSMA/CD (R336)
  secondAt : Word                -- start of the journal's second
  inSecond : Nat
  jwait    : List JEntry         -- entries not yet in flash
  deriving DecidableEq, Repr

/-- The thermal manager of a stack (16 R358 to R363).  Temperatures in m°C, power in mW, R_j in µK/W, τ in ns. -/
structure Therm where
  started  : Bool
  pf       : Int                 -- µW
  rj       : Nat
  tau      : Nat
  tModel   : Int
  tGov     : Int
  cdMax    : Option Int          -- highest trusted compute-die reading
  low      : Option Int          -- the bound L of the last check
  fails    : SMap Nat            -- checks failed in a row: 0–15 base, 16–31 tier, 32–63 compute die
  capTh    : Nat                 -- steps
  capCur   : Nat
  capPath  : Nat
  upCur    : Nat                 -- 100 µs checks below the release level
  coolAt   : Option Word         -- tick since which T_gov is below the hold band
  critAt   : Option Word
  throttled : Bool               -- throttled during the beat
  deriving DecidableEq, Repr

/-- The power manager (16 R359, R387). -/
structure Power where
  cap     : Nat
  okAt    : Option Word          -- tick since which the mean is below 0.97 of the limit
  hotRuns : Nat                  -- coolant comparisons above 20 K in a row
  lost    : SMap Nat             -- current that a domain's path has lost, in mA times its needed vias (01 R22)
  energy  : Nat                  -- tenths of a mJ not yet counted in INPUT_ENERGY (16 R365)
  checks  : SMap (Option Word)   -- when each periodic check last ran: a tick as they pass, or a beat
  deriving DecidableEq, Repr

/-- A stretch stage (16 R357): its level, and the tick at which it was entered. -/
structure Stretch where
  level : Nat
  since : Word
  deriving DecidableEq, Repr

/-- What leaves the device, in order. -/
inductive Output where
  | hostWrite (addr : Nat) (data : List Byte) (ep relaxed : Bool)
  | hostRead (tag addr len : Nat)
  | msix (vector : Nat) (addr : Word) (data : BitVec 32)
  | d2d (src dst : Nat) (bytes : List Byte)
  | flit (f : Nat) (bytes : List Byte)
  | trained (f : Nat) (coord : Option (BitVec 18)) (order : Byte) (free laneFree : List Nat)
  | bdp (dst : Source) (bytes : List Byte)
  | frame (bytes : List Byte)
  | bar2 (result : Option (List Byte))
  | bar0 (value : Word)
  deriving DecidableEq, Repr

/-- The state of the block. -/
structure State where
  pending   : List Instr         -- commands waiting, first in first out
  free      : Nat                -- the model's own: uses of free values (log 3)
  out       : List Output
  stage     : Stage
  fuses     : Fuses
  flash     : Flash
  boot      : Boot
  dict      : SMap Nat           -- numeric dictionary entries by index·256 + sub; absent: the default
  blobs     : SMap (List Byte)   -- STR and BLOB entries
  host      : HostIf
  mgmt      : Mgmt
  tempo     : Tempo
  queues    : SMap Queue
  cps       : SMap Cp
  train     : Train
  bells     : SMap Word
  watches   : List (Nat × Watch)     -- by bell die
  scheds    : List (Nat × Sched)     -- by bell die, both halves of the die's table
  remScheds : List (Nat × Sched)     -- the receiving die's 256 remote ones
  arrays    : SMap Arr
  ves       : SMap Ve
  lanes     : SMap (List UpdReq)
  mem       : List Host.Cell
  poison    : List Nat               -- word addresses (byte address of the word), rising
  tiers     : SMap Tier
  hbms      : SMap Hbm
  rcs       : SMap Rc
  pairs     : SMap Pair
  flight    : List Flying
  d2dReqs   : List D2dReq
  fab       : Fab
  fibres    : SMap Fibre
  portMaps  : SMap (List Byte)
  banks     : SMap Bank
  coll      : CollEng
  res       : Resil
  health    : Health
  therms    : SMap Therm
  power     : Power
  stretch   : SMap Stretch
  rings     : SMap (Option RingModel) -- the ring controllers' thermal models, by tile (10 R257)
  stackMask : Byte                   -- stacks in service (01 R27)
  dieReset  : Byte                   -- dies held in reset or with a domain off
  swaps     : List BumpGroup         -- spare-bump swaps under way or waiting, in order (01 R17, R18)
  deriving DecidableEq, Repr

/-! ### Reset values -/

/-- A queue at reset (06 Table 6.2, 6.3): DISABLED, every field 0. -/
def Queue.init : Queue :=
  { vector := 0, holdoff := 0, ringLog2 := 0, state := .disabled, park := false, ringBase := 0,
    tail := 0, head := 0, cqBase := 0, cqLog2 := 0, cqTail := 0, cqHead := 0, ackHeld := false,
    inputs := [0, 0, 0, 0], fetched := [], fetchAt := 0, jobs := [], waitAt := none,
    watch := none, notified := false, waitOpen := false, lastRaise := none, raiseHeld := false, releaseTags := [] }

/-- A command processor at reset (06 R143; 05 R120): every predictor counter 1 (the default of the map). -/
def Cp.init : Cp := { predictor := [], blocks := [], specs := [], slices := 0 }

/-- An array with no owner and no open tile. -/
def Arr.init : Arr :=
  { owner := none, since := 0, closing := false, tiles := [], kat := false, lastBad := [],
    katTurn := 0, accOut := [], feedOut := [], finds := [] }

/-- A vector-engine context with every register unwritten (04 R91). -/
def VeRun.init : VeRun :=
  { active := false, queue := 0, idx := 0, prog := 0, pc := 0, cycles := 0, fp := 0, poison := false, v := [],
    vw := [], s := [], sw := [], sp := [], m := [], mw := [], mp := [], loops := [], pubs := [], lines := [] }

/-- A vector engine at reset. -/
def Ve.init : Ve := { main := .init, update := .init, hold := none, stage := [] }

/-- A tier at reset: four quadrants, eight ports, a region of 16 MiB (07 R157, R159). -/
def Tier.init : Tier :=
  { quads := [0, 1, 2, 3], clkTwin := false, out := 0, ports := 0xFF, rcMib := 16, rcHeld := none, rowFinds := [] }

/-- A stack with no retirement (07 R166). -/
def Hbm.init : Hbm :=
  { retired := 0, list := [], removed := none, phase := 0, pc := 0, gib := 0, noticeAt := 0, batch := 0, cursor := 0,
    waiting := [], ceTicks := [], ueRows := [] }

/-- A die's part of an empty memory record (07 R178). -/
def MemRec.init : MemRec :=
  { rowSpares := [], colSpares := [], spared := [], lent := [], holes := [], accSpares := [], feedSpares := [],
    list := [], active := none, cursor := none }

/-- An empty remote-cache region. -/
def Rc.init : Rc := { lines := [], clock := 0, gen := 0 }

/-- The lanes of a pair at first training: lane i on λi, λ16 and λ17 spare (08 R181). -/
def PairLanes.init : PairLanes :=
  { map := [some 0, some 1, some 2, some 3, some 4, some 5, some 6, some 7, some 8, some 9, some 10, some 11, some 12,
      some 13, some 14, some 15], spares := [16, 17], relay := none }

/-- A receiver that holds nothing of a class. -/
def RxClass.init : RxClass := { buf := [], heads := [], stream := [] }

/-- A crossing with nothing sent: 40 shared credits (09 R209). -/
def Cross.init : Cross :=
  { wait := [], u := [0, 0, 0, 0, 0, 0, 0], shared := 40, seen := [0, 0, 0, 0, 0, 0, 0],
    rx := [[], [], [], [], [], [], []], freed := [0, 0, 0, 0, 0, 0, 0], told := [0, 0, 0, 0, 0, 0, 0] }

/-- A die pair at first training (08 R181, Table 8.1). -/
def Pair.init : Pair :=
  { next := 0, acked := 4095, replay := [], wait := [], ready := [], sentMsgs := [], ctlOut := [], seen := [0, 0, 0, 0], sent := [0, 0, 0, 0],
    turn4 := false, cross := .init, expect := 0, nak := false, rx := [.init, .init, .init, .init], ctl := [],
    freed := [0, 0, 0, 0], bad := [], flits := 0, charges := [], lanes := .init, degraded := false, swaps := [],
    retrain := false }

/-- A plane port that is down (09 R201), with the pool of Table 9.4. -/
def PortSt.init : PortSt :=
  { state := 0, spans := 0, peer := 0, lanes := 0, u := [0, 0, 0, 0, 0, 0], sharedFree := 1648, laneU := [],
    freed := [], told := [], turn := 0, rx := [], seen := [], bells := [], heard := 0, known := false, mins := [64, 128, 64, 64, 64, 16] }

/-- The eighteen lanes of an untrained direction: none is in use (log 7). -/
def noLanes : List (BitVec 5) := [19, 19, 19, 19, 19, 19, 19, 19, 19, 19, 19, 19, 19, 19, 19, 19, 19, 19]

/-- A rotation that has not begun. -/
def Rotation.init : Rotation :=
  { window := 0, done := 0, cal := none, retry := none, badRuns := [], lastCal := [], rounds := 0 }

/-- A transceiver that has never trained (10 Table 10.3, R251). -/
def Fibre.init : Fibre :=
  { txMap := noLanes, rxMap := noLanes, txChange := none, rxChange := none, txLost := [],
    rxLost := [], wants := [], txCw := 0, txAt := 0, rxCw := 0, rxAt := 0,
    nextSeq := 0, acked := 8191, expect := 0, nak := false, replay := [], laneOut := [], laneIn := [], charged := [],
    counted := 0, ackAt := 0, training := 0, trainAt := 0, fails := 0, everUp := false, origin := 0, rxOrigin := 0,
    far := 0, txCal := .init, rxCal := .init, exchanged := false, margins := [], bers := [],
    reserve := [] }

/-- A bank with every λ on its primary source (10 R258). -/
def Bank.init : Bank := { source := [], locked := [], left := [], warmAt := [], taps := [] }

/-- A stack's thermal manager at a start of the hub: factory coefficients (16 R360; log 8), every cap at 64 steps. -/
def Therm.init : Therm :=
  { started := false, pf := 0, rj := 136000, tau := 250000, tModel := 0, tGov := 0, cdMax := none, low := none, fails := [], capTh := 64,
    capCur := 64, capPath := 64, upCur := 0, coolAt := none, critAt := none, throttled := false }

/-- A stretch stage at level 0 (16 Table 16.5). -/
def Stretch.init : Stretch := { level := 0, since := 0 }

/-- The power manager at a start: the cap at 64 steps (16 R358). -/
def Power.init : Power := { cap := 64, okAt := none, hotRuns := 0, lost := [], energy := 0, checks := [] }

/-- An MSI-X entry at reset: masked (PRESUMED, the PCIe standard; log 5). -/
def MsixEntry.init : MsixEntry := { addr := 0, data := 0, masked := true }

/-- A blank journal place. -/
def JEntry.blank : JEntry := { powerUps := 0, beat := 0, index := 0, sub := 0, bit := 0 }

/-- Tempo at a start of the hub: 0, the nominal increment, FREE (12 R284, R286). -/
def Tempo.init : Tempo :=
  { ticks := 0, passed := 0, frac := 0, incr := 12271335131, state := 0, isRoot := false, root := none, rootPrio := 0, depth := 0,
    parent := none, heard := [], echoes := [], beatOf := [], held := [], median := none, run := 0, sampleAt := 0,
    firstUp := none, holdAt := 0, waiting := false, lastDepth := 62, lastRoot := none,
    sent := [], servoAt := 0, selectAt := 0 }

/-- The fabric router at a start of the hub: nothing registered, not released (09 R229; 17 Table 17.9). -/
def Fab.init : Fab :=
  { windows := [], rqs := [], circuits := [], hops := [], detours := [], coord := none,
    orders := [0, 0, 0, 0, 0, 0, 0, 0], released := false, ports := [], reqs := [], nextTag := 0, spent := [], held := [], own := [], ends := [] }

/-- The collective engine with nothing open. -/
def CollEng.init : CollEng := { opens := [], closed := [], pend := [], early := [], out := [] }

/-- The resilience engines at a start of the hub (17 Table 17.9). -/
def Resil.init : Resil :=
  { fenced := false, mode := 0, owner := 0, paired := false, openSet := [], closing := [],
    unacked := [], staged := [], epoch := 0, direct := 0, jcount := [], blocks := 0, crc := 0, puts := 0,
    bellNext := 0, stepped := false, markAt := 0, hostState := [], hostNew := 0, rx := [],
    records := 0, theirs := [], ours := [], passedOk := false }

/-- The health judgement at a start: no debt, nothing measured (13 R312, R314). -/
def Health.init : Health :=
  { debt := 0, found := 0, failBeat := 0, beatIn := 0, starts := [], running := false, destroy := false, judgedAt := 0,
    decayAt := 0, survey := false, rounds := [] }

/-- The management controller at a start of the hub (15 R335, R342). -/
def Mgmt.init : Mgmt :=
  { nonces := [], draws := 0, cache := [], buckets := [], dadBad := false, txq := 0, store := none, waiting := [],
    fallback := false, secondAt := 0, inSecond := 0, jwait := [] }

/-- The PCIe function at reset (14 Table 14.2, 14.3; the function's standard registers PRESUMED, log 5). -/
def HostIf.init : HostIf :=
  { errVector := 2047, mgmtVector := 2046, msix := [], pba := [], fnMask := false, msixEnable := false,
    busMaster := false, d3hot := false, mps := 128, mrrs := 512, relaxed := false, linkUp := false, width := 0,
    rate := 0, perst := false, mbxBusy := false, mbxDone := false, mbxStatus := 0, reqLen := 0,
    reqBuf := [], rspBuf := [], reads := [], nextTag := 0, held := [] }

/-- The boot state with the ROM not running (17 R371: the running digest is 64 zero bytes). -/
def Boot.init : Boot :=
  { rom := 0, reason := 0, firmware := false, loaded := false, complete := false, dead := false,
    log := [], running := List.replicate 64 0, identityOk := false, fwVersion := 0, imageSvn := 0, keyIndex := 0,
    imageDigest := [], quote := List.replicate 256 0, update := 0, pendingImg := [], reset := none, resetAt := 0,
    watchdog := false }

/-- The training state at a device reset (05 R114). -/
def Train.init : Train := { phase := 0, held := 0, ranges := [] }

/-- What production test leaves in the fuses (DESIGN CHOICE: a module of the highest grade; log 4). -/
def Fuses.init : Fuses :=
  { partNumber := [0x4E, 0x57, 0x4B, 0x2D, 0x4B, 0x58, 0x31, 0x2D, 0x36, 0x34], serial := List.replicate 16 0x30,
    mac := 0, cert := [0], mask := 0xFFFFFFFFFFFFFFFF, romVersion := 0, keyRevoked := 0, svn := 0 }

/-- The header and body of the image that production test writes: firmware release 3.1 (00 R10; 17 Table 17.2), its key,
digest and signature left 0 (log 4). -/
def factoryImage : List Byte :=
  [0x4B, 0x31, 0x58, 0x49, 1, 0, 0, 0, 0, 0, 0x01, 0x03, 0, 0, 0, 0, 1, 0, 0, 0] ++ List.replicate 237 0

/-- What production test leaves in flash (15 R345; 07 R178; log 4). -/
def Flash.init : Flash :=
  { image := factoryImage, imageTorn := false, factory := true, copyA := { valid := true, seq := 1, recs := [] },
    copyB := { valid := false, seq := 0, recs := [] }, retired := 0, bumpSpared := [], bumpDead := [],
    laneMaps := [], lambdas := [], mem := [], memA := { valid := true, seq := 0, recs := [] },
    memB := { valid := true, seq := 1, recs := [] }, journal := [],
    journalCnt := 0, bankPower := [], bankSource := [] }

/-- The module right after reset: flash and fuses as production test leaves them and no input power (17, first
paragraph; 16 R352), so every power domain is off, the queue of commands is empty and nothing has run (log 2). -/
def State.reset : State :=
  { pending := [], free := 0, out := [],
    stage := { inputGood := false, domains := 0, lastStop := 0, resetCause := 0, moduleFailed := false, straps := 0,
               latch := 3 },
    fuses := .init, flash := .init, boot := .init, dict := [], blobs := [], host := .init, mgmt := .init,
    tempo := .init, queues := [], cps := [], train := .init, bells := [], watches := [], scheds := [],
    remScheds := [], arrays := [], ves := [], lanes := [], mem := [], poison := [], tiers := [], hbms := [],
    rcs := [], pairs := [], flight := [], d2dReqs := [], fab := .init, fibres := [], portMaps := [],
    banks := [], coll := .init, res := .init, health := .init, therms := [], power := .init, stretch := [],
    rings := [], stackMask := 0xFF, dieReset := 0xFF, swaps := [] }

end Sys2Proof.Machine
end

