-- ==== Sys2Proof/Machine/Ops.lean ====
section
/-!
DEFINITION. The named operations over the state: sparse maps, bytes and bit fields, memory and poison (07 R155, R156,
R171), the dictionary's numbers, sticky bits with their journal, vector and debt (15 R348, R349; 14 R323; 13 R313),
vectors (14 R323) and free values (log 3).
-/

namespace Sys2Proof.Machine

/-! ### Sparse maps -/

/-- The entry of a key, if the map lists one. -/
def mfind {α : Type} : SMap α → Nat → Option α
  | [], _ => none
  | (k, v) :: r, i => if k < i then mfind r i else if k = i then some v else none

/-- The value of a key: the default where the map lists none. -/
def mget {α : Type} (d : α) (m : SMap α) (i : Nat) : α := (mfind m i).getD d

/-- Write a key, keeping the map in canonical form: a key at its default is not listed. -/
def mput {α : Type} [DecidableEq α] (d : α) : SMap α → Nat → α → SMap α
  | [], i, v => if v = d then [] else [(i, v)]
  | (k, w) :: r, i, v =>
    if k < i then (k, w) :: mput d r i v
    else if k = i then (if v = d then r else (i, v) :: r)
    else if v = d then (k, w) :: r else (i, v) :: (k, w) :: r

/-- Change every listed entry; one that becomes the default is no longer listed. -/
def mmap {α : Type} [DecidableEq α] (d : α) (f : Nat → α → α) (m : SMap α) : SMap α :=
  (m.map (fun e => (e.1, f e.1 e.2))).filter (fun e => decide (e.2 ≠ d))

/-- Keys strictly rise from `lo` on, and no entry is the default. -/
def mwf {α : Type} [DecidableEq α] (d : α) : Nat → SMap α → Bool
  | _, [] => true
  | lo, (k, v) :: r => decide (lo ≤ k) && decide (v ≠ d) && mwf d (k + 1) r

/-! ### Bits, bytes and numbers -/

/-- Bits hi:lo of a number. -/
def bitsOf (n hi lo : Nat) : Nat := n / 2 ^ lo % 2 ^ (hi + 1 - lo)

/-- Bits hi:lo of a word. -/
def wbits (w : Word) (hi lo : Nat) : Nat := bitsOf w.toNat hi lo

/-- The number that bytes spell, least significant first (03 R62; 15 R330). -/
def leNat : List Byte → Nat
  | [] => 0
  | b :: r => b.toNat + 256 * leNat r

/-- `n` bytes of a number, least significant first. -/
def natLe : Nat → Nat → List Byte
  | 0, _ => []
  | n + 1, v => BitVec.ofNat 8 v :: natLe n (v / 256)

/-- Element i of a list of bytes, 0 past its end. -/
def byteAt (l : List Byte) (i : Nat) : Byte := l.getD i 0

/-- `n` bytes of a list from a position. -/
def slice {α : Type} (l : List α) (at_ n : Nat) : List α := (l.drop at_).take n

/-- Replace element i of a list. -/
def setAt {α : Type} (l : List α) (i : Nat) (v : α) : List α := l.set i v

/-- Bit i of a number set to b. -/
def putBit (n i : Nat) (b : Bool) : Nat :=
  if n.testBit i = b then n else if b then n + 2 ^ i else n - 2 ^ i

/-- The positions below `n` at which a number has a 1. -/
def onesBelow (n v : Nat) : List Nat := (List.range n).filter v.testBit

/-- How many bits below `n` are set. -/
def popBelow (n v : Nat) : Nat := (onesBelow n v).length

/-- Insert into a rising list without repeats. -/
def insertNat : Nat → List Nat → List Nat
  | x, [] => [x]
  | x, y :: r => if x < y then x :: y :: r else if x = y then y :: r else y :: insertNat x r

/-- One bit of a reflected CRC register. -/
def crcBit (poly r : Nat) : Nat := if r % 2 = 1 then (r / 2) ^^^ poly else r / 2

/-- One byte into a reflected CRC register. -/
def crcByte (poly : Nat) (r : Nat) (b : Byte) : Nat :=
  crcBit poly (crcBit poly (crcBit poly (crcBit poly (crcBit poly (crcBit poly (crcBit poly (crcBit poly
    (r ^^^ b.toNat))))))))

/-- The CRC-32 of IEEE 802.3 (08 R182; 10 R239), reflected polynomial 0xEDB88320. -/
def crc32 (l : List Byte) : Nat := (l.foldl (crcByte 0xEDB88320) 0xFFFFFFFF) ^^^ 0xFFFFFFFF

/-- The CRC-32C of 15 R345, reflected polynomial 0x82F63B78. -/
def crc32c (l : List Byte) : Nat := (l.foldl (crcByte 0x82F63B78) 0xFFFFFFFF) ^^^ 0xFFFFFFFF

/-- One bit of a CRC-64 register, most significant first. -/
def crc64Bit (r : Nat) : Nat :=
  if 2 ^ 63 ≤ r then (r * 2 % 2 ^ 64) ^^^ 0x42F0E1EBA9EA3693 else r * 2

/-- One byte into a CRC-64 register. -/
def crc64Byte (r : Nat) (b : Byte) : Nat :=
  crc64Bit (crc64Bit (crc64Bit (crc64Bit (crc64Bit (crc64Bit (crc64Bit (crc64Bit (r ^^^ (b.toNat * 2 ^ 56)))))))))

/-- The CRC-64 of 02 R48: ECMA-182, all ones before and after, no reflection. -/
def crc64 (l : List Byte) : Nat := (l.foldl crc64Byte 0xFFFFFFFFFFFFFFFF) ^^^ 0xFFFFFFFFFFFFFFFF

/-! ### State pieces -/

/-- Add to what leaves the device. -/
def emit (s : State) (o : Output) : State := { s with out := s.out ++ [o] }

/-- A free word (log 3): the next use of the opaque stream. -/
def freeWord (s : State) : Word × State := (Config.freeWord s.free, { s with free := s.free + 1 })

/-- Local tempo (12 R284). -/
def now (s : State) : Word := s.tempo.ticks

/-- Ticks as they pass, by which durations are judged: a step adds nothing to it (12 R285). -/
def clock (s : State) : Word := s.tempo.passed

/-- The beat number, bits 63:20 of tempo (12 R284). -/
def beat (s : State) : Word := s.tempo.ticks >>> 20

/-- Beats as ticks. -/
def beats (n : Nat) : Nat := n * 1048576

/-- Ticks since a moment of the clock. -/
def since (s : State) (t : Word) : Nat := (clock s - t).toNat

/-- A periodic check has run, at a tick or a beat. -/
def ran (s : State) (k : Nat) (at_ : Word) : State :=
  { s with power := { s.power with checks := mput none s.power.checks k (some at_) } }

/-- Has a check's period, in ticks, passed since it last ran? -/
def checkDue (s : State) (k period : Nat) : Bool :=
  match mget none s.power.checks k with
  | some t => decide (period ≤ since s t)
  | none => true

/-- A check that runs once in each period of ticks. -/
def periodic (s : State) (k period : Nat) (f : State → State) : State :=
  if checkDue s k period then f (ran s k (clock s)) else s

/-- A check that runs once in each beat. -/
def atBeat (s : State) (k : Nat) (f : State → State) : State :=
  if mget none s.power.checks k = some (beat s) then s else f (ran s k (beat s))

/-- The periodic checks of the hub and of a die, domain or bank: of the power cap, the coolant, the current cap, the thermal
cap, the thermal model, the sensors, the model's refinement, the ring controllers, the sources of a bank, a domain's
margins. -/
def ckPower : Nat := 0
def ckCoolant : Nat := 1
def ckCurrent (d : Nat) : Nat := 16 + d
def ckThermal (d : Nat) : Nat := 32 + d
def ckModel (d : Nat) : Nat := 48 + d
def ckSensor (d : Nat) : Nat := 64 + d
def ckRefine (d : Nat) : Nat := 80 + d
def ckRing (d : Nat) : Nat := 104 + d
def ckLaser (b : Nat) : Nat := 96 + b
def ckSurvey (d : Nat) : Nat := 128 + d

/-- Tempo is unsynchronised in FREE and LOCKING (12 R286). -/
def unsync (s : State) : Bool := s.tempo.state == 0 || s.tempo.state == 1

/-- The domain is on (16 Table 16.2). -/
def domainOn (s : State) (d : Nat) : Bool := s.stage.domains.getLsbD d

/-- The hub runs: HUB_CORE is on and its clock lives (16 R354; 01 R26). -/
def hubOn (s : State) : Bool := domainOn s 24 && !s.boot.dead

/-- Firmware runs with its dictionary loaded (17 Table 17.1; 15 R347). -/
def loaded (s : State) : Bool := hubOn s && s.boot.loaded

/-- The compute die is out of reset, powered and not retired (01 R27; 17 R377). -/
def dieUp (s : State) (d : Nat) : Bool := d < 8 && s.stackMask.getLsbD d && !s.dieReset.getLsbD d

/-- A die of the package that can be reached: a compute die in service, or the hub. -/
def unitUp (s : State) (d : Nat) : Bool := if d = 8 then hubOn s else dieUp s d

/-- Arrays in service (00 R5; 02 R54; 01 R27): the fused mask less retired arrays and the arrays of retired stacks. -/
def inService (s : State) : Nat :=
  (onesBelow 64 s.fuses.mask.toNat).foldl (fun v a =>
    if s.flash.retired.getLsbD a || !s.stackMask.getLsbD (a / 8) then v else v + 2 ^ a) 0

def State.queue (s : State) (q : Nat) : Queue := mget Queue.init s.queues q
def State.setQueue (s : State) (q : Nat) (x : Queue) : State := { s with queues := mput Queue.init s.queues q x }
def State.cp (s : State) (d : Nat) : Cp := mget Cp.init s.cps d
def State.setCp (s : State) (d : Nat) (x : Cp) : State := { s with cps := mput Cp.init s.cps d x }
def State.arr (s : State) (a : Nat) : Arr := mget Arr.init s.arrays a
def State.setArr (s : State) (a : Nat) (x : Arr) : State := { s with arrays := mput Arr.init s.arrays a x }
def State.ve (s : State) (d : Nat) : Ve := mget Ve.init s.ves d
def State.setVe (s : State) (d : Nat) (x : Ve) : State := { s with ves := mput Ve.init s.ves d x }
def State.lane (s : State) (d : Nat) : List UpdReq := mget [] s.lanes d
def State.setLane (s : State) (d : Nat) (x : List UpdReq) : State := { s with lanes := mput [] s.lanes d x }
def State.tier (s : State) (d : Nat) : Tier := mget Tier.init s.tiers d
def State.setTier (s : State) (d : Nat) (x : Tier) : State := { s with tiers := mput Tier.init s.tiers d x }
def State.hbm (s : State) (d : Nat) : Hbm := mget Hbm.init s.hbms d
def State.setHbm (s : State) (d : Nat) (x : Hbm) : State := { s with hbms := mput Hbm.init s.hbms d x }
def State.rc (s : State) (d : Nat) : Rc := mget Rc.init s.rcs d
def State.setRc (s : State) (d : Nat) (x : Rc) : State := { s with rcs := mput Rc.init s.rcs d x }
def State.pair (s : State) (a b : Nat) : Pair := mget Pair.init s.pairs (9 * a + b)
def State.setPair (s : State) (a b : Nat) (x : Pair) : State :=
  { s with pairs := mput Pair.init s.pairs (9 * a + b) x }
def State.port (s : State) (p : Nat) : PortSt := mget PortSt.init s.fab.ports p
def State.setPort (s : State) (p : Nat) (x : PortSt) : State :=
  { s with fab := { s.fab with ports := mput PortSt.init s.fab.ports p x } }
def State.fibre (s : State) (f : Nat) : Fibre := mget Fibre.init s.fibres f
def State.setFibre (s : State) (f : Nat) (x : Fibre) : State := { s with fibres := mput Fibre.init s.fibres f x }
def State.bank (s : State) (b : Nat) : Bank := mget Bank.init s.banks b
def State.setBank (s : State) (b : Nat) (x : Bank) : State := { s with banks := mput Bank.init s.banks b x }
def State.therm (s : State) (d : Nat) : Therm := mget Therm.init s.therms d
def State.setTherm (s : State) (d : Nat) (x : Therm) : State := { s with therms := mput Therm.init s.therms d x }
def State.memRec (s : State) (d : Nat) : MemRec := mget MemRec.init s.flash.mem d
def State.setMemRec (s : State) (d : Nat) (x : MemRec) : State :=
  { s with flash := { s.flash with mem := mput MemRec.init s.flash.mem d x } }
def State.bell (s : State) (b : Nat) : Word := mget 0 s.bells b
def State.setBell (s : State) (b : Nat) (v : Word) : State := { s with bells := mput 0 s.bells b v }

/-! ### Dictionary numbers -/

/-- The key of an entry. -/
def dkey (idx sub : Nat) : Nat := idx * 256 + sub

/-- The row of an entry, if the firmware defines it (15 R329). -/
def entryOf (idx sub : Nat) : Option Entry :=
  dictTable.find? (fun e => e.index == idx && (e.sub ≤ sub && sub ≤ e.last))

/-- The default of an entry (0 where it is set per device). -/
def entryDefault (idx sub : Nat) : Nat := ((entryOf idx sub).map Entry.dflt).getD 0

/-- The number an entry holds, its default where nothing has written it. -/
def dnum (s : State) (idx sub : Nat) : Nat := (mfind s.dict (dkey idx sub)).getD (entryDefault idx sub)

/-- The listed number of an entry whose default is 0. -/
def dcell (s : State) (idx sub : Nat) : Nat := mget 0 s.dict (dkey idx sub)

/-- The value that stands in for "not listed" in `dict`: no entry holds it. -/
def dictAbsent : Nat := 2 ^ 65

/-- Set the number of an entry. -/
def dset (s : State) (idx sub v : Nat) : State := { s with dict := mput dictAbsent s.dict (dkey idx sub) v }

/-- Advance a 64-bit counter entry. -/
def bump (s : State) (idx sub n : Nat) : State := dset s idx sub ((dcell s idx sub + n) % 2 ^ 64)

/-- Is a bit of a map entry (default 0) set? -/
def dbit (s : State) (idx sub i : Nat) : Bool := (dcell s idx sub).testBit i

/-- Set or clear a bit of a map entry (default 0). -/
def dputBit (s : State) (idx sub i : Nat) (b : Bool) : State := dset s idx sub (putBit (dcell s idx sub) i b)

/-! ### Vectors -/

/-- The function may issue requests (14 R322 rule 7). -/
def hostReady (s : State) : Bool := s.host.linkUp && s.host.busMaster && !s.host.d3hot

/-- A vector can be delivered now (14 R323). -/
def vectorOpen (s : State) (v : Nat) : Bool :=
  hostReady s && s.host.msixEnable && !s.host.fnMask && !(mget MsixEntry.init s.host.msix v).masked

/-- Raise a vector: one message, or its pending bit while it cannot be delivered (14 R323). -/
def raiseVector (s : State) (v : Nat) : State :=
  if vectorOpen s v then
    let e := mget MsixEntry.init s.host.msix v
    bump (emit s (.msix v e.addr e.data)) 0x80D0 4 1
  else { s with host := { s.host with pba := mput false s.host.pba v true } }

/-- Deliver the pending raise of a vector that has opened, as one message (14 R323). -/
def deliverPending (s : State) (v : Nat) : State :=
  if vectorOpen s v && mget false s.host.pba v then
    raiseVector { s with host := { s.host with pba := mput false s.host.pba v false } } v
  else s

/-- Raise the error vector (14 R323). -/
def raiseError (s : State) : State := raiseVector s s.host.errVector.toNat

/-! ### Sticky bits -/

/-- The debt of a sticky bit (13 Table 13.7). -/
def debtOf (idx sub : Nat) : Nat :=
  if idx = 0xA020 ∧ (sub = 3 ∨ sub = 4) then 50
  else if idx = 0xA040 ∧ sub = 1 then 50
  else if idx = 0xA070 ∧ (sub = 1 ∨ sub = 2) then 50
  else if idx = 0xA020 ∧ sub = 1 then 100
  else if idx = 0xA070 ∧ sub = 4 then 100
  else if idx = 0xA010 ∧ sub = 2 then 100
  else if idx = 0xA010 ∧ sub = 3 then 200
  else if idx = 0xA010 ∧ sub = 6 then 400
  else if idx = 0xA010 ∧ sub = 4 then 50
  else if idx = 0xA0A0 ∧ (sub = 3 ∨ sub = 6) then 50
  else if idx = 0xA010 ∧ sub = 9 then 20
  else if idx = 0xA080 ∧ sub = 1 then 5
  else if idx = 0xA0A0 ∧ (sub = 1 ∨ sub = 8) then 5
  else 0

/-- Add to the event debt, at most 1,000, and to what a running requalification finds (13 R313, R315). -/
def addDebt (s : State) (n : Nat) : State :=
  let h := s.health
  { s with health := { h with debt := min 1000 (h.debt + n), found := if h.running then min 1000 (h.found + n) else h.found } }

/-- Ticks in a second. -/
def second : Nat := 1000000000

/-- Append to the error journal, at most 64 entries a second (15 R349). -/
def journal (s : State) (idx sub bit : Nat) : State :=
  let m := s.mgmt
  let fresh := (clock s - m.secondAt).toNat ≥ second
  let used := if fresh then 0 else m.inSecond
  let at_ := if fresh then clock s else m.secondAt
  if used < 64 then
    let e : JEntry :=
      { powerUps := BitVec.ofNat 32 (dcell s 0x30E0 4), beat := beat s, index := BitVec.ofNat 16 idx,
        sub := BitVec.ofNat 8 sub, bit := BitVec.ofNat 8 bit }
    { s with mgmt := { m with jwait := m.jwait ++ [e], secondAt := at_, inSecond := used + 1 } }
  else bump { s with mgmt := { m with secondAt := at_, inSecond := used } } 0xA0FF 3 1

/-- The event of a sticky bit: on a change from 0 to 1 it is journalled, adds its debt and raises the error vector;
a bit that stands set stays so (15 R348, R349; 13 R313; 14 R323). -/
def sticky (s : State) (idx sub bit : Nat) : State :=
  if dbit s idx sub bit then s
  else raiseError (addDebt (journal (dputBit s idx sub bit true) idx sub bit) (debtOf idx sub))

/-! ### Addresses and memory -/

/-- The device's own board slot (07, The address map; 09 R201): x[1:0] and y[1:0] of the straps. -/
def ownSlot (s : State) : Nat := s.stage.straps.toNat

/-- The key of a byte in `mem`: the die and the offset of its map (07 R155). -/
def cellKey (die off : Nat) : Nat := die * 2 ^ 48 + off

/-- The size of a tier's map in bytes (07 R157). -/
def tierMap (s : State) (d : Nat) : Nat := (s.tier d).quads.length * 100663296

/-- The base of the remote-cache region (07 R159, R161: lent lines leave from its top). -/
def tierTop (s : State) (d : Nat) : Nat := tierMap s d - (s.tier d).rcMib * 1048576

/-- The quadrant that holds a tier offset (07 R157). -/
def quadOf (s : State) (d off : Nat) : Nat :=
  let t := s.tier d
  t.quads.getD ((off / 512) % t.quads.length) 0

/-- The row of a tier that holds an offset, by its place in the tier: quadrant · 196,608 + line within the quadrant, which a
compaction of the map does not change (07 R157, R158, R162). -/
def tierRow (s : State) (d off : Nat) : Nat :=
  quadOf s d off * 196608 + off / 512 / max 1 (s.tier d).quads.length

/-- GiBs of a stack that are addressable (07 R173, R174). -/
def hbmGib (s : State) (d : Nat) : Nat :=
  64 - (s.hbm d).list.length - (if (s.hbm d).removed.isSome then 1 else 0)

/-- Where an address of the device's own slot leads (07 R155; 01 R20; 07 R162; 14 R320; 01 R27). -/
inductive Place where
  | store (key : Nat)          -- a byte of a tier, of HBM or of the hub buffer
  | hole (die : Nat)
  | quadOut
  | lost (die : Nat)
  | bad
  deriving DecidableEq, Repr

/-- The place of a die field and an offset. -/
def placeOf (s : State) (die off : Nat) : Place :=
  if die = 8 then (if off < 0x800000 then .store (cellKey 8 off) else .bad)
  else if 8 < die then .bad
  else if !dieUp s die then .lost die
  else if off < 0x18000000 then
    if tierTop s die ≤ off then .bad
    else if (s.tier die).out.getLsbD (quadOf s die off) then .quadOut
    else if (s.memRec die).holes.contains (tierRow s die off) then .hole die
    else .store (cellKey die off)
  else if 0x1000000000 ≤ off ∧ off < 0x2000000000 then
    if (off - 0x1000000000) / 1073741824 < hbmGib s die then .store (cellKey die off) else .bad
  else .bad

/-- The die field, the slot and the offset of a 56-bit board-local address (07, The address map). -/
def addrDie (a : Nat) : Nat := bitsOf a 51 48
def addrSlot (a : Nat) : Nat := bitsOf a 55 52
def addrOff (a : Nat) : Nat := a % 2 ^ 48

/-- The first place of a range that is not a store, if any: lines of 512 bytes are judged one by one, and so is the
range's first and last byte. -/
def rangeFault (s : State) (die : Nat) : Nat → Nat → Option (Nat × Place)
  | off, 0 => match placeOf s die off with
    | .store _ => none
    | p => some (off, p)
  | off, n + 1 => match placeOf s die off with
    | .store _ => rangeFault s die (off / 512 * 512 + 512) n
    | p => some (off, p)

/-- The fault of the range of `len` bytes at an offset. -/
def faultIn (s : State) (die off len : Nat) : Option (Nat × Place) :=
  if len = 0 then none else rangeFault s die off ((off + len - 1) / 512 - off / 512)

/-- The memory's canonical form: addresses strictly rise, and no cell is listed that reads as an unlisted one does. -/
def Memory.wf (m : List Host.Cell) : Bool := mwf 0 0 m

/-- Read one byte of the stores: 0 where nothing has been written (07 R156). -/
def readByte (s : State) (key : Nat) : Byte := mget 0 s.mem key

/-- Read `n` bytes. -/
def readBytes (s : State) : Nat → Nat → List Byte
  | _, 0 => []
  | key, n + 1 => readByte s key :: readBytes s (key + 1) n

/-- Write one byte of the stores, keeping the memory's canonical form. -/
def writeByte (s : State) (key : Nat) (b : Byte) : State := { s with mem := mput 0 s.mem key b }

/-- Write bytes in order. -/
def writeBytes (s : State) : Nat → List Byte → State
  | _, [] => s
  | key, b :: r => writeBytes (writeByte s key b) (key + 1) r

/-- Is the 64-bit word that holds a byte marked poisoned (07 R170)? -/
def poisoned (s : State) (key : Nat) : Bool := s.poison.contains (key / 8)

/-- Mark or unmark the word that holds a byte. -/
def markWord (s : State) (w : Nat) (b : Bool) : State :=
  { s with poison := if b then insertNat w s.poison else s.poison.filter (· != w) }

/-- The words that `len` bytes at a key touch. -/
def wordsOf (key len : Nat) : List Nat :=
  if len = 0 then [] else (List.range ((key + len - 1) / 8 + 1 - key / 8)).map (· + key / 8)

/-- Poison after a write (07 R171): a word written whole takes the marking of its data, a word written in part keeps
its marking and takes the data's too. `pz` gives the marking of data word i, counted from the write's first word. -/
def markWrite (s : State) (key len : Nat) (pz : Nat → Bool) : State :=
  (wordsOf key len).foldl
    (fun t w =>
      let mark := pz (w - key / 8)
      if key ≤ 8 * w ∧ 8 * w + 8 ≤ key + len then markWord t w mark
      else if mark then markWord t w true else t) s

/-- Does any word of a range carry poison? -/
def rangePoison (s : State) (key len : Nat) : Bool := (wordsOf key len).any s.poison.contains

/-! ### Ghost tracking of stores (13 R301, R305) -/

/-- The ghost regions: base address and length, by region (13 R301). -/
def ghostRegions (s : State) : List (Nat × Nat) :=
  (List.range 16).map (fun r => (dcell s 0xC021 (r + 1), dcell s 0xC022 (r + 1)))

/-- The block index of a store's byte in the regions, numbered across them in order (13 R301). -/
def ghostBlock (key : Nat) : List (Nat × Nat) → Nat → Option Nat
  | [], _ => none
  | (base, len) :: r, first =>
    let b := cellKey (addrDie base) (addrOff base)
    if b ≤ key ∧ key < b + len then some (first + (key - b) / 65536)
    else ghostBlock key r (first + len / 65536)

/-- The key of a block's first byte. -/
def ghostBlockKey (i : Nat) : List (Nat × Nat) → Nat → Option Nat
  | [], _ => none
  | (base, len) :: r, first =>
    if i < first + len / 65536 then some (cellKey (addrDie base) (addrOff base) + (i - first) * 65536)
    else ghostBlockKey i r (first + len / 65536)

/-- The stack that holds a block. -/
def ghostStack (s : State) (i : Nat) : Nat := ((ghostBlockKey i (ghostRegions s) 0).getD 0) / 2 ^ 48

/-- A store is about to write a block: its old contents are staged if it is of the closing set and not yet sent, and
its open dirty bit is set (13 R301, R305). -/
def ghostTouch (s : State) (key : Nat) : State :=
  if s.res.mode = 0 then s
  else match ghostBlock key (ghostRegions s) 0 with
    | none => s
    | some i =>
      let r := s.res
      let staged :=
        if r.closing.contains i && (mfind r.staged i).isNone then
          let key := (ghostBlockKey i (ghostRegions s) 0).getD 0
          mput ([], []) r.staged i (readBytes s key 65536, (wordsOf key 65536).map s.poison.contains)
        else r.staged
      { s with res := { r with staged := staged, openSet := insertNat i r.openSet } }

/-- The blocks that a store touches. -/
def ghostTouchAll (s : State) (key len : Nat) : State :=
  if s.res.mode = 0 ∨ len = 0 then s
  else ((List.range ((len - 1) / 65536 + 1)).map (fun k => key + k * 65536) ++ [key + len - 1]).foldl ghostTouch s

/-- A speculative line whose HBM bytes are written goes stale (06 R142). -/
def specTouch (s : State) (key len : Nat) : State :=
  let d := key / 2 ^ 48
  let c := s.cp d
  if c.specs.isEmpty then s
  else
    let hit := fun (k : Nat) => k * 512 < key + len ∧ key < (k + 1) * 512
    s.setCp d { c with specs := c.specs.map (fun f => { f with stale := f.stale ++ f.lines.filter (fun k => hit k && !f.stale.contains k) }) }

/-- A store of bytes with their poison marks: the one way a byte of a tier, of HBM or of the hub buffer changes. -/
def storeBytes (s : State) (key : Nat) (data : List Byte) (pz : Nat → Bool) : State :=
  writeBytes (markWrite (specTouch (ghostTouchAll s key data.length) key data.length) key data.length pz) key data

/-- Zero the cells of a range of keys (07 R156). -/
def zeroRange (s : State) (lo hi : Nat) : State :=
  { s with mem := s.mem.filter (fun c => c.1 < lo || hi ≤ c.1),
           poison := s.poison.filter (fun w => 8 * w + 8 ≤ lo || hi ≤ 8 * w) }

/-- Zero a tier, region included (07 R156, R158). -/
def zeroTier (s : State) (d : Nat) : State := zeroRange s (cellKey d 0) (cellKey d 0x18000000)

/-- Zero a stack (07 R156). -/
def zeroHbm (s : State) (d : Nat) : State := zeroRange s (cellKey d 0x1000000000) (cellKey d 0x2000000000)

/-! ### Coordinates -/

def coordX (c : BitVec 18) : Nat := bitsOf c.toNat 17 12
def coordY (c : BitVec 18) : Nat := bitsOf c.toNat 11 6
def coordZ (c : BitVec 18) : Nat := bitsOf c.toNat 5 0

/-- The coordinate on an axis: 0 X, 1 Y, 2 Z. -/
def coordOn (c : BitVec 18) (a : Nat) : Nat := if a = 0 then coordX c else if a = 1 then coordY c else coordZ c

/-- The coordinate with one axis replaced. -/
def coordSet (c : BitVec 18) (a v : Nat) : BitVec 18 :=
  BitVec.ofNat 18 ((if a = 0 then v else coordX c) * 4096 + (if a = 1 then v else coordY c) * 64
    + (if a = 2 then v else coordZ c))

/-- The coordinate of a board slot of the device's own board (07, The address map). -/
def slotCoord (me : BitVec 18) (slot : Nat) : BitVec 18 :=
  coordSet (coordSet me 0 (coordX me / 4 * 4 + slot / 4)) 1 (coordY me / 4 * 4 + slot % 4)

/-- The device's own coordinate, if one is in force. -/
def ownCoord (s : State) : Option (BitVec 18) := s.fab.coord

/-- A fence entry stands for the coordinate (13 R296). -/
def isFenced (s : State) (c : BitVec 18) : Bool :=
  (List.range 64).any (fun k =>
    let v := dcell s 0xC001 (k + 1)
    v.testBit 31 && bitsOf v 17 0 == c.toNat)

end Sys2Proof.Machine
end

