-- ==== Sys2Proof/Machine/Link.lean ====
section
/-!
DEFINITION. The link of an ordered die pair (08 R181 to R186): messages as headers and data streams, flits with their
link header and CRC, the replay buffer, the credits of each class, the relay's class, and the delivery of a message once
and in order.  The crossing of fabric packets between dies in flits of KIND 4 (09 R207 to R209), and the bells that
messages carry (06 R147, R149).
-/

namespace Sys2Proof.Machine

/-! ### Messages as bytes (08 Table 8.2, Table 8.3, R183) -/

/-- Die numbers of the package as message fields. -/
def dieField (d : Nat) : Die9 := if h : d < 9 then ⟨d, h⟩ else 0

/-- The class of a message type: 0 REQ, 1 RSP, 2 BELL (08 Table 8.3). -/
def msgClass (typ : Byte) : Nat := if typ.toNat < 0x10 then 0 else if typ.toNat < 0x20 then 1 else 2

/-- The types whose LEN bytes of data follow the header. -/
def carriesData (typ : Byte) : Bool := [0x02, 0x03, 0x10, 0x20, 0x21, 0x22, 0x23].contains typ.toNat

/-- How many poison marks a message with PX = 1 has: one for each word of its data that the owner's map has, of the line
in a WRM (08 R183; log 71). -/
def msgMarks (m : D2dMsg) : Nat := if m.typ = 3 then 64 else (wordsOf (m.addr.toNat % 8) m.len.toNat).length

/-- The number that bits spell, least significant first. -/
def bitsNat : List Bool → Nat
  | [] => 0
  | b :: r => (if b then 1 else 0) + 2 * bitsNat r

/-- A list cut or filled to a length. -/
def padTo {α : Type} (d : α) (n : Nat) (l : List α) : List α := l.take n ++ List.replicate (n - l.length) d

/-- A message as it is sent: PX = 1 exactly where a word is poisoned. -/
def normMsg (m : D2dMsg) : D2dMsg :=
  { m with poison := if m.poison.any (· == true) then padTo false (msgMarks m) m.poison else [] }

/-- The bytes of a poison map: in a WRM the marks stand behind the eight words of the byte mask. -/
def mapLen (m : D2dMsg) : Nat := ((if m.typ = 3 then 8 else 0) + msgMarks m + 7) / 8

/-- The 16 bytes of a message header (08 Table 8.2). -/
def headBytes (m : D2dMsg) : List Byte :=
  natLe 16 (m.typ.toNat * 2 ^ 120 + m.src.val * 2 ^ 116 + m.dst.val * 2 ^ 112 + m.tag.toNat * 2 ^ 96
    + m.len.toNat * 2 ^ 83 + (if m.poison.isEmpty then 0 else 2 ^ 82) + m.addr.toNat)

/-- What a message adds to its class's stream of data: its poison map, if PX = 1, and its data. -/
def streamBytes (m : D2dMsg) : List Byte :=
  (if m.poison.isEmpty then [] else natLe (mapLen m) (bitsNat m.poison * (if m.typ = 3 then 256 else 1)))
    ++ (if carriesData m.typ then m.data else [])

/-- A header as it is read. -/
def readHead (l : List Byte) : MsgHead :=
  let n := leNat l
  { msg := { typ := BitVec.ofNat 8 (bitsOf n 127 120), src := dieField (bitsOf n 119 116), dst := dieField (bitsOf n 115 112),
             tag := BitVec.ofNat 16 (bitsOf n 111 96), len := BitVec.ofNat 13 (bitsOf n 95 83),
             addr := BitVec.ofNat 48 n, data := [], poison := [] },
    px := n.testBit 82 }

/-- The headers of a header flit: up to 15, ended by a place of TYPE 0 (log 71). -/
def readHeads (body : List Byte) : List MsgHead :=
  ((List.range 15).map (fun k => readHead (slice body (16 * k) 16))).takeWhile (fun h => h.msg.typ != 0)

/-- Bytes of the stream that a header's message takes. -/
def headNeed (h : MsgHead) : Nat :=
  (if h.px then mapLen h.msg else 0) + (if carriesData h.msg.typ then h.msg.len.toNat else 0)

/-- The message of a header with its bytes of the stream. -/
def withStream (h : MsgHead) (l : List Byte) : D2dMsg :=
  let k := if h.px then mapLen h.msg else 0
  let n := leNat (l.take k) / (if h.msg.typ = 3 then 256 else 1)
  { h.msg with
    data := if carriesData h.msg.typ then slice l k h.msg.len.toNat else [],
    poison := if h.px then (List.range (msgMarks h.msg)).map n.testBit else [] }

/-- The bodies of the flits that carry at most 15 messages of one class, with their kinds: a flit of their headers, then
their data (R183). -/
def batchBodies (ms : List D2dMsg) : List (Nat × List Byte) :=
  let data := ms.flatMap streamBytes
  (1, padTo 0 244 (ms.flatMap headBytes)) ::
    (List.range ((data.length + 243) / 244)).map (fun k => (2, padTo 0 244 (slice data (244 * k) 244)))

/-! ### What a receiver holds (08 R183 to R185) -/

/-- The receiver drains its oldest flit of a class: the headers of a header flit, or data, of which it keeps what the
headers before it call for. -/
def drainOne (r : RxClass) : RxClass :=
  match r.buf with
  | [] => r
  | (kind, body) :: rest =>
    if kind = 1 then { r with buf := rest, heads := r.heads ++ readHeads body }
    else { r with buf := rest, stream := (r.stream ++ body).take ((r.heads.map headNeed).foldl (· + ·) 0) }

/-- The oldest message of a class is whole. -/
def headWhole (r : RxClass) : Bool :=
  match r.heads with
  | [] => false
  | h :: _ => decide (headNeed h ≤ r.stream.length)

/-- Drain until a message is whole, `n` flits at most. -/
def drainTo : Nat → RxClass → RxClass
  | 0, r => r
  | n + 1, r => if headWhole r || r.buf.isEmpty then r else drainTo n (drainOne r)

/-- The oldest whole message of a class, and what the receiver holds after taking it. -/
def headMsg (r : RxClass) : Option (D2dMsg × RxClass) :=
  let d := drainTo r.buf.length r
  if headWhole d then
    match d.heads with
    | [] => none
    | h :: rest => some (withStream h d.stream, { d with heads := rest, stream := d.stream.drop (headNeed h) })
  else none

/-- The whole messages at the front of some headers and their data. -/
def wholeOf : List MsgHead → List Byte → List D2dMsg
  | [], _ => []
  | h :: r, l => if headNeed h ≤ l.length then withStream h l :: wholeOf r (l.drop (headNeed h)) else []

/-- Everything that a receiver holds of a class, drained. -/
def drainAll (r : RxClass) : RxClass := r.buf.foldl (fun x _ => drainOne x) r

/-- The whole messages that a receiver holds of a class. -/
def heldMsgs (r : RxClass) : List D2dMsg := wholeOf (drainAll r).heads (drainAll r).stream

/-- What stays of a class when its pair goes down: the whole messages (06 R153; log 71). -/
def keepWhole (r : RxClass) : RxClass :=
  let d := drainAll r
  let heads := d.heads.take (heldMsgs r).length
  { buf := [], heads := heads, stream := d.stream.take ((heads.map headNeed).foldl (· + ·) 0) }

/-! ### Flits (08 Table 8.1, R184, R185) -/

/-- The link header of a flit that die `a` sends to die `b`: ACK, NAK and the counts of frees are those of `a` as the
receiver of the reverse pair. -/
def linkHead (s : State) (a b seq kind cls : Nat) : Nat :=
  let r := s.pair b a
  seq * 2 ^ 52 + (r.expect - 1).toNat * 2 ^ 40 + (if r.nak then 2 ^ 39 else 0) + kind * 2 ^ 36 + cls * 2 ^ 34
    + (r.freed.getD 0 0).toNat * 2 ^ 24 + (r.freed.getD 1 0).toNat * 2 ^ 16 + (r.freed.getD 2 0).toNat * 2 ^ 8
    + (r.freed.getD 3 0).toNat

/-- A flit of 256 bytes with its CRC-32 over bytes 0 to 251. -/
def flitOf (head : Nat) (body : List Byte) : List Byte :=
  let l := natLe 8 head ++ padTo 0 244 body
  l ++ natLe 4 (crc32 l)

/-- An idle flit: it takes no SEQ and brings ACK, NAK and the frees (R182). -/
def sendIdle (s : State) (a b : Nat) : State :=
  emit s (.d2d a b (flitOf (linkHead s a b (s.pair a b).next.toNat 0 0) []))

/-- A flit with a SEQ leaves and is held until it is acknowledged; one of a class spends its credit (R184, R185). -/
def sendFlit (s : State) (a b kind cls : Nat) (body : List Byte) : State :=
  let p := s.pair a b
  let bytes := flitOf (linkHead s a b p.next.toNat kind cls) body
  emit (s.setPair a b { p with
    next := p.next + 1, replay := p.replay ++ [bytes],
    sent := if kind = 1 ∨ kind = 2 then p.sent.set cls (p.sent.getD cls 0 + 1) else p.sent }) (.d2d a b bytes)

/-- A held flit as it is sent again: its own SEQ, KIND, CLASS and body, and ACK, NAK and counts of now. -/
def resendFlit (s : State) (a b : Nat) (old : List Byte) : List Byte :=
  let h := leNat (old.take 8)
  flitOf (linkHead s a b (bitsOf h 63 52) (bitsOf h 38 36) (bitsOf h 35 34)) (slice old 8 244)

/-- The flits of the replay buffer are sent again, in order (R184). -/
def resendAll (s : State) (a b : Nat) : State :=
  (s.pair a b).replay.foldl (fun t l => emit t (.d2d a b (resendFlit t a b l))) s

/-- The flits of buffer that a receiver holds for each class (R185). -/
def classFlits (c : Nat) : Nat := if c = 2 then 8 else if c = 3 then 24 else 48

/-- Active lanes of a pair. -/
def pairLanes (p : Pair) : Nat := (p.lanes.map.filter Option.isSome).length

/-- A pair may send: it has a lane, does not retrain, its replay buffer of 64 flits has room, and the SEQ it sends next is
not the one at which a lane is still to switch (R184, R187 to R189). -/
def pairOpen (p : Pair) : Bool :=
  pairLanes p != 0 && !p.retrain && decide (p.replay.length < 64) && p.swaps.all (fun w => w.at_ != some p.next)

/-- Flits are formed from the messages that wait of a class, once none formed of it is left. -/
def formClass (p : Pair) (c : Nat) : Pair :=
  let ms := ((p.wait.filter (fun w => w.1 == c)).map (·.2)).take 15
  if ms.isEmpty || p.ready.any (fun f => f.1 == c) then p
  else
    { p with
      ready := p.ready ++ (batchBodies ms).map (fun f => (c, f.1, f.2)),
      sentMsgs := p.sentMsgs ++ ms.map (fun m => (c, m)),
      wait := p.wait.filter (fun w => w.1 != c) ++ ((p.wait.filter (fun w => w.1 == c)).drop 15) }

/-- Flits of every class are formed. -/
def formAll (p : Pair) : Pair := [2, 1, 0, 3].foldl formClass p

/-! ### Credits of a pool (09 R209, R214) -/

/-- A flit of a class whose count of flits unfreed is `u` may leave: it is below its minimum, or a shared credit is free. -/
def creditOk (min u shared : Nat) : Bool := decide (u < min) || shared != 0

/-- The shared credits after one flit of the class leaves. -/
def creditSpend (min u shared : Nat) : Nat := if u < min then shared else shared - 1

/-- The shared credits after one free of the class comes back. -/
def creditBack (min u shared : Nat) : Nat := if min < u then shared + 1 else shared

/-- `n` frees of a class of a crossing come back. -/
def crossBack (c : Nat) : Nat → Cross → Cross
  | 0, x => x
  | n + 1, x =>
    let u := x.u.getD c 0
    crossBack c n { x with u := x.u.set c (u - 1), shared := creditBack 8 u x.shared }

/-- The first class whose count of frees has changed since it was last returned. -/
def crossDue (x : Cross) : Option Nat := (List.range 7).find? (fun c => x.freed.getD c 0 != x.told.getD c 0)

/-- The body of a flit of KIND 4 that die `a` sends to `b`, with the frees that `a` has to return (Table of 09 R209). -/
def crossBody (s : State) (a b : Nat) (fclass : Nat) (f : PktFlit) : State × List Byte :=
  let q := s.pair b a
  let due := crossDue q.cross
  let n := fclass * 2 ^ 29 + (if f.sop then 2 ^ 28 else 0) + (if f.eop then 2 ^ 27 else 0) + due.getD 7 * 2 ^ 24
    + (match due with
       | some c => (q.cross.freed.getD c 0).toNat * 2 ^ 16
       | none => 0)
  let t := match due with
    | some c => s.setPair b a { q with cross := { q.cross with told := q.cross.told.set c (q.cross.freed.getD c 0) } }
    | none => s
  (t, natLe 4 n ++ padTo 0 240 f.bytes)

/-- Take the first flit of a crossing whose class has a credit, and spend it. -/
def crossTake (x : Cross) : Option ((Nat × PktFlit) × Cross) :=
  (x.wait.find? (fun w => creditOk 8 (x.u.getD w.1 0) x.shared)).map (fun w =>
    (w, { x with
      wait := x.wait.erase w, u := x.u.set w.1 (x.u.getD w.1 0 + 1),
      shared := creditSpend 8 (x.u.getD w.1 0) x.shared }))

/-- The flit of KIND 4 that is next leaves. -/
def sendCross (s : State) (a b : Nat) (w : Nat × PktFlit) (x : Cross) : State :=
  let r := crossBody (s.setPair a b { s.pair a b with cross := x, turn4 := false }) a b w.1 w.2
  sendFlit r.1 a b 4 0 r.2

/-- Frees to return and no flit to send: flits of KIND 4 with no packet bytes, one for each class (09 R209). -/
def tellFrees (a b : Nat) : Nat → State → State
  | 0, s => s
  | n + 1, s =>
    if (crossDue (s.pair b a).cross).isSome && pairOpen (s.pair a b) && (s.pair a b).cross.wait.isEmpty then
      let r := crossBody s a b 7 { sop := false, eop := false, bytes := [] }
      tellFrees a b n (sendFlit r.1 a b 4 0 r.2)
    else s

/-! ### Sending (08 R182 to R186) -/

/-- The first flit formed whose class has a credit. -/
def readyFlit (p : Pair) : Option (Nat × Nat × List Byte) :=
  p.ready.find? (fun f => decide (p.sent.getD f.1 0 < classFlits f.1))

/-- A formed flit leaves. -/
def sendReady (s : State) (a b : Nat) (f : Nat × Nat × List Byte) : State :=
  let p := s.pair a b
  sendFlit (s.setPair a b { p with ready := p.ready.erase f, turn4 := true }) a b f.2.1 f.1 f.2.2

/-- Send one flit, if one may leave: lane control first, then messages and KIND 4, which alternate where both are ready. -/
def pumpOne (s0 : State) (a b : Nat) : Option State :=
  let s := s0.setPair a b (formAll (s0.pair a b))
  let p := s.pair a b
  if !pairOpen p then none
  else match p.ctlOut with
    | l :: r => some (sendFlit (s.setPair a b { p with ctlOut := r }) a b 3 0 l)
    | [] =>
      match readyFlit p, crossTake p.cross with
      | none, none => none
      | some f, none => some (sendReady s a b f)
      | none, some (w, x) => some (sendCross s a b w x)
      | some f, some (w, x) => some (if p.turn4 then sendCross s a b w x else sendReady s a b f)

/-- Send what may leave, `n` flits at most. -/
def pumpN (a b : Nat) : Nat → State → State
  | 0, s => s
  | n + 1, s =>
    match pumpOne s a b with
    | none => s
    | some t => pumpN a b n t

/-- Send what may leave on a pair: the replay buffer takes 64 flits. -/
def pump (s : State) (a b : Nat) : State := tellFrees a b 7 (pumpN a b 64 s)

/-- Where die `a` sends a message for die `d`, and in which class: on its pair, or in class RLY to the relay of a pair
with no lane (R189). -/
def linkHop (s : State) (a d cls : Nat) : Nat × Nat :=
  let l := (s.pair a d).lanes
  match l.relay with
  | some r => if pairLanes (s.pair a d) = 0 then (r, 3) else (d, cls)
  | none => (d, cls)

/-- Die `a` sends a message on the next pair of its path. -/
def sendHop (s : State) (a : Nat) (m : D2dMsg) : State :=
  let h := linkHop s a m.dst.val (msgClass m.typ)
  let p := s.pair a h.1
  pump (s.setPair a h.1 { p with wait := p.wait ++ [(h.2, m)] }) a h.1

/-- Send a message from die to die, delivered once and in order (R183, R184); a pair with an end out of service carries
none. -/
def sendMsg (s : State) (src dst : Nat) (m : D2dMsg) : State :=
  let n := { normMsg m with src := dieField src, dst := dieField dst }
  if unitUp s src && unitUp s dst then sendHop { s with flight := s.flight ++ [⟨src, dst, n⟩] } src n else s

/-- Lane-control bodies of a pair (Table 8.4; log 71): kind 1 SWAP, 2 SWAP_ACK, the lane, the spare and the switch SEQ. -/
def laneBody (kind lane spare k : Nat) : List Byte :=
  [BitVec.ofNat 8 kind, BitVec.ofNat 8 lane, BitVec.ofNat 8 spare] ++ natLe 2 k

/-- A lane-control flit leaves die `a` for `b`. -/
def sendLaneFlit (s : State) (a b : Nat) (body : List Byte) : State :=
  let p := s.pair a b
  pump (s.setPair a b { p with ctlOut := p.ctlOut ++ [body] }) a b

/-- A message of a class with no flit of it left at the sender: the owner that would answer has the credit (R186). -/
def hasRoom (s : State) (a d cls : Nat) : Bool :=
  let h := linkHop s a d cls
  let p := s.pair a h.1
  p.wait.all (fun w => w.1 != h.2) && p.ready.all (fun f => f.1 != h.2) && decide (p.sent.getD h.2 0 < classFlits h.2)

/-! ### Taking messages (08 R184 to R186, R189) -/

/-- The receiver of a pair takes the oldest message of a class; what it drained counts as freed. -/
def takeHead (s : State) (a b c : Nat) (m : D2dMsg) (r : RxClass) : State :=
  let p := s.pair a b
  let n := (p.rx.getD c .init).buf.length - r.buf.length
  s.setPair a b { p with
    rx := p.rx.set c r, freed := p.freed.set c (p.freed.getD c 0 + BitVec.ofNat 8 n), sentMsgs := p.sentMsgs.erase (c, m) }

/-- The oldest whole message that die `b` holds of a class from die `a`. -/
def heldMsg (s : State) (a b c : Nat) : Option (D2dMsg × RxClass) := headMsg ((s.pair a b).rx.getD c .init)

/-- The die from whose pair a message comes next to its destination: from its source, or, where nothing whole is held
from there, from a relay. -/
def arrival (s : State) (m : D2dMsg) : Option Nat :=
  let c := msgClass m.typ
  match heldMsg s m.src.val m.dst.val c with
  | some (h, _) => if h = m then some m.src.val else none
  | none => (List.range 8).find? (fun x =>
      match heldMsg s x m.dst.val c with
      | some (h, _) => decide (h = m)
      | none => false)

/-- The destination takes a message: none where it is not the oldest of its class that the receiver holds whole.  The
frees go back in an idle flit (R182, R185). -/
def takeMsg (s : State) (m : D2dMsg) : Option State :=
  (arrival s m).bind (fun a =>
    (heldMsg s a m.dst.val (msgClass m.typ)).map (fun r =>
      let t := takeHead s a m.dst.val (msgClass m.typ) m r.2
      sendIdle { t with flight := t.flight.erase ⟨m.src.val, m.dst.val, m⟩ } m.dst.val a))

/-- A relay passes on what it holds in class RLY from die `a`, as long as the next pair has room (R186, R189). -/
def relayDrain (a b : Nat) : Nat → State → State
  | 0, s => s
  | n + 1, s =>
    match heldMsg s a b 3 with
    | none => s
    | some (m, r) =>
      if hasRoom s b m.dst.val (msgClass m.typ) then relayDrain a b n (sendIdle (sendHop (takeHead s a b 3 m r) b m) b a)
      else s

/-- Every relayed message that die `b` can pass on. -/
def relayAll (s : State) (b : Nat) : State := (List.range 9).foldl (fun t a => relayDrain a b 32 t) s

/-- The messages of a pair that its receiver does not hold whole, of a class, in order: what is sent again if the pair
fails. -/
def unheld (p : Pair) (c : Nat) : List D2dMsg :=
  let r := p.rx.getD c .init
  let sent := p.sentMsgs.filter (fun w => w.1 == c)
  (sent.drop (heldMsgs r).length ++ p.wait.filter (fun w => w.1 == c)).map (·.2)

/-- A pair with no lane left gives up its messages, which take the relay's path (R189). -/
def reroute (s : State) (a b : Nat) : State :=
  let p := s.pair a b
  let ms := [2, 1, 0, 3].flatMap (unheld p)
  let keep := [2, 1, 0, 3].flatMap (fun c =>
    let sent := p.sentMsgs.filter (fun w => w.1 == c)
    sent.take (heldMsgs (p.rx.getD c .init)).length)
  ms.foldl (fun t m => sendHop t a m) (s.setPair a b { p with wait := [], ready := [], replay := [], sentMsgs := keep })

/-- The relay of a dead pair: the lowest compute die in service whose pairs to both ends are up (R189). -/
def relayOf (s : State) (a b : Nat) : Option Nat :=
  (List.range 8).find? (fun d => d != a && d != b && dieUp s d && pairLanes (s.pair a d) != 0 && pairLanes (s.pair d b) != 0)

/-! ### Messages -/

/-- A message with no data. -/
def bareMsg (typ : Byte) (src dst : Nat) (tag : BitVec 16) (addr : Nat) : D2dMsg :=
  { typ := typ, src := dieField src, dst := dieField dst, tag := tag, len := 0, addr := BitVec.ofNat 48 addr,
    data := [], poison := [] }

/-- A message with data. -/
def dataMsg (typ : Byte) (src dst : Nat) (tag : BitVec 16) (addr : Nat) (data : List Byte) (pz : List Bool) : D2dMsg :=
  { typ := typ, src := dieField src, dst := dieField dst, tag := tag, len := BitVec.ofNat 13 data.length,
    addr := BitVec.ofNat 48 addr, data := data, poison := pz }

/-! ### Packets as bytes (09 Table 9.2, R207) -/

/-- The poison marks of a packet with PX = 1: one for each word of its data, of the line in an STM. -/
def pktMarks (p : Packet) : Nat := if p.typ = 3 then 64 else (wordsOf (p.offset.toNat % 8) p.len.toNat).length

/-- Bytes of a packet's poison map. -/
def pktMapLen (p : Packet) : Nat := if p.px then ((if p.typ = 3 then 8 else 0) + pktMarks p + 7) / 8 else 0

/-- The number of a packet header. -/
def pktHead (p : Packet) : Nat :=
  p.dst.toNat * 2 ^ 238 + p.src.toNat * 2 ^ 220 + p.cls.toNat * 2 ^ 217 + p.typ.toNat * 2 ^ 212 + p.srcDie.toNat * 2 ^ 208
    + p.dstDie.toNat * 2 ^ 204 + p.id.toNat * 2 ^ 192 + p.epoch.toNat * 2 ^ 176 + p.tag.toNat * 2 ^ 160 + p.len.toNat * 2 ^ 147
    + (if p.px then 2 ^ 146 else 0) + (if p.mcast then 2 ^ 145 else 0) + p.mcAxis.toNat * 2 ^ 143
    + (if p.mcDir then 2 ^ 142 else 0) + p.mcSpan.toNat * 2 ^ 137 + p.offset.toNat * 2 ^ 80 + p.aux.toNat * 2 ^ 16

/-- The bytes of a packet: header, poison map, data. -/
def packetBytes (p : Packet) : List Byte :=
  natLe 32 (pktHead p)
    ++ (if p.px then natLe (pktMapLen p) (bitsNat p.poison * (if p.typ = 3 then 256 else 1)) else []) ++ p.data

/-- The header of a packet as it is read: none where a reserved bit is set (Table 9.2). -/
def readPktHead (l : List Byte) (plane : Fin 8) (inPort : Option Port) (lane : Option (Fin 16)) : Option Packet :=
  let n := leNat (l.take 32)
  if bitsOf n 136 128 ≠ 0 ∨ bitsOf n 15 0 ≠ 0 then none
  else some
    { dst := BitVec.ofNat 18 (bitsOf n 255 238), src := BitVec.ofNat 18 (bitsOf n 237 220), cls := BitVec.ofNat 3 (bitsOf n 219 217),
      typ := BitVec.ofNat 5 (bitsOf n 216 212), srcDie := BitVec.ofNat 4 (bitsOf n 211 208),
      dstDie := BitVec.ofNat 4 (bitsOf n 207 204), id := BitVec.ofNat 12 (bitsOf n 203 192),
      epoch := BitVec.ofNat 16 (bitsOf n 191 176), tag := BitVec.ofNat 16 (bitsOf n 175 160),
      len := BitVec.ofNat 13 (bitsOf n 159 147), px := n.testBit 146, mcast := n.testBit 145,
      mcAxis := BitVec.ofNat 2 (bitsOf n 144 143), mcDir := n.testBit 142, mcSpan := BitVec.ofNat 5 (bitsOf n 141 137),
      offset := BitVec.ofNat 48 (bitsOf n 127 80), aux := BitVec.ofNat 64 (bitsOf n 79 16), data := [], poison := [],
      plane := plane, inPort := inPort, lane := lane }

/-- Data bytes behind a header (Table 9.1): none of a load, eight of a pull, whose LEN is that of its read, and LEN of
every other type. -/
def pktData (p : Packet) : Nat := if p.typ.toNat = 1 then 0 else if p.typ.toNat = 6 then 8 else p.len.toNat

/-- A packet from its bytes. -/
def readPacket (l : List Byte) (plane : Fin 8) (inPort : Option Port) (lane : Option (Fin 16)) : Option Packet :=
  (readPktHead l plane inPort lane).map (fun p =>
    let k := pktMapLen p
    let n := leNat (slice l 32 k) / (if p.typ = 3 then 256 else 1)
    { p with data := slice l (32 + k) (pktData p), poison := if p.px then (List.range (pktMarks p)).map n.testBit else [] })

/-! ### Tags (09 R225) -/

/-- The first tag in turn that is not in use. -/
def pickTag (used : List (BitVec 16)) : Nat → BitVec 16 → BitVec 16
  | 0, t => t
  | n + 1, t => if used.contains t then pickTag used n (t + 1) else t

/-- A fresh tag for a request to another die or device (09 R225): the next in turn that no request has, or has had
within twice the timeout. -/
def freshTag (s : State) : BitVec 16 × State :=
  let hold := dnum s 0x9004 1 * 2000
  let spent := s.fab.spent.filter (fun x => decide ((clock s - x.2).toNat < hold))
  let used := spent.map (·.1) ++ s.fab.reqs.map Req.tag ++ s.d2dReqs.map D2dReq.tag ++ s.watches.map (fun w => w.2.tag)
    ++ s.queues.filterMap (fun e => e.2.watch) ++ s.queues.flatMap (fun e => e.2.jobs.filterMap Job.watch)
  let t := pickTag used used.length s.fab.nextTag
  (t, { s with fab := { s.fab with nextTag := t + 1, spent := spent } })

/-- A tag whose request has ended: it is not used again within twice the timeout (09 R225). -/
def spendTag (s : State) (t : BitVec 16) : State := { s with fab := { s.fab with spent := s.fab.spent ++ [(t, clock s)] } }

/-! ### Bells (06 R147, R149) -/

/-- The die of a bell (06 R147). -/
def bellDie (b : Nat) : Nat := b / 512

/-- The watches that the counter now satisfies are freed, each with a NOTIFY to its waiter (06 R149). -/
def notifyWatches (s : State) (b : Nat) : State :=
  let hit := s.watches.filter (fun w => w.2.bell == b && decide (w.2.value ≤ s.bell b))
  let s' := { s with watches := s.watches.filter (fun w => !(w.2.bell == b && decide (w.2.value ≤ s.bell b))) }
  hit.foldl (fun t w => sendMsg t (bellDie b) w.2.die
    (bareMsg 0x24 (bellDie b) w.2.die w.2.tag (b % 512))) s'

/-- A strike adds modulo 2^64; one that wraps sets the die's bit (06 R147). -/
def strike (s : State) (b : Nat) (v : Word) : State :=
  let old := s.bell b
  let s1 := s.setBell b (old + v)
  let s2 := if old + v < old then sticky s1 0xA060 3 (bellDie b) else s1
  notifyWatches s2 b

/-- A SET writes the counter (06 R147). -/
def setBell (s : State) (b : Nat) (v : Word) : State := notifyWatches (s.setBell b v) b

end Sys2Proof.Machine
end

