-- ==== Sys2Proof/Machine/Port.lean ====
section
/-!
DEFINITION. Plane ports and fibre transceivers as every sender sees them: the port map (10 R234, R235), flits on the
fibre with their link fields and fabric tag (09 R208; 10 R239, R240), the replay buffer (10 R243), the credits of a plane
port and the frees that it returns (09 R213 to R216), the slots of circuit lanes (09 R219), a packet's leaving, and the
packets that a receiver holds.
-/

namespace Sys2Proof.Machine

/-! ### Port maps (10 R234, R235) -/

/-- The assignment of Table 10.1. -/
def portMapReset : List Byte := [0x00, 0x11, 0x22, 0x33, 0x44, 0x55]

/-- The port map of a ribbon in force. -/
def State.portMap (s : State) (n : Nat) : List Byte := mget portMapReset s.portMaps n

/-- The transceiver that serves a plane port (port 6i + d is direction d of plane i). -/
def fibreOf (s : State) (port : Nat) : Nat :=
  7 * (port / 6) + bitsOf (byteAt (s.portMap (port / 6)) (port % 6)).toNat 6 4

/-- The plane port that a transceiver serves, if any. -/
def portOf (s : State) (f : Nat) : Option Nat :=
  ((List.range 6).find? (fun d => bitsOf (byteAt (s.portMap (f / 7)) d).toNat 6 4 == f % 7)).map (6 * (f / 7) + ·)

/-! ### Credits (09 R213 to R215) -/

/-- Flits of a packet: its bytes in bodies of 240 (09 R207, R208). -/
def packetFlits (p : Packet) : Nat := ((packetBytes p).length + 239) / 240

/-- Element i of a list of counts. -/
def natAt (l : List Nat) (i : Nat) : Nat := l.getD i 0

/-- Spend one credit of a class: a reserved one below its minimum, else a shared one (09 R214). -/
def spendOne (x : PortSt) (c : Nat) : Option PortSt :=
  if natAt x.u c < natAt x.mins c then some { x with u := x.u.set c (natAt x.u c + 1) }
  else if 0 < x.sharedFree then some { x with u := x.u.set c (natAt x.u c + 1), sharedFree := x.sharedFree - 1 }
  else none

/-- Spend n credits of a class, or none of them. -/
def spendN (c : Nat) : Nat → PortSt → Option PortSt
  | 0, x => some x
  | n + 1, x => (spendOne x c).bind (spendN c n)

/-- A free restores a shared credit while u exceeds the minimum, a reserved credit otherwise (09 R214). -/
def freeOne (c : Nat) (x : PortSt) : PortSt :=
  if natAt x.u c = 0 then x
  else
    { x with
      sharedFree := if natAt x.mins c < natAt x.u c then x.sharedFree + 1 else x.sharedFree,
      u := x.u.set c (natAt x.u c - 1) }

/-- n frees of a class. -/
def freeN (c : Nat) : Nat → PortSt → PortSt
  | 0, x => x
  | n + 1, x => freeN c n (freeOne c x)

/-- Spend the credits of n flits: of a class, or of a circuit lane's own 64 flits (09 R214, R219). -/
def spendFlits (x : PortSt) (cls : Nat) (lane : Option Nat) (n : Nat) : Option PortSt :=
  match lane with
  | some l =>
    let u := mget 0 x.laneU l
    if u + n ≤ 64 then some { x with laneU := mput 0 x.laneU l (u + n) } else none
  | none => spendN cls n x

/-- Spend the credits of a packet. -/
def spendPacket (x : PortSt) (p : Packet) : Option PortSt :=
  spendFlits x p.cls.toNat (p.lane.map (·.val)) (packetFlits p)

/-! ### Frees returned (09 Table 9.3, R214) -/

/-- The class, or lane from 6 on, whose frees the port returns next: of those whose count has changed since it was last
returned, the first from its turn on. -/
def dueKey (x : PortSt) : Option Nat :=
  ((List.range 22).map (fun k => (x.turn + k) % 22)).find? (fun k => mget 0 x.freed k != mget 0 x.told k)

/-- CR_CLASS, CR_LANE and CR_COUNT of the next tag. -/
def tagFrees (x : PortSt) : Nat :=
  match dueKey x with
  | none => 7 * 2 ^ 56
  | some k =>
    (if k < 6 then k * 2 ^ 56 else 6 * 2 ^ 56 + (k - 6) * 2 ^ 52) + mget 0 x.freed k * 2 ^ 40

/-- The frees of that tag have been returned. -/
def toldNext (x : PortSt) : PortSt :=
  match dueKey x with
  | none => x
  | some k => { x with told := mput 0 x.told k (mget 0 x.freed k), turn := (k + 1) % 22 }

/-- The frees that the tag of a transceiver's next flit returns, and the state in which they have been returned. -/
def nextFrees (s : State) (f : Nat) : Nat × State :=
  match portOf s f with
  | some n => (tagFrees (s.port n), s.setPort n (toldNext (s.port n)))
  | none => (7 * 2 ^ 56, s)

/-! ### Flits (09 R208; 10 R239, R240, R243) -/

/-- The 256 bytes of a flit: link fields with the CRC over bytes 4 to 255, fabric tag and body. -/
def linkFlit (x : Fibre) (seq kind tag : Nat) (body : List Byte) : List Byte :=
  let link := seq * 2 ^ 19 + (x.expect - 1).toNat * 2 ^ 6 + (if x.nak then 32 else 0) + kind * 4
  let rest := natLe 4 link ++ natLe 8 tag ++ padTo 0 240 body
  natLe 4 (crc32 rest) ++ rest

/-- A body with no packet bytes. -/
def noBytes : PktFlit := { sop := false, eop := false, bytes := [] }

/-- A flit leaves on a transceiver with the frees that are due; one of a kind that carries a SEQ takes it and is held
until it is acknowledged. -/
def leaveFlit (s : State) (f kind fc : Nat) (p : PktFlit) : State :=
  let (frees, t) := nextFrees s f
  let x := t.fibre f
  let tag := fc * 2 ^ 61 + (if p.sop then 2 ^ 60 else 0) + (if p.eop then 2 ^ 59 else 0) + frees
  let bytes := linkFlit x x.nextSeq.toNat kind tag p.bytes
  let y := if kind = 1 ∨ kind = 3 then
      { x with nextSeq := x.nextSeq + 1, replay := x.replay ++ [bytes],
               ackAt := if x.replay.isEmpty then clock s else x.ackAt }
    else x
  emit (t.setFibre f y) (.flit f bytes)

/-- A held flit is sent again: its own SEQ, kind, class, SOP, EOP and body, with ACK, NAK and frees of now. -/
def resendFibre (s : State) (f : Nat) (old : List Byte) : State :=
  let (frees, t) := nextFrees s f
  let link := leNat (slice old 0 8)
  emit t (.flit f (linkFlit (t.fibre f) (bitsOf link 63 51) (bitsOf link 36 34)
    (bitsOf (leNat (slice old 8 8)) 63 59 * 2 ^ 59 + frees) (slice old 16 240)))

/-- Every held flit is sent again, in order, and counted (10 R243). -/
def resendHeld (s : State) (f : Nat) : State :=
  let l := (s.fibre f).replay
  bump (l.foldl (fun t b => resendFibre t f b) s) 0x80A2 (f + 1) l.length

/-- The replay buffer of a transceiver takes n more flits (10 R243). -/
def replayRoom (s : State) (f n : Nat) : Bool := decide ((s.fibre f).replay.length + n ≤ 4096)

/-- With nothing else to send, an up port returns its frees in idle flits, `n` at most (09 R214). -/
def tellPort (port : Nat) : Nat → State → State
  | 0, s => s
  | n + 1, s =>
    if (s.port port).state = 2 ∧ (dueKey (s.port port)).isSome = true then
      tellPort port n (leaveFlit s (fibreOf s port) 0 7 noBytes)
    else s

/-! ### Lane control (10 R240, R246) -/

/-- The codes of a lane map as bits: λk in 5k + 4 to 5k. -/
def mapBits : List (BitVec 5) → Nat
  | [] => 0
  | c :: r => c.toNat + 32 * mapBits r

/-- The 32 bytes of a lane-control message (10 Table 10.6). -/
def laneBytes (m : LaneMsg) : List Byte :=
  natLe 32 (m.op.toNat * 2 ^ 248 + m.reason.toNat * 2 ^ 244 + m.tick.toNat * 2 ^ 154 + m.cw.toNat * 2 ^ 90 + mapBits m.map)

/-- A lane-control message as it is read: none where the place holds no operation of Table 10.7 or a reserved bit is set. -/
def readLane (l : List Byte) : Option LaneMsg :=
  let n := leNat l
  if bitsOf n 255 248 = 0 ∨ 6 < bitsOf n 255 248 ∨ bitsOf n 243 218 ≠ 0 then none
  else some
    { op := BitVec.ofNat 8 (bitsOf n 255 248), reason := BitVec.ofNat 4 (bitsOf n 247 244),
      tick := BitVec.ofNat 64 (bitsOf n 217 154), cw := BitVec.ofNat 64 (bitsOf n 153 90),
      map := (List.range 18).map (fun k => BitVec.ofNat 5 (bitsOf n (5 * k + 4) (5 * k))) }

/-- Lane-control messages leave, up to seven in a flit, while the replay buffer has room. -/
def lanePump (f : Nat) : Nat → State → State
  | 0, s => s
  | n + 1, s =>
    let x := s.fibre f
    if x.laneOut.isEmpty || !replayRoom s f 1 then s
    else
      lanePump f n (leaveFlit (s.setFibre f { x with laneOut := x.laneOut.drop 7 }) f 3 7
        { noBytes with bytes := (x.laneOut.take 7).flatMap laneBytes })

/-- A lane-control message is sent on a transceiver. -/
def sendLane (s : State) (f : Nat) (m : LaneMsg) : State :=
  lanePump f 1 (s.setFibre f { s.fibre f with laneOut := (s.fibre f).laneOut ++ [m] })

/-- The receiver of a direction acts on a lane-control message: none where it is not the oldest that it holds. -/
def takeLane (s : State) (f : Nat) (m : LaneMsg) : Option State :=
  match (s.fibre f).laneIn with
  | h :: r => if h = m then some (s.setFibre f { s.fibre f with laneIn := r }) else none
  | [] => none

/-! ### Packets leaving (09 R208, R214, R219) -/

/-- The flits of a packet: its bytes in bodies of 240, the first marked SOP and the last EOP. -/
def flitsOf (p : Packet) : List PktFlit :=
  let b := packetBytes p
  let n := (b.length + 239) / 240
  (List.range n).map (fun k => { sop := k == 0, eop := k + 1 == n, bytes := slice b (240 * k) 240 })

/-- The link sequence moves on to the next slot of a circuit lane: the slots between carry data flits with no packet bytes
(09 R219; log 79). `n` bounds the slots. -/
def fillTo (f lane : Nat) : Nat → State → State
  | 0, s => s
  | n + 1, s => if (s.fibre f).nextSeq.toNat % 16 = lane then s else fillTo f lane n (leaveFlit s f 1 7 noBytes)

/-- A flit of a packet leaves: of a circuit in its lane's next slot. -/
def leavePkt (p : Packet) (f : Nat) (s : State) (fl : PktFlit) : State :=
  match p.lane with
  | some l => leaveFlit (fillTo f l.val 16 s) f 1 6 fl
  | none => leaveFlit s f (if p.cls = 5 then 2 else 1) p.cls.toNat fl

/-- The last flit of a request has left this device (09 R221). -/
def markLeft (s : State) (p : Packet) : State :=
  if p.cls = 0 ∧ s.fab.coord = some p.src then
    { s with fab := { s.fab with reqs := s.fab.reqs.map (fun (r : Req) =>
        if r.tag == p.tag then { r with leftAt := some (clock s) } else r) } }
  else s

/-- A packet leaves on a port that is up, with its credits spent: BELL flits carry no SEQ and are never resent. -/
def launch (s : State) (port : Nat) (x : PortSt) (p : Packet) : State :=
  let y := if p.cls = 5 then { x with bells := x.bells ++ List.replicate (packetFlits p) (clock s) } else x
  markLeft ((flitsOf p).foldl (leavePkt p (fibreOf s port)) (s.setPort port y)) p

/-- Places that a packet takes in the replay buffer, with the slots that its lane leaves to others. -/
def replayNeed (p : Packet) : Nat :=
  if p.cls = 5 then 0 else if p.lane.isSome then 16 * packetFlits p else packetFlits p

/-- Do two packets stand in one order: the same class, or the same circuit lane? -/
def sameStream (p q : Packet) : Bool := p.cls == q.cls && p.lane == q.lane

/-- A port takes a packet of its slice: every credit of it and its places in the replay buffer are there, and nothing of
its stream waits before it.  A packet that lacks credit is counted in 0x8092 (09 R214, R233; log 79). -/
def portTakes (s : State) (port : Nat) (p : Packet) : Option State × State :=
  let x := s.port port
  if s.fab.held.any (fun h => h.1 == port && sameStream h.2 p) then (none, s)
  else match spendPacket x p with
    | none => (none, bump s 0x8092 (port / 6 + 1) 1)
    | some y => if replayRoom s (fibreOf s port) (replayNeed p) then (some (launch s port y p), s) else (none, s)

/-- A packet of the slice's own die leaves by a port, or waits behind those of its stream; a packet for a port that is
down is lost (log 13). -/
def sendPort (s : State) (port : Nat) (p : Packet) : State :=
  if (s.port port).state ≠ 2 then s
  else match portTakes s port p with
    | (some t, _) => t
    | (none, t) => { t with fab := { t.fab with held := t.fab.held ++ [(port, p)] } }

/-- Credits, or room in the replay buffer, have come back on a port: the packets that wait for it are tried again in
order. -/
def drainPort (s : State) (port : Nat) : State :=
  let mine := s.fab.held.filter (fun h => h.1 == port)
  let rest := s.fab.held.filter (fun h => h.1 != port)
  mine.foldl (fun t h => sendPort t port h.2) { s with fab := { s.fab with held := rest } }

/-! ### Packets that a receiver holds (09 R208, R213, R214) -/

/-- The flits of the oldest packet of a stream, up to its EOP. -/
def firstFlits : List PktFlit → List PktFlit
  | [] => []
  | f :: r => if f.eop then [f] else f :: firstFlits r

/-- A stream holds a whole packet. -/
def holdsWhole (l : List PktFlit) : Bool := l.any (·.eop)

/-- The packet that flits carry: none where its header sets a reserved bit, or names another class than its flits. -/
def flitsPacket (l : List PktFlit) (key : Nat) (plane : Fin 8) (inPort : Option Port) (lane : Option (Fin 16)) : Option Packet :=
  (readPacket (l.flatMap (·.bytes)) plane inPort lane).filter (fun p => decide (6 ≤ key) || p.cls.toNat == key)

/-- The lane of a stream of a port: those from 6 on are circuit lanes. -/
def keyLane (key : Nat) : Option (Fin 16) := if h : key - 6 < 16 then (if 6 ≤ key then some ⟨key - 6, h⟩ else none) else none

/-- The stream in which a packet comes by a port. -/
def portKey (p : Packet) : Nat := match p.lane with | some l => 6 + l.val | none => p.cls.toNat

/-- A plane, and a port, as fields. -/
def planeField (i : Nat) : Fin 8 := if h : i < 8 then ⟨i, h⟩ else 0
def portField (p : Nat) : Port := if h : p < 48 then ⟨p, h⟩ else 0

/-- The oldest whole packet of a stream of a port. -/
def portHead (s : State) (port key : Nat) : Option Packet :=
  let l := mget [] (s.port port).rx key
  if holdsWhole l then flitsPacket (firstFlits l) key (planeField (port / 6)) (some (portField port)) (keyLane key) else none

/-- The receiver of a port lets go of n flits of a stream from the front: they leave its pool, and count as freed (09
R214). -/
def dropPort (s : State) (port key n : Nat) : State :=
  let x := s.port port
  s.setPort port { x with rx := mput [] x.rx key ((mget [] x.rx key).drop n) }
def countPort (s : State) (port key n : Nat) : State :=
  let x := s.port port
  s.setPort port { x with freed := mput 0 x.freed key ((mget 0 x.freed key + n) % 4096) }
def freePort (s : State) (port key n : Nat) : State := countPort (dropPort s port key n) port key n

/-- The port lets go of the oldest packet of a stream. -/
def freeHead (s : State) (port key : Nat) : State :=
  freePort s port key (firstFlits (mget [] (s.port port).rx key)).length

/-- The flits of a packet of which the EOP has not come. -/
def openFlits (l : List PktFlit) : Nat := (l.reverse.takeWhile (fun f => !f.eop)).length

/-- A stream without the flits of an unfinished packet. -/
def wholeOnly (l : List PktFlit) : List PktFlit := l.take (l.length - openFlits l)

/-- A packet flit reaches the pool of a port.  One that no SOP began is let go, an unfinished packet gives way to the next
SOP, and a packet that cannot be read is let go when it is whole (log 79). -/
def takePktFlit (s : State) (port key : Nat) (f : PktFlit) : State :=
  let x := s.port port
  let l := mget [] x.rx key
  let keep := fun (m : List PktFlit) => s.setPort port { x with rx := mput [] x.rx key m }
  if !f.sop && openFlits l == 0 then countPort s port key 1
  else
    let base := if f.sop then wholeOnly l else l
    let n := openFlits base
    if f.eop && (flitsPacket (base.drop (base.length - n) ++ [f]) key (planeField (port / 6)) none none).isNone then
      countPort (keep (base.take (base.length - n))) port key (n + 1 + (l.length - base.length))
    else countPort (keep (base ++ [f])) port key (l.length - base.length)

end Sys2Proof.Machine
end

