-- ==== Sys2Proof/Machine/Queue.lean ====
section
/-!
DEFINITION. The shared operations of queues and descriptors (06 R126 to R141, R148, R152): the header's fields, the
release and the acquire of the remote-cache region (08 R194, R195), completion with its record, strike and vector, and
a queue's stop.
-/

namespace Sys2Proof.Machine

/-! ### Descriptors -/

/-- Word i of a descriptor. -/
def dword (l : List Word) (i : Nat) : Word := l.getD i 0

/-- TYPE, and the header's bits (06 Table 6.5). -/
def descType (l : List Word) : Nat := wbits (dword l 0) 63 56
def descIrq (l : List Word) : Bool := (dword l 0).getLsbD 55
def descChain (l : List Word) : Bool := (dword l 0).getLsbD 54
def descFence (l : List Word) : Bool := (dword l 0).getLsbD 53
def descSpec (l : List Word) : Bool := (dword l 0).getLsbD 52
def waitEn (l : List Word) : Bool := (dword l 1).getLsbD 63
def waitTimeout (l : List Word) : Nat := wbits (dword l 1) 43 12
def waitBell (l : List Word) : Nat := wbits (dword l 1) 11 0
def waitValue (l : List Word) : Word := dword l 2
def strikeEn (l : List Word) : Bool := (dword l 3).getLsbD 63
def strikeRemote (l : List Word) : Bool := (dword l 3).getLsbD 62
def strikeEndpoint (l : List Word) : BitVec 18 := BitVec.ofNat 18 (wbits (dword l 3) 47 30)
def strikeBell (l : List Word) : Nat := wbits (dword l 3) 11 0
def strikeAdd (l : List Word) : Word := dword l 4

/-- The training control word's fields (05 Table 5.3). -/
def trainBlock (l : List Word) : Nat := wbits (dword l 0) 31 20
def trainRole (l : List Word) : Nat := wbits (dword l 0) 9 8
def trainRoute (l : List Word) : Bool := (dword l 0).getLsbD 7
def trainFrozen (l : List Word) : Bool := (dword l 0).getLsbD 6
def trainEnd (l : List Word) : Bool := (dword l 0).getLsbD 5
def trainOut (l : List Word) : Bool := (dword l 0).getLsbD 4
def trainStart (l : List Word) : Bool := (dword l 0).getLsbD 3
def trainPhase (l : List Word) : Nat := wbits (dword l 0) 1 0

/-- The command processor of a queue: the die, 8 the hub (06 Table 6.1). -/
def queueDie (q : Nat) : Nat := if q < 512 then q / 64 else 8

/-- The local index of a queue. -/
def queueLocal (q : Nat) : Nat := if q < 512 then q % 64 else q - 512

/-! ### Jobs -/

/-- A job with the header fields of an issued descriptor. -/
def newJob (idx : BitVec 32) (words : List Word) : Job :=
  { idx := idx, words := words, phase := .ready, status := 0, detail := 0, fp := 0, taken := false,
    predicted := none, late := false, array := none, poisoned := false, need := 0, entries := 0,
    nextOff := 0, plane := 0, bitmap := 0, wrTags := [], released := false, replay := none, outcomes := [],
    waitFrom := none, watch := none, notified := false, parts := [], cqOld := none }

/-- The issued descriptor of a queue with a ring index. -/
def State.job (s : State) (q : Nat) (i : BitVec 32) : Option Job := (s.queue q).jobs.find? (fun j => j.idx == i)

/-- Change the issued descriptor of a queue with a ring index. -/
def State.modJob (s : State) (q : Nat) (i : BitVec 32) (f : Job → Job) : State :=
  let x := s.queue q
  s.setQueue q { x with jobs := x.jobs.map (fun j => if j.idx == i then f j else j) }

/-- A descriptor's work has ended with a status: it may now complete. A status already given stands. -/
def finish (s : State) (q : Nat) (i : BitVec 32) (status : Byte) (detail : Nat) : State :=
  s.modJob q i (fun j =>
    if j.phase = .finished then j
    else { j with phase := .finished, status := status, detail := BitVec.ofNat 32 detail })

/-- A descriptor's work has ended well: OK, or POISONED where a poisoned word moved (06 Table 6.14). -/
def finishOk (s : State) (q : Nat) (i : BitVec 32) : State :=
  match s.job q i with
  | none => s
  | some j => finish s q i (if j.poisoned then 1 else 0) 0

/-- One awaited reply or sub-operation has come. -/
def oneDone (s : State) (q : Nat) (i : BitVec 32) : State :=
  let t := s.modJob q i (fun j => { j with need := j.need - 1 })
  match t.job q i with
  | some j => if j.need = 0 ∧ j.phase = .working then finishOk t q i else t
  | none => t

/-! ### Packets (09 R206 to R212; 13 R295) -/

/-- The device takes part in fabric traffic: it holds a coordinate and has been released (09 R201, R229). -/
def fabricLive (s : State) : Bool := hubOn s && s.fab.released && s.fab.coord.isSome

/-- It may start fabric traffic: it is not fenced either (13 R297). -/
def fabricOpen (s : State) : Bool := fabricLive s && !s.res.fenced

/-- The dimensions of an order code (09 R210). -/
def orderAxes (code : Nat) : List Nat :=
  match code with
  | 0 => [0, 1, 2]
  | 1 => [0, 2, 1]
  | 2 => [1, 0, 2]
  | 3 => [1, 2, 0]
  | 4 => [2, 0, 1]
  | _ => [2, 1, 0]

/-- The direction of the next hop: of the first dimension in which the destination differs, twice the axis, plus 1
toward lower coordinates; none at the destination (09 R210). -/
def nextDir (me dst : BitVec 18) : List Nat → Option Nat
  | [] => none
  | a :: r =>
    if coordOn dst a = coordOn me a then nextDir me dst r
    else some (2 * a + (if coordOn dst a < coordOn me a then 1 else 0))

/-- The plane port toward a destination on a plane (09 R210). -/
def nextPort (s : State) (dst : BitVec 18) (plane : Nat) : Option Nat :=
  (nextDir (s.fab.coord.getD 0) dst (orderAxes (byteAt s.fab.orders plane).toNat)).map (6 * plane + ·)

/-- Would the hop through a port step past the destination in its dimension (09 R212)? -/
def stepsPast (s : State) (dst : BitVec 18) (port : Nat) : Bool :=
  let d := port % 6
  let peer := coordOn (s.port port).peer (d / 2)
  let goal := coordOn dst (d / 2)
  if d % 2 = 0 then goal < peer else peer < goal

/-- Does a destination match a detour entry (09 R211)? -/
def detourMatch (e : Detour) (c : BitVec 18) : Bool :=
  (List.range 3).all (fun a => coordOn e.lo a ≤ coordOn c a && coordOn c a ≤ coordOn e.hi a)

/-- The planes a packet may take: those in service, within the descriptor's mask or the first matching detour
(09 R211). -/
def allowedPlanes (s : State) (dst : BitVec 18) (mask : Nat) : List Nat :=
  let m :=
    if mask ≠ 0 then mask
    else match s.fab.detours.find? (fun e => detourMatch e dst) with
      | some e => e.mask.toNat
      | none => 0xFF
  (List.range 8).filter (fun i => dieUp s i && m.testBit i)

/-- The k-th choice of the round-robin over a set of planes (09 R211). -/
def planeAt (l : List Nat) (k : Nat) : Option Nat := if l.isEmpty then none else l[k % l.length]?

/-- The first plane of a set at or after a number, cyclically (09 R211, LD, ST and STM). -/
def planeFrom (l : List Nat) (k : Nat) : Option Nat :=
  match l.find? (fun i => k ≤ i) with
  | some i => some i
  | none => l.head?

/-- A packet of this device with no data. -/
def newPacket (s : State) (d : Nat) (dst : BitVec 18) (cls : BitVec 3) (typ : BitVec 5) : Packet :=
  { dst := dst, src := s.fab.coord.getD 0, cls := cls, typ := typ, srcDie := BitVec.ofNat 4 d, dstDie := 0, id := 0,
    epoch := BitVec.ofNat 16 (dcell s 0xC000 1), tag := 0, len := 0, px := false, mcast := false, mcAxis := 0,
    mcDir := false, mcSpan := 0, offset := 0, aux := 0, data := [], poison := [], plane := 0, inPort := none,
    lane := none }

/-- A packet on a plane. -/
def onPlane (p : Packet) (plane : Nat) : Packet := { p with plane := if h : plane < 8 then ⟨plane, h⟩ else 0 }

/-- A packet at its plane's slice leaves by the port of its first hop; one for the device itself is ejected where it is. -/
def atSlice (s : State) (plane : Nat) (p : Packet) : State :=
  match nextPort s p.dst plane with
  | none => { s with fab := { s.fab with own := s.fab.own ++ [onPlane p plane] } }
  | some port => sendPort s port (onPlane p plane)

/-- A packet crosses the package from die `e` to the slice of a plane, or from a slice to a die, in flits of KIND 4 (09
R209). -/
def crossPacket (s : State) (a b : Nat) (p : Packet) : State :=
  let key := if p.lane.isSome then 6 else p.cls.toNat
  let q := s.pair a b
  pump (s.setPair a b { q with cross := { q.cross with
    wait := q.cross.wait ++ (flitsOf p).map (fun f => (key, f)) } }) a b

/-- A packet leaves die `e` on a plane: at once where the die holds the plane's slice, else across the package; one whose
hop would step past its destination is dropped (09 R209, R212), and the answer is true.  A packet for the device itself
stays where it is. -/
def leaveOn (s : State) (e plane : Nat) (p : Packet) : Bool × State :=
  match nextPort s p.dst plane with
  | none => (false, atSlice s plane p)
  | some port =>
    if stepsPast s p.dst port then (true, sticky (bump s 0x8091 (plane + 1) 1) 0xA090 1 plane)
    else if e = plane then (false, atSlice s plane p)
    else (false, crossPacket s e plane (onPlane p plane))

/-- A die number of a packet field: the nine dies, any other the hub (log 79). -/
def dieOf (d : BitVec 4) : Nat := min 8 d.toNat

/-- The die for which this device ejects a packet (09 R206, R209; log 79): a reply's issuing die, the serving die of a
board-local access, the die of the window that a put, pulled data or a pull names, of a bell, or the member die of a
collective packet (11 R270); the core on the hub for the rest. -/
def ejectDie (s : State) (p : Packet) : Nat :=
  if p.cls = 1 then dieOf p.srcDie
  else if p.typ.toNat ≤ 3 then dieOf p.dstDie
  else if p.typ = 4 ∨ p.typ = 6 ∨ p.typ = 9 then
    match mget none s.fab.windows p.id.toNat with
    | some w => min 8 (addrDie w.base)
    | none => 8
  else if p.cls = 5 then min 7 (bellDie p.id.toNat)
  else if p.cls = 3 ∨ p.cls = 4 then dieOf p.dstDie
  else 8

/-- The reply to a packet: it goes back to the source and to the die that issued the request, with its tag, on the first
plane of the replier's own allowed set at or after the request's (09 R206, R211; log 17). -/
def reply (s : State) (p : Packet) (typ : BitVec 5) (f : Packet → Packet) : State :=
  let r := f { newPacket s 0 p.src 1 typ with srcDie := p.srcDie, id := p.id, tag := p.tag }
  match planeFrom (allowedPlanes s r.dst 0) p.plane.val with
  | some i => (leaveOn s (ejectDie s p) i r).2
  | none => s

/-- An ERR reply: a status and this device's coordinate (09 Table 9.1). -/
def replyErr (s : State) (p : Packet) (status : Nat) : State :=
  reply s p 0x15 (fun r => { r with aux := BitVec.ofNat 64 ((s.fab.coord.getD 0).toNat * 256 + status) })

/-- A request that finds no plane to take is answered by the device itself: an ERR with the status and its own coordinate,
which is ejected where it stands (09 R211). -/
def selfErr (s : State) (p : Packet) (status : Nat) : State :=
  let me := s.fab.coord.getD 0
  let r := { newPacket s p.srcDie.toNat me 1 0x15 with
             id := p.id, tag := p.tag, aux := BitVec.ofNat 64 (me.toNat * 256 + status) }
  { s with fab := { s.fab with own := s.fab.own ++ [r] } }

/-- Send a packet on a plane, while the device takes part in the fabric: a REQ or FWD that is dropped is answered ERR
with UNREACHABLE (09 R212). -/
def sendOn (s : State) (plane : Nat) (p : Packet) : State :=
  if !fabricLive s then s
  else
    let (dropped, t) := leaveOn s (dieOf p.srcDie) plane p
    if dropped && (p.cls == 0 || p.cls == 2) then replyErr t p 0x30 else t

/-! ### Packets of collectives (11 R266, R279) -/

/-- The answer to a collective packet that is dropped: CABORT to its source with COLL_UNREACHABLE and this device's
coordinate (11 R270, R279). -/
def unreachableAbort (s : State) (p : Packet) : State :=
  let me := s.fab.coord.getD 0
  let r := { newPacket s 8 p.src 4 0x1E with
             dstDie := p.srcDie, id := p.id, epoch := p.epoch, aux := BitVec.ofNat 64 (me.toNat * 256 + 0x23) }
  (leaveOn s 8 p.plane.val r).2

/-- The planes that a collective's packet may take: those that its mask permits and whose port toward the next member is
up (11 R266). -/
def collPlanes (s : State) (mask : Nat) (dst : BitVec 18) : List Nat :=
  (List.range 8).filter (fun i =>
    dieUp s i && (mask == 0 || mask.testBit i)
      && (match nextPort s dst i with | some p => (s.port p).state == 2 | none => false))

/-- The k-th packet of a collective leaves on the next of its planes, its payload counted, or waits until one is up; whether
this device itself drops it (11 R266, R279, R283). -/
def dealColl (s : State) (k mask : Nat) (p : Packet) : Bool × State :=
  match planeAt (collPlanes s mask p.dst) k with
  | none => (false, { s with coll := { s.coll with out := s.coll.out ++ [(mask, p)] } })
  | some i =>
    let t := if p.typ = 0x1D then bump s 0x80B0 3 p.data.length else s
    leaveOn { t with coll := { t.coll with opens := t.coll.opens.map (fun c =>
      if c.cid == p.id then { c with lastPkt := clock s } else c) } } (dieOf p.srcDie) i p

/-- The packets that wait for a plane are tried again, in their order; one that this device drops is answered by it. -/
def flushColl (s : State) : State :=
  if !fabricLive s then s
  else s.coll.out.zipIdx.foldl (fun t e =>
    let (dropped, u) := dealColl t e.2 e.1.1 e.1.2
    if dropped then unreachableAbort u e.1.2 else u) { s with coll := { s.coll with out := [] } }

/-! ### Packets taken (09 R209, R214, R217) -/

/-- The oldest whole packet that a die holds of a class of a crossing. -/
def crossHead (s : State) (a b key plane : Nat) : Option Packet :=
  let l := (s.pair a b).cross.rx.getD key []
  if holdsWhole l then flitsPacket (firstFlits l) key (planeField plane) none none else none

/-- The receiver of a crossing lets go of the oldest packet of a class, `n` flits: they leave its buffer, and count as freed,
in flits that go back. -/
def dropCross (s : State) (a b key n : Nat) : State :=
  let p := s.pair a b
  s.setPair a b { p with cross := { p.cross with rx := p.cross.rx.set key ((p.cross.rx.getD key []).drop n) } }
def countCross (s : State) (a b key n : Nat) : State :=
  let p := s.pair a b
  tellFrees b a 7 (s.setPair a b { p with cross := { p.cross with
    freed := p.cross.freed.set key (p.cross.freed.getD key 0 + BitVec.ofNat 8 n) } })
def freeCross (s : State) (a b key : Nat) : State :=
  let n := (firstFlits ((s.pair a b).cross.rx.getD key [])).length
  countCross (dropCross s a b key n) a b key n

/-- Take a packet from the port it came by: none where it is not the oldest whole one of its stream. -/
def takeAtPort (s : State) (p : Packet) : Option State :=
  match p.inPort with
  | none => none
  | some port => if portHead s port.val (portKey p) = some p then some (freeHead s port.val (portKey p)) else none

/-- Where an ejected packet has crossed to from its plane's slice: the die and the class of its flits. -/
def crossAt (s : State) (p : Packet) : Option (Nat × Nat) :=
  let i := p.plane.val
  (((List.range 9).filter (· != i)).flatMap (fun d => [(d, p.cls.toNat), (d, 6)])).find?
    (fun e => crossHead s i e.1 e.2 i == some p)

/-- A packet of this device to itself. -/
def takeOwn (s : State) (p : Packet) : State := { s with fab := { s.fab with own := s.fab.own.erase p } }

/-- Take an ejected packet: this device's own, at the port where the plane's die is that for which it is ejected, else
where it has crossed the package to. -/
def takePacket (s : State) (p : Packet) : Option State :=
  if s.fab.own.contains p then some (takeOwn s p)
  else if ejectDie s p = p.plane.val ∧ p.inPort.isSome = true then takeAtPort s p
  else (crossAt s p).map (fun e => freeCross s p.plane.val e.1 e.2)

/-- Pull an ejected packet out of its stream; it keeps its credit until it is released (11 R274). -/
def pullPacket (s : State) (p : Packet) : Option State :=
  if s.fab.own.contains p then some (takeOwn s p)
  else match p.inPort with
    | some port =>
      let key := portKey p
      if ejectDie s p = p.plane.val ∧ portHead s port.val key = some p then
        some (dropPort s port.val key (firstFlits (mget [] (s.port port.val).rx key)).length)
      else none
    | none => (crossAt s p).map (fun e =>
        dropCross s p.plane.val e.1 e.2 (firstFlits ((s.pair p.plane.val e.1).cross.rx.getD e.2 [])).length)

/-- A packet that was pulled gives its credit back. -/
def releasePacket (s : State) (p : Packet) : State :=
  match p.inPort with
  | some port => countPort s port.val (portKey p) (packetFlits p)
  | none => if s.fab.coord = some p.src then s else countCross s p.plane.val (ejectDie s p) p.cls.toNat (packetFlits p)

/-- A crossing holds credits for n flits of a class, and none of it waits. -/
def crossRoom (x : Cross) (key n : Nat) : Bool :=
  x.wait.all (fun w => w.1 != key) && decide (n ≤ (8 - x.u.getD key 0) + x.shared)

/-- The flits of the reply to a request: PULLD, and LDR, carry LEN bytes and may carry a poison map. -/
def replyFlits (p : Packet) : Nat :=
  let n := if p.typ = 6 ∨ p.typ = 1 then p.len.toNat else 0
  (32 + n + (if n = 0 then 0 else (n + 14) / 64 + 1) + 239) / 240

/-- The class in which a request is answered: a pull in FWD, any other in RSP. -/
def replyClass (p : Packet) : Nat := if p.typ = 6 then 2 else 1

/-- A target consumes a request only when it holds credit for its reply (09 R217 item 4): on its own slice's port, or
across the package. -/
def replyCredit (s : State) (p : Packet) : Bool :=
  p.cls != 0 ||
    match planeFrom (allowedPlanes s p.src 0) p.plane.val with
    | none => true
    | some i =>
      let e := ejectDie s p
      if e = i then
        match nextPort s p.src i with
        | none => true
        | some port =>
          (s.port port).state != 2
            || ((spendFlits (s.port port) (replyClass p) none (replyFlits p)).isSome
              && replayRoom s (fibreOf s port) (replyFlits p)
              && s.fab.held.all (fun h => h.1 != port || h.2.cls.toNat != replyClass p))
      else crossRoom (s.pair e i).cross (replyClass p) (replyFlits p)

/-- The lane of a circuit packet on its plane: its circuit's lanes in turn by the 4 KiB block of its offset (09 R221; log
79). -/
def circuitLane (s : State) (plane : Nat) (p : Packet) : Option (Fin 16) :=
  match s.fab.circuits.find? (fun c => c.dst == p.dst && c.window == p.id && c.plane == plane) with
  | none => none
  | some c =>
    let ls := onesBelow 16 c.lanes.toNat
    let l := ls.getD (p.offset.toNat / 4096 % max 1 ls.length) 0
    if h : l < 16 then some ⟨l, h⟩ else none

/-- The slice of plane `i` takes the oldest packet that has crossed from die `e` in a class, and answers whether it did: it
leaves when its port has room, is lost where the port is down or its circuit is gone, and is dropped where it would step
past its destination. -/
def sliceTake (s : State) (e i key : Nat) : Bool × State :=
  match crossHead s e i key i with
  | none => (false, s)
  | some p0 =>
    let p := if key = 6 then { p0 with lane := circuitLane s i p0 } else p0
    match (if s.fab.coord = some p.dst then none else nextPort s p.dst i) with
    | none => (false, s)
    | some port =>
      if (s.port port).state ≠ 2 ∨ (key = 6 ∧ p.lane.isNone = true) then (true, freeCross s e i key)
      else if stepsPast s p.dst port then
        let t := sticky (bump (freeCross s e i key) 0x8091 (i + 1) 1) 0xA090 1 i
        (true, if p.cls = 0 ∨ p.cls = 2 then selfErr t p 0x30 else t)
      else match portTakes s port p with
        | (some t, _) => (true, freeCross t e i key)
        | (none, t) => (false, t)

/-- A slice takes what has crossed in a class, `n` packets at most. -/
def sliceDrain (e i key : Nat) : Nat → State → State
  | 0, s => s
  | n + 1, s =>
    match sliceTake s e i key with
    | (false, t) => t
    | (true, t) => sliceDrain e i key n t

/-- A slice takes what has crossed to it from every die. -/
def slicePump (s : State) (i : Nat) : State :=
  ((List.range 9).filter (· != i)).foldl (fun t e => (List.range 7).foldl (fun u key => sliceDrain e i key 8 u) t) s

/-- Send a packet on the k-th plane of its allowed set. -/
def sendDealt (s : State) (k : Nat) (p : Packet) : State :=
  match planeAt (allowedPlanes s p.dst 0) k with
  | some i => sendOn s i p
  | none => s

/-- A put of an engine that awaits no reply to it: its tag is spent at once, so that the PUTA finds no request. -/
def sendLoose (s : State) (k : Nat) (p : Packet) : State :=
  let (tag, t) := freshTag s
  sendDealt (spendTag t tag) k { p with tag := tag }

/-! ### Release and acquire (08 R194, R195) -/

/-- Does a line hold dirty bytes? -/
def RcLine.isDirty (l : RcLine) : Bool := l.dirty != 0

/-- The write-back of a line: WR with every byte dirty, WRM else (08 R193); ST or STM to another device (09 R202).
The request is entered with its owner and answered by its tag. -/
def writeBack (s : State) (d : Nat) (l : RcLine) (use : D2dFor) : BitVec 16 × State :=
  let (tag, s1) := freshTag s
  let full := l.dirty == BitVec.allOnes 512
  let off := l.line * 512
  let pz := (List.range 64).map l.poison.getLsbD
  let data := if full then l.data else natLe 64 l.dirty.toNat ++ l.data
  let s2 := bump s1 0x8083 (d + 1) 1
  let s3 := { s2 with d2dReqs := s2.d2dReqs ++ [⟨d, tag, l.slot, l.die, clock s, off, 512, use, (s.rc d).gen⟩] }
  if l.slot = ownSlot s then
    (tag, sendMsg s3 d l.die (dataMsg (if full then 0x02 else 0x03) d l.die tag off data pz))
  else
    let dst := slotCoord (s.fab.coord.getD 0) l.slot
    let p := { newPacket s d dst 0 (if full then 2 else 3) with
               dstDie := BitVec.ofNat 4 l.die, tag := tag, len := BitVec.ofNat 13 data.length, px := l.poison != 0,
               offset := BitVec.ofNat 48 off, data := data, poison := pz }
    match planeFrom (allowedPlanes s dst 0) (off / 4096 % 8) with
    | some i => (tag, sendOn s3 i p)
    | none => (tag, selfErr s3 p 0x30)

/-- Write back the dirty lines of a die's region that a test picks; the lines stay, clean. Answers the tags. -/
def writeBackAll (s : State) (d : Nat) (pick : RcLine → Bool) (use : D2dFor) : List (BitVec 16) × State :=
  let ls := (s.rc d).lines.filter (fun l => l.isDirty && pick l)
  let (tags, t) := ls.foldl (fun (acc : List (BitVec 16) × State) l =>
    let (tag, t) := writeBack acc.2 d l use
    (acc.1 ++ [tag], t)) ([], s)
  let r := t.rc d
  (tags, t.setRc d { r with lines := r.lines.map (fun l => if l.isDirty && pick l then { l with dirty := 0 } else l) })

/-- Is an outstanding write one of a writer tag of a die? -/
def D2dFor.isOfWriter (u : D2dFor) (tag : Nat) : Bool :=
  match u with
  | .store t => t == tag
  | .posted t _ _ => t == tag
  | .release q _ => queueLocal q == tag
  | .park q => queueLocal q == tag
  | .update => tag == 64
  | _ => false

/-- Is it a write of a writer tag that no release awaits yet? -/
def D2dFor.isPosted (u : D2dFor) (tag : Nat) : Bool :=
  match u with
  | .store t => t == tag
  | .posted t _ _ => t == tag
  | _ => false

/-- Start the release of a writer tag of a die (06 R148; 08 R194): its dirty lines are written back, and the release
waits for these and for every earlier write of the tag that is not acknowledged yet.  Stores that went past the region
and lines evicted before are from now on this release's. -/
def startRelease (s : State) (d tag : Nat) (use : D2dFor) : List (BitVec 16) × State :=
  if d = 8 then ([], s)
  else
    let old := (s.d2dReqs.filter (fun r => r.die == d && r.use.isOfWriter tag)).map D2dReq.tag
    let mine := s.d2dReqs.map (fun (r : D2dReq) =>
      if r.die = d ∧ r.use.isPosted tag = true then { r with use := use } else r)
    let (tags, t) := writeBackAll { s with d2dReqs := mine } d (fun l => l.tag == tag) use
    (old ++ tags, t)

/-- An acquire clears the valid bits of every clean byte of the die's region and advances its generation (08 R195). -/
def acquire (s : State) (d : Nat) : State :=
  if d = 8 then s
  else
    let r := s.rc d
    let lines := (r.lines.map (fun l => { l with valid := l.valid &&& l.dirty })).filter (fun l => l.valid != 0)
    bump (s.setRc d { r with lines := lines, gen := r.gen + 1 }) 0x8084 (d + 1) 1

/-! ### Host requests (14 R322) -/

/-- Issue a host read: a 14-bit tag in turn (14 Table 14.1). -/
def hostRead (s : State) (addr len : Nat) (use : ReadFor) : State :=
  let tag := s.host.nextTag
  let r : HostRead := { tag := tag, addr := addr, len := len, use := use, got := [], marks := [] }
  emit { s with host := { s.host with reads := s.host.reads ++ [r], nextTag := (tag + 1) % 16384 } }
    (.hostRead tag addr len)

/-- A write to host memory: at once where requests may be issued; held while they may not, on a link that is up; lost on
a link that is down (14 R322 rule 7, R327). -/
def postHost (s : State) (addr : Nat) (data : List Byte) (ep relaxed : Bool) : State :=
  if hostReady s then bump (emit s (.hostWrite addr data ep relaxed)) 0x80D0 2 data.length
  else if s.host.linkUp then
    { s with host := { s.host with
                       held := s.host.held ++ [{ addr := addr, data := data, ep := ep, relaxed := relaxed }] } }
  else s

/-! ### Vectors, records and stops (06 R128, R139, R140, R152) -/

/-- Raise a queue's vector at once. -/
def raiseNow (s : State) (q : Nat) : State :=
  let x := s.queue q
  raiseVector (s.setQueue q { x with lastRaise := some (clock s), raiseHeld := false }) x.vector.toNat

/-- Raise a queue's vector unless its hold-off still runs, when the raise is held (06 R139). -/
def raiseQueue (s : State) (q : Nat) : State :=
  let x := s.queue q
  match x.lastRaise with
  | some t =>
    if (clock s - t).toNat < x.holdoff.toNat * 1000 then s.setQueue q { x with raiseHeld := true } else raiseNow s q
  | none => raiseNow s q

/-- A stopping status (06 Table 6.14; 09 Table 9.7; 11 Table 11.5; 14 Table 14.5): every code from 0x10 on. -/
def isStopping (status : Byte) : Bool := decide (16 ≤ status.toNat)

/-- The ring fetches of a queue whose index a test picks are discarded: what they bring is dropped (06 R128, R144). -/
def dropFetches (s : State) (q : Nat) (pick : BitVec 32 → Bool) : State :=
  let drop := fun (r : HostRead) => match r.use with
    | .fetch p i => if p = q ∧ pick i = true then { r with use := .dropped } else r
    | _ => r
  { s with host := { s.host with reads := s.host.reads.map drop } }

/-- Release a watch that a die holds for a tag (06 R149). -/
def sendUnwatch (s : State) (d b : Nat) (tag : BitVec 16) : State :=
  sendMsg (spendTag s tag) d (bellDie b) (bareMsg 0x25 d (bellDie b) tag (b % 512))

/-- The head's wait is given up: a watch held on another die is released by UNWATCH (06 R149). -/
def dropWait (s : State) (q : Nat) : State :=
  let x := s.queue q
  let s1 := match x.watch, x.fetched with
    | some tag, f :: _ => sendUnwatch s (queueDie q) (waitBell f.words) tag
    | _, _ => s
  s1.setQueue q { x with waitAt := none, watch := none, notified := false, waitOpen := false }

/-- A queue stops: ERROR, HEAD at the failing descriptor, what it has fetched discarded, VECTOR at once; a stopping
status in ERROR raises it again (06 R128, R139). -/
def stopQueue (s : State) (q : Nat) (i : BitVec 32) : State :=
  match (s.queue q).state with
  | .running | .parking =>
    let t := dropFetches (dropWait s q) q (fun _ => true)
    raiseNow (t.setQueue q { t.queue q with state := .error, head := i, fetched := [], fetchAt := i }) q
  | .error => raiseNow s q
  | _ => s

/-- An access fault of a place: its status and, where the rule sets one, the sticky bit (06 R152; 07 R162; 01 R20). -/
def faultSticky (s : State) (cpu : Nat) (p : Place) : State :=
  match p with
  | .bad => sticky s 0xA060 5 cpu
  | .hole d => sticky s 0xA070 7 d
  | _ => s

/-- A ring that cannot be reached: as an access fault, and a ring on a die in reset or retired counts as one (06 R152). -/
def ringSticky (s : State) (cpu : Nat) (p : Place) : State :=
  match p with
  | .lost _ => if unitUp s cpu then sticky s 0xA060 5 cpu else s
  | _ => faultSticky s cpu p

/-- The status of a place that is not a store. -/
def placeStatus (p : Place) : Byte :=
  match p with
  | .lost _ => 0x1B
  | _ => 0x19

/-- DETAIL of an access fault: address bits 55:24; of a lost die, the die (06 Table 6.14). -/
def placeDetail (a : Nat) (p : Place) : Nat :=
  match p with
  | .lost d => d
  | _ => bitsOf a 55 24

/-- The 32 bytes of a completion record (06 Table 6.13). -/
def recordBytes (s : State) (j : Job) (pass : Bool) : List Byte :=
  let b := fun (x : Bool) (i : Nat) => if x then 2 ^ i else 0
  let lo := (match j.array with | some a => 2 ^ 70 + a * 2 ^ 64 | none => 0)
    + b j.taken 96 + b (j.status == 1) 97 + b j.late 98 + b (unsync s) 99 + b pass 103
    + descType j.words * 2 ^ 104 + j.fp.toNat * 2 ^ 112 + j.status.toNat * 2 ^ 120
  natLe 16 lo ++ natLe 4 j.idx.toNat ++ natLe 4 j.detail.toNat ++ natLe 8 (now s).toNat

/-- Where the next record of a ring goes, and its PASS bit (06 R140). -/
def recordAt (base : Word) (log2 : Nat) (tail : BitVec 32) : Nat × Bool :=
  (bitsOf base.toNat 55 0 + (tail.toNat % (256 * 2 ^ log2)) * 32, tail.toNat.testBit (log2 + 8))

/-- Write a completion record into a ring: to the host, into a store, or lost where the address faults, when the queue
stops (06 R152; 14 R322). -/
def putRecord (s : State) (q : Nat) (j : Job) (base : Word) (log2 : Nat) (tail : BitVec 32) : State :=
  let (a, pass) := recordAt base log2 tail
  let bytes := recordBytes s j pass
  if base.getLsbD 63 then
    postHost s a bytes false false
  else if addrSlot a ≠ ownSlot s then sticky (stopQueue s q j.idx) 0xA060 5 (queueDie q)
  else match faultIn s (addrDie a) (addrOff a) 32 with
    | none => storeBytes s (cellKey (addrDie a) (addrOff a)) bytes (fun _ => false)
    | some (_, p) => ringSticky (stopQueue s q j.idx) (queueDie q) p

/-- Write the record of a completing descriptor and advance CQ_TAIL. -/
def writeRecord (s : State) (q : Nat) (j : Job) : State :=
  match j.cqOld with
  | some (base, log2, tail) => if base.getLsbD 63 then s else putRecord s q j base log2.toNat tail
  | none =>
    let x := s.queue q
    putRecord (s.setQueue q { x with cqTail := x.cqTail + 1 }) q j x.cqBase x.cqLog2.toNat x.cqTail

/-- A frame of the bell class to another device (06 R150; 09 Table 9.1), while this device may start traffic. -/
def remoteStrike (s : State) (q : Nat) (dst : BitVec 18) (b : Nat) (v : Word) (tick : Option Word) : State :=
  if !fabricOpen s then s
  else
    let p := { newPacket s (queueDie q) dst 5 (if tick.isSome then 0x19 else 0x18) with
               id := BitVec.ofNat 12 b, len := if tick.isSome then 8 else 0, aux := v,
               data := (match tick with | some t => natLe 8 t.toNat | none => []) }
    sendDealt s (queueLocal q % 8) p

/-- A strike by a die on a bell of the package: at once on its own die, as STRIKE to another (06 R150). -/
def packageStrike (s : State) (d b : Nat) (v : Word) : State :=
  if bellDie b = d then strike s b v
  else sendMsg s d (bellDie b) (dataMsg 0x20 d (bellDie b) 0 (b % 512) (natLe 8 v.toNat) [])

/-- The header strike of a completion (06 R148, R141). -/
def headerStrike (s : State) (q : Nat) (l : List Word) : State :=
  if !strikeEn l then s
  else if strikeRemote l then remoteStrike s q (strikeEndpoint l) (strikeBell l) (strikeAdd l) none
  else packageStrike s (queueDie q) (strikeBell l) (strikeAdd l)

/-- A queue has reached PARKED: VECTOR is raised (06 Table 6.4). -/
def reachParked (s : State) (q : Nat) : State :=
  let x := s.queue q
  raiseQueue (s.setQueue q { x with state := .parked, park := true, ackHeld := false, releaseTags := [] }) q

/-- A queue whose INFLIGHT has reached 0: PARKING starts its release and becomes PARKED when it is acknowledged; a held
ERR_ACK takes ERROR to PARKED (06 Table 6.4; 08 R194). -/
def settleQueue (s : State) (q : Nat) : State :=
  let x := s.queue q
  if !x.jobs.isEmpty then s
  else match x.state with
    | .parking =>
      let (tags, t) := startRelease s (queueDie q) (queueLocal q) (.park q)
      if tags.isEmpty then reachParked t q
      else
        let y := t.queue q
        t.setQueue q { y with releaseTags := tags }
    | .error =>
      if x.ackHeld then
        let (tags, t) := startRelease s (queueDie q) (queueLocal q) (.park q)
        let y := t.queue q
        if tags.isEmpty then t.setQueue q { y with state := .parked, ackHeld := false, park := true }
        else t.setQueue q { y with releaseTags := tags }
      else s
    | _ => s

/-- A reissued descriptor has completed: its REPLAY counts it (05 R121). -/
def tellReplay (s : State) (j : Job) : State :=
  match j.replay with
  | none => s
  | some (q, r) => oneDone s q r

/-- Completion of a descriptor whose release is done (06 R139 to R141): its record, its strike, its vector, its
queue's stop, and the end of its issue. -/
def completeJob (s : State) (q : Nat) (j : Job) : State :=
  let s1 := writeRecord s q j
  let x := s1.queue q
  let s2 := s1.setQueue q { x with jobs := x.jobs.filter (fun k => !(k.idx == j.idx && k.replay == j.replay)) }
  let s3 :=
    if isStopping j.status then stopQueue s2 q j.idx
    else
      let t := headerStrike s2 q j.words
      if descIrq j.words then raiseQueue t q else t
  let s4 := if descType j.words = 3 then bump s3 0x8050 2 1 else s3
  settleQueue (tellReplay s4 j) q

/-- Every issued descriptor of a queue completes with a status (06 Table 6.4, reset of the queue's die). -/
def completeAll (s : State) (q : Nat) (status : Byte) (detail : Nat) : State :=
  (s.queue q).jobs.foldl
    (fun t j => completeJob t q { j with status := status, detail := BitVec.ofNat 32 detail, phase := .finished }) s

/-- A refusal of a descriptor that has not issued: it completes with a stopping status (06 R131). -/
def refuse (s : State) (q : Nat) (f : Fetched) (status : Byte) (detail : Nat) : State :=
  let j := { newJob f.idx f.words with phase := .finished, status := status, detail := BitVec.ofNat 32 detail }
  stopQueue (writeRecord s q j) q f.idx

end Sys2Proof.Machine
end

