-- ==== Sys2Proof/Machine/Rcache.lean ====
section
/-!
DEFINITION. The remote-cache region and the requests of a die to another die or to another device of the board
(08 R191 to R197; 09 R202): where a line stands, eviction, stores and loads through the region, and the end of an
awaited write.
-/

namespace Sys2Proof.Machine

/-! ### Lines and sets (08 R192) -/

/-- Sets of a die's region: 128 for each MiB. -/
def rcSets (s : State) (d : Nat) : Nat := (s.tier d).rcMib * 128

/-- The set of a line: of another device of the board, its die number is 16·slot + d (09 R202). -/
def rcSet (s : State) (d slot die line : Nat) : Nat :=
  ((if slot = ownSlot s then die else 16 * slot + die) * 2 ^ 39 + line) % rcSets s d

/-- Ways that lines of a set may stand in: lines lent from the top of the region leave theirs (07 R161; 08 R192). -/
def rcWays (s : State) (d set : Nat) : Nat :=
  16 - min 16 ((s.memRec d).lent.length - 16 * (rcSets s d - 1 - set))

/-- The set of a speculative line, by its place among the die's lines of 512 bytes (08 R192). -/
def specSet (s : State) (d k : Nat) : Nat := rcSet s d (ownSlot s) d (k % 2 ^ 39)

/-- The ways of a set that speculative lines hold (06 R142). -/
def specWays (s : State) (d set : Nat) : List Nat :=
  (s.cp d).specs.flatMap (fun f =>
    ((f.lines.zip f.ways).filter (fun e => specSet s d e.1 == set)).map (·.2))

/-- The region's other lines in a set. -/
def rcMates (s : State) (d set : Nat) : List RcLine :=
  (s.rc d).lines.filter (fun l => rcSet s d l.slot l.die l.line == set)

/-- The lowest way of a set that no line holds. -/
def freeWay (s : State) (d set : Nat) : Option Nat :=
  let used := (rcMates s d set).map RcLine.way ++ specWays s d set
  (List.range (rcWays s d set)).find? (fun w => !used.contains w)

/-- Does a line stand for a place? -/
def RcLine.isAt (l : RcLine) (slot die line : Nat) : Bool := l.slot == slot && l.die == die && l.line == line

/-- The region's line of a place. -/
def rcFind (s : State) (d slot die line : Nat) : Option RcLine := (s.rc d).lines.find? (fun l => l.isAt slot die line)

/-- Replace or add a line, with the latest use; a line that is added takes the lowest free way of its set. -/
def rcPut (s : State) (d : Nat) (l : RcLine) : State :=
  let r := s.rc d
  let rest := r.lines.filter (fun x => !x.isAt l.slot l.die l.line)
  let way := match rcFind s d l.slot l.die l.line with
    | some x => x.way
    | none => (freeWay s d (rcSet s d l.slot l.die l.line)).getD 0
  s.setRc d { r with lines := rest ++ [{ l with use := r.clock, way := way }], clock := r.clock + 1 }

/-- Forget a line. -/
def rcDrop (s : State) (d slot die line : Nat) : State :=
  let r := s.rc d
  s.setRc d { r with lines := r.lines.filter (fun x => !x.isAt slot die line) }

/-- Does the region hold lines for a place: it has sets, and the set a way that no speculative line holds (08 R191,
R192)? -/
def rcHolds (s : State) (d slot die line : Nat) : Bool :=
  let set := rcSet s d slot die line
  rcSets s d != 0 && decide ((specWays s d set).length < rcWays s d set)

/-- The least recently used of some lines. -/
def rcOldest (l : List RcLine) : Option RcLine :=
  l.foldl (fun (b : Option RcLine) l => match b with
    | none => some l
    | some x => if l.use < x.use then some l else some x) none

/-- A line leaves the region, written back first if it is dirty (08 R192). -/
def rcEvict (s : State) (d : Nat) (v : RcLine) : State :=
  rcDrop (if v.isDirty then (writeBack s d v (.store v.tag)).2 else s) d v.slot v.die v.line

/-- Room for one more line in a set: the least recently used line that is not speculative leaves (08 R192). -/
def rcMakeRoom (s : State) (d slot die line : Nat) : State :=
  let set := rcSet s d slot die line
  if (freeWay s d set).isSome || (rcFind s d slot die line).isSome then s
  else match rcOldest (rcMates s d set) with
    | none => s
    | some v => rcEvict s d v

/-- The line of the region that is lent last leaves its set, from the region's top: what stood in its way leaves with it,
a dirty line written back, a speculative one stale (07 R161; 08 R192). -/
def rcLend (s : State) (d : Nat) : State :=
  let n := (s.memRec d).lent.length - 1
  let set := rcSets s d - 1 - n / 16
  let way := 15 - n % 16
  match (rcMates s d set).find? (fun l => l.way == way) with
  | some v => rcEvict s d v
  | none =>
    let c := s.cp d
    let spoil := fun (f : SpecFill) =>
      let hit := ((f.lines.zip f.ways).filter (fun e => specSet s d e.1 == set && e.2 == way)).map (·.1)
      { f with stale := f.stale ++ hit.filter (fun k => !f.stale.contains k) }
    s.setCp d { c with specs := c.specs.map spoil }

/-- An empty line of a place. -/
def emptyLine (slot die line tag : Nat) : RcLine :=
  { slot := slot, die := die, line := line, data := List.replicate 512 0, valid := 0, dirty := 0, poison := 0,
    tag := tag, use := 0, way := 0 }

/-- The bits lo to lo + n − 1 of a byte mask. -/
def maskBits (lo n : Nat) : BitVec 512 := BitVec.ofNat 512 ((2 ^ n - 1) * 2 ^ lo)

/-- Bytes put into a line at a place of it, with their poison marks (07 R171). -/
def linePoison (p : BitVec 64) (lo n : Nat) (pz : Nat → Bool) : BitVec 64 :=
  (wordsOf lo n).foldl
    (fun a w =>
      let mark := pz (w - lo / 8)
      let bit : BitVec 64 := BitVec.ofNat 64 (2 ^ w)
      if mark then a ||| bit else if lo ≤ 8 * w ∧ 8 * w + 8 ≤ lo + n then a &&& ~~~bit else a) p

/-! ### Requests -/

/-- The board slot, die and offset of an address, and whether it is the die's own store. -/
def isOwnAddr (s : State) (d a : Nat) : Bool := addrSlot a == ownSlot s && addrDie a == d

/-- A request with its tag entered, and its message or packet sent: RD, WR or WRM to a die of the package, LD, ST or
STM to another device of the board (08 R191; 09 R202). -/
def sendReq (s : State) (d slot die off len : Nat) (kind : Nat) (data : List Byte) (pz : List Bool) (use : D2dFor) :
    BitVec 16 × State :=
  let (tag, s1) := freshTag s
  let s2 := { s1 with d2dReqs := s1.d2dReqs ++ [⟨d, tag, slot, die, clock s, off, len, use, (s.rc d).gen⟩] }
  if slot = ownSlot s then
    (tag, sendMsg s2 d die
      { typ := BitVec.ofNat 8 kind, src := dieField d, dst := dieField die, tag := tag, len := BitVec.ofNat 13 len,
        addr := BitVec.ofNat 48 off, data := data, poison := pz })
  else
    let dst := slotCoord (s.fab.coord.getD 0) slot
    let p := { newPacket s d dst 0 (BitVec.ofNat 5 kind) with
               dstDie := BitVec.ofNat 4 die, tag := tag, len := BitVec.ofNat 13 len, px := pz.any (· == true),
               offset := BitVec.ofNat 48 off, data := data, poison := pz }
    match planeFrom (allowedPlanes s dst 0) (off / 4096 % 8) with
    | some i => (tag, sendOn s2 i p)
    | none => (tag, selfErr s2 p 0x30)

/-- A context of a die's vector engine. -/
def veRun (s : State) (d : Nat) (upd : Bool) : VeRun := if upd then (s.ve d).update else (s.ve d).main
def setVeRun (s : State) (d : Nat) (upd : Bool) (r : VeRun) : State :=
  s.setVe d (if upd then { s.ve d with update := r } else { s.ve d with main := r })

/-- Bytes lo to lo + n − 1 of a line as a load sees them: the region's line, or one delivered for the load that waits;
none where some are not there. -/
def lineBytes (s : State) (d : Nat) (upd : Bool) (slot die line lo n : Nat) : Option (List Byte × BitVec 64) :=
  let m := maskBits lo n
  match rcFind s d slot die line with
  | some l =>
    if l.valid &&& m = m then some (slice l.data lo n, l.poison)
    else match (veRun s d upd).lines.find? (fun l => l.isAt slot die line) with
      | some k => some (slice k.data lo n, k.poison)
      | none => none
  | none =>
    match (veRun s d upd).lines.find? (fun l => l.isAt slot die line) with
    | some k => some (slice k.data lo n, k.poison)
    | none => none

/-- Ask for a line, unless it is already asked for. -/
def askLine (s : State) (d : Nat) (upd : Bool) (slot die line : Nat) : State :=
  if s.d2dReqs.any (fun r => r.die == d && r.slot == slot && r.owner == die && r.use == .fill upd line
      && r.gen == (s.rc d).gen) then s
  else (sendReq (if rcHolds s d slot die line then bump s 0x8082 (d + 1) 1 else s) d slot die (line * 512) 512 0x01 [] [] (.fill upd line)).2

/-- Read data has come for a line: it merges under the dirty mask, takes its place in the region, and is kept for the
load that waits (08 R193).  A word that is dirty whole keeps its own mark alone (07 R171).  Where an acquire has come
since it was asked for, the region does not keep it (08 R195). -/
def fillLine (s : State) (d : Nat) (upd : Bool) (slot die line gen : Nat) (data : List Byte) (pz : Nat → Bool) : State :=
  let old := (rcFind s d slot die line).getD (emptyLine slot die line 0)
  let bytes := (List.range 512).map (fun k => if old.dirty.getLsbD k then byteAt old.data k else byteAt data k)
  let marks := (List.range 64).foldl
    (fun (a : BitVec 64) w =>
      let own := bitsOf old.dirty.toNat (8 * w + 7) (8 * w)
      if (own ≠ 255 ∧ pz w) ∨ (own ≠ 0 ∧ old.poison.getLsbD w) then a ||| BitVec.ofNat 64 (2 ^ w) else a) 0
  let l := { old with data := bytes, valid := BitVec.allOnes 512, poison := marks }
  let s1 :=
    if rcHolds s d slot die line && gen == (s.rc d).gen then rcPut (rcMakeRoom s d slot die line) d l else s
  let r := veRun s1 d upd
  setVeRun s1 d upd { r with lines := l :: r.lines.filter (fun x => !x.isAt slot die line) }

/-- Store into a line of another die through the region, under a writer tag: a line dirty under another tag is written
back first; without a region the store goes past it (08 R191, R193). -/
def storeLine (s : State) (d tag : Nat) (job : Nat × BitVec 32) (slot die line lo : Nat) (data : List Byte)
    (pz : Nat → Bool) : State :=
  if !rcHolds s d slot die line && (rcFind s d slot die line).isNone then
    let n := data.length
    (sendReq s d slot die (line * 512 + lo) n 0x02 data ((wordsOf lo n).map (fun w => pz (w - lo / 8)))
      (.posted tag job.1 job.2)).2
  else
    match rcFind s d slot die line with
    | some l =>
      let foreign := l.isDirty && l.tag != tag
      let s1 := if foreign then (writeBack s d l (.store l.tag)).2 else s
      let m := maskBits lo data.length
      rcPut s1 d
        { l with
          data := l.data.take lo ++ data ++ l.data.drop (lo + data.length), valid := l.valid ||| m,
          dirty := (if foreign then 0 else l.dirty) ||| m, poison := linePoison l.poison lo data.length pz, tag := tag }
    | none =>
      let l := emptyLine slot die line tag
      let m := maskBits lo data.length
      rcPut (rcMakeRoom s d slot die line) d
        { l with data := l.data.take lo ++ data ++ l.data.drop (lo + data.length), valid := m, dirty := m,
                 poison := linePoison 0 lo data.length pz }

/-! ### The copy engine and the region (08 R191) -/

/-- Lines of a range. -/
def linesOf (off len : Nat) : List Nat :=
  if len = 0 then [] else (List.range ((off + len - 1) / 512 + 1 - off / 512)).map (· + off / 512)

/-- Before a copy touches a line that the die's region holds dirty, that line is written back. -/
def flushRange (s : State) (d slot die off len : Nat) : State :=
  (linesOf off len).foldl
    (fun t line => match rcFind t d slot die line with
      | some l => if l.isDirty then rcPut (writeBack t d l (.store l.tag)).2 d { l with dirty := 0 } else t
      | none => t) s

/-- A copy's write drops the lines from the region. -/
def dropRange (s : State) (d slot die off len : Nat) : State :=
  (linesOf off len).foldl (fun t line => rcDrop t d slot die line) s

/-! ### The end of an awaited write (08 R194, R197) -/

/-- A tag leaves the lists that await it on a die: its descriptors', its parking queues' and its update requests'. -/
def dropTag (s : State) (d : Nat) (tag : BitVec 16) : State :=
  let drop := fun (q : Nat) (x : Queue) =>
    if queueDie q = d then
      { x with
        releaseTags := x.releaseTags.filter (· != tag),
        jobs := x.jobs.map (fun (j : Job) => { j with wrTags := j.wrTags.filter (· != tag) }) }
    else x
  let s1 := { s with queues := mmap Queue.init drop s.queues }
  s1.setLane d ((s1.lane d).map (fun (u : UpdReq) => { u with wrTags := u.wrTags.filter (· != tag) }))

/-- A parking queue whose release is acknowledged reaches PARKED; a held ERR_ACK lands without a raise (06 Table 6.4). -/
def settlePark (s : State) (q : Nat) : State :=
  let x := s.queue q
  if !x.jobs.isEmpty || !x.releaseTags.isEmpty then s
  else match x.state with
    | .parking => reachParked s q
    | .error => if x.ackHeld then s.setQueue q { x with state := .parked, ackHeld := false, park := true } else s
    | _ => s

/-- The request with a tag of a die. -/
def findReq (s : State) (d : Nat) (tag : BitVec 16) : Option D2dReq :=
  s.d2dReqs.find? (fun r => r.die == d && r.tag == tag)

/-- Forget a request; its tag is spent. -/
def dropReq (s : State) (r : D2dReq) : State := spendTag { s with d2dReqs := s.d2dReqs.erase r } r.tag

/-- The next request of a lane is the first of a list: its wait counts from now (04 R103). -/
def nextUpdate (s : State) (d : Nat) (l : List UpdReq) : State :=
  s.setLane d (match l with
    | [] => []
    | u :: r => { u with at_ := clock s } :: r)

/-- The first request of a lane ends with a status and a DETAIL (04 R103). -/
def endUpdate (s : State) (d : Nat) (status : Byte) (detail : Nat) : State :=
  match s.lane d with
  | [] => s
  | u :: rest =>
    finish ((nextUpdate s d rest).modJob u.queue u.idx (fun j => { j with fp := j.fp ||| u.fp })) u.queue u.idx status detail

/-- An update whose 32 blocks are stored, or that has failed, ends when its release is acknowledged (04 R103; 08 R194). -/
def settleUpdate (s : State) (d : Nat) : State :=
  match s.lane d with
  | [] => s
  | u :: _ =>
    if u.running && decide (32 ≤ u.block) && u.wrTags.isEmpty then
      let e := u.ending.getD (0, 0)
      endUpdate s d e.1 e.2
    else s

/-- A write has been acknowledged by its owner (08 R194). -/
def writeAcked (s : State) (r : D2dReq) : State :=
  let s1 := dropTag (dropReq s r) r.die r.tag
  match r.use with
  | .park q => settlePark s1 q
  | .update => settleUpdate s1 r.die
  | _ => s1

/-- A slice's count is freed (05 R116; 04 R103). -/
def freeSlice (s : State) (d : Nat) : State := s.setCp d { s.cp d with slices := (s.cp d).slices - 1 }

/-- The running update request of a die ends badly, after its release; a slice not yet read whole frees its count (04
R102; 05 R117; 08 R194, R197; log 25). -/
def failUpdate (s : State) (d : Nat) (detail : Nat) (lost : Bool) : State :=
  match s.lane d with
  | [] => s
  | u :: rest =>
    let s1 := sticky (if u.freed then s else freeSlice s d) 0xA040 4 d
    let s2 := setVeRun s1 d true { veRun s1 d true with active := false, lines := [] }
    let (tags, t) := startRelease s2 d 64 .update
    settleUpdate (t.setLane d
      ({ u with running := true, block := 32, freed := true, wrTags := tags,
                fp := if u.loaded then u.fp ||| (veRun s d true).fp else u.fp,
                ending := some (if lost then 0x1B else 0x15, detail) } :: rest)) d

/-- A store that went past the region has failed: the program that made it ends, and its descriptor completes with the
status; one of the update lane ends its request (08 R197; log 72). -/
def postedFailed (s : State) (r : D2dReq) (tag q : Nat) (i : BitVec 32) (status : Byte) : State :=
  if tag = 64 then
    match s.lane r.die with
    | u :: _ => if u.running then failUpdate s r.die u.block (status == 0x1B) else s
    | [] => s
  else
    let v := veRun s r.die false
    let t := if v.active ∧ v.queue = q ∧ v.idx = i then setVeRun s r.die false { v with active := false, lines := [] } else s
    let a := r.slot * 2 ^ 52 + r.owner * 2 ^ 48 + r.off
    t.modJob q i (fun j =>
      { j with phase := .finished, status := status,
               detail := BitVec.ofNat 32 (if status = 0x1B then r.owner else bitsOf a 55 24) })

/-- A write-back has failed: the holder's bit is set, the line is discarded, and the act that released it ends with the
status (08 R197). -/
def writeFailed (s : State) (r : D2dReq) (status : Byte) : State :=
  let s1 := dropTag (dropReq s r) r.die r.tag
  let s2 := rcDrop (if r.die < 8 then sticky s1 0xA080 5 r.die else s1) r.die r.slot r.owner (r.off / 512)
  match r.use with
  | .posted tag q i => postedFailed s1 r tag q i status
  | .release q i =>
    s2.modJob q i (fun j =>
      { j with phase := .finished, status := status, released := true, wrTags := [],
               detail := BitVec.ofNat 32 (if status = 0x1B then r.owner else
                 bitsOf (r.slot * 2 ^ 52 + r.owner * 2 ^ 48 + r.off) 55 24) })
  | .park q =>
    let x := s2.queue q
    let s3 := s2.setQueue q { x with state := .error, ackHeld := false, releaseTags := [] }
    raiseNow (sticky s3 0xA060 5 (queueDie q)) q
  | .update => failUpdate s2 r.die 0xFFFFFFFF (status == 0x1B)
  | _ => s2

end Sys2Proof.Machine
end

