-- ==== Sys2Proof/Machine/Ecc.lean ====
section
/-!
DEFINITION. Error correction of the stores (07 R157, R160 to R164, R166 to R175, R178): where HBM lines stand, the
memory record and its two copies, the triggers of a pseudo-channel's retirement, spare rows and columns, lent lines and
holes, and what one word that a read finds in error does.
-/

namespace Sys2Proof.Machine

/-- Ticks in 1,024 beats. -/
def beats1024 : Nat := 1024 * 2 ^ 20

/-- A tick lies within the last 1,024 beats. -/
def recent (s : State) (t : Word) : Bool := decide ((clock s - t).toNat < beats1024)

/-! ### Placement of HBM lines (07 R166, R174) -/

/-- Lines of a GiB. -/
def gibLines : Nat := 4194304

/-- The pseudo-channel and row of a logical line under a retirement list, its latest entry first. -/
def placeIn : List PcRetire → Nat → Nat × Nat
  | [], line => (line % 64, line / 64)
  | e :: older, line =>
    let at_ := placeIn older
    let (pc, row) := at_ line
    if pc ≠ e.pc then (pc, row)
    else
      let free := (((List.range gibLines).map (fun i => at_ (e.gib * gibLines + i))).filter (fun x => x.1 != e.pc)).mergeSort
        (fun x y => decide (x.2 < y.2) || (x.2 == y.2 && decide (x.1 ≤ y.1)))
      let rank := ((List.range (e.gib * gibLines)).filter (fun k => (at_ k).1 == e.pc && decide ((at_ k).2 < row))).length
      free.getD rank (pc, row)

/-- R_G: rows of a pseudo-channel that hold lines of a GiB; 65,536 where nothing has been retired (R174). -/
def rowsOf (l : List PcRetire) (p gib : Nat) : Nat :=
  if l.isEmpty then 65536
  else ((List.range gibLines).filter (fun i => (placeIn l.reverse (gib * gibLines + i)).1 == p)).length

/-- Rows that a retirement moves, and its batches of 524,288 (R174, R175). -/
def movedRows (s : State) (d : Nat) : Nat := gibLines - rowsOf (s.hbm d).list (s.hbm d).pc (s.hbm d).gib
def batches (s : State) (d : Nat) : Nat := (movedRows s d + 524287) / 524288

/-- The rank of a line of the retiring pseudo-channel among its moved rows, none for any other line (R174). -/
def movedRank (s : State) (d line : Nat) : Option Nat :=
  let h := s.hbm d
  let old := placeIn h.list.reverse line
  if h.phase = 3 ∧ old.1 = h.pc ∧ line / gibLines < h.gib then
    some ((List.range (h.gib * gibLines)).filter (fun k =>
      let x := placeIn h.list.reverse k
      x.1 == h.pc && decide (x.2 < old.2))).length
  else none

/-- The pseudo-channel and row that serve a line of a stack now: behind the durable cursor, the new place (R175). -/
def servedBy (s : State) (d line : Nat) : Nat × Nat :=
  let h := s.hbm d
  match movedRank s d line with
  | some rank =>
    if rank < h.cursor * 524288 then placeIn (⟨h.pc, h.gib⟩ :: h.list.reverse) line else placeIn h.list.reverse line
  | none => placeIn h.list.reverse line

/-! ### The memory record (07 R178) -/

/-- The copy that a start uses: the valid one with the higher sequence number. -/
def memNewest (f : Flash) : Option MemCopy :=
  match f.memA.valid, f.memB.valid with
  | true, true => some (if f.memB.seq ≤ f.memA.seq then f.memA else f.memB)
  | true, false => some f.memA
  | false, true => some f.memB
  | false, false => none

/-- A change of the memory record goes to its older copy. -/
def memRecordWrite (s : State) : State :=
  let f := s.flash
  let next : MemCopy := { valid := true, seq := max f.memA.seq f.memB.seq + 1, recs := f.mem }
  let toA := !f.memA.valid || (f.memB.valid && decide (f.memA.seq ≤ f.memB.seq))
  { s with flash := if toA then { f with memA := next } else { f with memB := next } }

/-! ### Triggers of a retirement (07 R172, R173) -/

/-- A trigger starts: it is refused above PC_RETIRE_MAX, else its record is written (R173). -/
def startRetire (s : State) (d p : Nat) : State :=
  let h := s.hbm d
  if h.retired.getLsbD p then s
  else if dnum s 0x5013 3 < h.list.length + 1 then sticky s 0xA070 5 d
  else s.setHbm d { h with phase := 1, pc := p, gib := 63 - h.list.length, removed := none, batch := 0, cursor := 0 }

/-- A trigger of a pseudo-channel: it starts, waits in order, or has no effect (R172, R173). -/
def triggerRetire (s : State) (d p : Nat) : State :=
  let h := s.hbm d
  if !s.stackMask.getLsbD d || h.retired.getLsbD p then s
  else if h.phase = 0 then startRetire s d p
  else if h.pc = p ∨ h.waiting.contains p then s
  else s.setHbm d { h with waiting := h.waiting ++ [p] }

/-! ### HBM words in error (07 R168, R172) -/

/-- A corrected word is charged to the pseudo-channel that served it; the word at which the count reaches its limit
triggers the retirement (R172). -/
def chargeCorrected (s : State) (d p : Nat) : State :=
  let h := s.hbm d
  let ticks := h.ceTicks.filter (fun e => recent s e.2) ++ [(p, clock s)]
  let s1 := s.setHbm d { h with ceTicks := ticks }
  if (ticks.filter (fun e => e.1 == p)).length = dnum s 0x5013 1 then triggerRetire s1 d p else s1

/-- Distinct rows of a pseudo-channel in a list of uncorrectable words. -/
def ueRowsOf (l : List (Nat × Nat × Word)) (p : Nat) : Nat := ((l.filter (fun e => e.1 == p)).map (fun e => e.2.1)).eraseDups.length

/-- An uncorrectable word is charged to the row that served it; the word that brings in a second row triggers the
retirement (R172). -/
def chargeUncorrectable (s : State) (d p row : Nat) : State :=
  let h := s.hbm d
  let old := h.ueRows.filter (fun e => recent s e.2.2)
  let rows := old ++ [(p, row, clock s)]
  let s1 := s.setHbm d { h with ueRows := rows }
  if ueRowsOf old p < 2 ∧ 2 ≤ ueRowsOf rows p then triggerRetire s1 d p else s1

/-- A word that the on-die layer of a stack has corrected (R168). -/
def onDieCorrected (s : State) (d p : Nat) : State := chargeCorrected (bump s 0x8070 (d + 1) 1) d p

/-- One word of HBM that a read finds in error (R168, R170): corrected by either layer or by both, each of which counts, or
newly poisoned and written back so. -/
def hbmFind (s : State) (d : Nat) (w : WordFind) : State :=
  let key := cellKey d w.off
  let (p, row) := servedBy s d ((w.off - 0x1000000000) / 256)
  match w.err with
  | .onDie => onDieCorrected s d p
  | .secded _ both => chargeCorrected (bump (if both then onDieCorrected s d p else s) 0x8071 (d + 1) 1) d p
  | .failed =>
    if poisoned s key then s
    else chargeUncorrectable (sticky (markWord s (key / 8) true) 0xA070 1 d) d p row

/-! ### Tier rows: spares, lent lines and holes (07 R157, R160 to R162) -/

/-- The bank of a tier row (R157). -/
def rowBank (row : Nat) : Nat := row / 196608 * 64 + row % 196608 % 4 * 16 + row % 196608 / 4 % 16

/-- Lines that the region can still lend: no more than its size (R161). -/
def canLend (s : State) (d : Nat) : Bool := decide ((s.memRec d).lent.length < (s.tier d).rcMib * 2048)

/-- A row is spared: from the bank's 48 rows, else by a line lent from the region, else it becomes a hole (R160,
R161). -/
def spareRow (s : State) (d row : Nat) : State :=
  let b := rowBank row
  let m := s.memRec d
  let used := mget 0 m.rowSpares b
  if m.holes.contains row then s
  else if used < 48 then
    memRecordWrite (s.setMemRec d { m with rowSpares := mput 0 m.rowSpares b (used + 1), spared := insertNat row m.spared })
  else if canLend s d then
    sticky (memRecordWrite (rcLend (s.setMemRec d { m with lent := m.lent ++ [row] }) d)) 0xA070 6 d
  else memRecordWrite (s.setMemRec d { m with holes := insertNat row m.holes })

/-- A bit position of a bank is spared by a column group; with both used, its failing rows are spared one by one (R160,
R161). -/
def spareColumn (s : State) (d bank : Nat) (rows : List Nat) : State :=
  let m := s.memRec d
  let used := mget 0 m.colSpares bank
  if used < 2 then memRecordWrite (s.setMemRec d { m with colSpares := mput 0 m.colSpares bank (used + 1) })
  else rows.foldl (fun t r => spareRow t d r) s

/-- A corrected word of a tier: two word positions of one row, or one bit position in four rows of one bank, within
1,024 beats call for a spare (R160). -/
def tierCorrected (s : State) (d row word bit : Nat) : State :=
  let t := s.tier d
  let pos := bit + 72 * word
  let finds := t.rowFinds.filter (fun e => recent s e.2.2) ++ [(row, pos, clock s)]
  let words := ((finds.filter (fun e => e.1 == row)).map (fun e => e.2.1 / 72)).eraseDups
  let inBank := fun (e : Nat × Nat × Word) => e.2.1 == pos && rowBank e.1 == rowBank row
  let rows := ((finds.filter inBank).map (·.1)).eraseDups
  let rowBad := decide (2 ≤ words.length)
  let colBad := decide (4 ≤ rows.length)
  let left := finds.filter (fun e => !(rowBad && e.1 == row) && !(colBad && inBank e))
  let s1 := s.setTier d { t with rowFinds := left }
  let s2 := if rowBad then spareRow s1 d row else s1
  if colBad then spareColumn s2 d (rowBank row) (rows.filter (fun r => !(rowBad && r == row))) else s2

/-- An uncorrectable word of the remote-cache region marks the line that stands in its row: row k of the region, from its
base, is way k mod 16 of set k div 16 (R164; 08 R192; log 73). -/
def regionPoison (s : State) (d off : Nat) : State :=
  let k := (off - tierTop s d) / 512
  let set := k / 16
  let way := k % 16
  let w := off % 512 / 8
  let r := s.rc d
  let c := s.cp d
  let here := fun (l : RcLine) => rcSet s d l.slot l.die l.line == set && l.way == way
  let spec := fun (f : SpecFill) =>
    let hit := (List.range f.lines.length).filter (fun n =>
      specSet s d (f.lines.getD n 0) == set && f.ways.getD n 16 == way)
    { f with marks := f.marks ++ hit.map (fun n => f.lines.getD n 0 * 64 + w) }
  (s.setRc d { r with lines := r.lines.map (fun l => if here l then { l with poison := l.poison ||| BitVec.ofNat 64 (2 ^ w) } else l) }).setCp d
    { c with specs := c.specs.map spec }

/-- One word of a tier that a read finds in error (R160, R164, R168): corrected, or newly poisoned with its row spared. -/
def tierFind (s : State) (d : Nat) (w : WordFind) : State :=
  let key := cellKey d w.off
  let row := tierRow s d w.off
  let region := decide (tierTop s d ≤ w.off)
  match w.err with
  | .onDie => s
  | .secded b _ => tierCorrected (bump s 0x8072 (d + 1) 1) d row (w.off % 512 / 8) b.val
  | .failed =>
    if !region && poisoned s key then s
    else
      let t := if region then regionPoison s d w.off else markWord s (key / 8) true
      spareRow (sticky t 0xA070 2 d) d row

/-! ### What a read finds (07 R160, R164, R168 to R170) -/

/-- A word that a read finds in error, in whichever store holds it: one that no store holds is none. -/
def wordFind (s : State) (d : Nat) (w : WordFind) : State :=
  if w.off < 0x18000000 then
    if !dieUp s d || decide (tierMap s d ≤ w.off) || (s.tier d).out.getLsbD (quadOf s d w.off)
        || (s.memRec d).holes.contains (tierRow s d w.off) then s
    else tierFind s d w
  else match placeOf s d w.off with
    | .store _ => hbmFind s d w
    | _ => s

/-- What the reads of a command find in error, in order. -/
def readErrs (s : State) (errs : List ReadErr) : State := errs.foldl (fun t e => wordFind t e.die.val e.word) s

/-- A read of bytes of a store: its words that carry poison count (R170). -/
def carryRead (s : State) (key len : Nat) : State :=
  let n := ((wordsOf key len).filter s.poison.contains).length
  let d := key / 2 ^ 48
  if n = 0 ∨ 8 ≤ d then s else bump s 0x8073 (d + 1) n

end Sys2Proof.Machine
end

