-- ==== Sys2Proof/Machine/Operands.lean ====
section
/-!
DEFINITION. Operand forms: the checks of a descriptor's
header and bodies (06 R131, Tables 6.5 to 6.11; 09 R230 to R232; 11 R263; 05 R112), formats and their sizes (02 Table
2.2; 03 R62), and the descriptor digest of a collective (11 R271).
-/

namespace Sys2Proof.Machine

/-! ### Formats (02 Table 2.2; 11 Table 11.1) -/

/-- Bits of an element. -/
def fmtBits (f : Nat) : Nat :=
  if f = 0 ∨ f = 1 ∨ f = 5 then 8 else if f = 2 ∨ f = 3 then 6 else if f = 4 ∨ f = 6 then 4
  else if f = 7 ∨ f = 8 then 16 else if f = 9 ∨ f = 10 then 32 else 64

/-- Elements of a group (03 R62). -/
def fmtGroup (f : Nat) : Nat := if f = 2 ∨ f = 3 then 4 else if f = 4 ∨ f = 6 then 2 else 1

/-- Bytes of n elements, padded to whole groups (03 R62). -/
def fmtBytes (f n : Nat) : Nat := (n + fmtGroup f - 1) / fmtGroup f * fmtGroup f * fmtBits f / 8

/-- Element i of packed bytes, as its bit pattern (03 R62). -/
def unpackElem (f : Nat) (data : List Byte) (i : Nat) : Nat :=
  let b := fmtBits f
  if b = 8 then (byteAt data i).toNat
  else if b = 4 then bitsOf (byteAt data (i / 2)).toNat (4 * (i % 2) + 3) (4 * (i % 2))
  else if b = 6 then
    bitsOf (leNat (slice data (i / 4 * 3) 3)) (6 * (i % 4) + 5) (6 * (i % 4))
  else leNat (slice data (i * (b / 8)) (b / 8))

/-- Sum of a list of patterns at rising bit places. -/
def packBits (b : Nat) : List Nat → Nat
  | [] => 0
  | v :: r => v % 2 ^ b + 2 ^ b * packBits b r

/-- Packed bytes of elements given as patterns, padded with zeros to whole groups (03 R62). -/
def packElems (f : Nat) (l : List Nat) : List Byte := natLe (fmtBytes f l.length) (packBits (fmtBits f) l)

/-! ### Header and body checks -/

/-- The first fault among numbered checks: the word of the first that fails. -/
def firstFault : List (Nat × Bool) → Option Nat
  | [] => none
  | (w, bad) :: r => if bad then some w else firstFault r

/-- Is a word, or its bits hi:lo, nonzero? -/
def nz (l : List Word) (w hi lo : Nat) : Bool := wbits (dword l w) hi lo != 0

/-- Words from `a` to `b` must be 0. -/
def wordsZero (l : List Word) (a b : Nat) : List (Nat × Bool) :=
  (List.range (b + 1 - a)).map (fun k => (a + k, dword l (a + k) != 0))

/-- The types a queue accepts (06 Table 6.1, 6.6). -/
def typeAccepted (q t : Nat) : Bool := if q < 512 then t ≤ 8 else t = 0 ∨ t = 5 ∨ t = 6 ∨ t = 7 ∨ t = 8 ∨ t = 16 ∨ t = 17

/-- The header checks of R131. -/
def headerChecks (s : State) (q : Nat) (l : List Word) : List (Nat × Bool) :=
  let t := descType l
  [ (0, !typeAccepted q t || nz l 0 51 32 || (descChain l && t != 2) || (descSpec l && t != 6)),
    (1, nz l 1 62 44),
    (3, nz l 3 61 48 || nz l 3 29 12 || (strikeRemote l && ownCoord s == some (strikeEndpoint l))) ]

/-- An address of the issuing die's own tier (06 Table 6.7; 08 R191). -/
def ownTier (s : State) (d : Nat) (w : Word) : Bool :=
  wbits w 63 56 == 0 && addrSlot w.toNat == ownSlot s && addrDie w.toNat == d && addrOff w.toNat < 0x18000000

/-- MATRIX body (06 Table 6.7; 08 R191): every address it uses lies in the die's own tier. The tile word's own rules are
R30's and are judged by the MATRIX step, and so is K_TOTAL above 134,217,728 in wide mode. -/
def matrixChecks (s : State) (d : Nat) (l : List Word) : List (Nat × Bool) :=
  let tw := dword l 5
  let diag := tw.getLsbD 19
  let k := wbits (dword l 6) 31 0
  let used := fun (b i : Nat) => nz l i 63 56 || (tw.getLsbD b && !ownTier s d (dword l i))
  [ (6, nz l 6 55 32 || (!diag && (k == 0 || (k ≥ 2 ^ 31 && !tw.getLsbD 10)))),
    (7, !ownTier s d (dword l 7)), (8, !ownTier s d (dword l 8)), (9, !ownTier s d (dword l 9)),
    (11, nz l 11 31 0),
    (12, used 14 12), (13, used 15 13), (14, used 18 14),
    (15, if trainRole l == 2 && !trainRoute l then nz l 15 63 56 || (!trainFrozen l && !ownTier s d (dword l 15))
      else dword l 15 != 0) ]

/-- BRANCH body (06 Table 6.9). -/
def branchChecks (l : List Word) : List (Nat × Bool) :=
  (5, wbits (dword l 5) 63 56 == 0 || nz l 5 52 50 || nz l 5 47 0) :: wordsZero l 7 15

/-- BELL body (06 Table 6.10): reserved bits of every entry, and SET of a valid one. -/
def bellChecks (l : List Word) : List (Nat × Bool) :=
  (List.range 3).map (fun e =>
    let w := dword l (5 + 3 * e)
    (5 + 3 * e, nz l (5 + 3 * e) 59 48 || nz l (5 + 3 * e) 29 12
      || (w.getLsbD 63 && w.getLsbD 60 && (w.getLsbD 62 || w.getLsbD 61))))

/-- COPY body (06 Table 6.11): an address has 56 bits beside its host bit (log 23). -/
def copyChecks (l : List Word) : List (Nat × Bool) :=
  let n := wbits (dword l 7) 47 0
  (5, nz l 5 62 56) :: (6, nz l 6 62 56) :: (7, nz l 7 63 48 || n == 0 || n > 2 ^ 40) :: wordsZero l 8 15

/-- PUT body (09 R230, Table 9.8). -/
def putChecks (l : List Word) (me : BitVec 18) : List (Nat × Bool) :=
  let w := dword l 6
  let pull := w.getLsbD 63
  let mc := w.getLsbD 62
  let circ := w.getLsbD 53
  let axis := wbits w 61 60
  let span := wbits w 58 54
  let c := coordOn me axis
  let n := wbits (dword l 9) 39 0
  [ (5, pull && dword l 5 != 0),
    (6, nz l 6 52 48 || nz l 6 29 24 || (circ && (mc || pull)) || (mc && pull)
        || (mc && (axis == 3 || (if w.getLsbD 59 then c < span + 1 else c + span + 1 > 63)))),
    (7, nz l 7 63 48),
    (8, nz l 8 63 60 || (!pull && dword l 8 != 0)),
    (9, dword l 9 > 0x10000000000 || (dword l 9 != 0x10000000000 && nz l 9 63 40) || (dword l 9 != 0x10000000000 && n == 0)),
    (10, nz l 10 63 8) ] ++ wordsZero l 11 15

/-- SEND body (09 Table 9.9). -/
def sendChecks (l : List Word) : List (Nat × Bool) :=
  [ (6, nz l 6 63 48 || nz l 6 29 8), (7, nz l 7 63 13 || wbits (dword l 7) 12 0 > 4064), (9, nz l 9 63 8) ]
    ++ wordsZero l 10 15

/-- FABRIC body (09 Table 9.10): the fields and words an OP does not use must be 0. -/
def fabricChecks (l : List Word) : List (Nat × Bool) :=
  let op := wbits (dword l 5) 63 56
  let id := wbits (dword l 5) 11 0
  let reg := op == 4 || op == 6
  [ (5, op == 0 || op > 7 || nz l 5 55 40 || nz l 5 23 20 || nz l 5 15 12
        || (!reg && nz l 5 39 32) || (op == 4 && nz l 5 39 35) || (op == 6 && nz l 5 39 33)
        || (op != 6 && nz l 5 31 24)
        || (op == 6 && (wbits (dword l 5) 31 28 < 8 || wbits (dword l 5) 31 28 > 12))
        || (op != 1 && nz l 5 19 16) || (op == 1 && wbits (dword l 5) 19 16 > 7)
        || (op == 3 && id != 0) || ((op == 6 || op == 7) && id > 255)),
    (6, (if op == 1 then nz l 6 63 48 || nz l 6 29 12 else if op == 2 || op == 5 || op == 7 then dword l 6 != 0
         else nz l 6 63 56)),
    (7, (if op == 1 then nz l 7 63 16 || wbits (dword l 7) 15 0 == 0
         else if op == 3 then dword l 7 > 64
         else if op == 4 then false else if op == 6 then nz l 7 63 56 else dword l 7 != 0)),
    (8, (if op == 4 then nz l 8 63 18 else if op == 6 then nz l 8 63 12 else dword l 8 != 0)) ]
    ++ wordsZero l 9 15

/-- AXIS_SEQ of a collective as a list of axes (11 Table 11.1); none where the field is illegal. -/
def axisSeq (l : List Word) : Option (List Nat) :=
  let a := wbits (dword l 5) 44 43
  let b := wbits (dword l 5) 42 41
  let c := wbits (dword l 5) 40 39
  if a == 3 then none
  else if b == 3 then (if c == 3 then some [a] else none)
  else if c == 3 then (if a == b then none else some [a, b])
  else if a == b || a == c || b == c then none else some [a, b, c]

def collOp (l : List Word) : Nat := wbits (dword l 5) 63 56
def collFmt (l : List Word) : Nat := wbits (dword l 5) 55 52
def collRed (l : List Word) : Nat := wbits (dword l 5) 51 50
def collArith (l : List Word) : Nat := wbits (dword l 5) 49 45
def collId (l : List Word) : BitVec 12 := BitVec.ofNat 12 (wbits (dword l 5) 11 0)
def collCount (l : List Word) : Nat := wbits (dword l 8) 39 0
def collMembers (l : List Word) (axis : Nat) : Word := dword l (9 + axis)
def collRoot (l : List Word) : BitVec 18 := BitVec.ofNat 18 (wbits (dword l 12) 25 8)

/-- Members on an axis line, and a member's rank (11 R264). -/
def collSize (l : List Word) (axis : Nat) : Nat := popBelow 64 (collMembers l axis).toNat
def collRank (l : List Word) (axis c : Nat) : Nat := popBelow c (collMembers l axis).toNat

/-- Operation, type and reduction pairs that R105 supports; SAT chooses how an INT32 sum out of range fits (03 R74). -/
def reduceLegal (f red : Nat) : Bool :=
  if red = 0 then f = 9 ∨ f = 7 ∨ f = 8 ∨ f = 10 ∨ f = 11
  else if red ≤ 2 then f = 9 ∨ f = 7 ∨ f = 8 ∨ f = 10 else false

/-- The axes of a collective. -/
def collAxes (l : List Word) : List Nat := (axisSeq l).getD []

/-- The axis at an index of AXIS_SEQ. -/
def collAxisAt (l : List Word) (k : Nat) : Nat := (collAxes l).getD k 0

/-- This device's rank on the axis at an index, and the axis line's members. -/
def myRank (s : State) (l : List Word) (k : Nat) : Nat :=
  collRank l (collAxisAt l k) (coordOn (s.fab.coord.getD 0) (collAxisAt l k))
def lineSize (l : List Word) (k : Nat) : Nat := collSize l (collAxisAt l k)

/-- Shard of rank j of a range, counted in whole groups (R265). -/
def shardOf (f lo n m j : Nat) : Nat × Nat :=
  let g := fmtGroup f
  let u := n / g
  (lo + j * u / m * g, ((j + 1) * u / m - j * u / m) * g)

/-- The range before the axis at an index: what the steps on the axes before it have left (R265). -/
def rangeBefore (s : State) (l : List Word) : Nat → Nat × Nat
  | 0 => (0, collCount l)
  | k + 1 =>
    let r := rangeBefore s l k
    shardOf (collFmt l) r.1 r.2 (lineSize l k) (myRank s l k)

/-- Bytes of a whole number of groups (R266). -/
def elemBytes (f n : Nat) : Nat := n / fmtGroup f * (fmtGroup f * fmtBits f / 8)

/-- COLLECTIVE body (11 R263). -/
def collChecks (s : State) (l : List Word) : List (Nat × Bool) :=
  let op := collOp l
  let f := collFmt l
  let red := op == 0 || op == 2
  let axes := (axisSeq l).getD []
  let me := (ownCoord s).getD 0
  let src := dword l 6
  let dst := dword l 7
  let n := collCount l
  let members := axes.foldl (fun acc a => acc * collSize l a) 1
  let bytes := fmtBytes f n
  let from_ := if op == 1 then elemBytes f (rangeBefore s l axes.length).2 else bytes
  let root := collRoot l
  let addrBad := fun (w : Word) => wbits w 63 56 != 0 || addrSlot w.toNat != ownSlot s || addrDie w.toNat > 7
  [ (5, op > 3 || f > 11 || nz l 5 38 12 || (axisSeq l).isNone
        || (if red then !reduceLegal f (collRed l) else collRed l != 0)),
    (6, addrBad src),
    (7, addrBad dst || addrDie src.toNat != addrDie dst.toNat
        || (if src == dst then op == 1 || op == 3
            else addrOff src.toNat < addrOff dst.toNat + bytes && addrOff dst.toNat < addrOff src.toNat + from_)),
    (8, nz l 8 63 40 || n == 0 || (red && n < members) || n % fmtGroup f != 0) ]
  ++ (List.range 3).map (fun a => (9 + a,
        if axes.contains a then collSize l a < 2 || !(collMembers l a).getLsbD (coordOn me a)
        else collMembers l a != 0))
  ++ [ (12, nz l 12 31 26
        || (if op == 3 then
              (List.range 3).any (fun a => if axes.contains a then !(collMembers l a).getLsbD (coordOn root a)
                else coordOn root a != coordOn me a)
            else root != 0)) ]
  ++ wordsZero l 14 15

/-- The body checks of a descriptor (06 R131). -/
def bodyChecks (s : State) (q : Nat) (l : List Word) : List (Nat × Bool) :=
  match descType l with
  | 1 => matrixChecks s (queueDie q) l
  | 2 => (5, nz l 5 63 56) :: wordsZero l 14 15
  | 3 => [(0, trainPhase l != 2)]
  | 4 => branchChecks l
  | 5 => bellChecks l
  | 6 => copyChecks l
  | 7 => putChecks l ((ownCoord s).getD 0)
  | 8 => sendChecks l
  | 16 => collChecks s l
  | 17 => fabricChecks l
  | _ => []

/-- Does the training control word break R112? -/
def trainFault (l : List Word) : Bool :=
  let w := (dword l 0).toNat
  trainPhase l == 3 || bitsOf w 19 10 != 0 || bitsOf w 2 2 != 0
    || ((trainFrozen l || trainRoute l) && trainRole l != 2)
    || ((trainOut l || trainStart l) && trainPhase l != 1)

/-- A refusal before issue: its status, its DETAIL and the index and sub of its sticky bit (06 R131; 05 R112). -/
def issueFault (s : State) (q : Nat) (l : List Word) : Option (Byte × Nat × Nat × Nat) :=
  match firstFault (headerChecks s q l) with
  | some w => some (0x10, w, 0xA060, 1)
  | none =>
    if trainFault l then some (0x13, 0, 0xA050, 4)
    else (firstFault (bodyChecks s q l)).map (fun w => (0x10, w, 0xA060, 1))

end Sys2Proof.Machine
end

