-- ==== Sys2Proof/Machine/Cp.lean ====
section
/-!
DEFINITION. Queue registers, fetch, completion, branches, bells and scheduled strikes: the commands of 06 (R126 to
R154, R396), the queue registers of BAR0 (14 R319, R321) and the replay of a block (05 R120 to R122).
-/

namespace Sys2Proof.Machine

/-! ### Queue registers (06 R127, R128) -/

/-- The number of a queue state. -/
def stateCode : QState → Nat
  | .disabled => 0
  | .running => 1
  | .parking => 2
  | .parked => 3
  | .error => 4

/-- QCTL as it reads (06 Table 6.3): ENABLE reads 1 outside DISABLED. -/
def qctlRead (x : Queue) : Nat :=
  (min x.jobs.length 65535) * 2 ^ 48 + x.vector.toNat * 2 ^ 32 + x.holdoff.toNat * 2 ^ 16 + x.ringLog2.toNat * 2 ^ 8
    + stateCode x.state * 2 ^ 5 + (if x.park then 8 else 0) + (if x.state = .disabled then 0 else 4)

/-- The fields that only DISABLED and PARKED let a write change. -/
def quiet (x : Queue) : Bool := x.state == .disabled || x.state == .parked

/-- The source's bytes in some lines of a speculative fill. -/
def fillBytes (f : SpecFill) (lines : List Nat) : Nat :=
  (lines.map (fun k => min f.hi (512 * k + 512) - max f.lo (512 * k))).foldl (· + ·) 0

/-- Release the speculative lines of a queue that a test picks (06 R144): they count as discarded. -/
def dropSpecs (s : State) (q : Nat) (pick : SpecFill → Bool) : State :=
  let d := queueDie q
  let c := s.cp d
  let gone := c.specs.filter (fun f => f.queue == q && pick f)
  if gone.isEmpty then s
  else bump (s.setCp d { c with specs := c.specs.filter (fun f => !(f.queue == q && pick f)) }) 0x8063 (d + 1)
    ((gone.map (fun f => fillBytes f f.lines)).foldl (· + ·) 0)

/-- Decoded descriptors that have not issued are discarded, and ring reads under way with them (06 R128, R144). -/
def discardDecoded (s : State) (q : Nat) : State :=
  let t := dropFetches (dropSpecs (dropWait s q) q (fun _ => true)) q (fun _ => true)
  let x := t.queue q
  t.setQueue q { x with fetched := [], fetchAt := x.head }

/-- A held region size is applied when the die's last queue is disabled (07 R159): the region's dirty lines are written
back, every line is discarded, and offsets that leave the region are zeroed. -/
def rcResize (s : State) (d : Nat) : State :=
  match (s.tier d).rcHeld with
  | none => s
  | some m =>
    if (List.range 64).any (fun i => (s.queue (64 * d + i)).state != .disabled) then s
    else
      let s1 := (s.rc d).lines.foldl (fun t l => rcEvict t d l) s
      let t := s1.tier d
      let lo := tierTop s1 d
      let s2 := (s1.setTier d { t with rcMib := m, rcHeld := none }).setRc d { s1.rc d with lines := [] }
      zeroRange s2 (cellKey d lo) (cellKey d (tierMap s2 d))

/-- The fields of a QCTL write (06 R127). -/
def qctlFields (x : Queue) (v : Word) : Queue :=
  if quiet x then
    { x with
      vector := BitVec.ofNat 11 (wbits v 42 32), holdoff := BitVec.ofNat 16 (wbits v 31 16),
      ringLog2 := if wbits v 11 8 ≤ 8 then BitVec.ofNat 4 (wbits v 11 8) else x.ringLog2 }
  else x

/-- A write of QCTL: its fields, then the event of Table 6.4 that its bits and the state give (06 R128; 17 R368;
14 R326). -/
def qctlWrite (s : State) (q : Nat) (v : Word) : State :=
  let x := qctlFields (s.queue q) v
  let en := v.getLsbD 2
  let pk := v.getLsbD 3
  match x.state with
  | .disabled =>
    let y := { x with park := pk }
    if en && !pk && s.boot.complete && x.jobs.isEmpty && unitUp s (queueDie q) then
      s.setQueue q { y with state := .running, inputs := [0, 0, 0, 0], fetched := [], fetchAt := y.head }
    else s.setQueue q y
  | .running =>
    if pk then
      settleQueue (discardDecoded (s.setQueue q { x with park := true, state := .parking }) q) q
    else s.setQueue q x
  | .parking => s.setQueue q x
  | .parked =>
    if !en then rcResize (s.setQueue q { x with park := pk, state := .disabled }) (queueDie q)
    else if !pk then s.setQueue q { x with park := false, state := .running, fetchAt := x.head, fetched := [] }
    else s.setQueue q x
  | .error =>
    if v.getLsbD 4 then settleQueue (s.setQueue q { x with ackHeld := true }) q else s.setQueue q x

/-- A write of another queue register (06 Table 6.2, R127). -/
def queueReg (s : State) (q reg : Nat) (v : Word) : State :=
  let x := s.queue q
  let host := v &&& 0x8000000000000000
  if reg = 0 then qctlWrite s q v
  else if reg = 0x08 then
    if quiet x then s.setQueue q { x with ringBase := host ||| (v &&& 0x00FFFFFFFFFFFF80) } else s
  else if reg = 0x10 then s.setQueue q { x with tail := BitVec.ofNat 32 v.toNat }
  else if reg = 0x18 then
    if quiet x then s.setQueue q { x with head := BitVec.ofNat 32 v.toNat, fetchAt := BitVec.ofNat 32 v.toNat } else s
  else if reg = 0x20 then
    if quiet x then s.setQueue q { x with cqBase := host ||| (v &&& 0x00FFFFFFFFFFFFE0) } else s
  else if reg = 0x28 then
    if quiet x ∧ wbits v 3 0 ≤ 8 then s.setQueue q { x with cqLog2 := BitVec.ofNat 4 (wbits v 3 0) } else s
  else if reg = 0x38 then s.setQueue q { x with cqHead := BitVec.ofNat 32 v.toNat }
  else s

/-- A queue register as it reads. -/
def queueRead (x : Queue) (reg : Nat) : Nat :=
  if reg = 0 then qctlRead x else if reg = 0x08 then x.ringBase.toNat else if reg = 0x10 then x.tail.toNat
  else if reg = 0x18 then x.head.toNat else if reg = 0x20 then x.cqBase.toNat else if reg = 0x28 then x.cqLog2.toNat
  else if reg = 0x30 then x.cqTail.toNat else x.cqHead.toNat

/-- A write's bits forced to those of its row. -/
def withBits (v : Word) (set clear : Word) : Word := (v ||| set) &&& ~~~clear

/-- An access of BAR0 or BAR2 that the map does not carry, or of a bell of a die out of service (14 R319, R320). -/
def barFault (s : State) : State := sticky s 0xA0D0 4 0

/-- MSI-X table words (14 R323): address, data and the mask bit; an entry that opens delivers its pending raise. -/
def msixWrite (s : State) (k w : Nat) (v : Nat) : State :=
  let e := mget MsixEntry.init s.host.msix k
  let e' :=
    if w = 0 then { e with addr := BitVec.ofNat 64 (e.addr.toNat / 2 ^ 32 * 2 ^ 32 + v % 2 ^ 32) }
    else if w = 1 then { e with addr := BitVec.ofNat 64 (e.addr.toNat % 2 ^ 32 + v % 2 ^ 32 * 2 ^ 32) }
    else if w = 2 then { e with data := BitVec.ofNat 32 v }
    else { e with masked := v.testBit 0 }
  deliverPending { s with host := { s.host with msix := mput MsixEntry.init s.host.msix k e' } } k

/-- One aligned word of BAR0 that has no row of its own (14 Table 14.2; 06 Table 6.2): `lo` says which half a 32-bit
write carries. -/
def bar0Write (s : State) (off : Nat) (wide : Bool) (v : Word) : State :=
  let base := off / 8 * 8
  let half := off / 4 % 2
  let merge := fun (old : Nat) =>
    if wide then v
    else if half = 0 then BitVec.ofNat 64 (old / 2 ^ 32 * 2 ^ 32 + v.toNat % 2 ^ 32)
    else BitVec.ofNat 64 (old % 2 ^ 32 + v.toNat % 2 ^ 32 * 2 ^ 32)
  if base = 0x10 then
    { s with host := { s.host with errVector := BitVec.ofNat 11 (merge s.host.errVector.toNat).toNat } }
  else if base = 0x18 then
    { s with host := { s.host with mgmtVector := BitVec.ofNat 11 (merge s.host.mgmtVector.toNat).toNat } }
  else if 0x10000 ≤ base ∧ base < 0x18400 then
    let q := (base - 0x10000) / 64
    let reg := (base - 0x10000) % 64
    queueReg s q reg (merge (queueRead (s.queue q) reg))
  else if base = 0x40000 then
    let w := merge (s.host.reqLen.toNat * 2 ^ 32)
    { s with host := { s.host with
                       reqLen := BitVec.ofNat 16 (wbits w 47 32), mbxDone := s.host.mbxDone && !w.getLsbD 2 } }
  else if 0x41000 ≤ base ∧ base < 0x42000 then
    let at_ := off - 0x41000
    let n := if wide then 8 else 4
    { s with host := { s.host with
                       reqBuf := (List.range n).foldl
                         (fun m k => mput 0 m (at_ + k) (BitVec.ofNat 8 (v.toNat / 256 ^ k))) s.host.reqBuf } }
  else if 0x100000 ≤ base ∧ base < 0x108000 then
    let k := (base - 0x100000) / 16
    let w := off / 4 % 4
    if wide then msixWrite (msixWrite s k (base / 4 % 4) (v.toNat % 2 ^ 32)) k (base / 4 % 4 + 1) (v.toNat / 2 ^ 32)
    else msixWrite s k w (v.toNat % 2 ^ 32)
  else if base < 0x10 ∨ (0x20000 ≤ base ∧ base < 0x30008) ∨ (0x42000 ≤ base ∧ base < 0x43000)
      ∨ (0x110000 ≤ base ∧ base < 0x110100) then s
  else barFault s

/-- TAIL_WRITE (14 R321; 06 Table 6.2): the doorbell, after every earlier BAR2 write, which commands before it made. -/
def tailWrite (q : QId) (v : BitVec 32) (s : State) : State :=
  if hubOn s then queueReg s q.val 0x10 (BitVec.ofNat 64 v.toNat) else s

def execTailWrite (q : QId) (v : BitVec 32) (s : State) : Host.Outcome State Fault Refusal := .next (tailWrite q v s)

/-- QCTL_ENABLE (06 R128): a QCTL write with ENABLE = 1 and PARK = 0. -/
def execQctlEnable (q : QId) (v : BitVec 64) (s : State) : Host.Outcome State Fault Refusal :=
  .next (if hubOn s then qctlWrite s q.val (withBits v 0x4 0x18) else s)

/-- QCTL_PARK (06 R128): a QCTL write with ENABLE = 1 and PARK = 1. -/
def execQctlPark (q : QId) (v : BitVec 64) (s : State) : Host.Outcome State Fault Refusal :=
  .next (if hubOn s then qctlWrite s q.val (withBits v 0xC 0x10) else s)

/-- QCTL_RESUME (06 R128): a QCTL write with ENABLE = 1 and PARK = 0, in PARKED. -/
def execQctlResume (q : QId) (v : BitVec 64) (s : State) : Host.Outcome State Fault Refusal :=
  .next (if hubOn s && (s.queue q.val).state == .parked then qctlWrite s q.val (withBits v 0x4 0x18) else s)

/-- QCTL_DISABLE (06 R128): a QCTL write with ENABLE = 0, in PARKED. -/
def execQctlDisable (q : QId) (v : BitVec 64) (s : State) : Host.Outcome State Fault Refusal :=
  .next (if hubOn s && (s.queue q.val).state == .parked then qctlWrite s q.val (withBits v 0 0x14) else s)

/-- QCTL_ERR_ACK (06 R128): a QCTL write with ERR_ACK = 1. -/
def execQctlErrAck (q : QId) (v : BitVec 64) (s : State) : Host.Outcome State Fault Refusal :=
  .next (if hubOn s then qctlWrite s q.val (withBits v 0x14 0) else s)

/-- QUEUE_REGISTER_WRITE (06 R127; 14 R319): a write to a register of BAR0 that has no row of its own. -/
def execQueueRegisterWrite (off : BitVec 24) (wide : Bool) (v : BitVec 64) (s : State) :
    Host.Outcome State Fault Refusal :=
  .next (if hubOn s then bar0Write s off.toNat wide v else s)

/-! ### Fetch (06 R142, R396; 14 R322) -/

/-- The oldest uncompleted descriptor of a queue. -/
def oldest (x : Queue) : BitVec 32 :=
  match x.jobs with
  | [] => x.head
  | j :: _ => j.idx

/-- A descriptor takes its place among those fetched, in ring order from HEAD. -/
def insertFetched (head : BitVec 32) (f : Fetched) : List Fetched → List Fetched
  | [] => [f]
  | g :: r => if (f.idx - head).toNat < (g.idx - head).toNat then f :: g :: r else g :: insertFetched head f r

/-- Words of a descriptor from its bytes. -/
def wordsFrom : Nat → List Byte → List Word
  | 0, _ => []
  | n + 1, l => BitVec.ofNat 64 (leNat (l.take 8)) :: wordsFrom n (l.drop 8)

/-- The first word of a descriptor whose mark is set. -/
def firstMark (marks : Nat → Bool) : Option Nat := (List.range 16).find? marks

/-- The next descriptor to issue is the next fetched, and no branch before it is open: a failing fetch then stops the
queue; before that, it is made again later. -/
def atHead (x : Queue) (i : BitVec 32) : Bool :=
  x.fetched.isEmpty && i == x.head && x.jobs.all (fun j => !(descType j.words == 4 && j.phase != .finished))

/-- The REPLAY that reissues descriptors on a queue: the queue it stands on, and its job (05 R121). -/
def replayOn (s : State) (q : Nat) : Option (Nat × Job) :=
  (List.range 64).findSome? (fun k =>
    let p := 64 * queueDie q + k
    ((s.queue p).jobs.find? (fun j => descType j.words == 3 && j.phase == .working
        && match mfind (s.cp (queueDie q)).blocks (trainBlock j.words) with
          | some b => b.record && b.queue == q && decide (j.nextOff ≤ (b.last - b.first).toNat)
          | none => false)).map (fun j => (p, j)))

/-- The ring index that a REPLAY reissues next on a queue. -/
def replayNext (s : State) (q : Nat) : Option (BitVec 32) :=
  (replayOn s q).bind (fun r =>
    (mfind (s.cp (queueDie q)).blocks (trainBlock r.2.words)).map (fun b => b.first + BitVec.ofNat 32 r.2.nextOff))

/-- Read a recorded descriptor from its ring (05 R121): at once, or by a host read that stands in `fetched` when it has come. -/
def replayFetch (s : State) (q : Nat) (i : BitVec 32) : Option Fetched × State :=
  let x := s.queue q
  let a := bitsOf x.ringBase.toNat 55 0 + i.toNat % (256 * 2 ^ x.ringLog2.toNat) * 128
  if x.ringBase.getLsbD 63 then
    match x.fetched.find? (fun f => f.idx == i) with
    | some f => (some f, s)
    | none =>
      if !hostReady s || decide (1024 ≤ s.host.reads.length) || s.host.reads.any (fun r => r.use == .fetch q i) then (none, s)
      else (none, hostRead s a 128 (.fetch q i))
  else if addrSlot a ≠ ownSlot s then (none, sticky (stopQueue s q i) 0xA060 5 (queueDie q))
  else match faultIn s (addrDie a) (addrOff a) 128 with
    | some (_, p) => (none, ringSticky (stopQueue s q i) (queueDie q) p)
    | none =>
      let key := cellKey (addrDie a) (addrOff a)
      (some { idx := i, words := wordsFrom 16 (readBytes s key 128),
              poison := firstMark (fun k => poisoned s (key + 8 * k)) }, carryRead s key 128)

/-- A whole descriptor has been read: it is kept, or, at the head of its queue and poisoned, it stops the queue with
DESC_POISONED (06 R396). -/
def takeDescriptor (s : State) (q : Nat) (f : Fetched) : State :=
  let x := s.queue q
  if x.state ≠ .running ∧ replayNext s q ≠ some f.idx then s
  else match f.poison with
    | some k =>
      if atHead x f.idx then
        sticky (refuse s q f 0x1D k) 0xA060 6 (queueDie q)
      else s.setQueue q { x with fetched := insertFetched x.head f x.fetched }
    | none => s.setQueue q { x with fetched := insertFetched x.head f x.fetched }

/-- DESCRIPTOR_FETCH (06 R142, R396): the next descriptor of the ring is read whole, within RUN_AHEAD of the oldest
uncompleted one; a ring in host memory is read by a request; a ring address that faults stops the queue. -/
def descriptorFetch (q : QId) (s : State) : State :=
  let x := s.queue q.val
  let ahead := min 256 (dnum s 0x2060 4)
  if !hubOn s || !unitUp s (queueDie q.val) || x.state != .running || x.fetchAt == x.tail
      || (x.fetchAt - oldest x).toNat ≥ ahead then s
  else
    let a := bitsOf x.ringBase.toNat 55 0 + x.fetchAt.toNat % (256 * 2 ^ x.ringLog2.toNat) * 128
    let s1 := s.setQueue q.val { x with fetchAt := x.fetchAt + 1 }
    if x.ringBase.getLsbD 63 then
      if !hostReady s || s.host.reads.length ≥ 1024 then s
      else hostRead s1 a 128 (.fetch q.val x.fetchAt)
    else if addrSlot a ≠ ownSlot s then
      if atHead x x.fetchAt then sticky (stopQueue s q.val x.fetchAt) 0xA060 5 (queueDie q.val) else s
    else match faultIn s (addrDie a) (addrOff a) 128 with
      | some (_, p) => if atHead x x.fetchAt then ringSticky (stopQueue s q.val x.fetchAt) (queueDie q.val) p else s
      | none =>
        let key := cellKey (addrDie a) (addrOff a)
        takeDescriptor (carryRead s1 key 128) q.val
          { idx := x.fetchAt, words := wordsFrom 16 (readBytes s key 128),
            poison := firstMark (fun k => poisoned s (key + 8 * k)) }

def execDescriptorFetch (q : Reading QId) (s : State) : Host.Outcome State Fault Refusal :=
  .next (descriptorFetch q.arg (readErrs s q.errs))

/-! ### Completion (06 R139 to R141, R148) -/

/-- Does a completion release (08 R194)? -/
def completionReleases (l : List Word) : Bool := strikeEn l || descIrq l

/-- A packet of a collective that has ended well still waits: for a plane, for credits at its port, or for its crossing.
Its link layer has not accepted it (11 R276). -/
def collHeld (s : State) (j : Job) : Bool :=
  let d := addrDie (dword j.words 6).toNat
  descType j.words == 16 && !isStopping j.status
    && (s.fab.held.any (fun h => (h.2.cls == 3 || h.2.cls == 4) && h.2.id == BitVec.ofNat 12 (wbits (dword j.words 5) 11 0)
        && h.2.src == s.fab.coord.getD 0 && h.2.inPort.isNone)
      || s.coll.out.any (fun e => e.2.id == BitVec.ofNat 12 (wbits (dword j.words 5) 11 0))
      || (List.range 8).any (fun i => (s.pair d i).cross.wait.any (fun w => w.1 == 3 || w.1 == 4)))

/-- DESCRIPTOR_COMPLETE (06 R139): a descriptor whose work has ended starts its release, if it has one, and completes
when every write-back is acknowledged. -/
def descriptorComplete (q : QId) (i : BitVec 32) (s : State) : State :=
  match s.job q.val i with
  | none => s
  | some j =>
    if j.phase ≠ .finished || collHeld s j then s
    else if !completionReleases j.words then completeJob s q.val j
    else if j.released then (if j.wrTags.isEmpty then completeJob s q.val j else s)
    else
      let (tags, t) := startRelease s (queueDie q.val) (queueLocal q.val) (.release q.val i)
      if tags.isEmpty then completeJob t q.val j
      else t.modJob q.val i (fun j => { j with released := true, wrTags := tags })

def execDescriptorComplete (q : QId) (i : BitVec 32) (s : State) : Host.Outcome State Fault Refusal :=
  .next (descriptorComplete q i s)

/-- IRQ_HOLDOFF_EXPIRY (06 R139): a held raise is made at the end of its interval. -/
def execIrqHoldoffExpiry (q : QId) (s : State) : Host.Outcome State Fault Refusal :=
  let x := s.queue q.val
  .next (match x.lastRaise with
    | some t => if x.raiseHeld && decide (x.holdoff.toNat * 1000 ≤ (clock s - t).toNat) then raiseNow s q.val else s
    | none => s)

/-- DESC_NOP (06 Table 6.6): only the header's wait and strike act. -/
def execDescNop (q : QId) (i : BitVec 32) (s : State) : Host.Outcome State Fault Refusal :=
  .next (match s.job q.val i with
    | some j => if descType j.words == 0 && j.phase == .ready then finishOk s q.val i else s
    | none => s)

/-! ### Branches (06 R136, R143, R144; 05 R120 to R122) -/

/-- The predictor's index of a branch (06 R143). -/
def predIndex (q : Nat) (i : BitVec 32) : Nat := ((queueLocal q * 32) ^^^ i.toNat) % 2048

/-- A counter of the predictor: 1 where nothing has trained it. -/
def predCount (s : State) (q : Nat) (i : BitVec 32) : Nat := mget 1 (s.cp (queueDie q)).predictor (predIndex q i)

/-- A counter moves one step toward the outcome and saturates. -/
def trainPred (s : State) (q : Nat) (i : BitVec 32) (taken : Bool) : State :=
  let d := queueDie q
  let c := s.cp d
  let n := predCount s q i
  s.setCp d { c with predictor := mput 1 c.predictor (predIndex q i) (if taken then min 3 (n + 1) else n - 1) }

/-- The comparison of a branch (06 Table 6.9). -/
def branchTaken (l : List Word) (inputs : List Word) : Bool :=
  let a := inputs.getD (wbits (dword l 5) 49 48) 0
  let b := dword l 6
  match wbits (dword l 5) 55 53 with
  | 0 => a == b
  | 1 => a != b
  | 2 => a.slt b
  | 3 => !a.slt b
  | 4 => decide (a < b)
  | 5 => decide (b ≤ a)
  | 6 => (a &&& b) != 0
  | _ => true

/-- The next issue after a taken branch: its successors within the skip are passed (06 R136).  In ERROR the queue's HEAD
stays at its failing descriptor (R128). -/
def takeSkip (s : State) (q : Nat) (i : BitVec 32) (l : List Word) : State :=
  let goal := i + 1 + BitVec.ofNat 32 (wbits (dword l 5) 63 56)
  let inSkip := fun (k : BitVec 32) => decide ((k - i).toNat < (goal - i).toNat)
  match (s.queue q).state with
  | .running | .parking =>
    let t := dropFetches (dropSpecs s q (fun f => inSkip f.idx)) q inSkip
    let x := t.queue q
    t.setQueue q
      { x with
        head := goal, fetched := x.fetched.filter (fun f => !inSkip f.idx),
        fetchAt := if inSkip x.fetchAt then goal else x.fetchAt }
  | _ => s

/-- A mispredicted branch squashes its queue's predicted path: its speculative lines are released, and every descriptor
fetched beyond it is discarded and fetched again (06 R144). -/
def squash (s : State) (q : Nat) : State :=
  let t := dropFetches (dropSpecs (bump s 0x8061 (queueDie q + 1) 1) q (fun _ => true)) q (fun _ => true)
  match (t.queue q).state with
  | .running | .parking => t.setQueue q { t.queue q with fetched := [], fetchAt := (t.queue q).head }
  | _ => t

/-- The skip lies within TAIL (06 R136). -/
def skipCovered (x : Queue) (i : BitVec 32) (l : List Word) : Bool :=
  decide (wbits (dword l 5) 63 56 + 1 ≤ (x.tail - i).toNat)

/-- A reissued branch has resolved: where it is taken, its REPLAY passes the descriptors it skips (05 R121). -/
def replaySkip (s : State) (j : Job) (taken : Bool) : State :=
  match j.replay with
  | some (q, r) =>
    if taken then s.modJob q r (fun k => { k with nextOff := k.nextOff + wbits (dword j.words 5) 63 56 }) else s
  | none => s

/-- BRANCH (06 R136, R143): PRED 7 resolves here; any other branch is predicted, or takes its recorded outcome in a
replay (05 R121), and waits to resolve. -/
def branchStart (q : QId) (i : BitVec 32) (s : State) : State :=
  match s.job q.val i with
  | none => s
  | some j =>
    if descType j.words ≠ 4 ∨ j.phase ≠ .ready then s
    else if wbits (dword j.words 5) 55 53 = 7 then
      if j.replay.isSome then
        replaySkip (finishOk (s.modJob q.val i (fun j => { j with taken := true })) q.val i) j true
      else if skipCovered (s.queue q.val) i j.words then
        takeSkip (finishOk (s.modJob q.val i (fun j => { j with taken := true })) q.val i) q.val i j.words
      else s
    else
      s.modJob q.val i (fun j =>
        { j with
          phase := .working,
          predicted := if j.outcomes.isEmpty then some (decide (2 ≤ predCount s q.val i)) else j.outcomes.head? })

def execBranch (q : QId) (i : BitVec 32) (s : State) : Host.Outcome State Fault Refusal := .next (branchStart q i s)

/-- A resolved outcome is recorded with the block that records on the queue, up to 64 of them (05 R120). -/
def recordOutcome (s : State) (q : Nat) (taken : Bool) : State :=
  let d := queueDie q
  let c := s.cp d
  s.setCp d { c with blocks := c.blocks.map (fun e =>
    if e.2.live && e.2.queue == q && e.2.outcomes.length < 64 then (e.1, { e.2 with outcomes := e.2.outcomes ++ [taken] })
    else e) }

/-- A replay stops with DIVERGED at a branch (05 R122). -/
def diverge (s : State) (i : BitVec 32) (rep : Nat × BitVec 32) : State :=
  finish (sticky s 0xA050 1 (queueDie rep.1)) rep.1 rep.2 0x18 i.toNat

/-- Does an earlier VE descriptor of the queue still run (06 R136)? -/
def veBefore (x : Queue) (i : BitVec 32) : Bool :=
  x.jobs.any (fun j => descType j.words == 2 && decide ((i - j.idx).toNat < 2 ^ 31) && j.idx != i)

/-- BRANCH_RESOLVE (06 R136, R143, R144; 05 R122): the comparison, the predictor's training, a misprediction's squash,
the skip, and in a replay the check against the recorded outcome. -/
def branchResolve (q : QId) (i : BitVec 32) (s : State) : State :=
  match s.job q.val i with
  | none => s
  | some j =>
    let x := s.queue q.val
    let d := queueDie q.val
    let taken := branchTaken j.words x.inputs
    if descType j.words ≠ 4 ∨ j.phase ≠ .working ∨ veBefore x i then s
    else match j.replay with
      | some r =>
        let s1 := replaySkip (finishOk (s.modJob q.val i (fun j => { j with taken := taken })) q.val i) j taken
        if j.outcomes.isEmpty then
          let s2 := bump (trainPred s1 q.val i taken) 0x8060 (d + 1) 1
          if j.predicted = some taken then s2 else bump s2 0x8061 (d + 1) 1
        else if j.predicted != some taken then diverge s1 i r
        else s1
      | none =>
        if taken && !skipCovered x i j.words && x.state == .running then s
        else
          let s1 := finishOk (s.modJob q.val i (fun j => { j with taken := taken })) q.val i
          let s2 := bump (recordOutcome (trainPred s1 q.val i taken) q.val taken) 0x8060 (d + 1) 1
          let s3 := if j.predicted = some taken then s2 else squash s2 q.val
          if taken then takeSkip s3 q.val i j.words else s3

def execBranchResolve (q : QId) (i : BitVec 32) (s : State) : Host.Outcome State Fault Refusal :=
  .next (branchResolve q i s)

/-- The lines of a copy's source that a speculative fill may hold: whole lines from its first, in rising address. -/
def sourceLines (src len : Nat) : List Nat :=
  let k := cellKey (addrDie src) (addrOff src)
  (List.range ((k + len - 1) / 512 + 1 - k / 512)).map (· + k / 512)

/-- Where the path goes on after a descriptor: past its skip where it is a branch taken at decode or predicted taken. -/
def pathNext (s : State) (q : Nat) (k : BitVec 32) (l : List Word) (taken : Option Bool) : BitVec 32 :=
  if descType l = 4 ∧ (wbits (dword l 5) 55 53 = 7 ∨ taken.getD (decide (2 ≤ predCount s q k)) = true) then
    k + 1 + BitVec.ofNat 32 (wbits (dword l 5) 63 56)
  else k + 1

/-- Does the predicted path from a ring index lead to another, over what has been fetched (06 R142)? -/
def onPath (s : State) (q : Nat) (goal : BitVec 32) : Nat → BitVec 32 → Bool
  | 0, _ => false
  | n + 1, k =>
    if k = goal then true
    else match (s.queue q).fetched.find? (fun f => f.idx == k) with
      | some f => f.poison.isNone && onPath s q goal n (pathNext s q k f.words none)
      | none => false

/-- A descriptor stands on the predicted path beyond an unresolved branch of its queue. -/
def onPredicted (s : State) (q : Nat) (i : BitVec 32) : Bool :=
  match (s.queue q).jobs.find? (fun j => descType j.words == 4 && j.phase == .working && j.replay.isNone) with
  | some j => onPath s q i 257 (pathNext s q j.idx j.words j.predicted)
  | none => false

/-- Lines of speculative fills that a die may hold: PREFETCH_LIMIT, within the region and what is not lent of it (06 R142;
07 R159, R161). -/
def specLimit (s : State) (d : Nat) : Nat :=
  min (dnum s 0x2060 3 * 2048) ((s.tier d).rcMib * 2048 - (s.memRec d).lent.length)

/-- One line of a speculative fill takes a free way of its set, or that of the least recently used clean line; a set of
dirty lines takes none (06 R142; 08 R192). -/
def specLine (q : Nat) (i : BitVec 32) (s : State) (k : Nat) : State :=
  let d := queueDie q
  let set := specSet s d k
  let clean := rcOldest ((rcMates s d set).filter (fun l => !l.isDirty))
  let t := match freeWay s d set, clean with
    | none, some v => rcDrop s d v.slot v.die v.line
    | _, _ => s
  match freeWay t d set with
  | none => s
  | some w =>
    let c := t.cp d
    let words := (List.range 64).map (k * 64 + ·)
    t.setCp d { c with specs := c.specs.map (fun f =>
      if f.queue = q ∧ f.idx = i then
        { f with lines := f.lines ++ [k], ways := f.ways ++ [w], data := f.data ++ readBytes s (k * 512) 512,
                 marks := f.marks ++ words.filter s.poison.contains }
      else f) }

/-- SPECULATIVE_FILL (06 R142): the source of a SPEC copy on a predicted path is read into speculative lines, in
ascending address, up to the room under the die's limit. -/
def speculativeFill (q : QId) (i : BitVec 32) (s : State) : State :=
  let x := s.queue q.val
  let d := queueDie q.val
  match x.fetched.find? (fun f => f.idx == i) with
  | none => s
  | some f =>
    let l := f.words
    let src := (dword l 5).toNat
    let dst := (dword l 6).toNat
    let len := wbits (dword l 7) 47 0
    let held := ((s.cp d).specs.map (fun f => f.lines.length)).foldl (· + ·) 0
    let own := fun (a : Nat) => a < 2 ^ 56 && addrSlot a == ownSlot s && addrDie a == d
    if d = 8 ∨ x.state ≠ .running ∨ descType l ≠ 6 ∨ !descSpec l ∨ len = 0 ∨ !own src ∨ !own dst
        ∨ addrOff src < 0x1000000000 ∨ 0x18000000 ≤ addrOff dst ∨ f.poison.isSome
        ∨ (issueFault s q.val l).isSome ∨ (faultIn s d (addrOff src) len).isSome
        ∨ (s.cp d).specs.any (fun g => g.queue == q.val && g.idx == i) ∨ !onPredicted s q.val i then s
    else
      let lines := (sourceLines src len).take (specLimit s d - held)
      if lines.isEmpty then s
      else
        let c := s.cp d
        let key := cellKey d (addrOff src)
        let t := s.setCp d { c with specs := c.specs ++
          [{ queue := q.val, idx := i, lo := key, hi := key + len, lines := [], ways := [], data := [], marks := [],
             stale := [] }] }
        lines.foldl (specLine q.val i) (carryRead t (lines.headD 0 * 512) (512 * lines.length))

def execSpeculativeFill (q : QId) (i : Reading (BitVec 32)) (s : State) :
    Host.Outcome State Fault Refusal :=
  .next (speculativeFill q i.arg (readErrs s i.errs))

/-! ### Bell descriptors (06 R137, R148, R150, R151) -/

/-- The first valid entry at or after a number. -/
def nextEntry (l : List Word) (e : Nat) : Option Nat :=
  (List.range 3).find? (fun k => e ≤ k && (dword l (5 + 3 * k)).getLsbD 63)

/-- Performing an entry needs the descriptor's release to be done (08 R194): the release starts at the first entry. -/
def bellReady (s : State) (q : Nat) (i : BitVec 32) (j : Job) : Bool × State :=
  if j.released then (j.wrTags.isEmpty, s)
  else
    let (tags, t) := startRelease s (queueDie q) (queueLocal q) (.release q i)
    (tags.isEmpty, t.modJob q i (fun j => { j with released := true, wrTags := tags, phase := .working }))

/-- An entry has been performed; the last one ends the descriptor. -/
def entryDone (s : State) (q : Nat) (i : BitVec 32) (e : Nat) (late : Bool) : State :=
  let t := s.modJob q i (fun j => { j with entries := e + 1, late := j.late || late, phase := .working })
  match t.job q i with
  | some j =>
    if (nextEntry j.words (e + 1)).isNone then
      finishOk (t.modJob q i (fun j => { j with released := false, wrTags := [] })) q i
    else t
  | none => t

/-- Run an entry that is the descriptor's next and matches a test on its first word. -/
def withEntry (q : QId) (i : BitVec 32) (e : Fin 3) (want : Word → Bool)
    (act : State → Word → Word → Word → Option (Bool × State)) (s : State) : State :=
  match s.job q.val i with
  | none => s
  | some j =>
    let w := dword j.words (5 + 3 * e.val)
    if descType j.words ≠ 5 ∨ j.phase = .finished ∨ nextEntry j.words j.entries ≠ some e.val ∨ !want w then s
    else
      let (ok, t) := bellReady s q.val i j
      if !ok then t
      else match act t w (dword j.words (6 + 3 * e.val)) (dword j.words (7 + 3 * e.val)) with
        | none => t
        | some (late, u) => entryDone u q.val i e.val late

/-- BELL_ENTRY_STRIKE (06 R137): adds ADD to a bell of the package or, as a frame, of another device. -/
def execBellEntryStrike (q : QId) (i : BitVec 32) (e : Fin 3) (s : State) : Host.Outcome State Fault Refusal :=
  .next (withEntry q i e (fun w => !w.getLsbD 61 && !w.getLsbD 60)
    (fun t w add _ =>
      let b := wbits w 11 0
      if w.getLsbD 62 then some (false, remoteStrike t q.val (BitVec.ofNat 18 (wbits w 47 30)) b add none)
      else some (false, packageStrike t (queueDie q.val) b add)) s)

/-- BELL_ENTRY_SET (06 R137): writes ADD as the counter of a bell of the package, by SETB to another die. -/
def execBellEntrySet (q : QId) (i : BitVec 32) (e : Fin 3) (s : State) : Host.Outcome State Fault Refusal :=
  .next (withEntry q i e (fun w => !w.getLsbD 61 && w.getLsbD 60)
    (fun t w add _ =>
      let b := wbits w 11 0
      let d := queueDie q.val
      if bellDie b = d then some (false, setBell t b add)
      else some (false, sendMsg t d (bellDie b) (dataMsg 0x22 d (bellDie b) 0 (b % 512) (natLe 8 add.toNat) []))) s)

/-- A scheduled strike is performed: late strikes count at the bell's die (06 R151). -/
def performSched (s : State) (d : Nat) (x : Sched) (late : Bool) : State :=
  strike (if late then bump s 0x8065 (d + 1) 1 else s) x.bell x.add

/-- Enter a scheduled strike in a die's table, or perform it at once where its tick has passed (06 R151). -/
def enterSched (s : State) (d : Nat) (x : Sched) : Bool × State :=
  if x.tick < now s then (true, performSched s d x true) else (false, { s with scheds := s.scheds ++ [(d, x)] })

/-- Entries of a die's table that are its own, and those it holds for another die. -/
def ownScheds (s : State) (d : Nat) : Nat := (s.scheds.filter (fun x => x.1 == d && x.2.src.isNone)).length
def schedAllowance (s : State) (src d : Nat) : Nat :=
  (s.scheds.filter (fun x => x.1 == d && x.2.src == some src)).length
    + (s.flight.filter (fun f => f.src == src && f.dst == d && f.msg.typ == 0x21)).length

/-- BELL_ENTRY_STRIKE_AT (06 R151): enters a strike in the die's table of its own 32, sends it to another die within
the allowance of four, or sends it to another device as a frame. -/
def execBellEntryStrikeAt (q : QId) (i : BitVec 32) (e : Fin 3) (s : State) : Host.Outcome State Fault Refusal :=
  .next (withEntry q i e (fun w => w.getLsbD 61)
    (fun t w add tick =>
      let b := wbits w 11 0
      let d := queueDie q.val
      if w.getLsbD 62 then some (false, remoteStrike t q.val (BitVec.ofNat 18 (wbits w 47 30)) b add (some tick))
      else if bellDie b = d then
        if tick < now t ∨ ownScheds t d < 32 then some (enterSched t d { bell := b, add := add, tick := tick, src := none })
        else none
      else if schedAllowance t d (bellDie b) < 4 then
        some (decide (tick < now t), sendMsg t d (bellDie b)
          (dataMsg 0x21 d (bellDie b) 0 (b % 512) (natLe 8 add.toNat ++ natLe 8 tick.toNat) []))
      else none) s)

/-- SCHEDULED_STRIKE (06 R151): entry k of a die's table, or of its remote table, is performed once its tick has come. -/
def scheduledStrike (d : Die) (remote : Bool) (k : Nat) (s : State) : State :=
  let all := if remote then s.remScheds else s.scheds
  match (all.filter (fun x => x.1 == d.val))[k]? with
  | none => s
  | some x =>
    if now s < x.2.tick ∨ !dieUp s d.val then s
    else
      let t := if remote then { s with remScheds := s.remScheds.erase x } else { s with scheds := s.scheds.erase x }
      performSched t d.val x.2 false

def execScheduledStrike (d : Die) (remote : Bool) (k : Nat) (s : State) : Host.Outcome State Fault Refusal :=
  .next (scheduledStrike d remote k s)

/-- The timeout of a wait in ticks: 0 selects BELL_WAIT_TIMEOUT (06 R149). -/
def waitTicks (s : State) (l : List Word) : Nat :=
  (if waitTimeout l = 0 then dnum s 0x2060 2 else waitTimeout l) * 1024

/-- Is the head's wait satisfied: its bell on its own die, or a NOTIFY come for it (06 R149)? -/
def waitMet (s : State) (q : Nat) (l : List Word) : Bool :=
  !waitEn l || (if bellDie (waitBell l) = queueDie q then decide (waitValue l ≤ s.bell (waitBell l))
    else (s.queue q).notified)

/-! ### The host's bell windows (14 R319, R321) -/

/-- A bell window access from the host: the hub sends STRIKE or SETB to the bell's die; a bell of a die out of
service is dropped and faults. -/
def bellWindow (s : State) (typ : Byte) (b : Nat) (v : Word) : State :=
  if !hubOn s then s
  else if !dieUp s (bellDie b) then barFault s
  else sendMsg s 8 (bellDie b) (dataMsg typ 8 (bellDie b) 0 (b % 512) (natLe 8 v.toNat) [])

/-- BELL_STRIKE_WINDOW (14 R319): a 32-bit strike adds the written value as an unsigned number. -/
def execBellStrikeWindow (b : BellId) (wide : Bool) (v : BitVec 64) (s : State) : Host.Outcome State Fault Refusal :=
  .next (bellWindow s 0x20 b.val (if wide then v else v &&& 0xFFFFFFFF))

/-- BELL_SET_WINDOW (14 R319): a write SETs the bell, a 32-bit one to its value as an unsigned number, as for a strike
(DEDUCED, log 10). -/
def execBellSetWindow (b : BellId) (wide : Bool) (v : BitVec 64) (s : State) : Host.Outcome State Fault Refusal :=
  .next (bellWindow s 0x22 b.val (if wide then v else v &&& 0xFFFFFFFF))

end Sys2Proof.Machine
end

