-- ==== Sys2Proof/Machine/Fec.lean ====
section
/-!
DEFINITION. The forward error correction of a fibre direction (10 R241, R242): the field GF(2^10), the code RS(272,258),
its decoder, and the flit that received codewords carry.  Elements of the field are numbers below 1,024, bit k of a number
the coefficient of x^k.
-/

namespace Sys2Proof.Machine

/-! ### The field GF(2^10) with x^10 + x^3 + 1 (10 R241) -/

/-- An element times α, the root x of the field polynomial. -/
def gfDouble (a : Nat) : Nat := if a < 512 then 2 * a else (2 * a) ^^^ 1033

/-- The product of two elements. -/
def gfMul (a b : Nat) : Nat :=
  if a = 0 then 0
  else ((List.range 10).foldl (fun x i => (if b.testBit i then x.1 ^^^ x.2 else x.1, gfDouble x.2)) (0, a)).1

/-- α to the power n. -/
def alphaPow : Nat → Nat
  | 0 => 1
  | n + 1 => gfDouble (alphaPow n)

/-- The inverse of an element that is not 0: its power 1,022. -/
def gfInv (a : Nat) : Nat :=
  ((List.range 9).foldl (fun x _ => let y := gfMul x.2 x.2; (gfMul x.1 y, y)) (1, a)).1

/-- The value of a polynomial, lowest coefficient first. -/
def gfEval : List Nat → Nat → Nat
  | [], _ => 0
  | c :: r, x => c ^^^ gfMul x (gfEval r x)

/-- The sum of two polynomials, lowest coefficient first. -/
def gfAdd (p q : List Nat) : List Nat := (List.range (max p.length q.length)).map (fun i => p.getD i 0 ^^^ q.getD i 0)

/-! ### The code RS(272,258) (10 R241) -/

/-- The generator polynomial, the product of x + α^j for j from 0 to 13, highest coefficient first and without its leading
1. -/
def genPoly : List Nat :=
  ((List.range 14).foldl (fun p j => gfAdd (p ++ [0]) (0 :: p.map (gfMul (alphaPow j)))) [1]).drop 1

/-- One data symbol enters the division by the generator polynomial. -/
def parityStep (g rem : List Nat) (c : Nat) : List Nat :=
  let k := c ^^^ rem.headD 0
  if k = 0 then rem.drop 1 ++ [0] else gfAdd (rem.drop 1 ++ [0]) (g.map (gfMul k))

/-- The 14 parity symbols of 258 data symbols.  The first symbol of a codeword is the coefficient of the highest power
(DEDUCED, log 83). -/
def parity (data : List Nat) : List Nat := data.foldl (parityStep genPoly) (List.replicate 14 0)

/-- The codeword of 258 data symbols, and whether 272 symbols are one. -/
def codeword (data : List Nat) : List Nat := data ++ parity data
def isCodeword (r : List Nat) : Bool := codeword (r.take 258) == r

/-- Syndromes 0 to 13 of 272 symbols. -/
def syndromes (r : List Nat) : List Nat :=
  (List.range 14).map (fun j => let a := alphaPow j; r.foldl (fun x c => gfMul x a ^^^ c) 0)

/-- The search for the shortest recurrence of the syndromes: the locator so far, the one before its length last grew, its
length, the steps since, and the discrepancy then. -/
structure Locator where
  now  : List Nat
  old  : List Nat
  len  : Nat
  gap  : Nat
  disc : Nat
  deriving DecidableEq, Repr

/-- Syndrome n enters the search. -/
def locatorStep (syn : List Nat) (x : Locator) (n : Nat) : Locator :=
  let d := (List.range (x.len + 1)).foldl (fun a i => a ^^^ gfMul (x.now.getD i 0) (syn.getD (n - i) 0)) 0
  let next := gfAdd x.now (List.replicate x.gap 0 ++ x.old.map (gfMul (gfMul d (gfInv x.disc))))
  if d = 0 then { x with gap := x.gap + 1 }
  else if 2 * x.len ≤ n then { now := next, old := x.now, len := n + 1 - x.len, gap := 1, disc := d }
  else { x with now := next, gap := x.gap + 1 }

/-- The locator polynomial of the errors, and its length. -/
def locator (syn : List Nat) : Locator :=
  (List.range 14).foldl (locatorStep syn) { now := [1], old := [1], len := 0, gap := 1, disc := 1 }

/-- The first n of an element's products with the powers of α. -/
def powersFrom (x : Nat) : Nat → List Nat
  | 0 => []
  | n + 1 => x :: powersFrom (gfDouble x) n

/-- The symbols at which a locator has its roots, with the root of each: symbol p stands for α to the power 271 − p, and
its root is the inverse. -/
def errorPlaces (loc : List Nat) : List (Nat × Nat) :=
  ((List.range 272).zip (powersFrom (alphaPow 752) 272)).filter (fun e => gfEval loc e.2 == 0)

/-- The value of the error at a root: from the evaluator polynomial and the derivative of the locator. -/
def errorValue (syn loc : List Nat) (root : Nat) : Nat :=
  let prod := (List.range 14).map (fun k =>
    (List.range (k + 1)).foldl (fun a i => a ^^^ gfMul (loc.getD i 0) (syn.getD (k - i) 0)) 0)
  let slope := (List.range (loc.length - 1)).map (fun i => if i % 2 = 0 then loc.getD (i + 1) 0 else 0)
  gfMul (gfInv root) (gfMul (gfEval prod root) (gfInv (gfEval slope root)))

/-- The codeword that at most 7 wrong symbols part from 272 received ones, if there is one (t = 7). -/
def decodeSymbols (r : List Nat) : Option (List Nat) :=
  if isCodeword r then some r
  else
    let syn := syndromes r
    let x := locator syn
    if 7 < x.len then none
    else
      let at_ := errorPlaces x.now
      let fixed := at_.foldl (fun l e => l.set e.1 (l.getD e.1 0 ^^^ errorValue syn x.now e.2)) r
      if at_.length = x.len ∧ isCodeword fixed = true then some fixed else none

/-! ### The flit in its codewords (10 R241, R242) -/

/-- The first codeword in which flit n of a stream has a byte, the place of its first bit there, and how many codewords it
lies in: flits run on across codewords of 2,580 data bits. -/
def flitCodeword (n : Nat) : Nat := 2048 * n / 2580
def flitBit (n : Nat) : Nat := 2048 * n % 2580
def flitWords (n : Nat) : Nat := (flitBit n + 2048 + 2579) / 2580

/-- The number that symbols spell, the first lowest. -/
def symbolsNat : List Nat → Nat
  | [] => 0
  | c :: r => c + 1024 * symbolsNat r

/-- What the decoder reads of a flit: its bytes, and of each codeword in which it has a byte the index and, for every bit
corrected, the logical lane that carried it, or none where the codeword cannot be corrected. -/
structure FlitRead where
  bytes : List Byte
  words : List (Word × Option (List Nat))
  deriving DecidableEq, Repr

/-- The logical lanes of the bits in which two words differ: bit i of a codeword travels on lane i modulo the lanes that
are active (10 R241). -/
def lanesOf (lanes : Nat) (r c : List Nat) : List Nat :=
  (onesBelow 2720 (symbolsNat r ^^^ symbolsNat c)).map (fun i => i % max 1 lanes)

/-- A flit as the decoder reads it, its codewords dealt over a number of lanes; the bytes of one that cannot be corrected
are as they came. -/
def readWords (lanes : Nat) (f : FibreFlit) : FlitRead :=
  let got := f.words.map (fun w => w.map BitVec.toNat)
  let done := got.map decodeSymbols
  let data := (List.range got.length).map (fun k => ((done.getD k none).getD (got.getD k [])).take 258)
  { bytes := natLe 256 (symbolsNat data.flatten / 2 ^ flitBit f.number.toNat),
    words := (List.range got.length).map (fun k =>
      (BitVec.ofNat 64 (flitCodeword f.number.toNat + k), (done.getD k none).map (lanesOf lanes (got.getD k [])))) }

end Sys2Proof.Machine
end

