-- ==== Sys2Proof/Machine/Float.lean ====
section
/-!
DEFINITION. Numbers: the floating-point formats, their decoding, one exact rounding shared by every operation, the
operations of IEEE 754-2019 in strict and fast mode, integers under SAT, and conversions (03 R59 to R82, R394).  A
finite value is m·2^e, computed exactly and rounded once.
-/

namespace Sys2Proof.Machine

/-! ### Flags (03 Table 3.6) -/

def flInexact : Nat := 1
def flUnderflow : Nat := 2
def flOverflow : Nat := 4
def flDivZero : Nat := 8
def flInvalid : Nat := 16
def flFlushed : Nat := 32
def flNanCanon : Nat := 64
def flIntClip : Nat := 128

/-- A result and the flags it raised. -/
abbrev Res := Nat × Nat

/-- The flag, if the condition holds. -/
def fl (b : Bool) (f : Nat) : Nat := if b then f else 0

/-! ### Formats (03 Tables 3.1, 3.2) -/

/-- How a format encodes its special values. -/
inductive Special where
  | ieee                       -- infinities and NaNs
  | e4m3                       -- one NaN of each sign, no infinity
  | plain                      -- every encoding is finite
  deriving DecidableEq, Repr

/-- A floating-point format. -/
structure FFmt where
  ew : Nat
  mw : Nat
  bias : Int
  sp : Special
  deriving DecidableEq, Repr

/-- The format of a code of 02 Table 2.2: 0 E4M3, 1 E5M2, 2 E3M2, 3 E2M3, 4 E2M1, 7 BF16, 8 FP16, else FP32. -/
def ffmt (c : Nat) : FFmt :=
  match c with
  | 0 => ⟨4, 3, 7, .e4m3⟩
  | 1 => ⟨5, 2, 15, .ieee⟩
  | 2 => ⟨3, 2, 3, .plain⟩
  | 3 => ⟨2, 3, 1, .plain⟩
  | 4 => ⟨2, 1, 1, .plain⟩
  | 7 => ⟨8, 7, 127, .ieee⟩
  | 8 => ⟨5, 10, 15, .ieee⟩
  | _ => ⟨8, 23, 127, .ieee⟩

/-- The binary32 format. -/
def f32 : FFmt := ⟨8, 23, 127, .ieee⟩

/-- Is a code a floating-point format? -/
def isFloat (c : Nat) : Bool := c ≤ 4 || (7 ≤ c && c ≤ 9)

/-- Formats whose subnormals fast mode flushes (03 R70). -/
def flushes (c : Nat) : Bool := c == 7 || c == 8

/-- A decoded value: a NaN's mantissa is aligned to 23 bits. -/
inductive FVal where
  | nan (neg : Bool) (pay : Nat) (sig : Bool)
  | inf (neg : Bool)
  | fin (neg : Bool) (m : Nat) (e : Int)
  deriving DecidableEq, Repr

/-- The weight of the sign bit. -/
def FFmt.signBit (f : FFmt) : Nat := 2 ^ (f.ew + f.mw)

/-- The encoding of the largest finite magnitude. -/
def FFmt.maxMag (f : FFmt) : Nat :=
  match f.sp with
  | .ieee => (2 ^ f.ew - 1) * 2 ^ f.mw - 1
  | .e4m3 => 2 ^ (f.ew + f.mw) - 2
  | .plain => 2 ^ (f.ew + f.mw) - 1

/-- Decode (03 R59, R60). -/
def decodeF (f : FFmt) (x : Nat) : FVal :=
  let neg := x / f.signBit % 2 == 1
  let mag := x % f.signBit
  let ex := mag / 2 ^ f.mw
  let man := mag % 2 ^ f.mw
  if f.sp = .ieee ∧ ex = 2 ^ f.ew - 1 then
    if man = 0 then .inf neg else .nan neg (man * 2 ^ (23 - f.mw)) (decide (man < 2 ^ (f.mw - 1)))
  else if f.sp = .e4m3 ∧ mag = 2 ^ (f.ew + f.mw) - 1 then .nan neg 0x400000 false
  else if ex = 0 then .fin neg man (1 - f.bias - f.mw)
  else .fin neg (2 ^ f.mw + man) (ex - f.bias - f.mw)

/-- Does a pattern encode a subnormal? -/
def isSubnormal (f : FFmt) (x : Nat) : Bool :=
  let mag := x % f.signBit
  mag != 0 && decide (mag < 2 ^ f.mw)

/-! ### Rounding (03 R63, R65, R70, R77) -/

/-- The arithmetic control field of 03 Table 3.5. -/
structure Arith where
  strict : Bool
  rnd    : Nat
  satfin : Bool
  sat    : Bool
  deriving DecidableEq, Repr

/-- The field from its five bits. -/
def arithOf (n : Nat) : Arith :=
  { strict := n.testBit 4, rnd := n / 4 % 4, satfin := n.testBit 1, sat := n.testBit 0 }

/-- Strict rounding to nearest even, as the tensor arrays round (03 R64). -/
def rneCtl : Arith := { strict := true, rnd := 0, satfin := false, sat := false }

/-- Is a discarded part rounded away from zero?  `cmp` compares it with a half: 0 none, 1 less, 2 equal, 3 more. -/
def roundsUp (rnd : Nat) (neg odd : Bool) (cmp : Nat) : Bool :=
  if cmp = 0 then false
  else if rnd = 0 then cmp = 3 || (cmp = 2 && odd)
  else if rnd = 1 then false
  else if rnd = 2 then !neg else neg

/-- The discarded part of m below 2^k against a half; `more` says that something nonzero lies below m. -/
def discard (m k : Nat) (more : Bool) : Nat :=
  let r := m % 2 ^ k
  let h := 2 ^ k
  if r = 0 ∧ !more then 0 else if 2 * r < h then 1 else if 2 * r = h ∧ !more ∧ k ≠ 0 then 2
  else if k = 0 then 1 else 3

/-- m·2^e brought to a multiple of 2^q under a rounding: the multiple, and whether it is inexact. -/
def quantise (rnd : Nat) (neg : Bool) (m : Nat) (e q : Int) (more : Bool) : Nat × Bool :=
  if q ≤ e then
    let n := m * 2 ^ (e - q).toNat
    (if roundsUp rnd neg (n % 2 == 1) (discard n 0 more) then n + 1 else n, more)
  else
    let k := (q - e).toNat
    let n := m / 2 ^ k
    let c := discard m k more
    (if roundsUp rnd neg (n % 2 == 1) c then n + 1 else n, c != 0)

/-- A sign put on a magnitude. -/
def FFmt.signed (f : FFmt) (neg : Bool) (mag : Nat) : Nat := (if neg then f.signBit else 0) + mag

/-- A NaN result: quieted and truncated in strict mode, canonical in fast mode; +0 with INVALID in a format without
NaNs (03 R67, R71, Table 3.8). -/
def nanF (c : Nat) (a : Arith) (neg : Bool) (pay : Nat) : Res :=
  let f := ffmt c
  match f.sp with
  | .plain => (0, flInvalid)
  | .e4m3 => if a.strict then (f.signed neg 0x7F, 0) else (0x7F, flNanCanon)
  | .ieee =>
    let top := (2 ^ f.ew - 1) * 2 ^ f.mw
    let q := 2 ^ (f.mw - 1)
    if a.strict then
      let man := pay / 2 ^ (23 - f.mw) % 2 ^ f.mw
      (f.signed neg (top + (if man < q then man + q else man)), 0)
    else (top + q, flNanCanon)

/-- The canonical NaN of an invalid operation without a NaN operand (03 R67). -/
def invalidF (c : Nat) (a : Arith) : Res :=
  let r := nanF c a false 0x400000
  (r.1, r.2 ||| flInvalid)

/-- An infinite result (03 Table 3.8). -/
def infF (c : Nat) (a : Arith) (neg : Bool) : Res :=
  let f := ffmt c
  match f.sp with
  | .ieee => (f.signed neg (f.maxMag + 1), 0)
  | .e4m3 => if a.satfin then (f.signed neg f.maxMag, flInvalid) else invalidF c a
  | .plain => (f.signed neg f.maxMag, flInvalid)

/-- A finite overflow (03 R77, Table 3.8). -/
def overflowF (c : Nat) (a : Arith) (neg : Bool) : Res :=
  let f := ffmt c
  let fl := flOverflow ||| flInexact
  if a.rnd = 1 ∨ (a.rnd = 2 ∧ neg) ∨ (a.rnd = 3 ∧ !neg) ∨ a.satfin ∨ f.sp = .plain then (f.signed neg f.maxMag, fl)
  else if f.sp = .e4m3 then
    let r := invalidF c a
    (r.1, r.2 ||| fl)
  else (f.signed neg (f.maxMag + 1), fl)

/-- Round m·2^e (with something nonzero below m where `more`) into a format, once. -/
def roundF (c : Nat) (a : Arith) (neg : Bool) (m : Nat) (e : Int) (more : Bool) : Res :=
  let f := ffmt c
  if m = 0 ∧ !more then (f.signed neg 0, 0)
  else
    let top : Int := Nat.log2 m + e
    let emin : Int := 1 - f.bias
    let q : Int := max top emin - f.mw
    let (n, inexact) := quantise a.rnd neg m e q more
    let mag := if emin ≤ top then (top + f.bias).toNat * 2 ^ f.mw + (n - 2 ^ f.mw) else n
    if f.maxMag < mag then overflowF c a neg
    else
      let tiny := top < emin && ((quantise a.rnd neg m e (top - f.mw) more).1 < 2 ^ (f.mw + 1) || top < emin - 1)
      if flushes c && !a.strict && mag != 0 && decide (mag < 2 ^ f.mw) then
        (f.signed neg 0, flFlushed ||| flUnderflow ||| flInexact)
      else (f.signed neg mag, fl inexact flInexact ||| fl (tiny && inexact) flUnderflow)

/-- Read an operand: fast mode flushes BF16 and FP16 subnormals (03 R70). -/
def operandF (c : Nat) (a : Arith) (x : Nat) : FVal × Nat :=
  let f := ffmt c
  if flushes c && !a.strict && isSubnormal f x then (.fin (x / f.signBit % 2 == 1) 0 0, flFlushed)
  else (decodeF f x, 0)

/-- Write a value that was computed exactly. -/
def writeF (c : Nat) (a : Arith) : FVal → Res
  | .nan neg pay sig =>
    let r := nanF c a neg pay
    (r.1, r.2 ||| fl sig flInvalid)
  | .inf neg => infF c a neg
  | .fin neg m e => roundF c a neg m e false

/-- The NaN result of an operation whose operands hold a NaN: the first in operand order; any signalling one raises
INVALID (03 R67). -/
def nanOf (c : Nat) (a : Arith) (l : List FVal) : Option Res :=
  let first := l.findSome? (fun v => match v with | .nan n p _ => some (n, p) | _ => none)
  let sig := l.any (fun v => match v with | .nan _ _ s => s | _ => false)
  first.map (fun x =>
    let r := nanF c a x.1 x.2
    (r.1, r.2 ||| fl sig flInvalid))

/-! ### Exact arithmetic on finite values -/

/-- m·2^e as an integer multiple of 2^q, q ≤ e. -/
def scaledTo (neg : Bool) (m : Nat) (e q : Int) : Int :=
  let n : Int := m * 2 ^ (e - q).toNat
  if neg then -n else n

/-- The exact sum of two finite values; the sign of an exact zero follows IEEE 754 §6.3. -/
def addFin (rnd : Nat) (n1 : Bool) (m1 : Nat) (e1 : Int) (n2 : Bool) (m2 : Nat) (e2 : Int) : FVal :=
  if m1 = 0 ∧ m2 = 0 then .fin (if n1 = n2 then n1 else rnd = 3) 0 0
  else if m1 = 0 then .fin n2 m2 e2
  else if m2 = 0 then .fin n1 m1 e1
  else
    let q := min e1 e2
    let v := scaledTo n1 m1 e1 q + scaledTo n2 m2 e2 q
    if v = 0 then .fin (rnd = 3) 0 0 else .fin (v < 0) v.natAbs q

/-- Flip the sign of a value. -/
def FVal.neg : FVal → FVal
  | .nan n p s => .nan n p s
  | .inf n => .inf (!n)
  | .fin n m e => .fin (!n) m e

/-- Addition of decoded values, none a NaN. -/
def addV (c : Nat) (a : Arith) (x y : FVal) : Res :=
  match x, y with
  | .inf n1, .inf n2 => if n1 = n2 then infF c a n1 else invalidF c a
  | .inf n, _ => infF c a n
  | _, .inf n => infF c a n
  | .fin n1 m1 e1, .fin n2 m2 e2 => writeF c a (addFin a.rnd n1 m1 e1 n2 m2 e2)
  | _, _ => invalidF c a

/-- Multiplication of decoded values, none a NaN. -/
def mulV (c : Nat) (a : Arith) (x y : FVal) : Res :=
  match x, y with
  | .inf n1, .inf n2 => infF c a (n1 != n2)
  | .inf n1, .fin n2 m _ => if m = 0 then invalidF c a else infF c a (n1 != n2)
  | .fin n1 m _, .inf n2 => if m = 0 then invalidF c a else infF c a (n1 != n2)
  | .fin n1 m1 e1, .fin n2 m2 e2 => roundF c a (n1 != n2) (m1 * m2) (e1 + e2) false
  | _, _ => invalidF c a

/-- Bits kept beyond the significand by a division or a root. -/
def guardBits : Nat := 64

/-- Division of decoded values, none a NaN. -/
def divV (c : Nat) (a : Arith) (x y : FVal) : Res :=
  match x, y with
  | .inf _, .inf _ => invalidF c a
  | .inf n1, .fin n2 _ _ => infF c a (n1 != n2)
  | .fin n1 _ _, .inf n2 => ((ffmt c).signed (n1 != n2) 0, 0)
  | .fin n1 m1 e1, .fin n2 m2 e2 =>
    if m2 = 0 then
      if m1 = 0 then invalidF c a
      else
        let r := infF c a (n1 != n2)
        (r.1, r.2 ||| flDivZero)
    else if m1 = 0 then ((ffmt c).signed (n1 != n2) 0, 0)
    else
      let k := guardBits + Nat.log2 m2
      let t := m1 * 2 ^ k
      roundF c a (n1 != n2) (t / m2) (e1 - e2 - k) (t % m2 != 0)
  | _, _ => invalidF c a

/-- The integer square root by bits: `k` steps down from a bit. -/
def isqrtFrom (n : Nat) : Nat → Nat → Nat
  | 0, r => r
  | k + 1, r =>
    let t := r + 2 ^ k
    isqrtFrom n k (if t * t ≤ n then t else r)

/-- The integer square root. -/
def isqrt (n : Nat) : Nat := isqrtFrom n (Nat.log2 n / 2 + 1) 0

/-- Square root of a decoded value that is no NaN. -/
def sqrtV (c : Nat) (a : Arith) : FVal → Res
  | .inf n => if n then invalidF c a else infF c a false
  | .fin n m e =>
    if m = 0 then ((ffmt c).signed n 0, 0)
    else if n then invalidF c a
    else
      let odd := e % 2 ≠ 0
      let m' := (if odd then 2 * m else m) * 2 ^ (2 * guardBits)
      let e' := (if odd then e - 1 else e) - 2 * guardBits
      let r := isqrt m'
      roundF c a false r (e' / 2) (r * r != m')
  | _ => invalidF c a

/-- Fused multiply-add of decoded values; 0·∞ raises INVALID even beside a NaN addend (03 R67). -/
def fmaV (c : Nat) (a : Arith) (x y z : FVal) : Res :=
  let zeroInf := match x, y with
    | .inf _, .fin _ m _ => m == 0
    | .fin _ m _, .inf _ => m == 0
    | _, _ => false
  match nanOf c a [x, y, z] with
  | some r => (r.1, r.2 ||| fl zeroInf flInvalid)
  | none =>
    if zeroInf then invalidF c a
    else match x, y, z with
      | .fin n1 m1 e1, .fin n2 m2 e2, .fin n3 m3 e3 =>
        writeF c a (addFin a.rnd (n1 != n2) (m1 * m2) (e1 + e2) n3 m3 e3)
      | .fin _ _ _, .fin _ _ _, .inf n => infF c a n
      | .inf n1, .inf n2, .inf n => if (n1 != n2) = n then infF c a n else invalidF c a
      | .inf n1, .fin n2 _ _, .inf n => if (n1 != n2) = n then infF c a n else invalidF c a
      | .fin n1 _ _, .inf n2, .inf n => if (n1 != n2) = n then infF c a n else invalidF c a
      | .inf n1, .inf n2, _ => infF c a (n1 != n2)
      | .inf n1, .fin n2 _ _, _ => infF c a (n1 != n2)
      | .fin n1 _ _, .inf n2, _ => infF c a (n1 != n2)
      | _, _, _ => invalidF c a

/-- A two-operand operation over patterns of one format. -/
def binF (c : Nat) (a : Arith) (op : Nat → Arith → FVal → FVal → Res) (x y : Nat) : Res :=
  let (vx, fx) := operandF c a x
  let (vy, fy) := operandF c a y
  let r := (nanOf c a [vx, vy]).getD (op c a vx vy)
  (r.1, r.2 ||| fx ||| fy)

def addF (c : Nat) (a : Arith) (x y : Nat) : Res := binF c a addV x y
def subF (c : Nat) (a : Arith) (x y : Nat) : Res := binF c a (fun c a u v => addV c a u v.neg) x y
def mulF (c : Nat) (a : Arith) (x y : Nat) : Res := binF c a mulV x y
def divF (c : Nat) (a : Arith) (x y : Nat) : Res := binF c a divV x y

/-- Square root over a pattern. -/
def sqrtF (c : Nat) (a : Arith) (x : Nat) : Res :=
  let (v, f) := operandF c a x
  let r := (nanOf c a [v]).getD (sqrtV c a v)
  (r.1, r.2 ||| f)

/-- Fused multiply-add over patterns. -/
def fmaF (c : Nat) (a : Arith) (x y z : Nat) : Res :=
  let (vx, fx) := operandF c a x
  let (vy, fy) := operandF c a y
  let (vz, fz) := operandF c a z
  let r := fmaV c a vx vy vz
  (r.1, r.2 ||| fx ||| fy ||| fz)

/-! ### Order (03 R66, R73) -/

/-- Compare two finite or infinite values: −1, 0, 1. -/
def cmpV (x y : FVal) : Int :=
  let rank := fun (v : FVal) => match v with | .inf n => if n then (-1 : Int) else 1 | _ => 0
  if rank x ≠ rank y then (if rank x < rank y then -1 else 1)
  else match x, y with
    | .fin n1 m1 e1, .fin n2 m2 e2 =>
      let q := min e1 e2
      let a := scaledTo n1 m1 e1 q
      let b := scaledTo n2 m2 e2 q
      if a < b then -1 else if b < a then 1 else 0
    | _, _ => 0

/-- Is the sign bit of a value set? -/
def FVal.isNeg : FVal → Bool
  | .nan n _ _ => n
  | .inf n => n
  | .fin n _ _ => n

/-- Is a value a NaN? -/
def FVal.isNan : FVal → Bool
  | .nan _ _ _ => true
  | _ => false

/-- Maximum (`big`) or minimum of two patterns, by value or by magnitude: −0 is below +0, a NaN prevails (03 R73). -/
def extremeF (c : Nat) (a : Arith) (big byMag : Bool) (x y : Nat) : Res :=
  let f := ffmt c
  let (vx, fx) := operandF c a x
  let (vy, fy) := operandF c a y
  match nanOf c a [vx, vy] with
  | some r => (r.1, r.2 ||| fx ||| fy)
  | none =>
    let px := if fx = 0 then x else f.signed vx.isNeg 0
    let py := if fy = 0 then y else f.signed vy.isNeg 0
    let mx := if byMag then px % f.signBit else 0
    let my := if byMag then py % f.signBit else 0
    let less :=                                   -- x is the smaller
      if mx ≠ my then decide (mx < my)
      else
        let k := cmpV vx vy
        k < 0 || (k = 0 && vx.isNeg && !vy.isNeg)
    (if less = big then py else px, fx ||| fy)

/-- The order of two patterns: none where a NaN makes them unordered; a signalling NaN raises INVALID, and so does any
NaN for a signalling predicate (03 R66). -/
def compareF (c : Nat) (a : Arith) (signalling : Bool) (x y : Nat) : Option Int × Nat :=
  let (vx, fx) := operandF c a x
  let (vy, fy) := operandF c a y
  let sig := [vx, vy].any (fun v => match v with | .nan _ _ s => s || signalling | _ => false)
  if vx.isNan || vy.isNan then (none, fx ||| fy ||| fl sig flInvalid) else (some (cmpV vx vy), fx ||| fy)

/-! ### scaleB, logB, roundToIntegral (03 Table 3.7) -/

/-- scaleB of a pattern by an integer. -/
def scalebF (c : Nat) (a : Arith) (x : Nat) (n : Int) : Res :=
  let (v, f) := operandF c a x
  let r := match v with
    | .fin neg m e => roundF c a neg m (e + n) false
    | w => writeF c a w
  (r.1, r.2 ||| f)

/-- An integer as a pattern. -/
def intF (c : Nat) (a : Arith) (n : Int) : Res := roundF c a (n < 0) n.natAbs 0 false

/-- logB: the exponent of the value as a number; −∞ with DIVZERO at 0, +∞ at an infinity. -/
def logbF (c : Nat) (a : Arith) (x : Nat) : Res :=
  let (v, f) := operandF c a x
  let r := match v with
    | .nan _ _ _ => writeF c a v
    | .inf _ => infF c a false
    | .fin _ m e =>
      if m = 0 then
        let r := infF c a true
        (r.1, r.2 ||| flDivZero)
      else intF c a (Nat.log2 m + e)
  (r.1, r.2 ||| f)

/-- A finite value rounded to an integer, with whether it changed. -/
def toIntegral (rnd : Nat) (neg : Bool) (m : Nat) (e : Int) : Int × Bool :=
  let (n, inexact) := quantise rnd neg m e 0 false
  (if neg then -(n : Int) else n, inexact)

/-- roundToIntegral in the direction RND selects, raising no INEXACT (03 R66). -/
def rintF (c : Nat) (a : Arith) (x : Nat) : Res :=
  let (v, f) := operandF c a x
  let r := match v with
    | .fin neg m e => roundF c a neg (toIntegral a.rnd neg m e).1.natAbs 0 false
    | w => writeF c a w
  (r.1, r.2 ||| f)

/-! ### Integers (03 R61, R74, R79) -/

/-- The width of an integer format: INT8 5, INT4 6, INT32 10, FX64 11. -/
def intWidth (c : Nat) : Nat := if c = 5 then 8 else if c = 6 then 4 else if c = 11 then 64 else 32

/-- A pattern as a two's complement number. -/
def toSigned (w x : Nat) : Int := if x % 2 ^ w < 2 ^ (w - 1) then (x % 2 ^ w : Nat) else (x % 2 ^ w : Nat) - (2 : Int) ^ w

/-- A number as a two's complement pattern. -/
def ofSigned (w : Nat) (v : Int) : Nat := (v % (2 : Int) ^ w).toNat

/-- The lowest and highest value of an integer format: FX64 stops short of its sentinel (03 R61). -/
def intLo (c : Nat) : Int := if c = 11 then 1 - (2 : Int) ^ 63 else -((2 : Int) ^ (intWidth c - 1))
def intHi (c : Nat) : Int := (2 : Int) ^ (intWidth c - 1) - 1

/-- Clamp a number to an integer format. -/
def clampInt (c : Nat) (v : Int) : Int := if v < intLo c then intLo c else if intHi c < v then intHi c else v

/-- Fit an exact result under SAT (03 R74). -/
def fitInt (c : Nat) (sat : Bool) (v : Int) : Res :=
  let out := v < intLo c || intHi c < v
  (ofSigned (intWidth c) (if sat then clampInt c v else v), fl out flIntClip)

/-- The NaN sentinel of FX64 (03 R61). -/
def fxNan : Nat := 0x8000000000000000

/-- A two-operand integer operation; a sentinel among FX64 operands gives the sentinel (03 R74). -/
def binInt (c : Nat) (a : Arith) (op : Int → Int → Int) (x y : Nat) : Res :=
  if c = 11 ∧ (x = fxNan ∨ y = fxNan) then (fxNan, 0)
  else fitInt c a.sat (op (toSigned (intWidth c) x) (toSigned (intWidth c) y))

/-- Integer division toward zero (03 R74). -/
def divInt (c : Nat) (a : Arith) (x y : Nat) : Res :=
  let u := toSigned (intWidth c) x
  let v := toSigned (intWidth c) y
  if v = 0 then (0, flIntClip ||| flDivZero) else fitInt c a.sat (u.tdiv v)

/-! ### Conversions (03 R76 to R79, R394) -/

/-- A value rounded to an integer and fitted to a format: saturating with INVALID (03 R78) or, from FX64, under SAT with
INT_CLIP (03 R394). -/
def fitRounded (c : Nat) (a : Arith) (invalid : Bool) (neg : Bool) (m : Nat) (e : Int) : Res :=
  let (v, inexact) := toIntegral a.rnd neg m e
  let out := v < intLo c || intHi c < v
  if invalid then
    if out then (ofSigned (intWidth c) (clampInt c v), flInvalid) else (ofSigned (intWidth c) v, fl inexact flInexact)
  else
    let r := fitInt c a.sat v
    (r.1, r.2 ||| fl inexact flInexact)

/-- Convert a pattern from one format to another; `e` is the LSB exponent of an FX64 value, on both sides of a convert
from FX64 to FX64, which leaves the value as it is (DEDUCED, log 24). -/
def convert (src dst : Nat) (a : Arith) (e : Int) (x : Nat) : Res :=
  if isFloat src then
    let (v, f) := operandF src a x
    let r :=
      if isFloat dst then writeF dst a v
      else match v with
        | .nan _ _ sig => if dst = 11 then (fxNan, fl sig flInvalid) else (0, flInvalid)
        | .inf neg => (ofSigned (intWidth dst) (if neg then intLo dst else intHi dst), flInvalid)
        | .fin neg m k => fitRounded dst a true neg m (if dst = 11 then k - e else k)
    (r.1, r.2 ||| f)
  else if src = 11 then
    if x = fxNan then
      if isFloat dst then
        let r := nanF dst a false 0x400000
        (r.1, r.2)
      else if dst = 11 then (fxNan, 0) else (0, flInvalid)
    else
      let v := toSigned 64 x
      if isFloat dst then roundF dst a (v < 0) v.natAbs e false
      else if dst = 11 then (x, 0)
      else fitRounded dst a false (v < 0) v.natAbs e
  else
    let v := toSigned (intWidth src) x
    if isFloat dst then intF dst a v
    else if dst = 11 then fitRounded 11 a false (v < 0) v.natAbs (-e)
    else fitInt dst a.sat v

/-- An operand converted exactly into binary32, as a kernel's inputs and a stored moment are (04 R97, R101; 03 R77): fast
mode flushes no subnormal; a NaN follows the mode. -/
def widen32 (src : Nat) (a : Arith) (x : Nat) : Res :=
  if src = 9 then (x, 0)
  else match (operandF src { a with strict := true } x).1 with
    | .nan _ _ _ => convert src 9 a 0 x
    | _ => convert src 9 { a with strict := true } 0 x

/-! ### MX blocks (03 R80 to R82) -/

/-- One element of an MX block expanded: element value times 2^(X − 127), rounded once.  With X = 0xFF the result is NaN
from the scale alone: the spec does not say whether a signalling NaN element of such a block raises INVALID, and here it
raises none (DESIGN CHOICE, log 35). -/
def mxExpand (src dst : Nat) (a : Arith) (scale x : Nat) : Res :=
  if scale = 0xFF then nanF dst a false 0x400000
  else
    let d : Int := (scale : Int) - 127
    let v := if src = 5 then
        let n := toSigned 8 x
        FVal.fin (n < 0) n.natAbs (-6)
      else (operandF src a x).1
    match v with
    | .fin neg m e => roundF dst a neg m (e + d) false
    | w => writeF dst a w

/-- emax of an MX element format (03 R82). -/
def mxEmax (c : Nat) : Int :=
  match c with
  | 0 => 8
  | 1 => 15
  | 2 => 4
  | 3 => 2
  | 4 => 2
  | _ => 0

/-- The scale of a block and whether it is NaN (03 R82 steps 1 and 2). -/
def mxScale (dst : Nat) (xs : List Nat) : Nat × Bool :=
  let vs := xs.map (decodeF f32)
  if vs.any (fun v => match v with | .fin _ _ _ => false | _ => true) then (0xFF, true)
  else
    let amax := (xs.map (· % 0x80000000)).foldl max 0
    match decodeF f32 amax with
    | .fin _ m e =>
      if m = 0 then (0, false)
      else
        let x : Int := (Nat.log2 m + e) - mxEmax dst + 127
        ((max 0 (min 254 x)).toNat, false)
    | _ => (0xFF, true)

/-- One element packed (03 R82 steps 3 and 4).  As in the rule's worked example, an input whose scaled magnitude is
beyond the largest finite value is clamped and raises OVERFLOW, whichever way it would round (DEDUCED, log 11). -/
def mxPack (dst : Nat) (a : Arith) (scale x : Nat) : Res :=
  match decodeF f32 x with
  | .fin neg m e =>
    let k : Int := e + 127 - scale
    if dst = 5 then
      let (v, inexact) := toIntegral a.rnd neg m (k + 6)
      let out := v < -128 || 127 < v
      (ofSigned 8 (clampInt 5 v), fl out flOverflow ||| fl inexact flInexact)
    else
      let f := ffmt dst
      if cmpV (decodeF f f.maxMag) (.fin false m k) < 0 then (f.signed neg f.maxMag, flOverflow ||| flInexact)
      else roundF dst a neg m k false
  | _ => (0, 0)

/-- A ratio as a binary32 pattern, to nearest even: how the model reports a measured F32. -/
def ratF32 (num : Int) (den : Nat) : Nat :=
  if den = 0 then 0
  else
    let k := guardBits + Nat.log2 den
    let t := num.natAbs * 2 ^ k
    (roundF 9 rneCtl (num < 0) (t / den) (-(k : Int)) (t % den != 0)).1

/-- A binary32 pattern as thousandths, toward zero: how the model reads a configured F32. -/
def f32Milli (x : Nat) : Int :=
  match decodeF f32 x with
  | .fin neg m e =>
    let v : Nat := if 0 ≤ e then m * 1000 * 2 ^ e.toNat else m * 1000 / 2 ^ (-e).toNat
    if neg then -(v : Int) else v
  | .inf neg => if neg then -(10 ^ 42 : Int) else 10 ^ 42
  | _ => 0

/-- Are two binary32 patterns in order, as numbers (a NaN is below nothing)? -/
def f32Le (x y : Nat) : Bool :=
  match (compareF 9 rneCtl false x y).1 with
  | some k => k ≤ 0
  | none => false

end Sys2Proof.Machine
end

