-- ==== Sys2Proof/Machine/Optics.lean ====
section
/-!
DEFINITION. The optical ports (10 R234 to R262; 09 R201, R227, R228): flits and retry, lane maps and their changes,
training, port maps and calibration.  Laser banks, which also move die-to-die lanes, are in Machine/Laser.lean.
-/

namespace Sys2Proof.Machine

/-! ### Codeword indices (10 R241) -/

/-- The clock in units of 1/64 ns. -/
def clockU (s : State) : Nat := (clock s).toNat * 64

/-- Active lanes of a map, at most 16 (10 R245). -/
def activeLanes (m : List (BitVec 5)) : Nat := (m.filter (fun c => decide (c.toNat < 16))).length

/-- The duration of a codeword in 1/64 ns (10 R241). -/
def codewordU (m : List (BitVec 5)) : Nat :=
  let l := max 1 (activeLanes m)
  (2720 + l - 1) / l

/-- The codeword being sent, and being received (10 R241; codeword 0 begins when training is done, log 14). -/
def txIndex (s : State) (x : Fibre) : Nat := x.txCw.toNat + (clockU s - x.txAt) / codewordU x.txMap
def rxIndex (s : State) (x : Fibre) : Nat := x.rxCw.toNat + (clockU s - x.rxAt) / codewordU x.rxMap

/-- The first codeword that begins at or after a tick (10 R247). -/
def firstCodeword (s : State) (x : Fibre) (tick : Word) : Nat :=
  let t := clockU s + (if now s < tick then (tick - now s).toNat * 64 else 0)
  let w := codewordU x.txMap
  x.txCw.toNat + (t - x.txAt + w - 1) / w

/-! ### Choosing a map (10 R250) -/

/-- The code of a λ. -/
def codeAt (m : List (BitVec 5)) (k : Nat) : Nat := (m.getD k 19).toNat

/-- λ in a state. -/
def lamsIn (m : List (BitVec 5)) (code : Nat) : List Nat := (List.range 18).filter (fun k => codeAt m k == code)

/-- The free λ calibrated most recently; of equals the lowest (log 14). -/
def bestFree (r : Rotation) (m : List (BitVec 5)) (except : Nat) : Option Nat :=
  ((lamsIn m 16).filter (· != except)).foldl
    (fun b k => match b with
      | none => some k
      | some j => if mget 0 r.lastCal j < mget 0 r.lastCal k then some k else some j) none

/-- A map with a λ set to a code. -/
def setCode (m : List (BitVec 5)) (k code : Nat) : List (BitVec 5) := m.set k (BitVec.ofNat 5 code)

/-- A λ takes a code: an active λ's lane moves to the free λ calibrated most recently, or is dropped and the others
renumbered (10 R250). -/
def vacate (r : Rotation) (m : List (BitVec 5)) (k code : Nat) : List (BitVec 5) :=
  let lane := codeAt m k
  if 16 ≤ lane then setCode m k code
  else match bestFree r m k with
    | some j => setCode (setCode m j lane) k code
    | none =>
      setCode (m.map (fun c => if c.toNat < 16 ∧ lane < c.toNat then c - 1 else c)) k code

/-- A map takes effect over the present one: what it moves on or off a lane, or out of service, holds; a λ that it leaves
free or calibrating keeps the state it has taken since the change was proposed (10 R245, R253, R260; log 80). -/
def mergeMap (cur new : List (BitVec 5)) : List (BitVec 5) :=
  (List.range 18).map (fun k =>
    let c := codeAt cur k
    let n := codeAt new k
    BitVec.ofNat 5 (if 16 ≤ c ∧ (n = 16 ∨ n = 17) then c else n))

/-- The map a wish leads to: code 16 restores a dropped lane on its λ. -/
def wantMap (x : Fibre) (w : Want) : List (BitVec 5) :=
  if w.code = 16 then setCode x.txMap w.lam (activeLanes x.txMap) else vacate x.txCal x.txMap w.lam w.code

/-- Is a wish still needed? -/
def wantNeeded (x : Fibre) (w : Want) : Bool :=
  let c := codeAt x.txMap w.lam
  if w.code = 16 then c == 16 && decide (activeLanes x.txMap < 16) else c != w.code && c != 19

/-- A vacate waits while no λ is free but one is calibrating (10 R260). -/
def wantWaits (x : Fibre) (w : Want) : Bool :=
  w.reason == 1 && decide (codeAt x.txMap w.lam < 16) && (lamsIn x.txMap 16).isEmpty && !(lamsIn x.txMap 17).isEmpty

/-! ### Changes (10 R246, R247) -/

/-- The first multiple of 1,024 ticks at or after a tick. -/
def tickUp (t : Word) : Word := BitVec.ofNat 64 ((t.toNat + 1023) / 1024 * 1024)

/-- CHANGE_LEAD. -/
def changeLead (s : State) : Nat := dnum s 0x20A0 3

/-- A lane-control message. -/
def laneMsg (op reason : Nat) (tick cw : Word) (map : List (BitVec 5)) : LaneMsg :=
  { op := BitVec.ofNat 8 op, reason := BitVec.ofNat 4 reason, tick := tick, cw := cw, map := map }

/-- The transmit direction has no change pending: none proposed or committed, and no LOST that waits (10 R246). -/
def txIdle (x : Fibre) : Bool := x.txChange.isNone && x.txLost.isEmpty

/-- Propose a wish: CHANGE_REQ with its tick, or, while a change is pending, keep it for later (10 R247). -/
def propose (s : State) (f : Nat) (w : Want) : State :=
  let x := s.fibre f
  if !wantNeeded x w then s
  else if !txIdle x || wantWaits x w then
    if x.wants.contains w then s else s.setFibre f { x with wants := x.wants ++ [w] }
  else
    let t := match w.tick with
      | some t => t
      | none => tickUp (now s + BitVec.ofNat 64 (w.lead.getD (changeLead s)))
    let m := wantMap x w
    let c : Change :=
      { want := some w, reason := BitVec.ofNat 4 w.reason, tick := t, cw := 0, map := m, committed := false, isLost := false }
    sendLane (s.setFibre f { x with txChange := some c }) f (laneMsg 0x01 w.reason t 0 m)

/-- The transmitter's next proposal: a wish that waits, else a restore where a lane has been dropped and a λ is free
(10 R249, R250, R260). -/
def settleTx (s : State) (f : Nat) : State :=
  let x := s.fibre f
  if x.training ≠ 2 ∨ txIdle x = false then s
  else match x.wants.filter (wantNeeded x) with
    | w :: rest => propose (s.setFibre f { x with wants := rest }) f w
    | [] =>
      if activeLanes x.txMap < 16 then
        match bestFree x.txCal x.txMap 18 with
        | some k => propose s f { lam := k, code := 16, reason := 3, tick := none, lead := none }
        | none => s
      else s

/-! ### Ports going down (09 R227; 10 R250) -/

/-- A plane port goes down: what waits for it is lost, and so is a packet of which it holds a part (09 R227). -/
def portDown (s : State) (port : Nat) : State :=
  let x := s.port port
  let t := s.setPort port
    { x with state := 0, rx := (x.rx.map (fun e => (e.1, wholeOnly e.2))).filter (fun e => !e.2.isEmpty) }
  { t with fab := { t.fab with held := t.fab.held.filter (fun h => h.1 != port) } }

/-- A fibre pair stops running: its changes, its windows and the lane-control messages under way are given up. -/
def stopFibre (x : Fibre) (training : Nat) : Fibre :=
  { x with training := training, txChange := none, rxChange := none, txLost := [], rxLost := [], wants := [],
           laneOut := [], laneIn := [], exchanged := false,
           txCal := { x.txCal with cal := none, retry := none }, rxCal := { x.rxCal with cal := none, retry := none } }

/-- The plane port of a transceiver goes down. -/
def fibrePortDown (s : State) (f : Nat) : State :=
  match portOf s f with
  | some p => portDown s p
  | none => s

/-- A fibre direction is judged by its active lanes, of which it had `before`: one that falls below 16, or further, is
degraded (15 R348), and one below LANE_MIN is taken down (10 R250). -/
def judgeLanes (s : State) (f before : Nat) (m : List (BitVec 5)) : State :=
  let n := activeLanes m
  let s1 := if n < min 16 before then sticky s 0xA0A0 2 f else s
  if n < dnum s 0x20A0 1 then
    let s2 := sticky s1 0xA0A0 3 f
    fibrePortDown (s2.setFibre f (stopFibre (s2.fibre f) 0)) f
  else s1

/-! ### Laser banks as fibres see them (10 R258, R260) -/

/-- The bank that lights a ribbon: A (0) ribbons 0, 1, 4 and 5, B (1) the others. -/
def bankOf (n : Nat) : Nat := if n = 0 ∨ n = 1 ∨ n = 4 ∨ n = 5 then 0 else 1

/-- The transceivers of a bank's half. -/
def halfFibres (b : Nat) : List Nat := (List.range 56).filter (fun f => bankOf (f / 7) == b)

/-- The bit of a λ in 0xA0A0:04 to 06 (10 R259). -/
def laserBit (b l : Nat) : Nat := 32 * b + l

/-- Set the source state of a λ, which the bank's own memory keeps (10 R258). -/
def setSource (s : State) (b l v : Nat) : State :=
  let t := s.setBank b { s.bank b with source := mput 0 (s.bank b).source l v }
  { t with flash := { t.flash with bankSource := mput 0 t.flash.bankSource (18 * b + l) v } }

/-- A wavelength as a field. -/
def lamField (k : Nat) : Lam := if h : k < 18 then ⟨k, h⟩ else 0

/-- The λ has relocked on the die pairs that its vacate took off it: it is a free spare of theirs again (10 R260). -/
def relockPairs (s : State) (b l : Nat) : State :=
  let mine := (s.bank b).left.filter (fun e => e.2 == l)
  let s1 := mine.foldl (fun t e =>
    let p := mget Pair.init t.pairs e.1
    if p.lanes.spares.contains (lamField l) || p.lanes.map.contains (some (lamField l)) then t
    else { t with pairs := mput Pair.init t.pairs e.1 { p with lanes := { p.lanes with spares := p.lanes.spares ++ [lamField l] } } }) s
  s1.setBank b { s1.bank b with left := (s1.bank b).left.filter (fun e => e.2 != l) }

/-- A swap that moves a lane of the pair a→c off a λ has not been made yet. -/
def pairMoving (s : State) (a c l : Nat) : Bool :=
  let p := s.pair a c
  p.swaps.any (fun w => (p.lanes.map.getD w.lane none).map (·.val) == some l)

/-- The pairs whose transmitter is on a tile of a bank's half. -/
def halfPairs (b : Nat) : List (Nat × Nat) :=
  ((List.range 8).filter (fun a => bankOf a == b)).flatMap (fun a => ((List.range 9).filter (· != a)).map (fun c => (a, c)))

/-- A λ carries a lane of a transmit direction, or will when its pending change applies. -/
def fibreUses (x : Fibre) (l : Nat) : Bool :=
  decide (codeAt x.txMap l < 16) || (match x.txChange with | some c => decide (codeAt c.map l < 16) | none => false)

/-- A vacate goes on once no transmit direction of the half has the λ active and no die pair of it is still moving a
lane off it: the spare warms, and takes over when it has locked (10 R260). -/
def bankSettle (s : State) (b l : Nat) : State :=
  let src := mget 0 (s.bank b).source l
  if src ≠ 2 ∧ src ≠ 3 then s
  else if (halfPairs b).any (fun e => pairMoving s e.1 e.2 l) then s
  else if (halfFibres b).any (fun f => (s.fibre f).training == 2 && fibreUses (s.fibre f) l) then s
  else if mget false (s.bank b).locked l then
    let t := setSource s b l 1
    relockPairs (t.setBank b { t.bank b with
      locked := mput false (t.bank b).locked l false, taps := mput [] (t.bank b).taps l [] }) b l
  else setSource s b l 3

/-! ### Applying maps (10 R246, R249) -/

/-- A transmitting direction switches to a map at a codeword. -/
def applyTx (s : State) (f : Nat) (c : Change) : State :=
  let x := s.fibre f
  let at_ := x.txAt + (c.cw.toNat - x.txCw.toNat) * codewordU x.txMap
  let m := mergeMap x.txMap c.map
  let s1 := s.setFibre f { x with txMap := m, txCw := c.cw, txAt := at_ }
  let s2 := bump s1 0x80A3 (f + 1) 1
  let s3 := if c.isLost || c.reason == 2 then sticky s2 0xA0A0 1 f else s2
  let s4 := judgeLanes s3 f (activeLanes x.txMap) m
  let s5 := (List.range 18).foldl (fun t l => bankSettle t (bankOf (f / 7)) l) s4
  settleTx s5 f

/-- A receiving direction switches to a map at a codeword. -/
def applyRx (s : State) (f : Nat) (c : Change) : State :=
  let x := s.fibre f
  let at_ := x.rxAt + (c.cw.toNat - x.rxCw.toNat) * codewordU x.rxMap
  let m := mergeMap x.rxMap c.map
  let s1 := s.setFibre f { x with rxMap := m, rxCw := c.cw, rxAt := at_ }
  let s2 := bump s1 0x80A3 (f + 1) 1
  judgeLanes (if c.isLost || c.reason == 2 then sticky s2 0xA0A0 1 f else s2) f (activeLanes x.rxMap) m

/-- A trained transceiver that runs. -/
def fibreUp (s : State) (f : Nat) : Bool := hubOn s && (s.fibre f).training == 2

/-- The change that applies next of one that is committed and the LOSTs that wait: the one with the lower codeword. -/
def nextChange (c : Option Change) (lost : List Change) : Option Change :=
  match c.filter (·.committed), lost with
  | some c, l :: _ => if c.cw ≤ l.cw then some c else some l
  | none, l :: _ => some l
  | c, [] => c

/-- A transmit, or receive, direction without a change that applies. -/
def dropTx (x : Fibre) (c : Change) : Fibre :=
  if c.isLost then { x with txLost := x.txLost.drop 1 } else { x with txChange := none }
def dropRx (x : Fibre) (c : Change) : Fibre :=
  if c.isLost then { x with rxLost := x.rxLost.drop 1 } else { x with rxChange := none }

/-- LANE_MAP_APPLY (10 R246, R249): codeword C of the next pending change is reached; before it is, nothing applies. -/
def laneMapApply (f : Xcvr) (tx : Bool) (s : State) : State :=
  let x := s.fibre f.val
  if !fibreUp s f.val then s
  else if tx then
    match nextChange x.txChange x.txLost with
    | some c => if c.cw.toNat ≤ txIndex s x then applyTx (s.setFibre f.val (dropTx x c)) f.val c else s
    | none => s
  else
    match nextChange x.rxChange x.rxLost with
    | some c => if c.cw.toNat ≤ rxIndex s x then applyRx (s.setFibre f.val (dropRx x c)) f.val c else s
    | none => s

def execLaneMapApply (f : Xcvr) (tx : Bool) (s : State) : Host.Outcome State Fault Refusal :=
  .next (laneMapApply f tx s)

/-- A lane-control message acts on a direction that runs, where it is the oldest that the transceiver holds. -/
def onLane (s : State) (f : Nat) (op : Nat) (m : LaneMsg) (act : State → State) : State :=
  if !fibreUp s f || m.op.toNat != op then s
  else match takeLane s f m with
    | some t => act t
    | none => s

/-- The latest tick of the changes that a receiver holds and has not applied. -/
def heldTick (x : Fibre) : Option Word :=
  ((x.rxChange.toList ++ x.rxLost).map (·.tick)).foldl
    (fun b t => match b with
      | none => some t
      | some u => if u < t then some t else some u) none

/-- CHANGE_REQ (10 R247 step 2): the receiver agrees to T, or names the tick that a change it still holds allows. -/
def changeReq (f : Xcvr) (m : LaneMsg) (s : State) : State :=
  onLane s f.val 1 m (fun u =>
    let t := match heldTick (u.fibre f.val) with
      | some h => tickUp (h + BitVec.ofNat 64 (changeLead u))
      | none => m.tick
    sendLane u f.val (laneMsg 0x02 m.reason.toNat (if m.tick ≤ t then t else m.tick) 0 m.map))

def execChangeReq (f : Xcvr) (m : LaneMsg) (s : State) : Host.Outcome State Fault Refusal := .next (changeReq f m s)

/-- CHANGE_ACK (10 R247 step 3): the transmitter computes C at the agreed tick and sends COMMIT; before the link's first
tempo exchange it judges T alone. -/
def changeAck (f : Xcvr) (m : LaneMsg) (s : State) : State :=
  onLane s f.val 2 m (fun u =>
    let x := u.fibre f.val
    match x.txChange with
    | some c =>
      if c.committed then u
      else
        let t := if x.exchanged && decide (c.tick ≤ m.tick) then m.tick else c.tick
        let cw := BitVec.ofNat 64 (firstCodeword u x t)
        let d := { c with tick := t, cw := cw, committed := true }
        sendLane (u.setFibre f.val { x with txChange := some d }) f.val (laneMsg 0x03 c.reason.toNat t cw c.map)
    | none => u)

def execChangeAck (f : Xcvr) (m : LaneMsg) (s : State) : Host.Outcome State Fault Refusal := .next (changeAck f m s)

/-- The change that a COMMIT, or a LOST, names. -/
def msgChange (m : LaneMsg) (lost : Bool) : Change :=
  { want := none, reason := m.reason, tick := m.tick, cw := m.cw, map := m.map, committed := true, isLost := lost }

/-- COMMIT (10 R246): the receiver schedules the map for codeword C, or applies it at once where C has passed. -/
def commitMsg (f : Xcvr) (m : LaneMsg) (s : State) : State :=
  onLane s f.val 3 m (fun u =>
    let x := u.fibre f.val
    if m.cw.toNat ≤ rxIndex u x then applyRx u f.val (msgChange m false)
    else u.setFibre f.val { x with rxChange := some (msgChange m false) })

def execCommit (f : Xcvr) (m : LaneMsg) (s : State) : Host.Outcome State Fault Refusal := .next (commitMsg f m s)

/-- LANE_FAULT (10 R248): the transmitter proposes a change that takes each λ marked 18, and not out already, out of
service. -/
def laneFault (f : Xcvr) (m : LaneMsg) (s : State) : State :=
  onLane s f.val 4 m (fun u =>
    ((lamsIn m.map 18).filter (fun k => decide (codeAt (u.fibre f.val).txMap k ≤ 17))).foldl
      (fun t k => propose t f.val { lam := k, code := 19, reason := 2, tick := none, lead := none }) u)

def execLaneFault (f : Xcvr) (m : LaneMsg) (s : State) : Host.Outcome State Fault Refusal := .next (laneFault f m s)

/-- LOST (10 R249): the transmitter applies the receiver's map at C, or at once; its own change that is pending, or
committed for a later codeword, is discarded and proposed again. -/
def lostMsg (f : Xcvr) (m : LaneMsg) (s : State) : State :=
  onLane s f.val 5 m (fun u =>
    let x := u.fibre f.val
    let drop := match x.txChange with
      | some d => !(d.committed && decide (d.cw ≤ m.cw))
      | none => false
    let again := if drop then (match x.txChange with | some d => d.want.toList | none => []) else []
    let y := { x with
               txChange := if drop then none else x.txChange,
               wants := again.map (fun w => { w with tick := none }) ++ x.wants }
    if m.cw.toNat ≤ txIndex u x then applyTx (u.setFibre f.val y) f.val (msgChange m true)
    else u.setFibre f.val { y with txLost := y.txLost ++ [msgChange m true] })

def execLost (f : Xcvr) (m : LaneMsg) (s : State) : Host.Outcome State Fault Refusal := .next (lostMsg f m s)

/-- CAL_SCHED (10 R252): the round origin of the far transmitter's calibration windows. -/
def calSched (f : Xcvr) (m : LaneMsg) (s : State) : State :=
  onLane s f.val 6 m (fun u => u.setFibre f.val { u.fibre f.val with rxOrigin := m.tick })

def execCalSched (f : Xcvr) (m : LaneMsg) (s : State) : Host.Outcome State Fault Refusal := .next (calSched f m s)

/-- The map that a receiver will hold at a codeword: its last LOST's, else that of a change due by then (10 R249). -/
def rxPlanned (x : Fibre) (cw : Word) : List (BitVec 5) :=
  match x.rxLost.getLast?, x.rxChange with
  | some l, _ => l.map
  | none, some d => if d.cw ≤ cw then mergeMap x.rxMap d.map else x.rxMap
  | none, none => x.rxMap

/-- A receiver asks for a λ to be taken out of service (10 R248). -/
def askOut (s : State) (f l : Nat) : State :=
  sendLane s f (laneMsg 0x04 2 (now s) 0 (setCode (s.fibre f).rxMap l 18))

/-- The receiver loses a λ: of an active one it chooses the map itself and sends LOST, C 4,096 codewords ahead (10 R249);
a free one it asks the transmitter to take out (R248: it too moves to state 19; log 80). -/
def rxLose (s : State) (f l : Nat) : State :=
  let x := s.fibre f
  if !fibreUp s f then s
  else
    let cw := BitVec.ofNat 64 (rxIndex s x + 4096)
    let base := rxPlanned x cw
    if codeAt base l = 16 then askOut s f l
    else if 16 < codeAt base l then s
    else
      let m := vacate x.rxCal base l 19
      let c : Change :=
        { want := none, reason := 2, tick := now s, cw := cw, map := m, committed := true, isLost := true }
      sendLane (s.setFibre f { x with rxChange := x.rxChange.filter (fun d => decide (d.cw ≤ cw)), rxLost := x.rxLost ++ [c] }) f
        (laneMsg 0x05 2 (now s) cw m)

/-- LANE_SIGNAL_LOSS (10 R249). -/
def execLaneSignalLoss (f : Xcvr) (l : Lam) (s : State) : Host.Outcome State Fault Refusal := .next (rxLose s f.val l.val)

/-- Sentinels of the per-λ measurements: no λ measured. -/
def noMargin : Int := 1000000000
def noBer : Nat := 2 ^ 33
def noReserve : Nat := 2 ^ 33

/-- LANE_BER_CHECK (10 R248, R261): the ratio and the margin are refreshed, and a ratio above LANE_BER_LIMIT asks the
transmitter to take the λ out. -/
def laneBerCheck (f : Xcvr) (l : Lam) (ber : BitVec 32) (margin : Int) (s : State) : State :=
  if !fibreUp s f.val then s
  else
    let x := s.fibre f.val
    let t := s.setFibre f.val
      { x with bers := mput noBer x.bers l.val ber.toNat, margins := mput noMargin x.margins l.val margin }
    if f32Le ber.toNat (dnum s 0x20A0 2) || decide (16 < codeAt x.rxMap l.val) then t else askOut t f.val l.val

def execLaneBerCheck (f : Xcvr) (l : Lam) (r : LaneReading) (s : State) : Host.Outcome State Fault Refusal :=
  .next (laneBerCheck f l r.ber r.marginMdb s)

/-! ### Flits (10 R239 to R243; 09 R214, R215; 13 R299) -/

/-- A flit of any kind has been accepted from a neighbour: its port hears it, and a suspicion clears (13 R299). -/
def hear (s : State) (port : Nat) : State :=
  let d := port % 6
  let t := s.setPort port { s.port port with heard := clock s, known := true }
  if dcell t 0xC003 (d + 2) = 0 then t else dset t 0xC003 (d + 2) 0

/-- A flit is of a lane of a circuit where its FCLASS is 6: the lane is its SEQ modulo 16 (09 R219). -/
def flitKey (fc seq : Nat) : Nat := if fc = 6 then 6 + seq % 16 else fc

/-- The frees that an accepted tag returns come back to the sender (09 Table 9.3, R214), and what waited for them may
leave. -/
def readTag (s : State) (port : Nat) (tag : Nat) : State :=
  let x := s.port port
  let cc := bitsOf tag 58 56
  if cc = 7 then s
  else
    let count := bitsOf tag 51 40
    let ck := if cc = 6 then 6 + bitsOf tag 55 52 else cc
    let n := (count + 4096 - mget 0 x.seen ck) % 4096
    let y := { x with seen := mput 0 x.seen ck count }
    let z := if cc = 6 then { y with laneU := mput 0 y.laneU (ck - 6) (mget 0 y.laneU (ck - 6) - n) }
      else freeN cc n (if cc = 5 then { y with bells := y.bells.drop n } else y)
    slicePump (drainPort (s.setPort port z) port) (port / 6)

/-- The packet bytes of an accepted flit reach the pool of the port, in their class or lane; FCLASS 7 brings none. -/
def takeFlit (s : State) (port tag seq : Nat) (body : List Byte) : State :=
  let fc := bitsOf tag 63 61
  if fc = 7 then s
  else takePktFlit s port (flitKey fc seq) { sop := tag.testBit 60, eop := tag.testBit 59, bytes := body }

/-- The sender reads ACK and NAK from an accepted flit (10 R243): what is covered leaves the replay buffer, a NAK sends
the rest again, and what waited for room may leave.  The resend is whole in this step, so no further NAK with the same
ACK finds it unserved (log 12). -/
def readAck (s : State) (f : Nat) (ack : BitVec 13) (nak : Bool) : State :=
  let x := s.fibre f
  let n := (ack - x.acked).toNat
  let ok := decide (n ≤ x.replay.length)
  let y := if ok && n != 0 then { x with acked := ack, replay := x.replay.drop n, ackAt := clock s } else x
  let s1 := s.setFibre f y
  let s2 := if nak && ok && !y.replay.isEmpty then resendHeld s1 f else s1
  let s3 := lanePump f 600 s2
  match portOf s3 f with
  | some p => slicePump (drainPort s3 p) (p / 6)
  | none => s3

/-- The lane-control messages of an accepted flit, up to seven (10 R240). -/
def laneMsgs (body : List Byte) : List LaneMsg := (List.range 7).filterMap (fun k => readLane (slice body (32 * k) 32))

/-- What the decoder finds in the codewords of a flit, each of which counts once: the bits it corrected are charged to their
lanes, and a codeword that it cannot correct counts (10 R242). -/
def readFec (s : State) (f : Nat) (r : FlitRead) : State :=
  let x := s.fibre f
  let fresh := r.words.filter (fun w => decide (x.counted ≤ w.1))
  let bits := fresh.flatMap (fun w => w.2.getD [])
  let y := { x with
    charged := bits.foldl (fun m l => mput 0 m l (mget 0 m l + 1)) x.charged,
    counted := fresh.foldl (fun a w => if a ≤ w.1 then w.1 + 1 else a) x.counted }
  bump (bump (s.setFibre f y) 0x80A0 (f + 1) bits.length) 0x80A1 (f + 1) (fresh.filter (·.2.isNone)).length

/-- A flit that fails its check, or is not the next of its sequence: a Bell flit is a frame discarded (06 R150), one of a
kind that carries a SEQ, or that no kind can be told of, is asked for again (10 R243; log 79). -/
def discardFlit (s : State) (f kind : Nat) (body : List Byte) : State :=
  if kind = 2 then
    let d := min 7 (bellDie (bitsOf (leNat (slice body 0 32)) 203 192))
    sticky (bump s 0x8064 (d + 1) 1) 0xA060 4 d
  else if kind = 0 ∨ kind = 4 then s
  else s.setFibre f { s.fibre f with nak := true }

/-- LINK_FLIT_RECEIVED (10 R239 to R243): the flit is decoded from its codewords.  ACK and NAK go back in an idle flit, but for what carries neither packet nor
message. -/
def linkFlitReceived (f : Xcvr) (fl : FibreFlit) (s : State) : State :=
  if !fibreUp s f.val then s
  else
    let r := readWords (activeLanes (s.fibre f.val).rxMap) fl
    let s1 := readFec s f.val r
    let x := s1.fibre f.val
    let link := leNat (slice r.bytes 0 8)
    let kind := bitsOf link 36 34
    let seq := BitVec.ofNat 13 (bitsOf link 63 51)
    let body := slice r.bytes 16 240
    let good := r.words.all (·.2.isSome) && crc32 (slice r.bytes 4 252) == bitsOf link 31 0
    let carries := kind == 1 || kind == 3
    let answer := fun (t : State) => if kind = 0 ∨ kind = 4 then t else leaveFlit t f.val 0 7 noBytes
    if !good || (carries && seq != x.expect) then answer (discardFlit s1 f.val kind body)
    else if 5 ≤ kind then s1
    else
      let s2 := if carries then s1.setFibre f.val { x with expect := x.expect + 1, nak := false } else s1
      let s3 := if kind = 3 then
          s2.setFibre f.val { s2.fibre f.val with laneIn := (s2.fibre f.val).laneIn ++ laneMsgs body }
        else s2
      let s4 := readAck s3 f.val (BitVec.ofNat 13 (bitsOf link 50 38)) (link.testBit 37)
      match portOf s f.val with
      | some p =>
        let tag := leNat (slice r.bytes 8 8)
        let s5 := readTag (hear s4 p) p tag
        answer (if kind = 1 ∨ kind = 2 then takeFlit s5 p tag seq.toNat body else s5)
      | none => answer s4

def execLinkFlitReceived (f : Xcvr) (fl : FibreFlit) (s : State) : Host.Outcome State Fault Refusal :=
  .next (linkFlitReceived f fl s)

/-- LINK_REPLAY_TIMEOUT (10 R243): ACK has stood for 20 µs while flits are held, so the oldest is sent again. -/
def execLinkReplayTimeout (f : Xcvr) (s : State) : Host.Outcome State Fault Refusal :=
  let x := s.fibre f.val
  .next (if fibreUp s f.val && !x.replay.isEmpty && decide (20000 ≤ (clock s - x.ackAt).toNat) then
      resendHeld (s.setFibre f.val { x with ackAt := clock s }) f.val
    else s)

/-- BELL_CREDIT_RESTORE (09 R215): each BELL credit not freed 16 µs after its flit counts as returned. -/
def bellCreditRestore (port : Port) (s : State) : State :=
  let x := s.port port.val
  let old := x.bells.takeWhile (fun t => decide (16000 ≤ (clock s - t).toNat))
  if !hubOn s || old.isEmpty then s
  else
    let y := freeN 5 old.length { x with bells := x.bells.drop old.length }
    slicePump (drainPort (bump (s.setPort port.val y) 0x8093 (port.val / 6 + 1) old.length) port.val) (port.val / 6)

def execBellCreditRestore (port : Port) (s : State) : Host.Outcome State Fault Refusal :=
  .next (bellCreditRestore port s)

/-! ### Training (10 R251; 09 R201, R227, R228) -/

/-- May a transceiver train: the hub runs, the device is released from dark-through, and its plane is in service? -/
def canTrain (s : State) (f : Nat) : Bool := hubOn s && s.fab.released && dieUp s (f / 7)

/-- The written coordinate, if one is assigned (09 R201). -/
def writtenCoord (s : State) : Option (BitVec 18) :=
  let v := dnum s 0x9000 1
  if v = 0xFFFFFFFF then none else some (BitVec.ofNat 18 v)

/-- TRAINING_START (10 R251): the pair sweeps, locks and verifies; its port stands in training. -/
def trainingStart (f : Xcvr) (s : State) : State :=
  if !canTrain s f.val then s
  else
    let x := s.fibre f.val
    let t := s.setFibre f.val { stopFibre x 1 with trainAt := clock s }
    match portOf t f.val with
    | some p =>
      let u := portDown t p
      u.setPort p { u.port p with state := 1 }
    | none => t

def execTrainingStart (f : Xcvr) (s : State) : Host.Outcome State Fault Refusal := .next (trainingStart f s)

/-- A λ of a fibre direction is retired for good (10 R250). -/
def lamDead (s : State) (f l : Nat) (tx : Bool) : Bool :=
  s.flash.lambdas.any (fun e => e.1.val == f && e.2.1.val == l && e.2.2 == tx)

/-- The initial map: the lowest sixteen λ that passed are lanes 0 to 15, the rest that passed are free, the others
retired (10 Table 10.8). -/
def initialMap (ok : Nat → Bool) : List (BitVec 5) :=
  (List.range 18).map (fun k =>
    if !ok k then 19
    else
      let lane := ((List.range k).filter (fun j => ok j)).length
      BitVec.ofNat 5 (if lane < 16 then lane else 16))

/-- Dark devices a link would span, and whether the peer stands where R201 demands. -/
def peerOk (me peer : BitVec 18) (d : Nat) : Bool :=
  let a := d / 2
  let here := coordOn me a
  let there := coordOn peer a
  (List.range 3).all (fun b => b == a || coordOn me b == coordOn peer b)
    && (if d % 2 = 0 then decide (here < there ∧ there ≤ here + 3) else decide (there < here ∧ here ≤ there + 3))

/-- CLASS_MIN as it is written (09 Table 9.11). -/
def classMin (s : State) : List Nat :=
  let b := mget [] s.blobs (dkey 0x9003 1)
  if b.isEmpty then [64, 128, 64, 64, 64, 16] else (List.range 6).map (fun c => leNat (slice b (2 * c) 2))

/-- PLANE_ORDER as it is written. -/
def planeOrders (s : State) : List Byte :=
  let b := mget [] s.blobs (dkey 0x9001 1)
  if b.isEmpty then List.replicate 8 0 else b

/-- The flits that all classes of a pool of 2,048 share, by the minima and the circuit lanes (09 Table 9.4). -/
def sharedPart (mins : List Nat) (lanes : Nat) : Nat := 2048 - mins.foldl (· + ·) 0 - 64 * lanes

/-- What a sender has outstanding of the shared part. -/
def sharedUsed (mins u : List Nat) : Nat := ((List.range 6).map (fun c => natAt u c - natAt mins c)).foldl (· + ·) 0

/-- A port's books at the end of training: its minima take effect, and its credits are set from the free counts that the
receiver sent, of each class its minimum and the shared part less what it holds (09 R201, R213, R227; log 79). -/
def freshPort (s : State) (x : PortSt) (r : TrainResult) : PortSt :=
  let mins := classMin s
  let shared := sharedPart mins (popBelow 16 x.lanes.toNat)
  let u := (List.range 6).map (fun c => natAt mins c + shared - natAt r.free c)
  { x with
    state := 2, spans := r.spans.toNat, peer := r.peer, mins := mins, u := u, sharedFree := shared - sharedUsed mins u,
    laneU := (List.range 16).foldl (fun m l => mput 0 m l (64 - natAt r.laneFree l)) [],
    freed := [], told := [], turn := 0, seen := [], bells := [] }

/-- The free counts that this device's receiver sends at the end of training (09 R227 item 4). -/
def freeCounts (s : State) (x : PortSt) : List Nat × List Nat :=
  let mins := classMin s
  let incoming := (List.range 16).filter (fun l => !(mget [] x.rx (6 + l)).isEmpty)
  let shared := sharedPart mins incoming.length
  ((List.range 6).map (fun c => natAt mins c + shared - (mget [] x.rx c).length),
   (List.range 16).map (fun l => 64 - (mget [] x.rx (6 + l)).length))

/-- The steps of Table 10.8 take 24 ms at the first training after power-up and 6 ms at a later one, which starts from the
working points saved (10 R251). -/
def trainTime (x : Fibre) : Nat := if x.everUp then 6000000 else 24000000

/-- The verify step of training: 1.0 dB of margin, and a ratio within LANE_BER_LIMIT (10 Table 10.8). -/
def rxVerified (s : State) (r : TrainResult) (k : Nat) : Bool :=
  decide (1000 ≤ r.rxMargins.getD k 0) && f32Le (r.rxBers.getD k 0).toNat (dnum s 0x20A0 2)

/-- A rotation that starts at the end of a training, with every λ just calibrated. -/
def freshRotation (s : State) (x : Rotation) : Rotation :=
  { Rotation.init with rounds := x.rounds, lastCal := (List.range 18).foldl (fun m k => mput 0 m k (clock s)) [] }

/-- A direction's pair is up, with its initial maps, at codeword and sequence number 0. -/
def freshFibre (s : State) (x : Fibre) (r : TrainResult) (txm rxm : List (BitVec 5)) : Fibre :=
  { x with
    training := 2, fails := 0, everUp := true, txMap := txm, rxMap := rxm, txCw := 0, txAt := clockU s, rxCw := 0,
    rxAt := clockU s, nextSeq := 0, acked := 8191, expect := 0, nak := false, replay := [], charged := [], counted := 0,
    ackAt := clock s, origin := now s, rxOrigin := r.origin, far := r.far.val % 16, exchanged := true,
    txCal := freshRotation s x.txCal, rxCal := freshRotation s x.rxCal,
    margins := (List.range 18).foldl (fun m k => mput noMargin m k (r.rxMargins.getD k 0)) [],
    bers := (List.range 18).foldl (fun m k => mput noBer m k (r.rxBers.getD k 0).toNat) [] }

/-- The direction's pair does not come up: it is untrained, and its port stays down. -/
def notUp (s : State) (f : Nat) : State := fibrePortDown (s.setFibre f (stopFibre (s.fibre f) 0)) f

/-- TRAINING_DONE (10 R251, Table 10.8): the maps, the codeword and sequence numbers, the coordinate and orders, the
loop, the port, and the packets of collectives that wait for it (11 R266).  A pair whose loop is too long, that spans
three dark devices, or whose ends disagree does not come up. -/
def trainingDone (f : Xcvr) (r : TrainResult) (s : State) : State :=
  let x := s.fibre f.val
  if !canTrain s f.val || x.training != 1 || decide ((clock s - x.trainAt).toNat < trainTime x) then s
  else
    let txm := initialMap (fun k => r.txPass.getLsbD k && !lamDead s f.val k true)
    let rxm := initialMap (fun k => rxVerified s r k && !lamDead s f.val k false)
    let s1 := dset s 0x40A6 (f.val + 1) (min 8000 r.loopNs.toNat)
    let up := fun (t : State) =>
      let u := sendLane (t.setFibre f.val (freshFibre t (t.fibre f.val) r txm rxm)) f.val (laneMsg 0x06 0 (now t) 0 txm)
      judgeLanes (judgeLanes u f.val 16 txm) f.val 16 rxm
    if 8000 < r.loopNs.toNat then notUp (sticky s1 0xA0A0 11 f.val) f.val
    else match portOf s f.val with
    | none => up s1
    | some p =>
      let plane := p / 6
      let order := byteAt (planeOrders s) plane
      let counts := freeCounts s (s.port p)
      let s2 := emit { s1 with fab := { s1.fab with coord := writtenCoord s1, orders := s1.fab.orders.set plane order } }
        (.trained f.val (writtenCoord s) order counts.1 counts.2)
      if r.spans = 3 then notUp (sticky s2 0xA090 2 p) f.val
      else match writtenCoord s with
        | none => notUp s2 f.val
        | some me =>
          if !peerOk me r.peer (p % 6) || r.peerOrder != order then notUp (sticky s2 0xA090 4 p) f.val
          else
            let s3 := s2.setPort p (freshPort s2 (s2.port p) r)
            let s4 := if s3.tempo.firstUp.isNone then { s3 with tempo := { s3.tempo with firstUp := some (clock s) } }
              else s3
            flushColl (up (hear (sticky s4 0xA090 3 p) p))

def execTrainingDone (f : Xcvr) (r : TrainResult) (s : State) : Host.Outcome State Fault Refusal :=
  .next (trainingDone f r s)

/-- TRAINING_TIMEOUT (10 R251): a training that has not finished within 100 ms starts again; the third failure in a row
sets FIBRE_DOWN and the port's bit. -/
def trainingTimeout (f : Xcvr) (s : State) : State :=
  let x := s.fibre f.val
  if !hubOn s || x.training != 1 || decide ((clock s - x.trainAt).toNat < 100000000) then s
  else
    let t := s.setFibre f.val { x with fails := x.fails + 1, trainAt := clock s }
    if x.fails + 1 < 3 then t
    else
      let u := sticky t 0xA0A0 3 f.val
      match portOf u f.val with
      | some p => sticky u 0xA090 2 p
      | none => u

def execTrainingTimeout (f : Xcvr) (s : State) : Host.Outcome State Fault Refusal := .next (trainingTimeout f s)

/-- PORT_LOSS_OF_SIGNAL (09 R227): the neighbour is dark; the flits that were not acknowledged are discarded. -/
def portLossOfSignal (port : Port) (s : State) : State :=
  if !hubOn s then s
  else
    let f := fibreOf s port.val
    let x := s.fibre f
    portDown (s.setFibre f { stopFibre x 0 with acked := x.nextSeq - 1, replay := [] }) port.val

def execPortLossOfSignal (port : Port) (s : State) : Host.Outcome State Fault Refusal := .next (portLossOfSignal port s)

/-! ### Port maps (10 R235) -/

/-- Where light that arrives at a position of a ribbon's edge leaves it: while the bypass is unheated the positions are
joined in pairs, and position 6 is dark; a heated one passes the light to the port switch (10 R236; 09 R229). -/
def bypassTo (s : State) (pos : Nat) : Option Nat :=
  if s.fab.released || decide (6 ≤ pos) then none else some (if pos % 2 = 0 then pos + 1 else pos - 1)

/-- A map's six bytes name six distinct transceivers and six distinct positions. -/
def portMapLegal (m : List Byte) : Bool :=
  let ts := m.map (fun b => bitsOf b.toNat 6 4)
  let ps := m.map (fun b => bitsOf b.toNat 2 0)
  m.length == 6 && decide ts.Nodup && decide ps.Nodup && ts.all (· < 7) && ps.all (· < 7)

/-- The map of a ribbon as it is written. -/
def writtenMap (s : State) (n : Nat) : List Byte :=
  let b := mget [] s.blobs (dkey 0x40A0 (n + 1))
  if b.isEmpty then portMapReset else b

/-- The transceiver and the position in a byte of a port map. -/
def mapPlace (b : Byte) : Nat × Nat := (bitsOf b.toNat 6 4, bitsOf b.toNat 2 0)

/-- Plane ports whose transceiver or position a written map changes. -/
def mapChanges (s : State) : List Nat :=
  (List.range 48).filter (fun p =>
    mapPlace (byteAt (writtenMap s (p / 6)) (p % 6)) != mapPlace (byteAt (s.portMap (p / 6)) (p % 6)))

/-- Does a circuit hold lanes on a plane port? -/
def circuitOn (s : State) (p : Nat) : Bool :=
  (s.port p).lanes != 0 || s.fab.hops.any (fun h => h.inPort.val == p || h.outPort.val == p)

/-- PORT_MAP_APPLY (10 R235): refused with 0xA0A0:09, or in force: the ports it changes go down. -/
def portMapApply (s : State) : State :=
  let bad := (List.range 8).any (fun n => !portMapLegal (writtenMap s n)) || (mapChanges s).any (circuitOn s)
  if bad then sticky s 0xA0A0 9 0
  else
    let s1 := (mapChanges s).foldl
      (fun t p =>
        let f := fibreOf t p
        portDown (t.setFibre f { stopFibre (t.fibre f) 0 with replay := [] }) p) s
    { s1 with portMaps := (List.range 8).foldl (fun m n => mput portMapReset m n (writtenMap s n)) s1.portMaps }

/-! ### Calibration (10 R252 to R255, R261) -/

/-- One fibre direction of a transceiver as an end of it follows its calibration: the transmit direction, or the receive
direction whose transmitter is the far end. -/
def dirMap (x : Fibre) (tx : Bool) : List (BitVec 5) := if tx then x.txMap else x.rxMap
def dirCal (x : Fibre) (tx : Bool) : Rotation := if tx then x.txCal else x.rxCal
def dirOrigin (x : Fibre) (tx : Bool) : Word := if tx then x.origin else x.rxOrigin
def dirIdle (x : Fibre) (tx : Bool) : Bool := if tx then txIdle x else x.rxChange.isNone && x.rxLost.isEmpty
def setDir (x : Fibre) (tx : Bool) (m : List (BitVec 5)) (r : Rotation) : Fibre :=
  if tx then { x with txMap := m, txCal := r } else { x with rxMap := m, rxCal := r }

/-- The λ of the next window: one that failed its verify first, else the rotation's. -/
def nextCal (r : Rotation) : Nat := match r.retry with | some k => k.val | none => r.done % 18

/-- The tick at which window w of a direction opens (10 R252): its transmitting transceiver staggers it. -/
def windowTick (f : Nat) (x : Fibre) (tx : Bool) (w : Nat) : Nat :=
  (dirOrigin x tx).toNat + w * 2000000 + 125000 * (if tx then f % 16 else x.far)

/-- The window whose tick has come last, if one has. -/
def windowNow (s : State) (f : Nat) (x : Fibre) (tx : Bool) : Option Nat :=
  let t := windowTick f x tx 0
  if (now s).toNat < t then none else some (((now s).toNat - t) / 2000000)

/-- The rotation pauses while no λ is free and none is calibrating (10 R255). -/
def calPaused (m : List (BitVec 5)) : Bool := (lamsIn m 16).isEmpty && (lamsIn m 17).isEmpty

/-- CAL_CHANGE_PROPOSE (10 Table 10.9): CHANGE_LEAD before the next window, its λ, if active, is to be vacated by the
window's start. -/
def calChangePropose (f : Xcvr) (s : State) : State :=
  let x := s.fibre f.val
  let k := nextCal x.txCal
  let w := max x.txCal.window (match windowNow s f.val x true with | some w => w + 1 | none => 0)
  let t := windowTick f.val x true w
  if !fibreUp s f.val || !x.exchanged || calPaused x.txMap || !txIdle x || decide (16 ≤ codeAt x.txMap k)
      || decide ((now s).toNat + changeLead s < t) then s
  else propose s f.val { lam := k, code := 17, reason := 0, tick := some (BitVec.ofNat 64 t), lead := none }

def execCalChangePropose (f : Xcvr) (s : State) : Host.Outcome State Fault Refusal := .next (calChangePropose f s)

/-- The source of a λ works: its bank's state is primary or spare (10 R260). -/
def sourceReady (s : State) (f k : Nat) : Bool := mget 0 (s.bank (bankOf (f / 7))).source k ≤ 1

/-- The rotation goes on past its next λ, which completes a round where it was the eighteenth (10 R252, R261). -/
def advance (r : Rotation) : Rotation :=
  if r.retry.isSome then r
  else { r with done := r.done + 1, rounds := if (r.done + 1) % 18 = 0 then r.rounds + 1 else r.rounds }

/-- CAL_WINDOW_START (10 R252, R253, R255): at its tick, the window's λ becomes calibrating at both ends, unless another
change is pending; while the rotation pauses the window passes and the rotation stands.  Of a transmit direction a λ in
state 18 is taken where its source is available. -/
def calWindowStart (f : Xcvr) (tx : Bool) (s : State) : State :=
  let x := s.fibre f.val
  let r := dirCal x tx
  let m := dirMap x tx
  let k := nextCal r
  let c := codeAt m k
  match windowNow s f.val x tx with
  | none => s
  | some w =>
    if !fibreUp s f.val || !x.exchanged || r.cal.isSome || decide (w < r.window) then s
    else
      let q := { r with window := w + 1 }
      if calPaused m then s.setFibre f.val (setDir x tx m q)
      else if dirIdle x tx && (c == 16 || c == 17 || (c == 18 && (!tx || sourceReady s f.val k))) then
        s.setFibre f.val (setDir x tx (setCode m k 17) { q with cal := some (lamField k) })
      else s.setFibre f.val (setDir x tx m (advance q))

def execCalWindowStart (e : FibreDir) (s : State) : Host.Outcome State Fault Refusal :=
  .next (calWindowStart e.xcvr e.tx s)

/-- The verify step passes: the device reports it so, with 1.0 dB of margin and a ratio within LANE_BER_LIMIT (10 Table
10.8, 10.9). -/
def verifyOk (s : State) (r : VerifyResult) : Bool :=
  r.pass && decide (1000 ≤ r.marginMdb) && f32Le r.ber.toNat (dnum s 0x20A0 2)

/-- What the receiver measures of a λ in its window (10 R261). -/
def measured (x : Fibre) (k : Nat) (v : VerifyResult) : Fibre :=
  { x with bers := mput noBer x.bers k v.ber.toNat, margins := mput noMargin x.margins k v.marginMdb,
           reserve := mput noReserve x.reserve k v.reserveUw }

/-- The thermal model of a tile is refined at a calibration window: the spec does not say to what (10 R257; log 81). -/
def refineRing (s : State) (tile : Nat) : State :=
  match mget none s.rings tile with
  | none => s
  | some r =>
    { s with
      rings := mput none s.rings tile (some { r with
        gain := (Config.freeWord s.free).toNat, tau := 1 + (Config.freeWord (s.free + 1)).toNat }),
      free := s.free + 2 }

/-- CAL_WINDOW_END (10 R253, R254, R261): near the window's end, the λ becomes free, is tried again in the next window, or
after three failures in a row is retired.  The windows of transmit directions count in 0x80A4 (log 80). -/
def calWindowEnd (f : Xcvr) (tx : Bool) (v : VerifyResult) (s : State) : State :=
  let x := s.fibre f.val
  let r := dirCal x tx
  match r.cal with
  | none => s
  | some k =>
    if !fibreUp s f.val || decide ((now s).toNat < windowTick f.val x tx (r.window - 1) + 1900000) then s
    else
      let q := { advance r with cal := none }
      let n := mget 0 r.badRuns k.val + 1
      let y := if tx then x else measured x k.val v
      let set := fun (code : Nat) (q : Rotation) => s.setFibre f.val (setDir y tx (setCode (dirMap x tx) k.val code) q)
      let t :=
        if verifyOk s v then
          set 16 { q with retry := none, badRuns := mput 0 q.badRuns k.val 0, lastCal := mput 0 q.lastCal k.val (clock s) }
        else if n < 3 then set 17 { q with retry := some k, badRuns := mput 0 q.badRuns k.val n }
        else sticky (set 19 { q with retry := none, badRuns := mput 0 q.badRuns k.val 0 }) 0xA0A0 8 f.val
      let u := refineRing (if tx then bump t 0x80A4 (f.val + 1) 1 else t) (f.val / 7)
      if tx then settleTx u f.val else u

def execCalWindowEnd (e : FibreDir) (v : VerifyResult) (s : State) : Host.Outcome State Fault Refusal :=
  .next (calWindowEnd e.xcvr e.tx v s)

/-- CAL_MAX_GAP_EXPIRY (10 R255): the active λ longest without calibration has its lane dropped for one window. -/
def calMaxGapExpiry (f : Xcvr) (s : State) : State :=
  let x := s.fibre f.val
  let r := x.txCal
  let gap := dnum s 0x20A0 4 * second
  let due := (List.range 18).filter (fun k =>
    decide (codeAt x.txMap k < 16) && decide (gap ≤ (clock s - mget 0 r.lastCal k).toNat))
  if !fibreUp s f.val || !calPaused x.txMap || !txIdle x then s
  else match due.foldl (fun b k => match b with
      | none => some k
      | some j => if mget 0 r.lastCal k < mget 0 r.lastCal j then some k else some j) none with
    | none => s
    | some k =>
      let t := s.setFibre f.val { x with txCal := { r with retry := some (lamField k) } }
      sticky (propose t f.val { lam := k, code := 17, reason := 0, tick := none, lead := none }) 0xA0A0 10 f.val

def execCalMaxGapExpiry (f : Xcvr) (s : State) : Host.Outcome State Fault Refusal := .next (calMaxGapExpiry f s)

/-- A fault that the transmitter finds at its own end: it proposes the change itself, its lead cut to 8,192 ticks
(10 R248). -/
def txFault (s : State) (f l : Nat) : State :=
  if fibreUp s f then propose s f { lam := l, code := 19, reason := 2, tick := none, lead := some 8192 } else s

/-! ### Ring feed-forward (10 R257) -/

/-- The ring controllers of a tile at its first reading, with the factory's gain and time constant, which the spec does not
give (log 81). -/
def ringInit (tile : Nat) : RingModel :=
  { gain := (Config.ringGain tile).toNat, tau := 1 + (Config.ringTau tile).toNat, rise := 0, mw := 0, heat := 0 }

/-- One step of 10 µs of the first-order model: the rise goes toward gain × power, and the heater takes off what drift it
predicts, 0.08 nm/K at 0.25 nm/mW (10 R256, R257; log 81). -/
def ringStep (r : RingModel) (mw : Nat) : RingModel :=
  let goal : Int := r.gain * mw
  let rise := r.rise + (goal - r.rise) * 10000 / max 10000 r.tau
  { r with rise := rise, mw := mw, heat := -(rise * 8 / 25) }

/-- RING_FEED_FORWARD (10 R257), every 10 µs: with FF_ENABLE, the die's power is sent to its tile's ring controllers, which correct
their heaters; no lane map changes. -/
def ringFeedForward (d : Die) (mw : Nat) (s : State) : State :=
  if dieUp s d.val && dnum s 0x20A0 5 == 1 then
    { s with rings := mput none s.rings d.val (some (ringStep ((mget none s.rings d.val).getD (ringInit d.val)) mw)) }
  else s

def execRingFeedForward (d : Die) (mw : Nat) (s : State) : Host.Outcome State Fault Refusal :=
  .next (periodic s (ckRing d.val) 10000 (ringFeedForward d mw))

end Sys2Proof.Machine
end

