-- ==== Sys2Proof/Machine/Tempo.lean ====
section
/-!
DEFINITION. Tempo (12 R284 to R294): the counter and its increment, the exchange of tempo flits, samples, the servo and
steps, parent and root.  θ and δ are kept doubled, in units of 1/512 ns, so that they are exact.
-/

namespace Sys2Proof.Machine

/-- The nominal increment, 20/7 ns in units of 2^−32 ns (12 R284). -/
def incrNominal : Nat := 12271335131

/-- 200 ppm of it. -/
def incrSpan : Nat := 2454267

/-- One edge of the 350 MHz reference: the nine copies advance by the increment (12 R284). -/
def referenceEdge (s : State) : State :=
  if !hubOn s then s
  else
    let t := s.tempo
    let sum := t.frac.toNat + t.incr.toNat
    let n := BitVec.ofNat 64 (sum / 2 ^ 32)
    { s with tempo := { t with ticks := t.ticks + n, passed := t.passed + n, frac := BitVec.ofNat 32 sum } }

/-! ### Vectors (12 R287) -/

/-- Is a vector better than another: lower in the first part that differs? -/
def better (x y : Heard) : Bool :=
  if x.sync ≠ y.sync then decide (x.sync < y.sync)
  else if x.priority ≠ y.priority then decide (x.priority < y.priority)
  else if x.root ≠ y.root then decide (x.root < y.root)
  else decide (x.depth < y.depth)

/-- TEMPO_PRIORITY. -/
def tempoPriority (s : State) : Byte := BitVec.ofNat 8 (dnum s 0x9021 1)

/-- The vector this device advertises. -/
def advertised (s : State) : Heard :=
  let t := s.tempo
  if t.state = 2 then
    { sync := 0, priority := t.rootPrio, root := t.root.getD 0, depth := BitVec.ofNat 8 t.depth }
  else { sync := 1, priority := tempoPriority s, root := s.fab.coord.getD 0, depth := 0 }

/-- A direction has an up plane port. -/
def dirUp (s : State) (d : Nat) : Bool := (List.range 8).any (fun i => (s.port (6 * i + d)).state == 2)

/-- The vector heard on a link, while it stands. -/
def heardOn (s : State) (d : Nat) : Option Heard := if dirUp s d then mget none s.tempo.heard d else none

/-- The best class 0 vector that a test admits: the lowest direction of equals. -/
def bestLink (s : State) (ok : Heard → Bool) : Option (Nat × Heard) :=
  (List.range 6).foldl
    (fun b d => match heardOn s d with
      | some v =>
        if v.sync == 0 && ok v then
          match b with
          | some (_, u) => if better v u then some (d, v) else b
          | none => some (d, v)
        else b
      | none => b) none

/-- A direction as a number below 6. -/
def dirField (d : Nat) : Fin 6 := if h : d < 6 then ⟨d, h⟩ else 0

/-- Take a parent: depth, root and priority follow its vector, and the link starts with no samples. A LOCKED device
that sees another root records it (12 R287, R291). -/
def takeParent (s : State) (d : Nat) (v : Heard) : State :=
  let t := s.tempo
  let fresh := t.parent ≠ some (dirField d)
  let s1 := { s with tempo :=
    { t with
      parent := some (dirField d), depth := v.depth.toNat + 1, root := some v.root, rootPrio := v.priority,
      beatOf := if fresh then [] else t.beatOf, held := if fresh then [] else t.held,
      median := if fresh then none else t.median, sampleAt := if fresh then clock s else t.sampleAt,
      lastRoot := none, lastDepth := 62 } }
  if t.state = 2 ∧ t.root ≠ some v.root then sticky s1 0xA090 11 0 else s1

/-- After losing its parent, a device takes one for the same root only from a link of lower depth than its own last
(12 R287). -/
def admissible (s : State) (v : Heard) : Bool :=
  decide (v.depth < 62) && (s.tempo.lastRoot != some v.root || decide (v.depth.toNat < s.tempo.lastDepth))

/-- TEMPO_PARENT_SELECT (12 R287): a device without parent takes one at once; the choice is made again once in each beat,
where the parent's vector is read again and a strictly better one replaces it. -/
def tempoParentSelect (s0 : State) : State :=
  let t := s0.tempo
  if !hubOn s0 || t.isRoot || (t.parent.isSome && beat s0 == t.selectAt) then s0
  else
    let s := { s0 with tempo := { t with selectAt := beat s0 } }
    match t.parent with
    | none =>
      match bestLink s (admissible s) with
      | some (e, u) => takeParent s e u
      | none => s
    | some d =>
      let other :=
        match bestLink s (fun u => decide (u.depth < 62) && (t.root != some u.root || decide (u.depth.toNat < t.depth))) with
        | some (e, u) => takeParent s e u
        | none => s
      match heardOn s d.val with
      | none => other
      | some v =>
        if v.sync ≠ 0 then other
        else match bestLink s (fun u => decide (u.depth < 62)) with
          | some (e, u) => if better u v then takeParent s e u else takeParent s d.val v
          | none => s

def execTempoParentSelect (s : State) : Host.Outcome State Fault Refusal := .next (tempoParentSelect s)

/-- The device's own vector as it is compared for the root: at SYNC class 1 and DEPTH 0 (12 R287). -/
def ownVector (s : State) (c : BitVec 18) : Heard := { sync := 1, priority := tempoPriority s, root := c, depth := 0 }

/-- TEMPO_ROOT_SELECT (12 R287): after ROOT_WAIT with nothing better heard, the device is root, LOCKED, with no step. -/
def tempoRootSelect (s : State) : State :=
  let t := s.tempo
  let from_ := if t.state = 3 then some t.holdAt else t.firstUp
  match ownCoord s, from_ with
  | some c, some at_ =>
    let clear := (List.range 6).all (fun d => match heardOn s d with
      | some v => better (ownVector s c) v
      | none => true)
    if !hubOn s || t.isRoot || (t.state != 0 && t.state != 3) || tempoPriority s == 0 || !clear
        || decide (since s at_ < beats (dnum s 0x9021 2)) then s
    else { s with tempo :=
      { t with isRoot := true, state := 2, root := some c, rootPrio := tempoPriority s, depth := 0, parent := none,
               beatOf := [], held := [], median := none } }
  | _, _ => s

def execTempoRootSelect (s : State) : Host.Outcome State Fault Refusal := .next (tempoRootSelect s)

/-- TEMPO_PARENT_LOST (12 R291): no sample for TEMPO_LOSS_BEATS. Another admissible parent is taken with no change of
state; else LOCKED goes to HOLDOVER and LOCKING to FREE. -/
def tempoParentLost (s : State) : State :=
  let t := s.tempo
  match t.parent with
  | none => s
  | some d =>
    if !hubOn s || t.isRoot || decide (since s t.sampleAt < beats (dnum s 0x9021 3)) then s
    else
      let s1 := { s with tempo :=
        { t with parent := none, lastDepth := t.depth, lastRoot := t.root, heard := mput none t.heard d.val none,
                 beatOf := [], held := [], median := none } }
      match bestLink s1 (admissible s1) with
      | some (e, u) => takeParent s1 e u
      | none =>
        if t.state = 2 then
          sticky { s1 with tempo := { s1.tempo with state := 3, holdAt := clock s } } 0xA090 9 0
        else if t.state = 1 then
          { s1 with tempo := { s1.tempo with state := 0, incr := BitVec.ofNat 64 incrNominal, root := none, depth := 0 } }
        else s1

def execTempoParentLost (s : State) : Host.Outcome State Fault Refusal := .next (tempoParentLost s)

/-- HOLDOVER_EXPIRED (12 R291): back to FREE at the nominal increment; tempo keeps running. -/
def holdoverExpired (s : State) : State :=
  let t := s.tempo
  if hubOn s && t.state == 3 && decide (beats (dnum s 0x9021 4) ≤ since s t.holdAt) then
    sticky { s with tempo := { t with state := 0, incr := BitVec.ofNat 64 incrNominal, root := none, depth := 0 } }
      0xA090 10 0
  else s

def execHoldoverExpired (s : State) : Host.Outcome State Fault Refusal := .next (holdoverExpired s)

/-! ### The exchange (12 R288) -/

/-- Tempo now in units of 2^−32 ns, and in 1/256 ns. -/
def tempoFine (s : State) : Nat := s.tempo.ticks.toNat * 2 ^ 32 + s.tempo.frac.toNat
def tempo256 (s : State) : Nat := tempoFine s / 2 ^ 24

/-- The 48 bytes of Table 12.2 of a flit that leaves on a port. -/
def tempoBody (s : State) (port : Nat) : List Byte :=
  let x := s.fibre (fibreOf s port)
  let w := codewordU x.txMap
  let age := (clockU s - x.txAt) % w                      -- 1/64 ns since the codeword began
  let t := tempo256 s - age * 4
  let v := advertised s
  let e := match mget none s.tempo.echoes port with
    | some e => if (now s - e.rxTick).toNat ≤ 131072 then e else ⟨0, 0, 0, 0⟩
    | none => ⟨0, 0, 0, 0⟩
  natLe 48 (t / 256 % 2 ^ 64 * 2 ^ 320 + (txIndex s x) % 2 ^ 64 * 2 ^ 256 + e.txTick.toNat * 2 ^ 192
    + e.rxTick.toNat * 2 ^ 128 + t % 256 * 2 ^ 120 + e.txFrac.toNat * 2 ^ 112 + e.rxFrac.toNat * 2 ^ 104
    + v.depth.toNat * 2 ^ 96 + v.priority.toNat * 2 ^ 88 + v.root.toNat * 2 ^ 70 + v.sync.toNat * 2 ^ 68)

/-- The period of 65,536 ticks that a plane's tempo flits are in, once tempo has reached its first slot (12 R288). -/
def flitPeriod (s : State) (plane : Nat) : Option Nat :=
  if (now s).toNat < 8192 * plane then none else some (((now s).toNat - 8192 * plane) / 65536)

/-- TEMPO_FLIT_SEND (12 R288): an up plane port sends its tempo flit, one in each period. -/
def tempoFlitSend (port : Port) (s : State) : State :=
  let due := flitPeriod s (port.val / 6)
  if hubOn s && (s.port port.val).state == 2 && due.isSome && mget none s.tempo.sent port.val != due then
    leaveFlit { s with tempo := { s.tempo with sent := mput none s.tempo.sent port.val due } } (fibreOf s port.val) 4 7
      { noBytes with bytes := tempoBody s port.val }
  else s

def execTempoFlitSend (port : Port) (s : State) : Host.Outcome State Fault Refusal := .next (tempoFlitSend port s)

/-! ### Samples and steps (12 R285, R289) -/

/-- Insert into a rising list. -/
def insertInt (x : Int) : List Int → List Int
  | [] => [x]
  | y :: r => if x ≤ y then x :: y :: r else y :: insertInt x r

/-- The median of a list: of two middle values the lower (log 15). -/
def median (l : List Int) : Option Int := (l.foldl (fun a x => insertInt x a) [])[(l.length - 1) / 2]?

/-- The effects of a step on what is scheduled (12 R285): strikes that a forward step skips are performed late, and the
origins and uncommitted changes of each transmitter move with it; a forward step that passes a beat that is a multiple of
GHOST_PERIOD leaves a mark to be taken (13 R304). -/
def afterStep (s : State) (old : Word) (forward : Bool) (move : Word) : State :=
  let skipped := fun (x : Nat × Sched) => forward && decide (old < x.2.tick) && decide (x.2.tick ≤ now s)
  let late := (s.scheds ++ s.remScheds).filter skipped
  let s1 := { s with
    scheds := s.scheds.filter (fun x => !skipped x), remScheds := s.remScheds.filter (fun x => !skipped x),
    res := { s.res with stepped := s.res.stepped
      || (forward && decide ((old >>> 20).toNat / dnum s 0xC020 6 < (beat s).toNat / dnum s 0xC020 6)) } }
  let s2 := late.foldl (fun t x => performSched t x.1 x.2 true) s1
  (List.range 56).foldl
    (fun t f =>
      let x := t.fibre f
      if x.training ≠ 2 then t
      else
        let c := x.txChange.map (fun c => if c.committed then c else { c with tick := c.tick + move })
        sendLane (t.setFibre f { x with origin := x.origin + move, txChange := c }) f
          (laneMsg 0x06 0 (x.origin + move) 0 x.txMap)) s2

/-- Step tempo to the parent's value: by −θ (12 R289). -/
def stepTempo (s : State) (th : Int) : State :=
  let old := now s
  let fine : Nat := (((tempoFine s : Int) - th * 2 ^ 23) % (2 : Int) ^ 96).toNat
  let s1 := { s with tempo :=
    { s.tempo with ticks := BitVec.ofNat 64 (fine / 2 ^ 32), frac := BitVec.ofNat 32 fine, beatOf := [] } }
  let s2 := bump (sticky s1 0xA090 8 0) 0x8094 3 1
  afterStep s2 old (decide (th < 0)) (now s1 - old)

/-- A thousand nanoseconds and three, in 1/512 ns. -/
def thStep : Int := 512000
def thLock : Int := 1536

/-- An accepted sample moves the state of Table 12.1: FREE and HOLDOVER go to LOCKING, whose first sample may step;
sixteen close ones lock (12 R286, R289). -/
def judgeSample (s : State) (th : Int) : State :=
  let t := s.tempo
  let entering := t.state = 0 ∨ t.state = 3
  if entering ∨ (t.state = 1 ∧ t.waiting) then
    let s1 := { s with tempo := { t with state := 1, waiting := false, run := if entering then 0 else
      (if th.natAbs ≤ 1536 then 1 else 0) } }
    if thStep < th.natAbs then stepTempo { s1 with tempo := { s1.tempo with run := 0 } } th else s1
  else if t.state = 1 then
    if (th.natAbs : Int) ≤ thLock then
      if 16 ≤ t.run + 1 then { s with tempo := { t with run := 0, state := 2 } }
      else { s with tempo := { t with run := t.run + 1 } }
    else { s with tempo := { t with run := 0 } }
  else s

/-- Accept samples: they join the beat's, and the first stands for the state's judgement by the offset given. -/
def acceptSamples (s : State) (l : List (Int × Int)) (first : Int) : State :=
  let s1 := { s with tempo := { s.tempo with beatOf := s.tempo.beatOf ++ l, sampleAt := clock s } }
  let s2 := judgeSample s1 first
  if s2.tempo.beatOf.isEmpty then s2 else (l.drop 1).foldl (fun t x => judgeSample t x.1) s2

/-- A sample (θ, δ) from the parent link: judged against the previous beat's median δ, or held until three agree
(12 R289). -/
def takeSample (s : State) (th de : Int) : State :=
  let t := s.tempo
  match t.median with
  | some m =>
    if (de - m).natAbs ≤ 1024 then acceptSamples s [(th, de)] th else bump s 0x8094 2 1
  | none =>
    let held := t.held ++ [(th, de)]
    if held.length < 3 then { s with tempo := { t with held := held } }
    else
      let m := (median (held.map (·.2))).getD 0
      let far := held.filter (fun x => decide (1024 < (x.2 - m).natAbs))
      let s1 := { s with tempo := { t with held := [] } }
      if far.isEmpty then
        acceptSamples { s1 with tempo := { s1.tempo with median := some m } } held ((median (held.map (·.1))).getD 0)
      else bump s1 0x8094 2 far.length

/-- TEMPO_FLIT (12 R287 to R289): a flit that fails is counted; a good one is heard, kept for the echo, and, from the
parent in class 0 with an echo, yields a sample. -/
def tempoFlit (port : Port) (f : TempoFlit) (s : State) : State :=
  if !hubOn s || (s.port port.val).state != 2 then s
  else if !f.ok then bump s 0x8094 1 1
  else
    let s0 := hear s port.val
    if 62 ≤ f.depth.toNat then s0
    else
      let d := port.val % 6
      let arrival := tempo256 s - f.age
      let t := s0.tempo
      let v : Heard := { sync := f.sync, priority := f.priority, root := f.root, depth := f.depth }
      let e : Echo :=
        { txTick := f.txTick, txFrac := f.txFrac, rxTick := BitVec.ofNat 64 (arrival / 256),
          rxFrac := BitVec.ofNat 8 arrival }
      let s1 := { s0 with tempo :=
        { t with heard := mput none t.heard d (some v), echoes := mput none t.echoes port.val (some e) } }
      if t.parent = some (dirField d) ∧ f.sync = 0 ∧ f.echoTx ≠ 0 then
        let t1 : Int := f.txTick.toNat * 256 + f.txFrac.toNat
        let t2 : Int := arrival
        let t3 : Int := f.echoTx.toNat * 256 + f.echoTxFrac.toNat
        let t4 : Int := f.echoRx.toNat * 256 + f.echoRxFrac.toNat
        takeSample s1 ((t2 - t1) - (t4 - t3)) ((t2 - t1) + (t4 - t3))
      else s1

def execTempoFlit (port : Port) (f : TempoFlit) (s : State) : Host.Outcome State Fault Refusal :=
  .next (tempoFlit port f s)

/-- TEMPO_SERVO (12 R289), once in each beat: the increment removes the beat's median θ over the next beat, within 200 ppm
of nominal; a LOCKED device whose median passes 1,000 ns falls back to LOCKING (log 15). -/
def tempoServo (s : State) : State :=
  let t := { s.tempo with servoAt := beat s }
  if !hubOn s || beat s == s.tempo.servoAt then s
  else match median (t.beatOf.map (·.1)) with
    | none => { s with tempo := { t with median := none } }
    | some th =>
      let raw : Int := (t.incr.toNat : Int) - (t.incr.toNat : Int) * th / 2 ^ 29
      let lo : Int := incrNominal - incrSpan
      let hi : Int := incrNominal + incrSpan
      let inc := if raw < lo then lo else if hi < raw then hi else raw
      let fall := t.state = 2 ∧ !t.isRoot ∧ thStep < th.natAbs
      let s1 := { s with tempo :=
        { t with incr := BitVec.ofNat 64 inc.toNat, median := median (t.beatOf.map (·.2)), beatOf := [],
                 state := if fall then 1 else t.state, waiting := if fall then true else t.waiting,
                 run := if fall then 0 else t.run } }
      dset s1 0x9020 6 (ratF32 th 512)

def execTempoServo (s : State) : Host.Outcome State Fault Refusal := .next (tempoServo s)

end Sys2Proof.Machine
end

