-- ==== Sys2Proof/Machine/D2d.lean ====
section
/-!
DEFINITION. The die-to-die fabric (08 R181 to R199): lane swaps, losses and retraining, the judgement of a flit, and the
messages of Table 8.3.  A message command acts only where the flits received have brought that message, whole and next in
its class, to its destination (log 16).
-/

namespace Sys2Proof.Machine

/-! ### Lanes (08 R187 to R190) -/

/-- Keep a pair's lanes in flash (08 R190). -/
def saveLanes (s : State) (a b : Nat) : State :=
  { s with flash := { s.flash with laneMaps := mput none s.flash.laneMaps (9 * a + b) (some (s.pair a b).lanes) } }

/-- A pair with no lane chooses its relay, and its messages take that path (08 R189). -/
def chooseRelay (s : State) (a b : Nat) : State :=
  let p := s.pair a b
  reroute (saveLanes (s.setPair a b { p with lanes := { p.lanes with relay := relayOf s a b } }) a b) a b

/-- A relay that can no longer serve its pair is chosen again (08 R189). -/
def relayAgain (s : State) (a b : Nat) : State :=
  let l := (s.pair a b).lanes
  let ok : Bool := match l.relay with
    | some r => dieUp s r && pairLanes (s.pair a r) != 0 && pairLanes (s.pair r b) != 0
    | none => false
  if a = b ∨ pairLanes (s.pair a b) ≠ 0 ∨ !unitUp s a ∨ !unitUp s b ∨ ok ∨ ((relayOf s a b).isNone ∧ l.relay.isNone) then s
  else chooseRelay s a b

/-- Every relay of the package is looked at again. -/
def relaysAgain (s : State) : State := (List.range 81).foldl (fun t k => relayAgain t (k / 9) (k % 9)) s

/-- The pair loses a lane for good: its first such loss degrades it, and without any lane it is down and relayed
(08 R189). -/
def dropLane (s : State) (a b lane : Nat) : State :=
  let p := s.pair a b
  let s1 := saveLanes (s.setPair a b
    { p with lanes := { p.lanes with map := p.lanes.map.set lane none }, degraded := true }) a b
  let s2 := if p.degraded then s1 else sticky s1 0xA080 2 b
  if pairLanes (s2.pair a b) = 0 then relaysAgain (chooseRelay (sticky s2 0xA080 3 b) a b) else s2

/-- A lane is judged failed: SWAP to the lower-numbered free spare, or the lane is lost (08 R187 to R189). -/
def laneFailed (s : State) (a b lane : Nat) : State :=
  let p := s.pair a b
  if (p.lanes.map.getD lane none).isNone || p.swaps.any (fun w => w.lane == lane) then s
  else
    let free := (p.lanes.spares.map (·.val)).filter (fun k => !p.swaps.any (fun w => w.spare == k))
    match free with
    | [] => dropLane s a b lane
    | k :: rest =>
      let spare := rest.foldl min k
      let w : Swap := { lane := lane, spare := spare, at_ := none, acked := false }
      sendLaneFlit (s.setPair a b { p with swaps := p.swaps ++ [w] }) b a (laneBody 1 lane spare 0)

/-- A λ of the pair is lost: its lane fails, or it leaves the spares (08 R187, R190). -/
def lamLost (s : State) (a b l : Nat) : State :=
  let p := s.pair a b
  match (List.range 16).find? (fun i => (p.lanes.map.getD i none).map (·.val) == some l) with
  | some lane => laneFailed s a b lane
  | none =>
    if p.lanes.spares.all (fun k => k.val != l) then s
    else saveLanes (s.setPair a b
      { p with lanes := { p.lanes with spares := p.lanes.spares.filter (fun k => k.val != l) } }) a b

/-- Take the oldest lane-control body that die `b` holds from die `a`, if it is this one. -/
def takeCtl (s : State) (a b : Nat) (body : List Byte) : Option State :=
  let p := s.pair a b
  match p.ctl with
  | l :: r => if l = body then some (s.setPair a b { p with ctl := r }) else none
  | [] => none

/-- D2D_SWAP (08 Table 8.4): A has received SWAP on B→A; it fixes the switch at its next SEQ + 32 and answers SWAP_ACK. -/
def d2dSwap (a b : Die9) (lane spare : Lam) (s : State) : State :=
  match takeCtl s b.val a.val (laneBody 1 lane.val spare.val 0) with
  | none => s
  | some t =>
    let p := t.pair a.val b.val
    let k := p.next + 32
    let fix := fun (w : Swap) => if w.lane = lane.val ∧ w.spare = spare.val then { w with at_ := some k } else w
    sendLaneFlit (t.setPair a.val b.val { p with swaps := p.swaps.map fix }) a.val b.val
      (laneBody 2 lane.val spare.val k.toNat)

def execD2dSwap (a b : Die9) (lane spare : Lam) (s : State) : Host.Outcome State Fault Refusal :=
  .next (d2dSwap a b lane spare s)

/-- D2D_SWAP_ACK (08 Table 8.4): B has received SWAP_ACK and knows the switch SEQ. -/
def d2dSwapAck (a b : Die9) (lane spare : Lam) (k : BitVec 12) (s : State) : State :=
  match takeCtl s a.val b.val (laneBody 2 lane.val spare.val k.toNat) with
  | none => s
  | some t =>
    let p := t.pair a.val b.val
    let fix := fun (w : Swap) => if w.lane = lane.val ∧ w.at_ = some k then { w with acked := true } else w
    t.setPair a.val b.val { p with swaps := p.swaps.map fix }

def execD2dSwapAck (a b : Die9) (lane spare : Lam) (k : BitVec 12) (s : State) : Host.Outcome State Fault Refusal :=
  .next (d2dSwapAck a b lane spare k s)

/-- D2D_LANE_SWITCH (08 R188, R190): at SEQ k, which A sends next, the lane moves onto the spare, which leaves the pool;
the map is kept, and a vacate of the λ it left may go on (10 R260). -/
def d2dLaneSwitch (a b : Die9) (s : State) : State :=
  let p := s.pair a.val b.val
  match p.swaps.find? (fun w => w.acked && w.at_ == some p.next) with
  | none => s
  | some w =>
    let lanes := { p.lanes with
      map := p.lanes.map.set w.lane (some (lamField w.spare)), spares := p.lanes.spares.filter (fun k => k.val != w.spare) }
    let t := sticky (saveLanes (s.setPair a.val b.val
      { p with lanes := lanes, swaps := p.swaps.erase w, charges := p.charges.filter (fun c => c.1 != w.lane) })
      a.val b.val) 0xA080 1 b.val
    let u := match p.lanes.map.getD w.lane none with
      | some l => if a.val < 8 then bankSettle t (bankOf a.val) l.val else t
      | none => t
    pump u a.val b.val

def execD2dLaneSwitch (a b : Die9) (s : State) : Host.Outcome State Fault Refusal := .next (d2dLaneSwitch a b s)

/-- D2D_LOSS_OF_SIGNAL (08 R187): the detector of a λ reports loss. -/
def execD2dLossOfSignal (a b : Die9) (lane : Lam) (s : State) : Host.Outcome State Fault Refusal :=
  .next (if hubOn s then lamLost s a.val b.val lane.val else s)

/-- RING_LOCK_LOST (10 R256, R248, R249; 08 R187): a transmitting ring's λ is moved by its transmitter, a receiving
ring's by LOST, and on a die pair it counts as loss of signal. -/
def execRingLockLost (r : RingSite) (l : Lam) (s : State) : Host.Outcome State Fault Refusal :=
  .next (if !hubOn s then s
    else match r with
      | .fibre f tx =>
        let t := sticky s 0xA0A0 7 f.val
        if tx then txFault t f.val l.val else rxLose t f.val l.val
      | .pair a b => lamLost s a.val b.val l.val)

/-- One direction of a pair has trained again: its kept lanes apply, what is held unacknowledged is sent again, and traffic
goes on (08 R187, R190). -/
def pairTrained (s : State) (a b : Nat) : State :=
  let p := s.pair a b
  let lanes := (mget none s.flash.laneMaps (9 * a + b)).getD p.lanes
  pump (resendAll (s.setPair a b { p with retrain := false, lanes := lanes }) a b) a b

/-- D2D_RETRAIN_DONE (08 R187): a pair that retrains resumes, in both directions. -/
def execD2dRetrainDone (a b : Die9) (s : State) : Host.Outcome State Fault Refusal :=
  .next (if (s.pair a.val b.val).retrain then pairTrained (pairTrained s a.val b.val) b.val a.val else s)

/-! ### Flits (08 R182, R184, R185, R187) -/

/-- The lanes that a resent flit shows to have been wrong in a discarded copy. -/
def chargedLanes (p : Pair) (old new : List Byte) : List Nat :=
  let l := max 1 (pairLanes p)
  (List.range l).filter (fun lane => (List.range 256).any (fun i => i % l == lane && byteAt old i != byteAt new i))

/-- The logical number of the n-th active lane. -/
def nthLane (p : Pair) (n : Nat) : Nat := ((List.range 16).filter (fun i => (p.lanes.map.getD i none).isSome)).getD n 0

/-- The sender of a pair reads ACK, NAK and the running counts of frees from an accepted reverse flit: what is covered
leaves the replay buffer, credits come back, a NAK sends the rest again, and what waits may leave (R184, R185). -/
def pairReadAck (s : State) (a b : Nat) (h : Nat) : State :=
  let p := s.pair a b
  let ack := BitVec.ofNat 12 (bitsOf h 51 40)
  let n := (ack - p.acked).toNat
  let ok := decide (n ≤ p.replay.length)
  let counts := [bitsOf h 31 24, bitsOf h 23 16, bitsOf h 15 8, bitsOf h 7 0]
  let back := (List.range 4).map (fun c => (natAt counts c + 256 - (p.seen.getD c 0).toNat) % 256)
  let s1 := s.setPair a b { p with
    acked := if ok then ack else p.acked, replay := if ok then p.replay.drop n else p.replay,
    seen := counts.map (BitVec.ofNat 8), sent := (List.range 4).map (fun c => natAt p.sent c - natAt back c) }
  let left := (s1.pair a b).replay.length
  let s2 := if h.testBit 39 && ok && left != 0 then bump (resendAll s1 a b) 0x8080 (a + 1) left else s1
  pump s2 a b

/-- The body of an accepted flit reaches the receiver's buffers: of its class, of lane control, or of the fabric, whose
sub-head brings frees for the reverse pair (R182, R183; 09 R209). A flit of a reserved KIND brings nothing. -/
def takeBody (s : State) (a b kind cls : Nat) (body : List Byte) : State :=
  let p := s.pair a b
  if kind = 1 ∨ kind = 2 then
    let r := p.rx.getD cls .init
    s.setPair a b { p with rx := p.rx.set cls { r with buf := r.buf ++ [(kind, body)] } }
  else if kind = 3 then s.setPair a b { p with ctl := p.ctl ++ [body.take 5] }
  else if kind = 4 then
    let n := leNat (body.take 4)
    let fc := bitsOf n 31 29
    let x := p.cross
    let t := if fc < 7 then
        let f : PktFlit := { sop := n.testBit 28, eop := n.testBit 27, bytes := slice body 4 240 }
        s.setPair a b { p with cross := { x with rx := x.rx.set fc (x.rx.getD fc [] ++ [f]) } }
      else s
    let c := bitsOf n 26 24
    let q := t.pair b a
    if c < 7 then
      let back := (bitsOf n 23 16 + 256 - (q.cross.seen.getD c 0).toNat) % 256
      t.setPair b a { q with cross := { crossBack c back q.cross with
        seen := q.cross.seen.set c (BitVec.ofNat 8 (bitsOf n 23 16)) } }
    else t
  else s

/-- The lanes of a pair that have reached D2D_LANE_ERR_LIMIT fail (R187). -/
def judgePair (s : State) (a b : Nat) : State :=
  let charges := (s.pair a b).charges
  ((List.range 16).filter (fun lane => decide (dnum s 0x2080 1 ≤ (charges.filter (fun c => c.1 == lane)).length))).foldl
    (fun t lane => laneFailed t a b lane) s

/-- A flit is accepted: the discarded copies of it are compared and their lanes charged, one charge a copy, within 65,536
flits of the pair (R184, R187). -/
def acceptFlit (s : State) (a b : Nat) (bytes : List Byte) : State :=
  let p := s.pair a b
  let h := leNat (bytes.take 8)
  let n := p.flits + 1
  let found := p.bad.flatMap (fun old => (chargedLanes p old bytes).map (fun k => (nthLane p k, n)))
  let s1 := s.setPair a b
    { p with expect := p.expect + 1, nak := false, bad := [], flits := n,
             charges := p.charges.filter (fun c => n < c.2 + 65536) ++ found }
  let s2 := takeBody s1 a b (bitsOf h 38 36) (bitsOf h 35 34) (slice bytes 8 244)
  let s3 := relayAll (judgePair (pairReadAck s2 b a h) a b) b
  if b < 8 then slicePump s3 b else s3

/-- A flit fails its CRC: where it is the one expected, its copy is kept, and the sixteenth in a row makes the pair retrain
in both directions (R187). -/
def badFlit (s : State) (a b : Nat) (bytes : List Byte) : State :=
  let p := s.pair a b
  let seq := BitVec.ofNat 12 (bitsOf (leNat (bytes.take 8)) 63 52)
  let bad := if !p.nak || seq == p.expect then p.bad ++ [bytes] else p.bad
  if 16 ≤ bad.length then
    let t := sticky (s.setPair a b { p with nak := true, bad := [], retrain := true }) 0xA080 4 b
    t.setPair b a { t.pair b a with retrain := true }
  else s.setPair a b { p with nak := true, bad := bad }

/-- D2D_FLIT_RECEIVED (08 R182, R184, R185, R187): the receiver of the pair a→b judges a flit by its CRC and SEQ and
answers with an idle flit.  While the pair retrains, or has no lane, nothing arrives. -/
def d2dFlitReceived (a b : Die9) (f : D2dFlit) (s : State) : State :=
  let p := s.pair a.val b.val
  if !unitUp s b.val || p.retrain || pairLanes p == 0 then s
  else
    let h := leNat (f.bytes.take 8)
    let idle := bitsOf h 38 36 == 0
    let crcOk := crc32 (f.bytes.take 252) == leNat (slice f.bytes 252 4)
    if idle then (if crcOk then relayAll (pairReadAck s b.val a.val h) b.val else s)
    else
      let t :=
        if !crcOk then badFlit s a.val b.val f.bytes
        else if BitVec.ofNat 12 (bitsOf h 63 52) = p.expect then acceptFlit s a.val b.val f.bytes
        else s.setPair a.val b.val { p with nak := true }
      if pairLanes (t.pair b.val a.val) = 0 || (t.pair b.val a.val).retrain then t else sendIdle t b.val a.val

def execD2dFlitReceived (a b : Die9) (f : D2dFlit) (s : State) : Host.Outcome State Fault Refusal :=
  .next (d2dFlitReceived a b f s)

/-! ### Messages (08 R183, R191 to R197) -/

/-- Act on a message that its destination takes: one that is not next in its class there does nothing (R184). -/
def onMsg (s : State) (m : D2dMsg) (act : State → State) : State :=
  match takeMsg s m with
  | none => s
  | some t => if unitUp s m.dst.val then act t else s

/-- Act on a request: its owner holds it until it has RSP credit for the reply (R186). -/
def onReq (s : State) (m : D2dMsg) (act : State → State) : State :=
  if hasRoom s m.dst.val m.src.val 1 then onMsg s m act else s

/-- The ERR reply of a request (08 Table 8.3). -/
def errReply (s : State) (m : D2dMsg) (status : Nat) : State :=
  sendMsg s m.dst.val m.src.val (bareMsg 0x12 m.dst.val m.src.val m.tag status)

/-- The marks of a message's data by word. -/
def msgMark (m : D2dMsg) (k : Nat) : Bool := m.poison.getD k false

/-- The owner's answer to a place that faults: die lost, or access fault, with the hole's bit (07 R162). -/
def ownerFault (s : State) (m : D2dMsg) (p : Place) : State :=
  match p with
  | .lost _ => errReply s m 0x1B
  | .hole d => errReply (sticky s 0xA070 7 d) m 0x19
  | _ => errReply s m 0x19

/-- D2D_RD (08 R191): the owning die reads its own store and answers RDR with the poison of the words, or ERR. -/
def serveRd (m : D2dMsg) (s : State) : State :=
  let off := m.addr.toNat
  let n := m.len.toNat
  match faultIn s m.dst.val off n with
  | some (_, p) => ownerFault s m p
  | none =>
    let key := cellKey m.dst.val off
    sendMsg (carryRead s key n) m.dst.val m.src.val
      (dataMsg 0x10 m.dst.val m.src.val m.tag off (readBytes s key n) ((wordsOf key n).map s.poison.contains))

def execD2dRd (m : Reading D2dMsg) (s : State) : Host.Outcome State Fault Refusal :=
  .next (onReq s m.arg (fun t => serveRd m.arg (readErrs t m.errs)))

/-- D2D_WR (08 R191): the owning die writes its own store and answers WRA, or ERR. -/
def serveWr (m : D2dMsg) (s : State) : State :=
  let off := m.addr.toNat
  match faultIn s m.dst.val off m.data.length with
  | some (_, p) => ownerFault s m p
  | none =>
    sendMsg (storeBytes s (cellKey m.dst.val off) m.data (msgMark m)) m.dst.val m.src.val
      (bareMsg 0x11 m.dst.val m.src.val m.tag 0)

def execD2dWr (m : D2dMsg) (s : State) : Host.Outcome State Fault Refusal := .next (onReq s m (serveWr m))

/-- The masked bytes of a line are written: a word whose eight bytes are all masked takes its mark, any other keeps
its own and takes the mark too (08 R193; 07 R171). -/
def storeMasked (s : State) (key : Nat) (mask : Nat) (line : List Byte) (mark : Nat → Bool) : State :=
  (List.range 64).foldl
    (fun t w =>
      let bits := bitsOf mask (8 * w + 7) (8 * w)
      if bits = 0 then t
      else if bits = 255 then storeBytes t (key + 8 * w) (slice line (8 * w) 8) (fun _ => mark w)
      else (onesBelow 8 bits).foldl
        (fun u k => storeBytes u (key + 8 * w + k) [byteAt line (8 * w + k)] (fun _ => mark w)) t) s

/-- D2D_WRM (08 R193): the owner writes the masked bytes of a line and answers WRA, or ERR. -/
def serveWrm (m : D2dMsg) (s : State) : State :=
  let off := m.addr.toNat
  match faultIn s m.dst.val off 512 with
  | some (_, p) => ownerFault s m p
  | none =>
    sendMsg (storeMasked s (cellKey m.dst.val off) (leNat (m.data.take 64)) (m.data.drop 64) (msgMark m))
      m.dst.val m.src.val (bareMsg 0x11 m.dst.val m.src.val m.tag 0)

def execD2dWrm (m : D2dMsg) (s : State) : Host.Outcome State Fault Refusal := .next (onReq s m (serveWrm m))

/-- The bell that a message names on its destination die. -/
def msgBell (m : D2dMsg) : Nat := 512 * m.dst.val + bitsOf m.addr.toNat 8 0

/-- The word at a place of a message's data. -/
def msgWord (m : D2dMsg) (at_ : Nat) : Word := BitVec.ofNat 64 (leNat (slice m.data at_ 8))

/-- D2D_STRIKE (06 R150): added to the bell. -/
def execD2dStrike (m : D2dMsg) (s : State) : Host.Outcome State Fault Refusal :=
  .next (onMsg s m (fun t => strike t (msgBell m) (msgWord m 0)))

/-- D2D_STRIKE_AT (06 R151): entered in the bell die's table under the sender's allowance, or performed late. -/
def execD2dStrikeAt (m : D2dMsg) (s : State) : Host.Outcome State Fault Refusal :=
  .next (onMsg s m (fun t => (enterSched t m.dst.val
    { bell := msgBell m, add := msgWord m 0, tick := msgWord m 8, src := some m.src.val }).2))

/-- D2D_SETB (06 R147): the counter takes the value. -/
def execD2dSetb (m : D2dMsg) (s : State) : Host.Outcome State Fault Refusal :=
  .next (onMsg s m (fun t => setBell t (msgBell m) (msgWord m 0)))

/-- D2D_WATCH (06 R149): a watch is registered, and answered at once where the bell has reached its value. -/
def execD2dWatch (m : D2dMsg) (s : State) : Host.Outcome State Fault Refusal :=
  .next (onMsg s m (fun t => notifyWatches { t with watches := t.watches ++
    [(m.dst.val, { bell := msgBell m, value := msgWord m 0, die := m.src.val, tag := m.tag })] } (msgBell m)))

/-- A job that waits with a watch of a tag has been notified. -/
def notifyJob (tag : BitVec 16) (j : Job) : Job :=
  if j.watch = some tag then { j with watch := none, notified := true } else j

/-- D2D_NOTIFY (06 R149; 08 R195): the wait that holds the watch, of a queue's head or of a REPLAY, is satisfied, an
acquire; where none does, the wait has ended and the notice is discarded. -/
def takeNotify (m : D2dMsg) (s : State) : State :=
  let d := m.dst.val
  let hit := fun (e : Nat × Queue) =>
    queueDie e.1 == d && (e.2.watch == some m.tag || e.2.jobs.any (fun j => j.watch == some m.tag))
  let tell := fun (q : Nat) (x : Queue) =>
    if queueDie q = d then
      { x with
        watch := if x.watch = some m.tag then none else x.watch,
        notified := x.notified || x.watch == some m.tag, jobs := x.jobs.map (notifyJob m.tag) }
    else x
  if s.queues.any hit then
    acquire (spendTag { s with queues := mmap Queue.init tell s.queues } m.tag) d
  else s

def execD2dNotify (m : D2dMsg) (s : State) : Host.Outcome State Fault Refusal := .next (onMsg s m (takeNotify m))

/-- D2D_UNWATCH (06 R149): the watch is freed; one already notified is none. -/
def execD2dUnwatch (m : D2dMsg) (s : State) : Host.Outcome State Fault Refusal :=
  .next (onMsg s m (fun t => { t with watches := t.watches.filter (fun w =>
    !(w.1 == m.dst.val && w.2.die == m.src.val && w.2.tag == m.tag)) }))

end Sys2Proof.Machine
end

