-- ==== Sys2Proof/Machine/Move.lean ====
section
/-!
DEFINITION. The copy engine (06 R137, R142, R152; 08 R191; 09 R202; 14 R322): a COPY between the stores of the package,
other devices of the board and host memory, and the replies that end its requests.
-/

namespace Sys2Proof.Machine

/-! ### Host requests (14 R322) -/

/-- The length of the next read from a host address: at most the read request size, aligned to it, never across 4 KiB. -/
def hostChunk (s : State) (addr left : Nat) : Nat :=
  min left (min (s.host.mrrs - addr % s.host.mrrs) (4096 - addr % 4096))

/-- Write to host memory in payloads of the programmed size: one that holds a poisoned byte goes with EP = 1, and the
descriptor is then POISONED (14 R322). `n` counts payloads at most. -/
def hostWrite (s : State) (q : Nat) (i : BitVec 32) (pz : Nat → Bool) : Nat → Nat → Nat → List Byte → State
  | 0, _, _, _ => s
  | n + 1, addr, at_, data =>
    if data.isEmpty then s
    else
      let piece := data.take s.host.mps
      let ep := (List.range piece.length).any (fun k => pz (at_ + k))
      let s1 := postHost s addr piece ep s.host.relaxed
      let s2 := if ep then sticky (s1.modJob q i (fun j => { j with poisoned := true })) 0xA0D0 5 0 else s1
      hostWrite s2 q i pz n (addr + piece.length) (at_ + piece.length) (data.drop piece.length)

/-! ### Pieces -/

/-- Is an address host memory? -/
def isHost (w : Word) : Bool := w.getLsbD 63

/-- The device address of a word: none where bits 62:56 name no map. -/
def devAddr (w : Word) : Option Nat := if wbits w 62 56 = 0 then some (wbits w 55 0) else none

/-- Marks of a range's words from marks of its bytes (07 R171). -/
def wordMarks (key len : Nat) (pz : Nat → Bool) (w : Nat) : Bool :=
  (List.range 8).any (fun k =>
    let a := 8 * (key / 8 + w) + k
    decide (key ≤ a) && decide (a < key + len) && pz (a - key))

/-- A write of a die to a device address (in its own store at once, else in requests within 4 KiB blocks that count in
the descriptor's need). `n` bounds the requests. -/
def devWrite (s : State) (d q : Nat) (i : BitVec 32) (use : D2dFor) (pz : Nat → Bool) : Nat → Nat → Nat → List Byte → State
  | 0, _, _, _ => s
  | n + 1, a, at_, data =>
    if data.isEmpty then s
    else if isOwnAddr s d a then
      storeBytes s (cellKey d (addrOff a)) data
        (wordMarks (cellKey d (addrOff a)) data.length (fun k => pz (at_ + k)))
    else
      let len := min data.length (4096 - a % 4096)
      let s1 := dropRange (flushRange s d (addrSlot a) (addrDie a) (addrOff a) len) d (addrSlot a) (addrDie a) (addrOff a)
        len
      let key := addrOff a
      let marks := (wordsOf key len).map (fun w => wordMarks key len (fun k => pz (at_ + k)) (w - key / 8))
      let (_, s2) := sendReq (s1.modJob q i (fun j => { j with need := j.need + 1 })) d (addrSlot a) (addrDie a) key len
        0x02 (data.take len) (if marks.any (· == true) then marks else []) use
      devWrite s2 d q i use pz n (a + len) (at_ + len) (data.drop len)

/-- SRC, DST and LENGTH of a COPY. -/
def copySrc (l : List Word) : Word := dword l 5
def copyDst (l : List Word) : Word := dword l 6
def copyLen (l : List Word) : Nat := wbits (dword l 7) 47 0

/-- Does a COPY read over the host link or from another device, so that poison in what it reads makes it POISONED
(14 R322; 09 R224)?  Poison that moves within the package does not (06 Table 6.14). -/
def copyFromOut (s : State) (l : List Word) : Bool :=
  isHost (copySrc l) || addrSlot (wbits (copySrc l) 55 0) != ownSlot s

/-- A piece of a COPY has been read: it is written at its destination, and its poison moves with it (07 R171). -/
def copyDeliver (s : State) (q : Nat) (i : BitVec 32) (off : Nat) (data : List Byte) (pz : Nat → Bool) : State :=
  match s.job q i with
  | none => s
  | some j =>
    let dst := copyDst j.words
    let any := copyFromOut s j.words && (List.range data.length).any pz
    let s1 := if any then s.modJob q i (fun j => { j with poisoned := true }) else s
    let a := wbits dst 55 0 + off
    if isHost dst then hostWrite s1 q i pz (data.length + 1) a 0 data
    else devWrite s1 (queueDie q) q i (.copy q i off) pz (data.length + 1) a 0 data

/-- Do source and destination overlap, in device memory or in host memory? -/
def copyOverlaps (l : List Word) : Bool :=
  let a := wbits (copySrc l) 55 0
  let b := wbits (copyDst l) 55 0
  isHost (copySrc l) == isHost (copyDst l) && decide (a < b + copyLen l) && decide (b < a + copyLen l)

/-- Requests a COPY may have outstanding; a copy that overlaps itself moves one piece at a time, from the end where it
moves upward, so that it writes what SRC held when it issued (06 R137). -/
def copyWindow (l : List Word) : Nat := if copyOverlaps l then 1 else 1024

/-- The next piece of a COPY: its offset and length, within one 4 KiB block of the source. -/
def copyPiece (s : State) (l : List Word) (done : Nat) : Nat × Nat :=
  let left := copyLen l - done
  let src := wbits (copySrc l) 55 0
  if copyOverlaps l && decide (src < wbits (copyDst l) 55 0) then
    let lim := if isHost (copySrc l) then max 1 (min s.host.mrrs 4096) else 4096
    let n := min left ((src + left - 1) % lim + 1)
    (left - n, n)
  else if isHost (copySrc l) then (done, hostChunk s (src + done) left)
  else (done, min left (4096 - (src + done) % 4096))

/-- Issue one piece. -/
def copyIssue (s : State) (q : Nat) (i : BitVec 32) (j : Job) : State :=
  let d := queueDie q
  let (off, n) := copyPiece s j.words j.nextOff
  let a := wbits (copySrc j.words) 55 0 + off
  let s1 := s.modJob q i (fun j => { j with nextOff := j.nextOff + n })
  if isHost (copySrc j.words) then
    hostRead (s1.modJob q i (fun j => { j with need := j.need + 1 })) a n (.copy q i off)
  else if isOwnAddr s d a then
    let key := cellKey d (addrOff a)
    copyDeliver (carryRead s1 key n) q i off (readBytes s key n) (fun k => poisoned s (key + k))
  else
    let s2 := flushRange s1 d (addrSlot a) (addrDie a) (addrOff a) n
    (sendReq (s2.modJob q i (fun j => { j with need := j.need + 1 })) d (addrSlot a) (addrDie a) (addrOff a) n 0x01 []
      [] (.copy q i off)).2

/-- Issue pieces while there are any and the window allows; then end the copy if nothing is left. -/
def copyPump (q : Nat) (i : BitVec 32) : Nat → State → State
  | 0, s => s
  | n + 1, s =>
    match s.job q i with
    | none => s
    | some j =>
      if j.phase ≠ .working then s
      else if copyLen j.words ≤ j.nextOff then (if j.need = 0 then finishOk s q i else s)
      else if copyWindow j.words ≤ j.need then s
      else if (isHost (copySrc j.words) || isHost (copyDst j.words)) && (decide (1024 ≤ s.host.reads.length) || !hostReady s) then s
      else copyPump q i n (copyIssue s q i j)

/-- A piece has ended. -/
def copyOne (s : State) (q : Nat) (i : BitVec 32) : State :=
  copyPump q i 2048 (s.modJob q i (fun j => { j with need := j.need - 1 }))

/-- The fault of an end of a copy that lies on the device's own slot. -/
def endFault (s : State) (w : Word) (len : Nat) : Option (Nat × Place) :=
  if isHost w then none
  else match devAddr w with
    | none => some (wbits w 55 0, .bad)
    | some a =>
      if addrSlot a ≠ ownSlot s then none
      else (faultIn s (addrDie a) (addrOff a) len).map (fun x => (a - addrOff a + x.1, x.2))

/-- A descriptor ends with the fault of an address (06 R152). -/
def faultJob (s : State) (q : Nat) (i : BitVec 32) (a : Nat) (p : Place) : State :=
  finish (faultSticky s (queueDie q) p) q i (placeStatus p) (placeDetail a p)

/-- The speculative lines that a SPEC copy took over are released: they count as used, those gone stale as discarded (06
R142, 0x8062, 0x8063). -/
def useSpecs (s : State) (q : Nat) (i : BitVec 32) : State :=
  let d := queueDie q
  let c := s.cp d
  match c.specs.find? (fun f => f.queue == q && f.idx == i) with
  | none => s
  | some f =>
    let s1 := bump (s.setCp d { c with specs := c.specs.erase f }) 0x8062 (d + 1)
      (fillBytes f (f.lines.filter (fun k => !f.stale.contains k)))
    bump s1 0x8063 (d + 1) (fillBytes f f.stale)

/-- The words of its source that a copy takes over from speculative lines as poisoned (06 R142; 07 R164). -/
def specMarks (s : State) (q : Nat) (i : BitVec 32) : List Nat :=
  match (s.cp (queueDie q)).specs.find? (fun f => f.queue == q && f.idx == i) with
  | some f => f.marks.filter (fun w => !f.stale.contains (w / 64))
  | none => []

/-- COPY (06 R137, R152): both ends are checked; a copy within the die's own store is made at once, any other in pieces.
A copy whose ranges overlap writes the bytes that SRC held when it issued. -/
def copyStart (q : QId) (i : BitVec 32) (s : State) : State :=
  match s.job q.val i with
  | none => s
  | some j =>
    let l := j.words
    let d := queueDie q.val
    let host := isHost (copySrc l) || isHost (copyDst l)
    if descType l ≠ 6 ∨ j.phase ≠ .ready ∨ (host ∧ !hostReady s) then s
    else match endFault s (copySrc l) (copyLen l), endFault s (copyDst l) (copyLen l) with
      | some (a, p), _ => faultJob s q.val i a p
      | none, some (a, p) => faultJob s q.val i a p
      | none, none =>
        let s1 := useSpecs (s.modJob q.val i (fun j => { j with phase := .working })) q.val i
        let a := wbits (copySrc l) 55 0
        let b := wbits (copyDst l) 55 0
        if !isHost (copySrc l) && isOwnAddr s d a && (isHost (copyDst l) || isOwnAddr s d b) then
          let key := cellKey d (addrOff a)
          let n := copyLen l
          finishOk (copyDeliver (carryRead (s1.modJob q.val i (fun j => { j with nextOff := n })) key n) q.val i 0
            (readBytes s key n) (fun k => poisoned s (key + k) || (specMarks s q.val i).contains ((key + k) / 8))) q.val i
        else copyPump q.val i 2048 s1

def execCopy (q : QId) (i : Reading (BitVec 32)) (s : State) : Host.Outcome State Fault Refusal :=
  .next (copyStart q i.arg (readErrs s i.errs))

end Sys2Proof.Machine
end

