-- ==== Sys2Proof/Machine/Fabric.lean ====
section
/-!
DEFINITION. The fabric (09; 13 R295 to R297): the ejection of packets and the service of their requests, PUT, PULL,
multicast, circuit puts and SEND, the FABRIC operations, transit, timeouts, and the replies that end the requests of
other dies and devices.
-/

namespace Sys2Proof.Machine

/-! ### The end of a descriptor's requests -/

/-- Is a request to another die or device a piece of a descriptor's data? -/
def D2dFor.isOf (u : D2dFor) (q : Nat) (i : BitVec 32) : Bool :=
  match u with
  | .copy q' i' _ => q' == q && i' == i
  | .put q' i' _ => q' == q && i' == i
  | _ => false

/-- Is a host read a piece of a descriptor's data? -/
def ReadFor.isOf (u : ReadFor) (q : Nat) (i : BitVec 32) : Bool :=
  match u with
  | .copy q' i' _ => q' == q && i' == i
  | .put q' i' _ => q' == q && i' == i
  | .fetch _ _ => false
  | .dropped => false

/-- Every outstanding request of a descriptor is given up: its tag is spent and a late reply finds none (09 R225). -/
def dropRequests (s : State) (q : Nat) (i : BitVec 32) : State :=
  let gone := (s.fab.reqs.filter (fun r => r.queue == q && r.idx == i && !r.ghost)).map Req.tag
    ++ (s.d2dReqs.filter (fun r => r.use.isOf q i)).map D2dReq.tag
  let s1 := { s with
    fab := { s.fab with reqs := s.fab.reqs.filter (fun r => !(r.queue == q && r.idx == i && !r.ghost)) },
    d2dReqs := s.d2dReqs.filter (fun r => !r.use.isOf q i),
    host := { s.host with reads := s.host.reads.filter (fun r => !r.use.isOf q i) } }
  gone.foldl spendTag s1

/-- A descriptor that awaits replies ends with a stopping status. -/
def failJob (s : State) (q : Nat) (i : BitVec 32) (status : Byte) (detail : Nat) : State :=
  finish (dropRequests s q i) q i status detail

/-! ### Ejection (09 R206, R213, R225; 13 R295 to R297) -/

/-- The port by which a packet came has drained it, and returns its frees where no flit has carried them (09 R214). -/
def returnFrees (p : Packet) (s : State) : State :=
  match p.inPort with
  | none => s
  | some port => tellPort port.val 22 s

/-- The device enters the fenced state (13 R297; Table 13.4: its ghost engine stops sending). -/
def enterFenced (s : State) : State :=
  let r := s.res
  if r.fenced then s
  else
    let s1 := dset (sticky { s with res := { r with fenced := true, passedOk := false } } 0xA0C0 1 0) 0xC000 2 1
    if r.mode ≠ 0 then sticky s1 0xA0C0 11 0 else s1

/-- An ERR that carries FENCED. -/
def isFencedErr (p : Packet) : Bool := p.typ == 0x15 && wbits p.aux 7 0 == 0x1C

/-- A packet's epoch is the device's own, the next or the one before (13 R295). -/
def epochOk (s : State) (p : Packet) : Bool :=
  let d := p.epoch - BitVec.ofNat 16 (dcell s 0xC000 1)
  d == 0 || d == 1 || d == 65535

/-- The bell of a bell-class packet. -/
def packetBell (p : Packet) : Nat := p.id.toNat

/-- A bell frame is discarded (06 R150). -/
def discardFrame (s : State) (p : Packet) : State :=
  let d := bellDie (packetBell p)
  sticky (bump s 0x8064 (d + 1) 1) 0xA060 4 d

/-- An ejected packet acts: one from a fenced device is discarded, a REQ or FWD answered FENCED; one of a stale epoch is
discarded; any other takes its effect. -/
def ejected (p : Packet) (act : State → State) (s1 : State) : State :=
  if isFenced s1 p.src then
    let s2 := bump s1 0x80C0 1 1
    if p.cls == 0 || p.cls == 2 then replyErr s2 p 0x1C else s2
  else if epochOk s1 p || isFencedErr p then act s1
  else
    let s2 := bump s1 0x80C0 1 1
    if p.cls == 5 then discardFrame s2 p else s2

/-- A packet is ejected at this device, where the flits received have brought it, whole and the oldest of its stream, and
for a request where its reply has credit (09 R206, R214, R217 item 4). -/
def eject (p : Packet) (act : State → State) (s : State) : State :=
  if !fabricLive s || s.fab.coord != some p.dst || !replyCredit s p then s
  else match takePacket s p with
    | none => s
    | some t => returnFrees p (ejected p act t)

/-- A packet that goes on, or that a hop reads, at the port by which it came: it is taken when `act` can act on it, and
stays in the pool otherwise. -/
def atPort (p : Packet) (act : State → Option State) (s : State) : State :=
  if !fabricLive s then s
  else match takeAtPort s p with
    | none => s
    | some t => match act t with
      | none => s
      | some u => returnFrees p u

/-- The marks of a packet's data by word. -/
def packetMark (p : Packet) (k : Nat) : Bool := p.px && p.poison.getD k false

/-! ### Windows (09 R204) -/

/-- The window registered under a number. -/
def windowOf (s : State) (id : Nat) : Option Window := mget none s.fab.windows id

/-- Windows and receive queues refuse while a requalification runs (13 R315). -/
def refusing (s : State) : Bool := s.health.running

/-- The store key of a range of a window that a source may write (`put`) or read. -/
def windowRange (s : State) (id off len : Nat) (src : BitVec 18) (put : Bool) : Option Nat :=
  match windowOf s id with
  | none => none
  | some w =>
    if refusing s || decide (w.len < off + len) || (if put then !w.put else !w.pull)
        || (match w.filter with | some c => c != src | none => false) then none
    else some (w.base + off)

/-- A refused request: the sticky bit and ERR (09 R204, R205). -/
def refusePacket (s : State) (p : Packet) (status : Nat) : State := replyErr (sticky s 0xA090 5 0) p status

/-- An owner's answer to a place that faults. -/
def packetFault (s : State) (p : Packet) (x : Place) : State :=
  match x with
  | .hole d => replyErr (sticky s 0xA070 7 d) p 0x19
  | _ => replyErr s p (placeStatus x).toNat

/-- The stack whose ghost window a window is, for the owner that this device hosts (13 R302). -/
def ghostWindowStack (s : State) (id : Nat) (src : BitVec 18) : Option Nat :=
  let base := dcell s 0xC028 2
  let owner := dnum s 0xC028 1
  if owner == src.toNat && decide (base ≤ id) && decide (id < base + 8) then some (id - base) else none

/-- J of the ghost this device hosts, and G_n of its stack n: what the window holds beyond the record slot, the journal
and its index, in whole blocks (13 R302, Table 13.1; log 18). -/
def hostJournal (s : State) : Nat := dcell s 0xC028 3 * 1048576
def hostBase (s : State) (n : Nat) : Nat :=
  match windowOf s (dcell s 0xC028 2 + n) with
  | none => 0
  | some w => (w.len - 4096 - hostJournal s - hostJournal s / 8192) / 65536 * 65536

/-- A put into a hosted ghost's window has landed: each 64 KiB unit of the base or the journal is entered in order of
arrival, and the stack is RECEIVING in the journal, UNSTABLE in the base, or FILLING (13 R306, R307). -/
def ghostTaken (s : State) (id off : Nat) (src : BitVec 18) : State :=
  match ghostWindowStack s id src with
  | none => s
  | some n =>
    let g := hostBase s n
    if off < 4096 ∨ 4096 + g + hostJournal s ≤ off then s
    else
      let r := s.res
      let unit := (off - 4096) / 65536 * 65536 + 4096
      let direct := decide (off < 4096 + g)
      let old := mget 0 r.hostState n
      let now_ := if old = 0 ∨ old = 1 then 1 else if old = 6 then 6 else if direct || old == 4 then 4 else 3
      { s with res := { r with
          hostState := mput 0 r.hostState n now_,
          rx := if r.rx.contains (n, unit) then r.rx else r.rx ++ [(n, unit)] } }

/-- Write a put's data at a window's address: the place that faults, or the state. -/
def putBytes (s : State) (a : Nat) (p : Packet) : Except Place State :=
  match faultIn s (addrDie a) (addrOff a) p.data.length with
  | some (_, x) => .error x
  | none => .ok (storeBytes s (cellKey (addrDie a) (addrOff a)) p.data (packetMark p))

/-- The count of packets acknowledged and the members written, as PUTA carries them. -/
def ackAux (n members : Nat) : Word := BitVec.ofNat 64 (n * 2 ^ 32 + members)

/-- The sticky bit of a multicast put that a member does not write: a hole of a tier, else a refused request (07 R162; 09
R233). -/
def mcastSticky (s : State) (x : Option Place) : State :=
  match x with
  | some (.hole d) => sticky s 0xA070 7 d
  | _ => sticky s 0xA090 5 0

/-- A member's part of a multicast put: its own write and its bit, then the packet onward, or PUTA where the line
of members ends (09 R222). `ok` says that the packet was accepted here; none where the onward port cannot take it yet. -/
def mcastMember (s : State) (p : Packet) (ok : Bool) : Option State :=
  let me := s.fab.coord.getD 0
  let axis := p.mcAxis.toNat
  let dist := fun (c : BitVec 18) =>
    if p.mcDir then coordOn p.src axis - coordOn c axis else coordOn c axis - coordOn p.src axis
  let (wrote, s1) :=
    if !ok then (false, s)
    else match windowRange s p.id.toNat p.offset.toNat p.data.length p.src true with
      | none => (false, mcastSticky s none)
      | some a => match putBytes s a p with
        | .error x => (false, mcastSticky s (some x))
        | .ok t => (true, t)
  let members := wbits p.aux 31 0 + (if wrote then 2 ^ (dist me - 1) else 0)
  let port := 6 * p.plane.val + 2 * axis + (if p.mcDir then 1 else 0)
  let peer := s1.port port
  let on := { p with aux := ackAux 0 members, inPort := none }
  if peer.state = 2 ∧ dist peer.peer ≤ p.mcSpan.toNat + 1 then
    (portTakes (bump s1 0x8090 (p.plane.val + 1) (packetFlits p)) port on).1
  else if replyCredit s1 p then some (reply s1 p 0x12 (fun r => { r with aux := ackAux 1 members }))
  else none

/-- A multicast packet has reached a member. -/
def mcastArrive (s : State) (p : Packet) : State :=
  atPort p (fun t =>
    let ok := epochOk t p && !isFenced t p.src
    mcastMember (if ok then t else bump t 0x80C0 1 1) p ok) s

/-- FAB_PUT (09 R204, R222, R224): checked against its window, written with its poison marks, and acknowledged. -/
def fabPut (p : Packet) (s : State) : State :=
  if p.mcast then mcastArrive s p
  else eject p (fun t =>
    match windowRange t p.id.toNat p.offset.toNat p.data.length p.src true with
    | none => refusePacket t p 0x31
    | some a => match putBytes t a p with
      | .error x => packetFault t p x
      | .ok u => reply (ghostTaken u p.id.toNat p.offset.toNat p.src) p 0x12 (fun r => { r with aux := ackAux 1 0 })) s

def execFabPut (p : Packet) (s : State) : Host.Outcome State Fault Refusal := .next (fabPut p s)

/-- FAB_LD (09 R202): read by the named die from its own store, within one 4 KiB block, and answered LDR. -/
def fabLd (p : Packet) (s : State) : State :=
  eject p (fun t =>
    let d := p.dstDie.toNat
    let off := p.offset.toNat
    match faultIn t d off p.len.toNat with
    | some (_, x) => packetFault t p x
    | none =>
      let key := cellKey d off
      let marks := (wordsOf key p.len.toNat).map t.poison.contains
      reply (carryRead t key p.len.toNat) p 0x10 (fun r =>
        { r with len := p.len, data := readBytes t key p.len.toNat, px := marks.any (· == true),
                 poison := if marks.any (· == true) then marks else [] })) s

def execFabLd (p : Reading Packet) (s : State) : Host.Outcome State Fault Refusal :=
  .next (fabLd p.arg (readErrs s p.errs))

/-- FAB_ST (09 R202): written by the named die and answered STA. -/
def fabSt (p : Packet) (s : State) : State :=
  eject p (fun t =>
    match faultIn t p.dstDie.toNat p.offset.toNat p.data.length with
    | some (_, x) => packetFault t p x
    | none =>
      reply (storeBytes t (cellKey p.dstDie.toNat p.offset.toNat) p.data (packetMark p)) p 0x11 id) s

def execFabSt (p : Packet) (s : State) : Host.Outcome State Fault Refusal := .next (fabSt p s)

/-- FAB_STM (09 R202; 08 R193): the masked bytes of a line are written and answered STA. -/
def fabStm (p : Packet) (s : State) : State :=
  eject p (fun t =>
    match faultIn t p.dstDie.toNat p.offset.toNat 512 with
    | some (_, x) => packetFault t p x
    | none =>
      reply (storeMasked t (cellKey p.dstDie.toNat p.offset.toNat) (leNat (p.data.take 64)) (p.data.drop 64)
        (packetMark p)) p 0x11 id) s

def execFabStm (p : Packet) (s : State) : Host.Outcome State Fault Refusal := .next (fabStm p s)

/-! ### Receive queues (09 R205) -/

/-- The receive queue registered under a number. -/
def recvOf (s : State) (id : Nat) : Option RecvQ := mget none s.fab.rqs id

/-- FAB_SEND (09 R205): a slot is filled, PRODUCED advances, the bell is struck by the hub and SENDA answers; a full or
unfit queue refuses. -/
def fabSend (p : Packet) (s : State) : State :=
  eject p (fun t =>
    match recvOf t p.id.toNat with
    | none => refusePacket t p 0x33
    | some r =>
      let size := 2 ^ r.slotLog2
      let ctrl := cellKey (addrDie r.ctrl) (addrOff r.ctrl)
      if refusing t || decide (size < p.data.length + 32) then refusePacket t p 0x33
      else match faultIn t (addrDie r.ctrl) (addrOff r.ctrl) 16 with
        | some (_, x) => packetFault t p x
        | none =>
          let produced := leNat (readBytes t ctrl 8)
          let consumed := leNat (readBytes t (ctrl + 8) 8)
          if 2 ^ r.slotsLog2 ≤ (produced + 2 ^ 64 - consumed) % 2 ^ 64 then refusePacket t p 0x32
          else
            let a := r.base + produced % 2 ^ r.slotsLog2 * size
            match faultIn t (addrDie a) (addrOff a) (32 + p.data.length) with
            | some (_, x) => packetFault t p x
            | none =>
              let key := cellKey (addrDie a) (addrOff a)
              let head := natLe 8 p.aux.toNat ++ natLe 4 p.data.length ++ natLe 4 p.src.toNat
              let u1 := storeBytes t key head (fun _ => false)
              let u2 := storeBytes u1 (key + 32) p.data (packetMark p)
              let u3 := storeBytes u2 ctrl (natLe 8 (produced + 1)) (fun _ => false)
              let u4 := match r.bell with | some b => packageStrike u3 8 b 1 | none => u3
              reply u4 p 0x13 id) s

def execFabSend (p : Packet) (s : State) : Host.Outcome State Fault Refusal := .next (fabSend p s)

/-- FAB_PULL (09 R204, R206): a window is read and its bytes return as PULLD to the window and offset that the data
names. -/
def fabPull (p : Packet) (s : State) : State :=
  eject p (fun t =>
    match windowRange t p.id.toNat p.offset.toNat p.len.toNat p.src false with
    | none => refusePacket t p 0x31
    | some a => match faultIn t (addrDie a) (addrOff a) p.len.toNat with
      | some (_, x) => packetFault t p x
      | none =>
        let key := cellKey (addrDie a) (addrOff a)
        let marks := (wordsOf key p.len.toNat).map t.poison.contains
        let back := leNat p.data
        reply (carryRead t key p.len.toNat) p 0x09 (fun r =>
          { r with cls := 2, id := BitVec.ofNat 12 (bitsOf back 59 48), offset := BitVec.ofNat 48 (bitsOf back 47 0),
                   len := p.len, data := readBytes t key p.len.toNat, px := marks.any (· == true),
                   poison := if marks.any (· == true) then marks else [] })) s

def execFabPull (p : Reading Packet) (s : State) : Host.Outcome State Fault Refusal :=
  .next (fabPull p.arg (readErrs s p.errs))

/-! ### Circuits (09 R219 to R221) -/

/-- The lanes of a mask. -/
def laneList (m : BitVec 16) : List Nat := onesBelow 16 m.toNat

/-- An outgoing port can set lanes aside: all are free of circuits, their number stays within CIRCUIT_LANES_MAX, and the
shared part still holds 64 flits for each (09 R213, R220). -/
def lanesFree (s : State) (port : Nat) (m : BitVec 16) : Bool :=
  let x := s.port port
  let n := (laneList m).length
  x.state == 2 && x.lanes &&& m == 0 && decide ((laneList x.lanes).length + n ≤ dnum s 0x9003 2)
    && decide (64 * n ≤ x.sharedFree)

/-- Reserve lanes on an outgoing port. -/
def takeLanes (s : State) (port : Nat) (m : BitVec 16) : State :=
  let x := s.port port
  s.setPort port { x with lanes := x.lanes ||| m, sharedFree := x.sharedFree - 64 * (laneList m).length }

/-- Release lanes of an outgoing port. -/
def dropLanes (s : State) (port : Nat) (m : BitVec 16) : State :=
  let x := s.port port
  let had := x.lanes &&& m
  s.setPort port
    { x with lanes := x.lanes &&& ~~~m, sharedFree := x.sharedFree + 64 * (laneList had).length,
             laneU := x.laneU.filter (fun e => !had.getLsbD e.1) }

/-- The circuit entry of an input port and a lane (09 R220). -/
def hopOf (s : State) (port : Nat) (l : Nat) : Option HopEntry :=
  s.fab.hops.find? (fun e => e.inPort.val == port && e.lane.val == l)

/-- What CSETUP's eight data bytes carry: LANE_MASK in bits 15:0 and the window in 59:48; CTEAR names its lanes in AUX
(log 19). -/
def setupLanes (p : Packet) : BitVec 16 := BitVec.ofNat 16 (bitsOf (leNat p.data) 15 0)
def setupWindow (p : Packet) : BitVec 12 := BitVec.ofNat 12 (bitsOf (leNat p.data) 59 48)

/-- A lane number as a field. -/
def laneField (l : Nat) : Fin 16 := if h : l < 16 then ⟨l, h⟩ else 0

/-- A hop of a circuit's path reads CSETUP (09 R220): it reserves the lanes on its outgoing port, enters them and sends the
setup on, or refuses; none where the outgoing port cannot take it yet. -/
def hopSetup (p : Packet) (s : State) : Option State :=
  match nextPort s p.dst p.plane.val, p.inPort with
  | some port, some inp =>
    let m := setupLanes p
    if stepsPast s p.dst port then
      some (replyErr (sticky (bump s 0x8091 (p.plane.val + 1) 1) 0xA090 1 p.plane.val) p 0x30)
    else if lanesFree s port m && !(laneList m).any (fun l => (hopOf s inp.val l).isSome) then
      let t := takeLanes s port m
      let es := (laneList m).map (fun l => ({ inPort := inp, lane := laneField l, outPort := portField port } : HopEntry))
      (portTakes (bump { t with fab := { t.fab with hops := t.fab.hops ++ es } } 0x8090 (p.plane.val + 1) (packetFlits p))
        port { p with inPort := none }).1
    else some (replyErr s p 0x35)
  | _, _ => some s

/-- FAB_CSETUP (09 R220): a hop reserves the lanes; the destination checks the window and answers CACK. -/
def fabCsetup (p : Packet) (s : State) : State :=
  if s.fab.coord == some p.dst then
    eject p (fun t =>
      match windowRange t (setupWindow p).toNat 0 0 p.src true with
      | none => refusePacket t p 0x35
      | some _ =>
        reply { t with fab := { t.fab with ends := t.fab.ends ++ [(p.src, p.id, setupWindow p)] } } p 0x14 id) s
  else atPort p (hopSetup p) s

def execFabCsetup (p : Packet) (s : State) : Host.Outcome State Fault Refusal := .next (fabCsetup p s)

/-- A hop of a circuit's path reads CTEAR: it releases its entries for the lanes and sends the packet on; a hop without any
is where the setup ended. -/
def hopTear (p : Packet) (s : State) : Option State :=
  let m := BitVec.ofNat 16 (wbits p.aux 15 0)
  match p.inPort with
  | none => some s
  | some inp =>
    match s.fab.hops.filter (fun e => e.inPort == inp && m.getLsbD e.lane.val) with
    | [] => some s
    | e :: _ =>
      let t := { s with fab := { s.fab with
        hops := s.fab.hops.filter (fun h => !(h.inPort == inp && m.getLsbD h.lane.val)) } }
      let u := bump (dropLanes t e.outPort.val m) 0x8090 (p.plane.val + 1) (packetFlits p)
      if (s.port e.outPort.val).state ≠ 2 then some u else (portTakes u e.outPort.val { p with inPort := none }).1

/-- FAB_CTEAR (09 R220, R221): a hop releases its lanes, and the destination answers CACK. -/
def fabCtear (p : Packet) (s : State) : State :=
  if s.fab.coord == some p.dst then
    eject p (fun t =>
      reply { t with fab := { t.fab with ends := t.fab.ends.filter (fun e => !(e.1 == p.src && e.2.1 == p.id)) } }
        p 0x14 id) s
  else atPort p (hopTear p) s

def execFabCtear (p : Packet) (s : State) : Host.Outcome State Fault Refusal := .next (fabCtear p s)

/-! ### Requests of this device -/

/-- The fabric request with a tag. -/
def fabReq (s : State) (tag : BitVec 16) : Option Req := s.fab.reqs.find? (fun r => r.tag == tag)

/-- A fabric request ends; its tag is spent. -/
def endReq (s : State) (r : Req) : State :=
  spendTag { s with fab := { s.fab with reqs := s.fab.reqs.erase r } } r.tag

/-- Enter a request of a descriptor and send its packet on a plane. -/
def request (s : State) (q : Nat) (i : BitVec 32) (plane : Nat) (circuit : Option (BitVec 12)) (ghost : Bool)
    (p : Packet) : State :=
  let (tag, s1) := freshTag s
  let p1 := { p with tag := tag }
  let r : Req :=
    { tag := tag, queue := q, idx := i, die := queueDie q, at_ := clock s, leftAt := none, typ := p.typ, packet := onPlane p1 plane,
      circuit := circuit, resent := false, ghost := ghost }
  sendOn { s1 with fab := { s1.fab with reqs := s1.fab.reqs ++ [r] } } plane p1

/-! ### PUT, PULL and SEND (09 R221, R222, R224, R230, R231) -/

def putEndpoint (l : List Word) : BitVec 18 := BitVec.ofNat 18 (wbits (dword l 6) 47 30)
def putPull (l : List Word) : Bool := (dword l 6).getLsbD 63
def putMcast (l : List Word) : Bool := (dword l 6).getLsbD 62
def putAxis (l : List Word) : Nat := wbits (dword l 6) 61 60
def putMinus (l : List Word) : Bool := (dword l 6).getLsbD 59
def putSpan (l : List Word) : Nat := wbits (dword l 6) 58 54
def putCirc (l : List Word) : Bool := (dword l 6).getLsbD 53
def putCircuit (l : List Word) : BitVec 12 := BitVec.ofNat 12 (wbits (dword l 6) 23 12)
def putWindow (l : List Word) : Nat := wbits (dword l 6) 11 0
def isSend (l : List Word) : Bool := descType l == 8
/-- LENGTH of a PUT or SEND. -/
def putLen (l : List Word) : Nat := if isSend l then wbits (dword l 7) 12 0 else (dword l 9).toNat
/-- PLANE_MASK of a PUT or SEND. -/
def putMask (l : List Word) : Nat := if isSend l then wbits (dword l 9) 7 0 else wbits (dword l 10) 7 0

/-- The circuit that a put names, open and sourced here. -/
def openCircuit (s : State) (id : BitVec 12) : Option Circuit :=
  s.fab.circuits.find? (fun c => c.id == id && c.isOpen)

/-- Where a PUT or SEND goes: its endpoint, or the farthest member of its multicast (09 R222). -/
def putDst (s : State) (l : List Word) : BitVec 18 :=
  if isSend l then BitVec.ofNat 18 (wbits (dword l 6) 47 30)
  else if putMcast l then
    let me := s.fab.coord.getD 0
    let c := coordOn me (putAxis l)
    coordSet me (putAxis l) (if putMinus l then c - (putSpan l + 1) else c + (putSpan l + 1))
  else putEndpoint l

/-- The packet of a piece of a PUT, PULL or SEND. -/
def putPacket (s : State) (q : Nat) (l : List Word) (off len : Nat) (data : List Byte) (pz : Nat → Bool) : Packet :=
  let base := newPacket s (queueDie q) (putDst s l) 0 (if isSend l then 5 else if putPull l then 6 else 4)
  if isSend l then
    let marks := (wordsOf 0 data.length).map (fun w => wordMarks 0 data.length pz w)
    { base with id := BitVec.ofNat 12 (wbits (dword l 6) 7 0), len := BitVec.ofNat 13 len, aux := dword l 8,
                data := data, px := marks.any (· == true), poison := marks }
  else
    let at_ := wbits (dword l 7) 47 0 + off
    if putPull l then
      { base with id := BitVec.ofNat 12 (putWindow l), len := BitVec.ofNat 13 len, offset := BitVec.ofNat 48 at_,
                  data := natLe 8 (wbits (dword l 8) 59 48 * 2 ^ 48 + (wbits (dword l 8) 47 0 + off)) }
    else
      let marks := (wordsOf at_ data.length).map (fun w => wordMarks at_ data.length pz (w - at_ / 8))
      { base with id := BitVec.ofNat 12 (putWindow l), len := BitVec.ofNat 13 len, offset := BitVec.ofNat 48 at_,
                  data := data, px := marks.any (· == true), poison := marks, mcast := putMcast l,
                  mcAxis := BitVec.ofNat 2 (if putMcast l then putAxis l else 0), mcDir := putMcast l && putMinus l,
                  mcSpan := BitVec.ofNat 5 (if putMcast l then putSpan l else 0) }

/-- Deal one packet of a descriptor: on its circuit's lanes in turn, or on the next plane of its allowed set. -/
def dealPacket (s : State) (q : Nat) (i : BitVec 32) (j : Job) (p : Packet) : State :=
  let s1 := s.modJob q i (fun j => { j with plane := j.plane + 1 })
  match (if putCirc j.words && !isSend j.words then openCircuit s (putCircuit j.words) else none) with
  | some c =>
    request s1 q i c.plane (some c.id) false { p with lane := circuitLane s1 c.plane p }
  | none =>
    if putCirc j.words && !isSend j.words then failJob s q i 0x36 (putCircuit j.words).toNat
    else
    match planeAt (allowedPlanes s p.dst (putMask j.words)) j.plane with
    | some k => request s1 q i k none false p
    | none => failJob s q i 0x30 (s.fab.coord.getD 0).toNat

/-- A piece takes its place by offset. -/
def insertPart (p : Nat × List Byte × List Bool) : List (Nat × List Byte × List Bool) → List (Nat × List Byte × List Bool)
  | [] => [p]
  | g :: r => if p.1 < g.1 then p :: g :: r else g :: insertPart p r

/-- The bytes of a piece have been read: it is sent, and poison in it marks the descriptor (09 R224). A SEND goes out, in one
packet, once all its pieces have come. -/
def putDeliver (s : State) (q : Nat) (i : BitVec 32) (off : Nat) (data : List Byte) (pz : Nat → Bool) : State :=
  match s.job q i with
  | none => s
  | some j =>
    let any := (List.range data.length).any pz
    let s1 := if any then s.modJob q i (fun j => { j with poisoned := true }) else s
    if isSend j.words then
      let all := insertPart (off, data, (List.range data.length).map pz) j.parts
      let whole := all.flatMap (fun p => p.2.1)
      let marks := all.flatMap (fun p => p.2.2)
      if whole.length < putLen j.words then s1.modJob q i (fun j => { j with parts := all })
      else dealPacket s1 q i j (putPacket s q j.words 0 whole.length whole (fun k => marks.getD k false))
    else dealPacket s1 q i j (putPacket s q j.words off data.length data pz)

/-- The reads of a SEND's payload from the host or from another die: each a host read of its own, or within one 4 KiB
block (14 R322 rule 2; 08 Table 8.3). `n` bounds the reads. -/
def sendReads (q : Nat) (i : BitVec 32) (host : Bool) (a : Nat) : Nat → Nat → Nat → State → State
  | 0, _, _, s => s
  | n + 1, off, left, s =>
    if left = 0 then s
    else
      let at_ := a + off
      let k := if host then hostChunk s at_ left else min left (4096 - at_ % 4096)
      let t := if host then hostRead s at_ k (.put q i off)
        else
          (sendReq (flushRange s (queueDie q) (addrSlot at_) (addrDie at_) (addrOff at_) k) (queueDie q) (addrSlot at_)
            (addrDie at_) (addrOff at_) k 0x01 [] [] (.put q i off)).2
      sendReads q i host a n (off + k) (left - k) t

/-- Host reads that the next piece takes. -/
def readsNext (s : State) (l : List Word) : Nat := if isSend l then putLen l / s.host.mrrs + 2 else 1

/-- The next piece: a SEND whole, a PUT at most 4 KiB, within one 4 KiB block of the source, or one host read. -/
def putPiece (s : State) (l : List Word) (done : Nat) : Nat :=
  let left := putLen l - done
  let src := wbits (dword l 5) 55 0
  if putPull l && !isSend l then min left 4096
  else if isSend l then left
  else if isHost (dword l 5) then hostChunk s (src + done) left
  else min left (4096 - (src + done) % 4096)

/-- Issue one piece: its packet at once where the bytes are the die's own or the descriptor pulls, else their read. -/
def putIssue (s : State) (q : Nat) (i : BitVec 32) (j : Job) : State :=
  let d := queueDie q
  let l := j.words
  let n := putPiece s l j.nextOff
  let off := j.nextOff
  let a := wbits (dword l 5) 55 0 + off
  let s1 := s.modJob q i (fun j => { j with nextOff := j.nextOff + n, need := j.need + 1 })
  if putPull l && !isSend l then dealPacket s1 q i j (putPacket s q l off n [] (fun _ => false))
  else if n = 0 then putDeliver s1 q i off [] (fun _ => false)
  else if isSend l && (isHost (dword l 5) || !isOwnAddr s d a) then sendReads q i (isHost (dword l 5)) a (n + 1) 0 n s1
  else if isHost (dword l 5) then hostRead s1 a n (.put q i off)
  else if isOwnAddr s d a then
    let key := cellKey d (addrOff a)
    putDeliver (carryRead s1 key n) q i off (readBytes s key n) (fun k => poisoned s (key + k))
  else
    (sendReq (flushRange s1 d (addrSlot a) (addrDie a) (addrOff a) n) d (addrSlot a) (addrDie a) (addrOff a) n 0x01 []
      [] (.put q i off)).2

/-- The members that a multicast put must reach. -/
def mcastAll (l : List Word) : Nat := 2 ^ (putSpan l + 1) - 1

/-- A PUT or SEND whose every packet has been answered ends: a multicast that missed a member with MCAST_PARTIAL. -/
def putEnd (s : State) (q : Nat) (i : BitVec 32) (j : Job) : State :=
  if putMcast j.words && !isSend j.words && j.bitmap.toNat != mcastAll j.words then
    finish s q i 0x37 j.bitmap.toNat
  else finishOk s q i

/-- Issue pieces while there are any and the window of 1,024 requests allows; end the descriptor when all are
answered. -/
def putPump (q : Nat) (i : BitVec 32) : Nat → State → State
  | 0, s => s
  | n + 1, s =>
    match s.job q i with
    | none => s
    | some j =>
      if j.phase ≠ .working then s
      else if putLen j.words ≤ j.nextOff ∧ (putLen j.words ≠ 0 ∨ j.need ≠ 0 ∨ j.plane ≠ queueLocal q % 8) then
        (if j.need = 0 then putEnd s q i j else s)
      else if 1024 ≤ j.need then s
      else if isHost (dword j.words 5) && !(putPull j.words && !isSend j.words)
          && (decide (1024 < s.host.reads.length + readsNext s j.words) || !hostReady s) then s
      else putPump q i n (putIssue s q i j)

/-- One packet has been answered. -/
def putOne (s : State) (q : Nat) (i : BitVec 32) : State :=
  putPump q i 2048 (s.modJob q i (fun j => { j with need := j.need - 1 }))

/-- The start of a PUT or SEND that a test picks (09 R211, R221, R230, R231): the source is checked, an empty set of
planes is UNREACHABLE, and its packets go out. -/
def putStart (q : QId) (i : BitVec 32) (want : List Word → Bool) (s : State) : State :=
  match s.job q.val i with
  | none => s
  | some j =>
    let l := j.words
    let pull := putPull l && !isSend l
    if !want l || j.phase != .ready || (!pull && isHost (dword l 5) && !hostReady s) then s
    else
      let fault := if pull || putLen l == 0 then none else endFault s (dword l 5) (putLen l)
      let other := !pull && !isHost (dword l 5) && addrSlot (dword l 5).toNat != ownSlot s
      match fault with
      | some (a, p) => faultJob s q.val i a p
      | none =>
        if other then faultJob s q.val i (wbits (dword l 5) 55 0) .bad
        else if putCirc l && !isSend l && (openCircuit s (putCircuit l)).isNone then
          finish s q.val i 0x35 (s.fab.coord.getD 0).toNat
        else if !(putCirc l && !isSend l) && (allowedPlanes s (putDst s l) (putMask l)).isEmpty then
          finish s q.val i 0x30 (s.fab.coord.getD 0).toNat
        else
          putPump q.val i 2048 (s.modJob q.val i (fun j =>
            { j with phase := .working, plane := queueLocal q.val % 8,
                     bitmap := BitVec.ofNat 32 (if putMcast l && !isSend l then mcastAll l else 0) }))

/-- PUT (09 R230): writes into a window of a target device. -/
def execPut (q : QId) (i : Reading (BitVec 32)) (s : State) : Host.Outcome State Fault Refusal :=
  .next (putStart q i.arg (fun l => descType l == 7 && !putPull l && !putMcast l && !putCirc l) (readErrs s i.errs))

/-- PULL (09 R230): reads the target's window into this device's LWINDOW. -/
def execPull (q : QId) (i : BitVec 32) (s : State) : Host.Outcome State Fault Refusal :=
  .next (putStart q i (fun l => descType l == 7 && putPull l) s)

/-- MCAST_PUT (09 R222): writes the window of every member along one axis. -/
def execMcastPut (q : QId) (i : Reading (BitVec 32)) (s : State) : Host.Outcome State Fault Refusal :=
  .next (putStart q i.arg (fun l => descType l == 7 && putMcast l && !putPull l) (readErrs s i.errs))

/-- CIRCUIT_PUT (09 R221): its packets travel in the circuit's lanes. -/
def execCircuitPut (q : QId) (i : Reading (BitVec 32)) (s : State) : Host.Outcome State Fault Refusal :=
  .next (putStart q i.arg (fun l => descType l == 7 && putCirc l && !putPull l && !putMcast l) (readErrs s i.errs))

/-- SEND (09 R231): one message to a receive queue of a target device. -/
def execSend (q : QId) (i : Reading (BitVec 32)) (s : State) : Host.Outcome State Fault Refusal :=
  .next (putStart q i.arg (fun l => descType l == 8) (readErrs s i.errs))

/-! ### FABRIC operations (09 R232) -/

def fabOp (l : List Word) : Nat := wbits (dword l 5) 63 56
def fabId (l : List Word) : Nat := wbits (dword l 5) 11 0

/-- A FABRIC descriptor issued before this one in its queue has not taken effect: they do in issue order (09 R232). -/
def fabricBefore (s : State) (q : Nat) (i : BitVec 32) : Bool :=
  ((s.queue q).jobs.takeWhile (fun j => j.idx != i)).any (fun j => descType j.words == 17 && j.phase == .ready)

/-- Run a FABRIC operation of a hub queue that is ready and whose turn it is. -/
def fabricOp (q : QId) (i : BitVec 32) (op : Nat) (act : List Word → State → State) (s : State) : State :=
  match s.job q.val i with
  | none => s
  | some j =>
    if descType j.words = 17 ∧ fabOp j.words = op ∧ j.phase = .ready ∧ fabricBefore s q.val i = false then act j.words s
    else s

/-- The base address of a registration names a mapped byte of this device (06 R152; 09 R204). -/
def regFault (s : State) (w : Word) : Option (Nat × Place) :=
  if addrSlot w.toNat ≠ ownSlot s then some (wbits w 55 0, .bad) else endFault s w 1

/-- CIRCUIT_OPEN (09 R220): the source reserves its own port's lanes and sends CSETUP; it completes on CACK or with
CIRCUIT_REFUSED. -/
def circuitOpen (q : QId) (i : BitVec 32) (s : State) : State :=
  fabricOp q i 1 (fun l t =>
    let id := BitVec.ofNat 12 (fabId l)
    let dst := BitVec.ofNat 18 (wbits (dword l 6) 47 30)
    let m := BitVec.ofNat 16 (wbits (dword l 7) 15 0)
    let plane := wbits (dword l 5) 19 16
    let me := (t.fab.coord.getD 0).toNat
    match nextPort t dst plane with
    | none => finish t q.val i 0x35 me
    | some port =>
      if !dieUp t plane then finish t q.val i 0x30 me
      else if 256 ≤ t.fab.circuits.length || t.fab.circuits.any (fun c => c.id == id) || !lanesFree t port m then
        finish t q.val i 0x35 me
      else
        let c : Circuit :=
          { id := id, queue := q.val, idx := i, dst := dst, window := BitVec.ofNat 12 (wbits (dword l 6) 11 0),
            plane := plane, lanes := m, isOpen := false, closing := false }
        let t1 := takeLanes t port m
        let t2 := { t1 with fab := { t1.fab with circuits := t1.fab.circuits ++ [c] } }
        let p := { newPacket t 8 dst 0 0x07 with
                   id := id, len := 8, data := natLe 8 (c.window.toNat * 2 ^ 48 + m.toNat) }
        request (t2.modJob q.val i (fun j => { j with phase := .working, need := 1 })) q.val i plane none false p) s

def execCircuitOpen (q : QId) (i : BitVec 32) (s : State) : Host.Outcome State Fault Refusal := .next (circuitOpen q i s)

/-- Send a circuit's CTEAR, with a fresh tag, and release the source's own lanes; with a waiting descriptor it is a
request, and otherwise no answer to it is awaited (09 R220, R225). -/
def sendTear (s : State) (c : Circuit) (waits : Bool) : State :=
  let p := { newPacket s 8 c.dst 0 0x08 with id := c.id, aux := BitVec.ofNat 64 c.lanes.toNat }
  let s1 := match nextPort s c.dst c.plane with
    | some port => dropLanes s port c.lanes
    | none => s
  if waits then request s1 c.queue c.idx c.plane none false p
  else
    let (tag, t) := freshTag s1
    sendOn (spendTag t tag) c.plane { p with tag := tag }

/-- Change the circuit with a number. -/
def modCircuit (s : State) (id : BitVec 12) (f : Circuit → Option Circuit) : State :=
  { s with fab := { s.fab with circuits := s.fab.circuits.filterMap (fun c => if c.id == id then f c else some c) } }

/-- A put of a descriptor that is under way uses a circuit. -/
def circuitBusy (s : State) (id : BitVec 12) : Bool :=
  s.fab.reqs.any (fun r => r.circuit == some id)
    || s.queues.any (fun e => e.2.jobs.any (fun j =>
      j.phase == .working && descType j.words == 7 && putCirc j.words && putCircuit j.words == id))

/-- A circuit that closes and has no put unacknowledged sends CTEAR (09 R221). -/
def tryClose (s : State) (id : BitVec 12) : State :=
  match s.fab.circuits.find? (fun c => c.id == id) with
  | none => s
  | some c =>
    if c.closing && c.isOpen && !circuitBusy s id then
      sendTear (modCircuit s id (fun c => some { c with isOpen := false })) c true
    else s

/-- CIRCUIT_CLOSE (09 R221): waits for the acknowledgement of the circuit's puts, then sends CTEAR. -/
def circuitClose (q : QId) (i : BitVec 32) (s : State) : State :=
  fabricOp q i 2 (fun l t =>
    let id := BitVec.ofNat 12 (fabId l)
    match openCircuit t id with
    | none => finish t q.val i 0x35 (t.fab.coord.getD 0).toNat
    | some c =>
      if c.closing then finish t q.val i 0x35 (t.fab.coord.getD 0).toNat
      else
        tryClose (modCircuit (t.modJob q.val i (fun j => { j with phase := .working, need := 1 })) id
          (fun c => some { c with closing := true, queue := q.val, idx := i })) id) s

def execCircuitClose (q : QId) (i : BitVec 32) (s : State) : Host.Outcome State Fault Refusal := .next (circuitClose q i s)

/-- A detour entry from its sixteen bytes (09 R211). -/
def detourFrom (b : List Byte) : Detour :=
  let n := leNat b
  { lo := BitVec.ofNat 18 (bitsOf n 127 110), hi := BitVec.ofNat 18 (bitsOf n 109 92), mask := BitVec.ofNat 8 (bitsOf n 91 84) }

/-- DETOUR_LOAD (09 R211): the whole table is replaced by the entries at the address. -/
def detourLoad (q : QId) (i : BitVec 32) (s : State) : State :=
  fabricOp q i 3 (fun l t =>
    let a := wbits (dword l 6) 55 0
    let n := wbits (dword l 7) 6 0
    if n = 0 then finishOk { t with fab := { t.fab with detours := [] } } q.val i
    else if addrSlot a ≠ ownSlot t then faultJob t q.val i a .bad
    else match endFault t (dword l 6) (16 * n) with
      | some (x, p) => faultJob t q.val i x p
      | none =>
        let key := cellKey (addrDie a) (addrOff a)
        let es := (List.range n).map (fun k => detourFrom (readBytes t (key + 16 * k) 16))
        let t1 := if rangePoison t key (16 * n) then t.modJob q.val i (fun j => { j with poisoned := true }) else t
        finishOk { t1 with fab := { t1.fab with detours := es } } q.val i) s

def execDetourLoad (q : QId) (i : BitVec 32) (s : State) : Host.Outcome State Fault Refusal := .next (detourLoad q i s)

/-- WINDOW_REG (09 R204): the entry is registered with its base, length, permissions and filter. -/
def windowReg (q : QId) (i : BitVec 32) (s : State) : State :=
  fabricOp q i 4 (fun l t =>
    match regFault t (dword l 6) with
    | some (x, p) => faultJob t q.val i x p
    | none =>
      let acc := wbits (dword l 5) 39 32
      let w : Window :=
        { base := wbits (dword l 6) 55 0, len := (dword l 7).toNat, put := acc.testBit 0, pull := acc.testBit 1,
          filter := if acc.testBit 2 then some (BitVec.ofNat 18 (wbits (dword l 8) 17 0)) else none }
      finishOk { t with fab := { t.fab with windows := mput none t.fab.windows (fabId l) (some w) } } q.val i) s

def execWindowReg (q : QId) (i : BitVec 32) (s : State) : Host.Outcome State Fault Refusal := .next (windowReg q i s)

/-- WINDOW_DEREG (09 R204): the entry goes, every accepted packet being written; while an open circuit that ends here
names the window it is refused. -/
def windowDereg (q : QId) (i : BitVec 32) (s : State) : State :=
  fabricOp q i 5 (fun l t =>
    if t.fab.ends.any (fun e => e.2.2.toNat == fabId l) then finish t q.val i 0x31 (fabId l)
    else finishOk { t with fab := { t.fab with windows := mput none t.fab.windows (fabId l) none } } q.val i) s

def execWindowDereg (q : QId) (i : BitVec 32) (s : State) : Host.Outcome State Fault Refusal := .next (windowDereg q i s)

/-- RQ_REG (09 R205): the receive queue is registered with its ring, control record and bell. -/
def rqReg (q : QId) (i : BitVec 32) (s : State) : State :=
  fabricOp q i 6 (fun l t =>
    match regFault t (dword l 6), regFault t (dword l 7) with
    | some (x, p), _ => faultJob t q.val i x p
    | none, some (x, p) => faultJob t q.val i x p
    | none, none =>
      let r : RecvQ :=
        { base := wbits (dword l 6) 55 0, slotLog2 := wbits (dword l 5) 31 28, slotsLog2 := wbits (dword l 5) 27 24,
          ctrl := wbits (dword l 7) 55 0,
          bell := if (dword l 5).getLsbD 32 then some (wbits (dword l 8) 11 0) else none }
      finishOk { t with fab := { t.fab with rqs := mput none t.fab.rqs (fabId l) (some r) } } q.val i) s

def execRqReg (q : QId) (i : BitVec 32) (s : State) : Host.Outcome State Fault Refusal := .next (rqReg q i s)

/-- RQ_DEREG (09 R205): the receive queue is deregistered. -/
def rqDereg (q : QId) (i : BitVec 32) (s : State) : State :=
  fabricOp q i 7 (fun l t =>
    finishOk { t with fab := { t.fab with rqs := mput none t.fab.rqs (fabId l) none } } q.val i) s

def execRqDereg (q : QId) (i : BitVec 32) (s : State) : Host.Outcome State Fault Refusal := .next (rqDereg q i s)

/-! ### Ghost records and commits (13 R302, R303, R306) -/

/-- The 64 bytes of a ghost record (13 Table 13.2). -/
def recordOf (r : GhostRec) : List Byte :=
  [r.kind, r.mode, 0, 0] ++ natLe 4 r.domain.toNat ++ natLe 8 r.epoch.toNat ++ natLe 8 r.blocks.toNat
    ++ natLe 8 r.crc.toNat ++ (r.regionBytes ++ List.replicate 8 0).take 8 ++ natLe 8 r.journalBytes.toNat
    ++ natLe 8 r.reason.toNat ++ List.replicate 8 0

/-- A record of this device with its failure domain. -/
def ghostRecord (s : State) (kind : Byte) (epoch : Word) : GhostRec :=
  { kind := kind, mode := if dcell s 0xC020 10 = 0 then 0 else 1, domain := BitVec.ofNat 32 (dcell s 0xC000 3),
    epoch := epoch, blocks := 0, crc := 0, regionBytes := [], journalBytes := 0, reason := 0 }

/-- The partner of this device's ghost (13 R302). -/
def ghostPartner (s : State) : BitVec 18 := BitVec.ofNat 18 (dnum s 0xC020 2)

/-- A put of the ghost engine into a window of the partner: an ordinary PUT, entered as a request of the stack's die. -/
def ghostPut (s : State) (n window off : Nat) (data : List Byte) (marks : List Bool) (k : Nat) : State :=
  let dst := ghostPartner s
  let any := marks.any (· == true)
  let p := { newPacket s n dst 0 4 with
             id := BitVec.ofNat 12 window, len := BitVec.ofNat 13 data.length, offset := BitVec.ofNat 48 off, data := data,
             px := any, poison := if any then marks else [] }
  match planeAt (allowedPlanes s dst 0) k with
  | some i => request { s with res := { s.res with puts := s.res.puts + 1 } } (64 * n) 0 i none true p
  | none => s

/-- The ghost engine may send: the device may start traffic and the partner is not fenced (13 Table 13.4). -/
def ghostOpen (s : State) : Bool := fabricOpen s && !isFenced s (ghostPartner s) && s.res.mode != 0

/-- Once every block of an epoch has been sent and every put acknowledged, the owner writes COMMIT (13 R306). -/
def ghostCommitOut (s : State) : State :=
  let r := s.res
  if ghostOpen s && (r.owner == 1 || r.owner == 2) && r.closing.isEmpty && r.puts == 0 then
    let c := { ghostRecord s 2 r.epoch with
               blocks := BitVec.ofNat 64 r.blocks, crc := r.crc ^^^ 0xFFFFFFFFFFFFFFFF }
    ghostPut { s with res := { r with owner := 3 } } 0 (dcell s 0xC020 3) 0 (recordOf c) [] 0
  else s

/-- The whole epoch is to be sent again (13 R307). -/
def ghostAgain (s : State) : State :=
  let r := s.res
  { s with res := { r with
      closing := r.unacked.foldl (fun l x => insertNat x l) r.closing, unacked := [], blocks := 0, jcount := [],
      crc := BitVec.allOnes 64, owner := if r.owner = 3 then 2 else r.owner } }

/-! ### Replies (09 R206, R220 to R222, R225, R226) -/

/-- FAB_PUTA (09 R221, R222): the packets acknowledged end; a multicast's members are joined. -/
def fabPuta (p : Packet) (s : State) : State :=
  eject p (fun t =>
    match fabReq t p.tag with
    | none => t
    | some r =>
      let n := max 1 (wbits p.aux 63 32)
      let acked := t.fab.reqs.filter (fun x =>
        x.tag == p.tag || (x.circuit.isSome && x.circuit == r.circuit && x.queue == r.queue && x.idx == r.idx
          && decide ((p.tag - x.tag).toNat < n)))
      let t1 := acked.foldl endReq t
      if r.ghost then ghostCommitOut { t1 with res := { t1.res with puts := t1.res.puts - acked.length } }
      else
        let t2 := t1.modJob r.queue r.idx (fun j => { j with bitmap := j.bitmap &&& BitVec.ofNat 32 (wbits p.aux 31 0) })
        let t3 := acked.foldl (fun u x => putOne u x.queue x.idx) (if r.packet.mcast then t2 else t1)
        match r.circuit with
        | some c => tryClose t3 c
        | none => t3) s

def execFabPuta (p : Packet) (s : State) : Host.Outcome State Fault Refusal := .next (fabPuta p s)

/-- FAB_SENDA (09 R206): the message has been written and its SEND ends. -/
def fabSenda (p : Packet) (s : State) : State :=
  eject p (fun t =>
    match fabReq t p.tag with
    | some r => if r.typ = 0x05 then putOne (endReq t r) r.queue r.idx else t
    | none => t) s

def execFabSenda (p : Packet) (s : State) : Host.Outcome State Fault Refusal := .next (fabSenda p s)

/-- FAB_CACK (09 R220, R221): a circuit has opened, or closed. -/
def fabCack (p : Packet) (s : State) : State :=
  eject p (fun t =>
    match fabReq t p.tag with
    | some r =>
      let t1 := endReq t r
      if r.typ = 0x07 then oneDone (modCircuit t1 r.packet.id (fun c => some { c with isOpen := true })) r.queue r.idx
      else if r.typ = 0x08 then oneDone (modCircuit t1 r.packet.id (fun _ => none)) r.queue r.idx
      else t
    | none => t) s

def execFabCack (p : Packet) (s : State) : Host.Outcome State Fault Refusal := .next (fabCack p s)

/-- FAB_PULLD (09 R204, R206): pulled data is written as a put into the requester's window; one that the window
refuses ends the pull with WINDOW_REFUSED, and one whose request is gone is discarded.  What a rollback pulled is
written back into its region, and dirties nothing (13 R309). -/
def fabPulld (p : Packet) (s : State) : State :=
  eject p (fun t =>
    match fabReq t p.tag with
    | none => t
    | some r =>
      if r.typ ≠ 0x06 then t
      else
        let t1 := endReq t r
        if r.ghost then
          let key := cellKey p.id.toNat p.offset.toNat
          writeBytes (markWrite t1 key p.data.length (packetMark p)) key p.data
        else match windowRange t1 p.id.toNat p.offset.toNat p.data.length p.src true with
        | none => failJob (sticky t1 0xA090 5 0) r.queue r.idx 0x31 p.id.toNat
        | some a => match putBytes t1 a p with
          | .error x => failJob (faultSticky t1 r.die x) r.queue r.idx (placeStatus x) (placeDetail a x)
          | .ok u =>
            let u1 := if (List.range p.poison.length).any (packetMark p) then
                u.modJob r.queue r.idx (fun j => { j with poisoned := true }) else u
            putOne u1 r.queue r.idx) s

def execFabPulld (p : Packet) (s : State) : Host.Outcome State Fault Refusal := .next (fabPulld p s)

/-! ### The requests of dies: 08 R191 to R197; 09 R202, R225 -/

/-- A main program ends with a status: what it published reaches its queue (04 R95), its flags join its descriptor's
(03 R65), and its registers are read no more. -/
def failVe (s : State) (d : Nat) (status : Byte) (detail : Nat) : State :=
  let r := veRun s d false
  if !r.active then s
  else
  let x := s.queue r.queue
  let s1 := s.setQueue r.queue { x with inputs := r.pubs.reverse.foldl (fun l p => l.set p.1 p.2) x.inputs }
  let s2 := setVeRun s1 d false { r with active := false, pubs := [], lines := [] }
  finish (s2.modJob r.queue r.idx (fun j => { j with fp := j.fp ||| r.fp })) r.queue r.idx status detail

/-- The address that a request reads or writes. -/
def reqAddr (r : D2dReq) : Nat := r.slot * 2 ^ 52 + r.owner * 2 ^ 48 + r.off

/-- Read data has come for a request of a die: the line of a load, a piece of a copy, or of a put's payload. -/
def readBack (s : State) (r : D2dReq) (data : List Byte) (mark : Nat → Bool) : State :=
  let s1 := dropReq s r
  let pz := fun (k : Nat) => mark ((r.off + k) / 8 - r.off / 8)
  match r.use with
  | .fill upd line => fillLine s1 r.die upd r.slot r.owner line r.gen data mark
  | .copy q i off => copyOne (copyDeliver s1 q i off data pz) q i
  | .put q i off => putDeliver s1 q i off data pz
  | _ => s1

/-- A write has been acknowledged: a piece of a copy ends, a release or a parking queue goes on. -/
def writeBackDone (s : State) (r : D2dReq) : State :=
  let s1 := writeAcked s r
  match r.use with
  | .copy q i _ => copyOne s1 q i
  | _ => s1

/-- An access fault of a request that 0xA060:05 records: not that of a hole, or of a quadrant mapped out (06 R152; 07
R162).  Of another device nothing but the status is known. -/
def plainFault (s : State) (r : D2dReq) : Bool :=
  r.slot != ownSlot s || (match faultIn s r.owner r.off r.len with
    | some (_, .quadOut) => false
    | some (_, .hole _) => false
    | _ => true)

/-- A put that has ended may have been the last of a circuit that closes (09 R221). -/
def afterPut (s : State) (j : Option Job) : State :=
  match j with
  | some j => if descType j.words == 7 && putCirc j.words then tryClose s (putCircuit j.words) else s
  | none => s

/-- A request of a die has failed with a status (08 R197; 09 R225): a read ends its program or descriptor, a write-back
its releasing act. -/
def requestFailed (s : State) (r : D2dReq) (status : Byte) : State :=
  let detail :=
    if status = 0x1B then r.owner
    else if status = 0x34 then r.tag.toNat
    else if status = 0x30 then (s.fab.coord.getD 0).toNat
    else if status = 0x1C then dcell s 0xC000 1
    else bitsOf (reqAddr r) 55 24
  let s0 := if status = 0x34 then sticky s 0xA090 6 r.die else s
  let s1 := if status = 0x19 ∧ plainFault s r = true then sticky s0 0xA060 5 r.die else s0
  match r.use with
  | .fill upd _ =>
    let s2 := dropReq s1 r
    if upd then
      match (s2.lane r.die).head? with
      | some u => if u.running then failUpdate s2 r.die u.block (status == 0x1B) else s2
      | none => s2
    else failVe s2 r.die status detail
  | .copy q i _ => failJob (dropReq s1 r) q i status detail
  | .put q i _ => afterPut (failJob (dropReq s1 r) q i status detail) (s1.job q i)
  | _ => writeFailed s1 r status

/-- A reply of the package: it ends the request with its tag, if there is one. -/
def onReply (s : State) (m : D2dMsg) (act : State → D2dReq → State) : State :=
  onMsg s m (fun t => match findReq t m.dst.val m.tag with
    | some r => act t r
    | none => t)

/-- D2D_RDR (08 R193): read data returns to its requester. -/
def execD2dRdr (m : D2dMsg) (s : State) : Host.Outcome State Fault Refusal :=
  .next (onReply s m (fun t r => readBack t r m.data (msgMark m)))

/-- D2D_WRA (08 R194): a write is complete at its owner. -/
def execD2dWra (m : D2dMsg) (s : State) : Host.Outcome State Fault Refusal := .next (onReply s m writeBackDone)

/-- D2D_ERR (08 R197): a request has failed with the status in address bits 7:0. -/
def execD2dErr (m : D2dMsg) (s : State) : Host.Outcome State Fault Refusal :=
  .next (onReply s m (fun t r => requestFailed t r (BitVec.ofNat 8 (bitsOf m.addr.toNat 7 0))))

/-- D2D_REQUEST_TIMEOUT (08 R197): a request to a die of the package with no reply within 1 ms ends with DIE_LOST. -/
def execD2dRequestTimeout (d : Die9) (tag : BitVec 16) (s : State) : Host.Outcome State Fault Refusal :=
  .next (match findReq s d.val tag with
    | some r =>
      if r.slot == ownSlot s && decide (1000000 ≤ (clock s - r.at_).toNat) then requestFailed s r 0x1B else s
    | none => s)

/-- The request of a die to another device of the board, by its tag. -/
def boardReq (s : State) (tag : BitVec 16) : Option D2dReq :=
  s.d2dReqs.find? (fun r => r.tag == tag && r.slot != ownSlot s)

/-- FAB_LDR (09 R206): read data returns to the requester. -/
def execFabLdr (p : Packet) (s : State) : Host.Outcome State Fault Refusal :=
  .next (eject p (fun t => match boardReq t p.tag with
    | some r => readBack t r p.data (packetMark p)
    | none => t) s)

/-- FAB_STA (09 R202): a store is complete at its owner. -/
def execFabSta (p : Packet) (s : State) : Host.Outcome State Fault Refusal :=
  .next (eject p (fun t => match boardReq t p.tag with
    | some r => writeBackDone t r
    | none => t) s)

/-- A fabric request has failed with a status and the coordinate that reported it: a setup is torn down, and the
descriptor ends (09 R220, R226). -/
def fabFailed (s : State) (r : Req) (status : Byte) (who : Nat) : State :=
  let s1 := endReq s r
  let detail :=
    if status = 0x30 ∨ status = 0x35 then who
    else if status = 0x1C then dcell s 0xC000 1
    else if status = 0x34 then r.tag.toNat
    else if status = 0x36 then (r.circuit.getD 0).toNat
    else if status = 0x19 then bitsOf r.packet.offset.toNat 55 24
    else r.packet.id.toNat
  if r.ghost then
    let s2 := if r.typ = 4 then { s1 with res := { s1.res with puts := s1.res.puts - 1 } } else s1
    if status = 0x1C then ghostAgain s2 else sticky { s2 with res := { s2.res with owner := 4 } } 0xA0C0 5 0
  else if r.typ = 0x07 then
    let s2 := match s1.fab.circuits.find? (fun c => c.id == r.packet.id) with
      | some c => sendTear (modCircuit s1 c.id (fun _ => none)) c false
      | none => s1
    failJob s2 r.queue r.idx status detail
  else if r.typ = 0x08 then failJob (modCircuit s1 r.packet.id (fun _ => none)) r.queue r.idx status detail
  else
    let s2 := failJob s1 r.queue r.idx status detail
    match r.circuit with
    | some c => tryClose s2 c
    | none => s2

/-- FAB_ERR (09 R226; 13 R297): the request's descriptor ends with the carried status; FENCED fences this device. -/
def fabErr (p : Packet) (s : State) : State :=
  eject p (fun t =>
    let status := BitVec.ofNat 8 (wbits p.aux 7 0)
    let t1 := if status = 0x1C then enterFenced t else t
    match fabReq t1 p.tag with
    | some r => fabFailed t1 r status (wbits p.aux 25 8)
    | none => match boardReq t1 p.tag with
      | some r => requestFailed t1 r status
      | none => t1) s

def execFabErr (p : Packet) (s : State) : Host.Outcome State Fault Refusal := .next (fabErr p s)

/-! ### Bell frames (06 R150, R151) -/

/-- FAB_STRIKE (06 R150): added to the bell of a die in service, at most once. -/
def execFabStrike (p : Packet) (s : State) : Host.Outcome State Fault Refusal :=
  .next (eject p (fun t =>
    if dieUp t (bellDie (packetBell p)) then strike t (packetBell p) p.aux else t) s)

/-- FAB_STRIKE_AT (06 R151): entered in the receiving die's table of 256, performed at once where its tick has passed,
or discarded where the table is full or tempo is unsynchronised. -/
def execFabStrikeAt (p : Packet) (s : State) : Host.Outcome State Fault Refusal :=
  .next (eject p (fun t =>
    let d := bellDie (packetBell p)
    let x : Sched := { bell := packetBell p, add := p.aux, tick := BitVec.ofNat 64 (leNat p.data), src := none }
    if !dieUp t d then t
    else if unsync t || decide (256 ≤ (t.remScheds.filter (fun y => y.1 == d)).length) then discardFrame t p
    else if x.tick < now t then performSched t d x true
    else { t with remScheds := t.remScheds ++ [(d, x)] }) s)

/-! ### Timeouts (09 R221, R225) -/

/-- FAB_REQ_TIMEOUT (09 R225): a request with no reply for FAB_REQ_TIMEOUT ends with FABRIC_TIMEOUT, and the issuing
die's bit is set. -/
def fabReqTimeout (tag : BitVec 16) (s : State) : State :=
  let limit := dnum s 0x9004 1 * 1000
  match fabReq s tag with
  | some r =>
    if limit ≤ (clock s - r.at_).toNat then fabFailed (sticky s 0xA090 6 r.die) r 0x34 0 else s
  | none => match boardReq s tag with
    | some r => if limit ≤ (clock s - r.at_).toNat then requestFailed s r 0x34 else s
    | none => s

def execFabReqTimeout (tag : BitVec 16) (s : State) : Host.Outcome State Fault Refusal := .next (fabReqTimeout tag s)

/-- CIRCUIT_RESEND_EXPIRY (09 R221): a circuit packet not acknowledged in time after its last flit left is sent again
once; then its put ends with CIRCUIT_BROKEN. -/
def circuitResendExpiry (tag : BitVec 16) (s : State) : State :=
  match fabReq s tag with
  | none => s
  | some r =>
    match r.leftAt with
    | none => s
    | some t =>
      if r.circuit.isNone ∨ (clock s - t).toNat < dnum s 0x9004 2 * 1000 then s
      else if r.resent then fabFailed (sticky s 0xA090 7 r.packet.plane.val) r 0x36 0
      else
        sendOn { s with fab := { s.fab with reqs := s.fab.reqs.map (fun (x : Req) =>
          if x == r then { x with resent := true, leftAt := none } else x) } } r.packet.plane.val r.packet

def execCircuitResendExpiry (tag : BitVec 16) (s : State) : Host.Outcome State Fault Refusal :=
  .next (circuitResendExpiry tag s)

/-! ### Transit (09 R200, R209, R210, R212, R219, R222) -/

/-- A packet that this device ejects for another die than its plane's crosses the package to it, once nothing of its class
waits before it (09 R209). -/
def ejectCross (p : Packet) (s : State) : Option State :=
  let i := p.plane.val
  let d := ejectDie s p
  let key := if p.lane.isSome then 6 else p.cls.toNat
  if d = i ∨ (s.pair i d).cross.wait.any (fun w => w.1 == key) = true then none
  else some (crossPacket s i d { p with inPort := none })

/-- A packet whose next hop would step past its destination is dropped, with the answer of its class (09 R212). -/
def dropPacket (p : Packet) (s : State) : State :=
  let t := sticky (bump s 0x8091 (p.plane.val + 1) 1) 0xA090 1 p.plane.val
  if p.cls == 0 || p.cls == 2 then replyErr t p 0x30
  else if p.cls == 3 || p.cls == 4 then unreachableAbort t p
  else t

/-- A packet for another device leaves by the port of its circuit's entry, or of its plane's order; none where that port
cannot take it yet.  One for a port that is down, or of a lane with no entry, is lost (log 13). -/
def passOn (p : Packet) (s : State) : Option State :=
  let out := match p.lane, p.inPort with
    | some l, some inp => (hopOf s inp.val l.val).map (fun e => e.outPort.val)
    | _, _ => nextPort s p.dst p.plane.val
  match out with
  | none => some s
  | some port =>
    if p.lane.isNone && stepsPast s p.dst port then some (dropPacket p s)
    else
      let t := bump s 0x8090 (p.plane.val + 1) (packetFlits p)
      if (s.port port).state ≠ 2 then some t else (portTakes t port { p with inPort := none }).1

/-- PACKET_TRANSIT: the oldest packet of a stream of a port is switched within its plane's slice: to the port of its next
hop, across the package to the die for which it is ejected, or, a multicast packet, written here and sent on. -/
def packetTransit (p : Packet) (s : State) : State :=
  if !dieUp s p.plane.val then s
  else if p.mcast then mcastArrive s p
  else if s.fab.coord == some p.dst then atPort p (ejectCross p) s
  else atPort p (passOn p) s

def execPacketTransit (p : Packet) (s : State) : Host.Outcome State Fault Refusal := .next (packetTransit p s)

end Sys2Proof.Machine
end

