-- ==== Sys2Proof/Machine/Coll.lean ====
section
/-!
DEFINITION. The collective engine (11): ranks and shards, the handshake, the folded ring with its pinned order, the
data phase and its completion, timeouts and aborts (R263 to R283).
-/

namespace Sys2Proof.Machine

/-! ### Members, ranks and shards (11 R264 to R266) -/

/-- The coordinate on an axis of the member with a rank. -/
def memberAt (l : List Word) (axis rank : Nat) : Nat := (onesBelow 64 (collMembers l axis).toNat).getD rank 0

/-- The member of this device's axis line with a rank. -/
def lineMember (s : State) (l : List Word) (k rank : Nat) : BitVec 18 :=
  coordSet (s.fab.coord.getD 0) (collAxisAt l k) (memberAt l (collAxisAt l k) rank)

/-- The steps of an operation: is it a gather, and on which axis of AXIS_SEQ (R265, Table 11.2). -/
def collSteps (l : List Word) : List (Bool × Nat) :=
  let ks := List.range (collAxes l).length
  match collOp l with
  | 0 => ks.map (fun k => (false, k))
  | 1 => ks.reverse.map (fun k => (true, k))
  | 2 => ks.map (fun k => (false, k)) ++ ks.reverse.map (fun k => (true, k))
  | _ => ks.map (fun k => (true, k))

/-- ROOT's rank on the axis at an index. -/
def rootRank (l : List Word) (k : Nat) : Nat := collRank l (collAxisAt l k) (coordOn (collRoot l) (collAxisAt l k))

/-- In a broadcast, this device's line on an axis holds a member that already has the data: it agrees with ROOT on every
later axis (R265). -/
def bcastLine (s : State) (l : List Word) (k : Nat) : Bool :=
  (List.range (collAxes l).length).all (fun t =>
    t ≤ k || coordOn (s.fab.coord.getD 0) (collAxisAt l t) == coordOn (collRoot l) (collAxisAt l t))

/-- The element range of a chunk of a step. -/
def chunkRange (s : State) (l : List Word) (k j : Nat) : Nat × Nat :=
  if collOp l = 3 then (0, collCount l)
  else
    let r := rangeBefore s l k
    shardOf (collFmt l) r.1 r.2 (lineSize l k) j

/-- The chunks whose journeys start at this member in a step (R268, R274). -/
def chunksSent (s : State) (l : List Word) (step : Bool × Nat) : List Nat :=
  let m := lineSize l step.2
  let r := myRank s l step.2
  if collOp l = 3 then (if bcastLine s l step.2 && r == rootRank l step.2 then [r] else [])
  else if step.1 then [r] else [(r + m - 1) % m]

/-- The chunks that this member receives in a step. -/
def chunksGot (s : State) (l : List Word) (step : Bool × Nat) : List Nat :=
  let m := lineSize l step.2
  let r := myRank s l step.2
  if collOp l = 3 then (if bcastLine s l step.2 && r != rootRank l step.2 then [rootRank l step.2] else [])
  else (List.range m).filter (· != (if step.1 then r else (r + m - 1) % m))

/-- Elements of a packet (R266). -/
def packetElems (f : Nat) : Nat := 4096 / (fmtGroup f * fmtBits f / 8) * fmtGroup f

/-- The packets of an element range: their offsets and lengths. -/
def chunkPackets (f : Nat) (r : Nat × Nat) : List (Nat × Nat) :=
  let e := packetElems f
  (List.range ((r.2 + e - 1) / e)).map (fun t => (r.1 + t * e, min e (r.2 - t * e)))

/-- The element offsets that a member receives in a step. -/
def offsetsGot (s : State) (l : List Word) (step : Bool × Nat) : List Nat :=
  (chunksGot s l step).flatMap (fun j => (chunkPackets (collFmt l) (chunkRange s l step.2 j)).map (·.1))

/-! ### The open collectives -/

/-- The open collective with an identifier. -/
def openColl (s : State) (cid : BitVec 12) : Option Coll := s.coll.opens.find? (fun c => c.cid == cid)

/-- Change an open collective. -/
def modColl (s : State) (cid : BitVec 12) (f : Coll → Coll) : State :=
  { s with coll := { s.coll with opens := s.coll.opens.map (fun c => if c.cid == cid then f c else c) } }

/-- The descriptor digest of a member (R271). -/
def collDigest (c : Coll) : Nat :=
  let l := c.words
  crc64 (natLe 8 (dword l 5).toNat ++ natLe 8 (collCount l) ++ natLe 8 (dword l 9).toNat ++ natLe 8 (dword l 10).toNat
    ++ natLe 8 (dword l 11).toNat ++ natLe 4 (collRoot l).toNat ++ natLe 2 c.epoch.toNat ++ [0, 0])

/-- The die of a collective's data. -/
def collDie (l : List Word) : Nat := addrDie (dword l 6).toNat

/-- Release the vector engine and the arrays of a collective's die (R275; 04 R107). -/
def collRelease (s : State) (c : Coll) : State :=
  let d := collDie c.words
  let v := s.ve d
  if v.hold = some c.cid.toNat then s.setVe d { v with hold := none } else s

/-- The key of an element of SRC or DST, by the word of the descriptor that holds its base. -/
def collKey (l : List Word) (w : Nat) (f off : Nat) : Nat :=
  cellKey (collDie l) (addrOff (dword l w).toNat + elemBytes f off)

/-- The DST elements that a closing collective leaves undefined: after a reduce-scatter, every one outside the final
shard (Table 11.2); after an abort in the data phase, all of them (R282). -/
def collUndefined (s : State) (c : Coll) (status : Byte) : List (Nat × Nat) :=
  let l := c.words
  let n := collCount l
  if status ≠ 0 then (if c.data then [(0, n)] else [])
  else if collOp l = 0 then
    let r := rangeBefore s l (collAxes l).length
    [(0, r.1), (r.1 + r.2, n - (r.1 + r.2))]
  else []

/-- Elements become undefined: their bytes and their marks are free values (log 3). -/
def undefineElems (s : State) (l : List Word) (r : Nat × Nat) : State :=
  let f := collFmt l
  let n := elemBytes f r.2
  let data := (List.range n).map (fun k => (Config.freeWord (s.free + k)).setWidth 8)
  let t := storeBytes s (collKey l 7 f r.1) data (fun w => (Config.freeWord (s.free + n + w)).getLsbD 0)
  { t with free := t.free + 2 * n + 2 }

/-- A collective closes with a status: it is remembered among the last 64, what waited for it is discarded, and its
descriptor ends (R276, R278, R280); what it leaves undefined of DST is a free value (Table 11.2, R282). -/
def closeColl (s : State) (c : Coll) (status : Byte) (detail : Nat) : State :=
  let e := s.coll
  let stale := (e.pend.filter (fun p => p.id == c.cid)).length + (e.early.filter (fun p => p.id == c.cid)).length
  let s0 := (collUndefined s c status).foldl (fun t r => undefineElems t c.words r)
    ((e.early.filter (fun p => p.id == c.cid)).foldl (fun t p => returnFrees p (releasePacket t p)) s)
  let s1 := collRelease { s0 with coll :=
    { opens := e.opens.filter (fun x => x.cid != c.cid),
      closed := (e.closed ++ [c.cid]).drop ((e.closed.length + 1) - 64),
      pend := e.pend.filter (fun p => p.id != c.cid), early := e.early.filter (fun p => p.id != c.cid),
      out := e.out.filter (fun x => x.2.id != c.cid || status == 0 || x.2.typ == 0x1E) } } c
  let s2 := if stale = 0 then s1 else bump s1 0x80B0 4 stale
  let s3 := if status = 0 then bump s2 0x80B0 1 1
    else if (List.range' 0x20 5).contains status.toNat then bump s2 0x80B0 2 1 else s2
  if status = 0 then
    finishOk (s3.modJob c.queue c.idx (fun j => { j with poisoned := j.poisoned || c.poisoned })) c.queue c.idx
  else finish s3 c.queue c.idx status detail

/-! ### Sending (11 R266, R267) -/

/-- A packet of a collective to a member leaves on the next allowed plane, in turn (R266); one that this device drops at
once answers true (R279). -/
def collSend (s : State) (c : Coll) (p : Packet) : Bool × State :=
  if !fabricLive s then (false, s)
  else
    let k := ((s.job c.queue c.idx).map Job.plane).getD 0
    dealColl (s.modJob c.queue c.idx (fun j => { j with plane := j.plane + 1 })) k (wbits (dword c.words 12) 7 0) p

/-- A packet of a collective with no data.  The member die of DST is taken to be the sender's own: the descriptor does not
name another (R270; log 82). -/
def collPacket (s : State) (c : Coll) (dst : BitVec 18) (late : Bool) (typ : BitVec 5) (aux : Nat) : Packet :=
  let d := collDie c.words
  { newPacket s d dst (if late then 4 else 3) typ with
    dstDie := BitVec.ofNat 4 d, id := c.cid, epoch := c.epoch, aux := BitVec.ofNat 64 aux }

/-- The ring neighbours of this member on an axis. -/
def ringNext (s : State) (l : List Word) (k : Nat) : BitVec 18 := lineMember s l k ((myRank s l k + 1) % lineSize l k)
def ringPrev (s : State) (l : List Word) (k : Nat) : BitVec 18 :=
  lineMember s l k ((myRank s l k + lineSize l k - 1) % lineSize l k)

/-- Every ring neighbour of a collective, once each. -/
def collNeighbours (s : State) (l : List Word) : List (BitVec 18) :=
  ((List.range (collAxes l).length).flatMap (fun k => [ringNext s l k, ringPrev s l k])).eraseDups

/-- Abort (R278): CABORT to every ring neighbour with the originating status and coordinate, then the completion. -/
def abortColl (s : State) (c : Coll) (origin : Nat) (who : BitVec 18) (status : Byte) (detail : Nat) : State :=
  let s1 := (collNeighbours s c.words).foldl
    (fun t n => (collSend t c (collPacket t c n true 0x1E (who.toNat * 256 + origin))).2) s
  closeColl s1 c status detail

/-- The collective cannot reach a member: this device drops its own packet (R279). -/
def abortDropped (s : State) (cid : BitVec 12) : State :=
  match openColl s cid with
  | none => s
  | some c =>
    let me := s.fab.coord.getD 0
    abortColl (sticky s 0xA0B0 3 0) c 0x23 me 0x23 me.toNat

/-- Send a packet and abort if this device itself has dropped it. -/
def collEmit (s : State) (c : Coll) (p : Packet) : State :=
  let (dropped, t) := collSend s c p
  if dropped then abortDropped t c.cid else t

/-! ### Local data (11 R265, R268, R269; 04 R105) -/

/-- One combination of the vector engine (04 R105). -/
def combine (f red arith x y : Nat) : Res :=
  let a := arithOf arith
  if red = 0 then (if isFloat f then addF f a x y else binInt f a (· + ·) x y)
  else if isFloat f then extremeF f a (red == 1) false x y
  else
    let u := toSigned (intWidth f) x
    let v := toSigned (intWidth f) y
    (if (u < v) = (red = 1) then y else x, 0)

/-- A payload with a mark for each byte. -/
structure Piece where
  data : List Byte
  mark : List Bool
  deriving DecidableEq, Repr

/-- Local bytes of an element range. -/
def localPiece (s : State) (key n : Nat) : Piece :=
  { data := readBytes s key n, mark := (List.range n).map (fun k => poisoned s (key + k)) }

/-- Combine a received piece with the local one, element by element: acc = op(received, local).  One instruction combines
a register with a register, so a poisoned operand poisons the whole result (R268, R269; 04 R91, R105). Answers the flags
too. -/
def combinePieces (f red arith n : Nat) (a b : Piece) : Piece × Nat :=
  let rs := (List.range n).map (fun e => combine f red arith (unpackElem f a.data e) (unpackElem f b.data e))
  let bad := a.mark.any (· == true) || b.mark.any (· == true)
  ({ data := packElems f (rs.map (·.1)), mark := List.replicate (n * (fmtBits f / 8)) bad },
   rs.foldl (fun x r => x ||| r.2) 0)

/-- A piece in two staging registers: low words, and the high words of FX64 (04 R86, R105). -/
def stagePiece (m : SMap VReg) (n f : Nat) (p : Piece) : SMap VReg :=
  let es := (List.range (p.data.length * 8 / fmtBits f)).map (unpackElem f p.data)
  let reg := fun (g : Nat → Nat) =>
    ({ elems := es.map (fun e => BitVec.ofNat 32 (g e)) ++ List.replicate (2048 - es.length) 0, poison := p.mark.any (· == true) } : VReg)
  let none_ : VReg := { elems := [], poison := false }
  let low := mput none_ m n (reg (fun e => e))
  if f = 11 then mput none_ low (n + 1) (reg (fun e => e / 2 ^ 32)) else low

/-- The vector engine stages a received piece and the local one (04 R105; where in the four registers is the model's,
log 28). -/
def stageBoth (s : State) (d f : Nat) (got own : Piece) : State :=
  let v := s.ve d
  s.setVe d { v with stage := stagePiece (stagePiece v.stage 0 f got) 2 f own }

/-- Store a piece at a key with its marks. -/
def storePiece (s : State) (key : Nat) (p : Piece) : State :=
  storeBytes s key p.data (wordMarks key p.data.length (fun k => p.mark.getD k false))

/-- A CDATA packet of a piece (R270). -/
def dataPacket (s : State) (c : Coll) (step : Bool × Nat) (chunk off : Nat) (late : Bool) (p : Piece) : Packet :=
  let marks := (List.range ((p.data.length + 7) / 8)).map (fun w =>
    (List.range 8).any (fun k => p.mark.getD (8 * w + k) false))
  let aux := step.2 * 2 ^ 62 + (if step.1 then 2 ^ 61 else 0) + chunk * 2 ^ 55
  let px := marks.any (· == true)
  { collPacket s c (ringNext s c.words step.2) late 0x1D aux with
    len := BitVec.ofNat 13 p.data.length, offset := BitVec.ofNat 48 off, data := p.data, px := px,
    poison := if px then marks else [] }

/-- Send a piece to the next member, in COL1 once its journey has left rank 0 (R267). -/
def sendPiece (s : State) (cid : BitVec 12) (step : Bool × Nat) (chunk off : Nat) (late : Bool) (p : Piece) : State :=
  match openColl s cid with
  | none => s
  | some c =>
    let zero := myRank s c.words step.2 == 0
    collEmit s c (dataPacket s c step chunk off (late || zero) p)

/-- Where a step reads: the first reduce step from SRC, every other from DST (R265). -/
def readWord (step : Bool × Nat) : Nat := if !step.1 && step.2 == 0 then 6 else 7

/-! ### Data phase (11 R274 to R276) -/

/-- A step starts: the chunks that start here are sent. -/
def startStep (s : State) (cid : BitVec 12) (n : Nat) : State :=
  match openColl s cid with
  | none => s
  | some c =>
    let l := c.words
    let s1 := modColl s cid (fun x => { x with step := n, got := [] })
    match (collSteps l)[n]? with
    | none => s1
    | some step =>
      let f := collFmt l
      let s2 := if step.1 && collOp l == 2 then collRelease s1 c else s1
      (chunksSent s l step).foldl (fun t j =>
        (chunkPackets f (chunkRange s l step.2 j)).foldl (fun u x =>
          sendPiece u cid step j x.1 false (localPiece u (collKey l (readWord step) f x.1) (elemBytes f x.2))) t) s2

/-- A CDATA packet's step. -/
def stepOf (l : List Word) (p : Packet) : Option Nat :=
  (collSteps l).findIdx? (fun st => st.1 == p.aux.getLsbD 61 && st.2 == wbits p.aux 63 62)

/-- A CDATA packet of the current step is combined or written, and sent on unless its journey ends (R268, R274). -/
def takeData (s : State) (c : Coll) (p : Packet) : State :=
  let l := c.words
  match (collSteps l)[c.step]? with
  | none => s
  | some step =>
    let f := collFmt l
    let m := lineSize l step.2
    let r := myRank s l step.2
    let j := wbits p.aux 60 55
    let off := p.offset.toNat
    let n := p.data.length * 8 / fmtBits f
    let got : Piece := { data := p.data, mark := (List.range p.data.length).map (fun k => packetMark p (k / 8)) }
    if !(offsetsGot s l step).contains off || c.got.contains off then bump s 0x80B0 4 1
    else
      let s1 := modColl s c.cid (fun x => { x with got := x.got ++ [off], lastPkt := clock s })
      let write := fun (t : State) (x : Piece) =>
        let bad := x.mark.any (· == true)
        modColl (storePiece t (collKey l 7 f off) x) c.cid (fun y => { y with poisoned := y.poisoned || bad })
      if step.1 then
        let s2 := write s1 got
        if (r + 1) % m = j then s2 else sendPiece s2 c.cid step j off (p.cls == 4) got
      else
        let own := localPiece s1 (collKey l (readWord step) f off) p.data.length
        let (x, flags) := combinePieces f (collRed l) (collArith l) n got own
        let s2 := (stageBoth s1 (collDie l) f got own).modJob c.queue c.idx (fun y => { y with fp := y.fp ||| BitVec.ofNat 8 flags })
        if j = r then write s2 x else sendPiece s2 c.cid step j off (p.cls == 4) x

/-- Run the data phase as far as what has come allows: waiting packets of the current step, then the next step, then the
completion. -/
def collRun (cid : BitVec 12) : Nat → State → State
  | 0, s => s
  | n + 1, s =>
    match openColl s cid with
    | none => s
    | some c =>
      if !c.data then s
      else match (collSteps c.words)[c.step]? with
        | none => closeColl s c 0 0
        | some step =>
          if (offsetsGot s c.words step).length ≤ c.got.length then
            if c.step + 1 < (collSteps c.words).length then collRun cid n (startStep s cid (c.step + 1))
            else closeColl s c 0 0
          else match s.coll.early.find? (fun p => p.id == cid && stepOf c.words p == some c.step) with
            | none => s
            | some p =>
              collRun cid n (takeData (returnFrees p (releasePacket
                { s with coll := { s.coll with early := s.coll.early.erase p } } p)) c p)

/-- The data phase begins: an all-gather's shard, or ROOT's data, is first put in DST (R265, R274). -/
def beginData (s : State) (c : Coll) : State :=
  let l := c.words
  let f := collFmt l
  let put := fun (t : State) (src off n : Nat) =>
    let x := localPiece t (collKey l 6 f src) (elemBytes f n)
    modColl (storePiece t (collKey l 7 f off) x) c.cid
      (fun y => { y with poisoned := y.poisoned || x.mark.any (· == true) })
  let s1 := modColl s c.cid (fun x => { x with data := true })
  let s2 :=
    if collOp l = 1 then
      let r := rangeBefore s l (collAxes l).length
      put s1 0 r.1 r.2
    else if collOp l = 3 && s.fab.coord == some (collRoot l) then put s1 0 0 (collCount l)
    else s1
  collRun c.cid (s2.coll.early.length + 16) (startStep s2 c.cid 0)

/-! ### Handshake (11 R272, R273) -/

/-- AUX of a CHS. -/
def chsAux (c : Coll) (lap : Nat) : Nat :=
  c.axis * 2 ^ 62 + lap * 2 ^ 61 + (if c.ok then 2 ^ 60 else 0) + (if c.reason then 2 ^ 59 else 0)
    + (c.fail.getD 0).toNat

/-- Send this member's verdict to the next rank, with the digest being compared: rank 1's (R270, R272). -/
def sendChs (s : State) (cid : BitVec 12) (lap : Nat) (digest : List Byte) : State :=
  match openColl s cid with
  | none => s
  | some c =>
    let p := { collPacket s c (ringNext s c.words c.axis) (lap == 1) 0x1C (chsAux c lap) with
               len := 8, data := digest }
    collEmit s c p

/-- A member ends with COLL_MISMATCH (R273, Table 11.5). -/
def mismatchDetail (c : Coll) : Nat := c.axis * 2 ^ 30 + (if c.reason then 2 ^ 29 else 0) + (c.fail.getD 0).toNat

/-- The neighbour rule: the member finds a difference and aborts at once with REASON 1 (R272). -/
def neighbourAbort (s : State) (c : Coll) : State :=
  let me := s.fab.coord.getD 0
  let c' := { c with ok := false, reason := true, fail := some me }
  abortColl (sticky s 0xA0B0 1 0) c 0x20 me 0x20 (mismatchDetail c')

/-- An axis begins: rank 1 sends the collecting CHS (R272). -/
def beginAxis (s : State) (cid : BitVec 12) : State :=
  match openColl s cid with
  | none => s
  | some c => if myRank s c.words c.axis = 1 then sendChs s cid 0 (natLe 8 (collDigest c)) else s

/-- A member has adopted a line's verdict: the next axis, or after the last the data phase or the end (R272, R273). -/
def adoptVerdict (s : State) (cid : BitVec 12) : State :=
  match openColl s cid with
  | none => s
  | some c =>
    if c.axis + 1 < (collAxes c.words).length then
      beginAxis (modColl s cid (fun x => { x with axis := x.axis + 1, lap := 0 })) cid
    else if c.ok then beginData s c
    else closeColl (sticky s 0xA0B0 1 0) c 0x20 (mismatchDetail c)

/-- The smaller of two FAIL_COORDs. -/
def minFail (a b : Option (BitVec 18)) : Option (BitVec 18) :=
  match a, b with
  | some x, some y => some (if x ≤ y then x else y)
  | some x, none => some x
  | none, y => y

/-- Fold a collecting CHS into this member's verdict (R272 step 1). -/
def foldVerdict (s : State) (c : Coll) (p : Packet) : Coll :=
  let carriedOk := p.aux.getLsbD 60
  let carried := if carriedOk then none else some (BitVec.ofNat 18 (wbits p.aux 17 0))
  let differs := leNat p.data != collDigest c
  let own := if differs then minFail c.fail (some (s.fab.coord.getD 0)) else c.fail
  { c with ok := c.ok && carriedOk && !differs, fail := minFail carried own,
           reason := c.reason || (!carriedOk && p.aux.getLsbD 59) }

/-- A CHS that a member takes as a difference: its axis index is out of turn, or it comes from a device other than the ring
predecessor on that axis (R272). -/
def chsWrong (s : State) (c : Coll) (p : Packet) : Bool :=
  let k := wbits p.aux 63 62
  c.data || decide ((collAxes c.words).length ≤ k) || decide (k < c.axis) || p.src != ringPrev s c.words k

/-- A CHS of the axis in turn acts: collect and forward, or adopt and forward (R272). -/
def takeChs (s : State) (c : Coll) (p : Packet) : State :=
  let r := myRank s c.words c.axis
  let m := lineSize c.words c.axis
  let lap := if p.aux.getLsbD 61 then 1 else 0
  let want := if r = 1 then 1 else c.lap
  if chsWrong s c p || lap != want then neighbourAbort s c
  else if lap = 0 then
    let c' := foldVerdict s c p
    let s1 := modColl s c.cid (fun _ => { c' with lap := 1, lastPkt := clock s })
    if r = 0 then adoptVerdict (sendChs s1 c.cid 1 p.data) c.cid else sendChs s1 c.cid 0 p.data
  else
    let ok := p.aux.getLsbD 60
    let s1 := modColl s c.cid (fun x =>
      { x with ok := ok, reason := p.aux.getLsbD 59, lastPkt := clock s,
               fail := if ok then none else some (BitVec.ofNat 18 (wbits p.aux 17 0)) })
    let s2 := if r + 1 < m then sendChs s1 c.cid 1 p.data else s1
    adoptVerdict s2 c.cid

/-- Act on what the pending table holds for a collective, as its turn comes; one of another epoch is discarded (R280). -/
def chsRun (cid : BitVec 12) : Nat → State → State
  | 0, s => s
  | n + 1, s =>
    match openColl s cid with
    | none => s
    | some c =>
      if !c.started || c.data then s
      else match s.coll.pend.find? (fun p => p.id == cid
          && (p.epoch != c.epoch || wbits p.aux 63 62 == c.axis || chsWrong s c p)) with
        | none => s
        | some p =>
          let t := { s with coll := { s.coll with pend := s.coll.pend.erase p } }
          chsRun cid n (if p.epoch = c.epoch then takeChs t c p else bump t 0x80B0 4 1)

/-! ### Commands -/

/-- A COLLECTIVE opens: at most eight are open, and a reducing one waits while its die is held by another (R275,
R281). -/
def openCollective (q : QId) (i : BitVec 32) (op : Nat) (s : State) : State :=
  match s.job q.val i with
  | none => s
  | some j =>
    let l := j.words
    let d := collDie l
    if descType l ≠ 16 ∨ collOp l ≠ op ∨ j.phase ≠ .ready ∨ 8 ≤ s.coll.opens.length
        ∨ (openColl s (collId l)).isSome
        ∨ ((op = 0 ∨ op = 2) ∧ ((s.ve d).hold.isSome
            ∨ s.coll.opens.any (fun c => collDie c.words == d && (collOp c.words == 0 || collOp c.words == 2)))) then s
    else
      let c : Coll :=
        { cid := collId l, queue := q.val, idx := i, words := l, epoch := BitVec.ofNat 16 (dcell s 0xC000 1),
          started := false, ok := true, fail := none, reason := false, axis := 0, lap := 0, data := false, step := 0,
          got := [], lastPkt := clock s, poisoned := false }
      let s1 := s.modJob q.val i (fun j => { j with phase := .working, plane := queueLocal q.val % 8 })
      { s1 with coll := { s1.coll with
          opens := s1.coll.opens ++ [c], closed := s1.coll.closed.filter (· != c.cid) } }

/-- REDUCE_SCATTER (R265). -/
def execReduceScatter (q : QId) (i : BitVec 32) (s : State) : Host.Outcome State Fault Refusal :=
  .next (openCollective q i 0 s)

/-- ALL_GATHER (R265). -/
def execAllGather (q : QId) (i : BitVec 32) (s : State) : Host.Outcome State Fault Refusal :=
  .next (openCollective q i 1 s)

/-- ALL_REDUCE (R265). -/
def execAllReduce (q : QId) (i : BitVec 32) (s : State) : Host.Outcome State Fault Refusal :=
  .next (openCollective q i 2 s)

/-- BROADCAST (R265). -/
def execBroadcast (q : QId) (i : BitVec 32) (s : State) : Host.Outcome State Fault Refusal :=
  .next (openCollective q i 3 s)

/-- Bytes of SRC: an all-gather reads its final shard alone, packed from the base (Table 11.2). -/
def srcBytes (s : State) (l : List Word) : Nat :=
  if collOp l = 1 then elemBytes (collFmt l) (rangeBefore s l (collAxes l).length).2
  else if collOp l = 3 && s.fab.coord != some (collRoot l) then 0
  else elemBytes (collFmt l) (collCount l)

/-- COLL_HANDSHAKE_START (R272, R275, R278): at START_TICK the die is held for a reducing operation, SRC and DST are
checked, and the first axis begins. -/
def collHandshakeStart (q : QId) (i : BitVec 32) (s : State) : State :=
  match s.coll.opens.find? (fun c => c.queue == q.val && c.idx == i) with
  | none => s
  | some c =>
    let l := c.words
    let d := collDie l
    if c.started || decide (now s < dword l 13) then s
    else
      let s1 := modColl s c.cid (fun x => { x with started := true, lastPkt := clock s })
      let s2 := if collOp l = 0 ∨ collOp l = 2 then s1.setVe d { s1.ve d with hold := some c.cid.toNat } else s1
      let c' := { c with started := true }
      let me := s.fab.coord.getD 0
      let bad := fun (w : Nat) (n : Nat) =>
        (faultIn s d (addrOff (dword l w).toNat) n).map (fun x => (wbits (dword l w) 55 0 - addrOff (dword l w).toNat + x.1, x.2))
      match bad 6 (srcBytes s l), bad 7 (elemBytes (collFmt l) (collCount l)) with
      | some (a, p), _ =>
        abortColl (faultSticky s2 8 p) c' (placeStatus p).toNat me (placeStatus p) (placeDetail a p)
      | none, some (a, p) =>
        abortColl (faultSticky s2 8 p) c' (placeStatus p).toNat me (placeStatus p) (placeDetail a p)
      | none, none => chsRun c.cid (s2.coll.pend.length + 8) (beginAxis s2 c.cid)

def execCollHandshakeStart (q : QId) (i : BitVec 32) (s : State) : Host.Outcome State Fault Refusal :=
  .next (collHandshakeStart q i s)

/-- A collective packet is ejected, where the flits received have brought it: judged by the fence table, and against its
collective's own epoch (R280; 13 R295, R296).  `act` has it in hand, with its credit still held. -/
def collEject (p : Packet) (act : State → State) (s : State) : State :=
  if !fabricLive s || s.fab.coord != some p.dst then s
  else match pullPacket s p with
    | none => s
    | some t =>
      let gone := fun (u : State) => returnFrees p (releasePacket u p)
      if isFenced t p.src then bump (gone t) 0x80C0 1 1
      else match openColl t p.id with
        | some c => if c.epoch = p.epoch then act t else bump (gone t) 0x80B0 4 1
        | none => if t.coll.closed.contains p.id then bump (gone t) 0x80B0 4 1 else act t

/-- A collective packet that is consumed at once. -/
def consumed (p : Packet) (act : State → State) (s : State) : State := returnFrees p (act (releasePacket s p))

/-- CHS (R272, R280): acts in its turn, waits in the pending table of 64 for a later axis or an unopened collective, or
breaks the neighbour rule. -/
def chsIn (p : Packet) (s : State) : State :=
  collEject p (consumed p (fun t =>
    let wait := fun (u : State) =>
      if u.coll.pend.length < 64 then
        modColl { u with coll := { u.coll with pend := u.coll.pend ++ [p] } } p.id (fun x => { x with lastPkt := clock u })
      else sticky u 0xA0B0 6 0
    match openColl t p.id with
    | none => wait t
    | some c =>
      if chsWrong t c p then neighbourAbort t c
      else if !c.started || decide (c.axis < wbits p.aux 63 62) then wait t
      else chsRun p.id (t.coll.pend.length + 8) (takeChs t c p))) s

def execChs (p : Packet) (s : State) : Host.Outcome State Fault Refusal := .next (chsIn p s)

/-- CDATA (R268, R274): combined, written or forwarded; one that comes before its member's step waits and holds its
credit. -/
def cdataIn (p : Packet) (s : State) : State :=
  let stale := consumed p (fun t => bump t 0x80B0 4 1)
  collEject p (fun t =>
    match openColl t p.id with
    | none => stale t
    | some c =>
      match stepOf c.words p with
      | none => stale t
      | some k =>
        if c.data && decide (k < c.step) then stale t
        else
          let u := { t with coll := { t.coll with early := t.coll.early ++ [p] } }
          collRun p.id (u.coll.early.length + 16) (modColl u p.id (fun x => { x with lastPkt := clock t }))) s

def execCdata (p : Packet) (s : State) : Host.Outcome State Fault Refusal := .next (cdataIn p s)

/-- CABORT (R278, R279): the collective ends and the abort goes on to every ring neighbour. -/
def cabortIn (p : Packet) (s : State) : State :=
  collEject p (consumed p (fun t =>
    match openColl t p.id with
    | none => t
    | some c =>
      let origin := wbits p.aux 7 0
      let who := BitVec.ofNat 18 (wbits p.aux 25 8)
      if origin = 0x23 ∧ p.src = who then abortColl (sticky t 0xA0B0 3 0) c origin who 0x23 who.toNat
      else abortColl (sticky t 0xA0B0 5 0) c origin who 0x21 (origin * 2 ^ 24 + who.toNat))) s

def execCabort (p : Packet) (s : State) : Host.Outcome State Fault Refusal := .next (cabortIn p s)

/-- TIMEOUT in ticks: 0 selects COLL_TIMEOUT. -/
def collTicks (s : State) (l : List Word) : Nat :=
  (if wbits (dword l 12) 63 32 = 0 then dnum s 0x20B0 1 else wbits (dword l 12) 63 32) * 1024

/-- COLL_PROGRESS_TIMEOUT (R277). -/
def collProgressTimeout (cid : BitVec 12) (s : State) : State :=
  match openColl s cid with
  | none => s
  | some c =>
    if !c.started || decide ((clock s - c.lastPkt).toNat < collTicks s c.words) then s
    else
      let k := if c.data then ((collSteps c.words).getD c.step (true, 0)).2 else c.axis
      let me := s.fab.coord.getD 0
      abortColl (sticky s 0xA0B0 2 0) c 0x22 me 0x22
        (k * 2 ^ 30 + (if c.data then 2 ^ 29 else 0) + (ringPrev s c.words k).toNat)

def execCollProgressTimeout (cid : BitVec 12) (s : State) : Host.Outcome State Fault Refusal :=
  .next (collProgressTimeout cid s)

/-- Every open collective aborts as the fabric epoch advances (R278; 13 R295). -/
def collEpochAbort (s : State) (epoch : Nat) : State :=
  s.coll.opens.foldl (fun t c => abortColl (sticky t 0xA0B0 4 0) c 0x24 (t.fab.coord.getD 0) 0x24 epoch) s

/-- The collectives whose data lies on a die that is lost abort (R278). -/
def collDieLost (s : State) (d : Nat) : State :=
  (s.coll.opens.filter (fun c => collDie c.words == d)).foldl
    (fun t c => abortColl t c 0x1B (t.fab.coord.getD 0) 0x1B d) s

end Sys2Proof.Machine
end

