-- ==== Sys2Proof/Machine/Flags.lean ====
section
/-!
DEFINITION. Every summary that the spec computes from the state: HOST_STATUS and ERR_SUMMARY of BAR0 (14 Table 14.2),
the registers that BAR0 reads (14 R319; 06 Table 6.3), MBX_CTL (14 Table 14.3) and HOST_LINK_STATUS (14 Table 14.5).
The flags of an operation on numbers are in Sys2Proof/Machine/Float.lean, those of a completion record in
Sys2Proof/Machine/Queue.lean (`recordBytes`).
-/

namespace Sys2Proof.Machine

/-- A bit as a number at a place. -/
def bitAt (b : Bool) (i : Nat) : Nat := if b then 2 ^ i else 0

/-- HEALTH_STATE (13 Table 13.8). -/
def healthState (s : State) : Nat := dcell s 0x30C0 2

/-- HOST_STATUS (14 Table 14.2). -/
def hostStatus (s : State) : Nat :=
  s.tempo.state % 16 + bitAt s.boot.complete 4 + bitAt s.res.fenced 5 + healthState s % 4 * 64
    + bitAt (healthState s == 3) 8

/-- A sticky record of a group has a bit set. -/
def groupSet (s : State) (g : Nat) : Bool := s.dict.any (fun e => e.1 / 256 == 0xA000 + 16 * g && e.2 != 0)

/-- ERR_SUMMARY: bit g for the records of index 0xA0g0, g = 1 to 13 (14 Table 14.2). -/
def errSummary (s : State) : Nat := ((List.range 13).map (fun k => bitAt (groupSet s (k + 1)) (k + 1))).foldl (· + ·) 0

/-- MBX_CTL as it reads (14 Table 14.3). -/
def mbxCtl (s : State) : Nat :=
  let h := s.host
  h.reqLen.toNat * 2 ^ 32 + min h.rspBuf.length 65535 * 2 ^ 16 + h.mbxStatus.toNat * 2 ^ 8 + bitAt h.mbxDone 2
    + bitAt h.mbxBusy 1

/-- HOST_LINK_STATUS (14 Table 14.5). -/
def hostLinkStatus (s : State) : Nat :=
  let h := s.host
  if h.linkUp then h.width.toNat + h.rate.toNat * 256 + 2 ^ 16 + bitAt (h.rate == 6) 17 else 0

/-- Is an aligned offset of BAR0 in the map (14 Table 14.2)? -/
def bar0Mapped (base : Nat) : Bool :=
  decide (base < 0x20) || (decide (0x10000 ≤ base) && decide (base < 0x18400))
    || (decide (0x20000 ≤ base) && decide (base < 0x30008)) || (decide (0x40000 ≤ base) && decide (base < 0x40008))
    || (decide (0x41000 ≤ base) && decide (base < 0x43000)) || (decide (0x100000 ≤ base) && decide (base < 0x108000))
    || (decide (0x110000 ≤ base) && decide (base < 0x110100))

/-- The counter of a bell as a window reads it: with every strike and SET that the hub has sent to it applied (14 R319). -/
def bellAfter (s : State) (b : Nat) : Word :=
  (s.flight.filter (fun f => f.src == 8 && f.dst == bellDie b && f.msg.addr.toNat == b % 512)).foldl
    (fun v f =>
      let w := BitVec.ofNat 64 (leNat (f.msg.data.take 8))
      if f.msg.typ = 0x20 then v + w else if f.msg.typ = 0x22 then w else v) (s.bell b)

/-- The 64-bit word of BAR0 at an aligned offset, as it reads; 0 outside the map. -/
def bar0Word (s : State) (base : Nat) : Nat :=
  let h := s.host
  if base = 0 then hostStatus s
  else if base = 0x08 then errSummary s
  else if base = 0x10 then h.errVector.toNat
  else if base = 0x18 then h.mgmtVector.toNat
  else if 0x10000 ≤ base ∧ base < 0x18400 then
    queueRead (s.queue ((base - 0x10000) / 64)) ((base - 0x10000) % 64)
  else if 0x20000 ≤ base ∧ base < 0x28000 then (bellAfter s ((base - 0x20000) / 8)).toNat
  else if 0x28000 ≤ base ∧ base < 0x30000 then (bellAfter s ((base - 0x28000) / 8)).toNat
  else if base = 0x30000 then (now s).toNat
  else if base = 0x40000 then mbxCtl s
  else if 0x41000 ≤ base ∧ base < 0x42000 then
    leNat ((List.range 8).map (fun k => mget 0 h.reqBuf (base - 0x41000 + k)))
  else if 0x42000 ≤ base ∧ base < 0x43000 then leNat (slice h.rspBuf (base - 0x42000) 8)
  else if 0x100000 ≤ base ∧ base < 0x108000 then
    let e := mget MsixEntry.init h.msix ((base - 0x100000) / 16)
    if base % 16 = 0 then e.addr.toNat else e.data.toNat + bitAt e.masked 32
  else if 0x110000 ≤ base ∧ base < 0x110100 then
    ((List.range 64).map (fun k => bitAt (mget false h.pba ((base - 0x110000) * 8 + k)) k)).foldl (· + ·) 0
  else 0

end Sys2Proof.Machine
end

