-- ==== Sys2Proof/Machine/Host.lean ====
section
/-!
DEFINITION. The PCIe function (14; 17 R369): accesses of the BARs that have a row of their own, the completions of host
reads, MSI-X masks, the function's states, its reset, and the loss and training of the link.
-/

namespace Sys2Proof.Machine

/-! ### Host reads (14 R322) -/

/-- A host read has failed: its descriptor ends with HOST_READ_ERROR; a ring fetch at its queue's head stops the queue,
one ahead of it is made again later, and one whose
descriptor has been discarded ends with nothing. -/
def readFailed (s : State) (r : HostRead) : State :=
  let s1 := sticky { s with host := { s.host with reads := s.host.reads.erase r } } 0xA0D0 3 0
  let detail := bitsOf r.addr 43 12
  match r.use with
  | .fetch q i =>
    let x := s1.queue q
    if x.state ≠ .running ∧ replayNext s1 q ≠ some i then s1
    else if atHead x i || replayNext s1 q == some i then
      refuse s1 q { idx := i, words := [], poison := none } 0x40 detail
    else
      s1.setQueue q
        { x with fetchAt := if (i - x.head).toNat < (x.fetchAt - x.head).toNat then i else x.fetchAt,
                 fetched := x.fetched.filter (fun f => (f.idx - x.head).toNat < (i - x.head).toNat) }
  | .copy q i _ => failJob s1 q i 0x40 detail
  | .put q i _ => failJob s1 q i 0x40 detail
  | .dropped => s1

/-- The bytes of a read have all come. -/
def readWhole (s : State) (r : HostRead) : State :=
  let pz := fun (k : Nat) => r.marks.getD k false
  match r.use with
  | .fetch q i =>
    if (s.queue q).fetched.any (fun f => f.idx == i) then s
    else takeDescriptor s q { idx := i, words := wordsFrom 16 r.got, poison := firstMark (fun k => pz (8 * k)) }
  | .copy q i _ => copyOne s q i
  | .put q i off => putDeliver s q i off r.got pz
  | .dropped => s

/-- Data of a read has come: a copy's bytes are written at their destination as they come, the marks of EP = 1 on every
word of the completion (14 R322). -/
def readData (s : State) (r : HostRead) (ep : Bool) (data : List Byte) : State :=
  let piece := data.take (r.len - r.got.length)
  let at_ := r.got.length
  let r' := { r with got := r.got ++ piece, marks := r.marks ++ List.replicate piece.length ep }
  let s1 := bump { s with host := { s.host with reads := s.host.reads.map (fun x => if x == r then r' else x) } }
    0x80D0 1 piece.length
  let s2 := match r.use with
    | .copy q i off => copyDeliver s1 q i (off + at_) piece (fun _ => ep)
    | _ => s1
  if r'.got.length < r'.len then s2
  else readWhole { s2 with host := { s2.host with reads := s2.host.reads.erase r' } } r'

/-- HOST_READ_COMPLETION (14 R322 rules 5 and 6). -/
def hostReadCompletion (tag : Nat) (status : CplStatus) (ep : Bool) (data : List Byte) (s : State) : State :=
  match s.host.reads.find? (fun r => r.tag == tag) with
  | none => s
  | some r => match status with
    | .sc => readData s r ep data
    | .ur => readFailed s r
    | .ca => readFailed s r

def execHostReadCompletion (tag : Nat) (status : CplStatus) (ep : Bool) (data : List Byte) (s : State) :
    Host.Outcome State Fault Refusal := .next (hostReadCompletion tag status ep data s)

/-- HOST_READ_TIMEOUT (14 R322 rule 6). -/
def execHostReadTimeout (tag : Nat) (s : State) : Host.Outcome State Fault Refusal :=
  .next (match s.host.reads.find? (fun r => r.tag == tag) with
    | none => s
    | some r => readFailed s r)

/-! ### Function state (14 R317, R322 rule 7, R323) -/

/-- Does an issued descriptor move data to or from the host (14 R322)? -/
def usesHost (l : List Word) : Bool :=
  if descType l = 6 then isHost (copySrc l) || isHost (copyDst l)
  else if descType l = 7 then !putPull l && isHost (dword l 5)
  else descType l == 8 && isHost (dword l 5)

/-- Requests may be issued again: held writes go out, copies and puts go on, and pending vectors are delivered. -/
def hostResume (s : State) : State :=
  if !hostReady s then s
  else
    let s0 := s.host.held.foldl (fun t w => postHost t w.addr w.data w.ep w.relaxed)
      { s with host := { s.host with held := [] } }
    let s1 := s0.queues.foldl (fun t e =>
      (e.2.jobs.filter (fun j => usesHost j.words && j.phase == .working)).foldl
        (fun u j => if descType j.words = 6 then copyPump e.1 j.idx 2048 u else putPump e.1 j.idx 2048 u) t) s0
    s1.host.pba.foldl (fun t e => deliverPending t e.1) s1

/-- BUS_MASTER_ENABLE (14 R322 rule 7). -/
def execBusMasterEnable (on : Bool) (s : State) : Host.Outcome State Fault Refusal :=
  .next (if hubOn s then hostResume { s with host := { s.host with busMaster := on } } else s)

/-- POWER_STATE_CHANGE (14 R317, R322 rule 7): D3hot stops DMA and vectors and keeps every domain on. -/
def execPowerStateChange (d3hot : Bool) (s : State) : Host.Outcome State Fault Refusal :=
  .next (if hubOn s then hostResume { s with host := { s.host with d3hot := d3hot } } else s)

/-- MSIX_UNMASK (14 R323): a vector, or the whole function with MSI-X enabled, opens and delivers what is pending. -/
def execMsixUnmask (v : Option (Fin 2048)) (s : State) : Host.Outcome State Fault Refusal :=
  .next (if !hubOn s then s
    else match v with
      | some k =>
        let e := mget MsixEntry.init s.host.msix k.val
        deliverPending { s with host := { s.host with
          msix := mput MsixEntry.init s.host.msix k.val { e with masked := false } } } k.val
      | none => hostResume { s with host := { s.host with fnMask := false, msixEnable := true } })

/-! ### BARs (14 R319, R320) -/

/-- BAR0_RESERVED_ACCESS (14 R319): a reserved offset reads 0 or drops the write, and faults; a mapped offset reads its
register. -/
def execBar0ReservedAccess (off : BitVec 24) (write : Bool) (s : State) : Host.Outcome State Fault Refusal :=
  let base := off.toNat / 8 * 8
  .next (if !hubOn s then s
    else
      let t := if bar0Mapped base then s else barFault s
      if write then t else emit t (.bar0 (BitVec.ofNat 64 (bar0Word s base))))

/-- A fault address of BAR2: the host interface's bit, and a hole's own (14 R320; 07 R162). -/
def bar2Fault (s : State) (p : Option (Nat × Place)) : State :=
  match p with
  | some (_, .hole d) => barFault (sticky s 0xA070 7 d)
  | _ => barFault s

/-- BAR2_ACCESS (14 R320): the hub reads or writes the store of the die that the offset names, uncached; a fault address
reads as Unsupported Request or drops the write. -/
def bar2Access (off : BitVec 41) (len : Nat) (data : Option (List Byte)) (s : State) : State :=
  let die := off.toNat / 2 ^ 37
  let o := off.toNat % 2 ^ 37
  let n := match data with | some l => l.length | none => len
  let p := faultIn s die o n
  let bad := p.isSome || (decide (die < 8) && !s.boot.complete)
  if !hubOn s then s
  else match data with
    | some l => if bad then bar2Fault s p else storeBytes s (cellKey die o) l (fun _ => false)
    | none =>
      if bad then emit (bar2Fault s p) (.bar2 none)
      else emit (carryRead s (cellKey die o) n) (.bar2 (some (readBytes s (cellKey die o) n)))

def execBar2Access (off : BitVec 41) (len : Nat) (data : Reading (Option (List Byte))) (s : State) :
    Host.Outcome State Fault Refusal := .next (bar2Access off len data.arg (if hubOn s then readErrs s data.errs else s))

/-! ### Resets and link loss (14 R326, R327; 17 R369) -/

/-- The host address that a descriptor waits on: of its first outstanding read, or the one its body names. -/
def hostAddrOf (s : State) (q : Nat) (j : Job) : Nat :=
  match s.host.reads.find? (fun r => r.use.isOf q j.idx) with
  | some r => r.addr
  | none =>
    if descType j.words = 6 ∧ !isHost (copySrc j.words) then wbits (copyDst j.words) 55 0 else wbits (dword j.words 5) 55 0

/-- Every issued descriptor of a queue that needs the host ends with HOST_READ_ERROR. -/
def failHostJobs (s : State) (q : Nat) : State :=
  ((s.queue q).jobs.filter (fun j => usesHost j.words && j.phase != .finished)).foldl
    (fun t j => failJob (sticky t 0xA0D0 3 0) q j.idx 0x40 (bitsOf (hostAddrOf t q j) 43 12)) s

/-- A queue at a function-level reset: DISABLED, its registers at reset, its issued descriptors kept with the completion
ring they had (14 R326). -/
def flrQueue (s : State) (q : Nat) : State :=
  let s1 := discardDecoded (failHostJobs s q) q
  let x := s1.queue q
  s1.setQueue q { Queue.init with
    jobs := x.jobs.map (fun (j : Job) =>
      { j with cqOld := match j.cqOld with | some c => some c | none => some (x.cqBase, x.cqLog2, x.cqTail) }) }

/-- The mailbox request in progress is cleared: one that waits is dropped, and one whose write goes to the store has no
reply (14 R326). -/
def clearMailbox (m : Mgmt) : Mgmt :=
  { m with
    waiting := m.waiting.filter (fun x => x.1.src != .mailbox),
    store := m.store.map (fun j => if j.msg.src = .mailbox then { j with silent := true } else j) }

/-- A function-level reset (14 R326; 07 R159): the queues and what waits for the last of them, MSI-X, the vectors' numbers, the mailbox request, and the function's
own registers (PRESUMED, log 5). -/
def functionReset (s : State) : State :=
  let s0 := (s.queues.map (·.1)).foldl flrQueue { s with host := { s.host with busMaster := false } }
  let s1 := (List.range 8).foldl rcResize s0
  let h := s1.host
  { s1 with mgmt := clearMailbox s1.mgmt, host := { HostIf.init with
      linkUp := h.linkUp, width := h.width, rate := h.rate, perst := h.perst, nextTag := h.nextTag,
      mbxStatus := h.mbxStatus, mbxDone := h.mbxDone, reqLen := h.reqLen, reqBuf := h.reqBuf, rspBuf := h.rspBuf } }

/-- FUNCTION_LEVEL_RESET. -/
def execFunctionLevelReset (s : State) : Host.Outcome State Fault Refusal :=
  .next (if hubOn s then functionReset s else s)

/-- The link goes down (14 R327): host requests fail, and queues with a ring in host memory stop. -/
def linkLoss (s : State) : State :=
  if !s.host.linkUp then s
  else
    let s1 := sticky { s with host := { s.host with linkUp := false, held := [] } } 0xA0D0 1 0
    let qs := s1.queues.map (·.1)
    let s2 := qs.foldl failHostJobs s1
    let s3 := s2.host.reads.foldl readFailed s2
    qs.foldl (fun t q =>
      let x := t.queue q
      if x.ringBase.getLsbD 63 || x.cqBase.getLsbD 63 then stopQueue t q x.head else t) s3

/-- HOST_LINK_DOWN (14 R327). -/
def execHostLinkDown (s : State) : Host.Outcome State Fault Refusal := .next (if hubOn s then linkLoss s else s)

/-- PERST_N (17 R369): a function-level reset together with a link loss. -/
def execPerstN (s : State) : Host.Outcome State Fault Refusal :=
  .next (if hubOn s then
      let t := functionReset (linkLoss s)
      { t with host := { t.host with perst := true } }
    else s)

/-- HOST_LINK_TRAINED (14 R327, Table 14.5): below x16 or 64 GT/s the link is degraded; every training after the first
is a retraining. -/
def execHostLinkTrained (width rate : Byte) (s : State) : Host.Outcome State Fault Refusal :=
  .next (if !hubOn s then s
    else
      let s1 := if s.host.width = 0 then s else bump s 0x80D0 3 1
      let s2 := { s1 with host := { s1.host with linkUp := true, width := width, rate := rate, perst := false } }
      let s3 := if width.toNat < 16 ∨ rate.toNat < 6 then sticky s2 0xA0D0 2 0 else s2
      hostResume s3)

end Sys2Proof.Machine
end

