-- ==== Sys2Proof/Machine/Laser.lean ====
section
/-!
DEFINITION. Laser banks (10 R258 to R260): the judgement of each source, the vacate of a λ and the take-over by its
spare.
-/

namespace Sys2Proof.Machine

/-- The LASER domain of a bank (16 Table 16.2). -/
def laserDomain (b : Nat) : Nat := 28 + b

/-- The bank runs. -/
def bankOn (s : State) (b : Nat) : Bool := hubOn s && domainOn s (laserDomain b)

/-- A transmit direction leaves a λ: an active one, or one that a pending change makes active, by a change with REASON 1, a
calibrating one by the end of its window, a free one at once (10 R260 step 2). -/
def fibreVacate (s : State) (f l : Nat) : State :=
  let x := s.fibre f
  let c := codeAt x.txMap l
  if x.training ≠ 2 ∨ 17 < c then s
  else if fibreUses x l then
    let w : Want := { lam := l, code := 18, reason := 1, tick := none, lead := none }
    if c < 16 then propose s f w else s.setFibre f { x with wants := x.wants ++ [w] }
  else if x.txCal.cal = some (lamField l) then
    settleTx (s.setFibre f { x with txCal := { advance x.txCal with cal := none }, txMap := setCode x.txMap l 18 }) f
  else s.setFibre f { x with txMap := setCode x.txMap l 18 }

/-- The die-to-die lanes on a λ from the half's tiles move to spares (10 R260 step 4). -/
def pairsVacate (s : State) (b l : Nat) : State :=
  let used := (halfPairs b).filter (fun e =>
    let p := s.pair e.1 e.2
    p.lanes.spares.contains (lamField l) || p.lanes.map.contains (some (lamField l)))
  let t := used.foldl (fun u e => lamLost u e.1 e.2 l) s
  t.setBank b { t.bank b with left := (t.bank b).left ++ used.map (fun e => (9 * e.1 + e.2, l)) }

/-- No working source is left for a λ (10 R260). -/
def laserLost (s : State) (b l : Nat) : State := sticky (setSource s b l 4) 0xA0A0 6 (laserBit b l)

/-- The spare source of a λ is powered and begins to warm; a λ that already runs on it is lost (10 R260). -/
def warmSpare (s : State) (b l : Nat) : State :=
  let x := s.bank b
  if mget 0 x.source l = 1 then laserLost s b l
  else setSource (s.setBank b { x with warmAt := mput 0 x.warmAt l (clock s) }) b l 2

/-- The vacate of a λ (10 R260): one that already runs on its spare is lost. -/
def vacateLam (s : State) (b l : Nat) : State :=
  let src := mget 0 (s.bank b).source l
  if src = 2 ∨ src = 3 ∨ src = 4 then s
  else
    let s1 := sticky s 0xA0A0 5 (laserBit b l)
    let s2 := warmSpare s1 b l
    let s3 := (halfFibres b).foldl (fun t f => fibreVacate t f l) s2
    bankSettle (pairsVacate s3 b l) b l

/-- The power of a λ at commissioning, in mdBm, from its bank's identity memory: 24 dBm where that holds none (10 R258, Table
10.2; log 83). -/
def bankPower (s : State) (b l : Nat) : Int := mget 24000 s.flash.bankPower (18 * b + l)

/-- A tap reading joins those of the last 16 beats of a λ (10 R258). -/
def tapRead (s : State) (b l : Nat) (mdbm : Int) : State :=
  let x := s.bank b
  s.setBank b { x with taps := mput [] x.taps l ((mdbm :: mget [] x.taps l).take 16) }

/-- One source is judged by the mean of its last 16 beats, in dB from commissioning (10 R258, R259): the warning is set where
it falls to −1.5 dB, and not again while it stays there (15 R348). -/
def judgeSource (s0 : State) (b l : Nat) (mdbm : Int) : State :=
  let s := tapRead s0 b l mdbm
  let taps := mget [] (s.bank b).taps l
  let n : Int := taps.length
  let sum := taps.foldl (· + ·) 0 - n * bankPower s b l          -- n times the mean, in mdB
  let was := f32Milli (dnum s (0x40A4 + b) (l + 1))
  let s1 := dset s (0x40A4 + b) (l + 1) (ratF32 sum (1000 * taps.length))
  let s2 := if sum ≤ -1500 * n ∧ -1500 < was then sticky s1 0xA0A0 4 (laserBit b l) else s1
  if sum ≤ -3000 * n then vacateLam s2 b l else s2

/-- LASER_POWER_CHECK (10 R258, R259): each source of a bank at a beat boundary, by its tap's reading. -/
def execLaserPowerCheck (b : Fin 2) (mdbm : List Int) (s : State) : Host.Outcome State Fault Refusal :=
  .next (if bankOn s b.val then
      atBeat s (ckLaser b.val) (fun u => (List.range 18).foldl (fun t l => judgeSource t b.val l (mdbm.getD l 0)) u)
    else s)

/-- LASER_ABRUPT_LOSS (10 R259): the receivers' loss of signal moves the lanes; the λ's free and calibrating places take
state 18 and its spare is brought up. -/
def laserAbruptLoss (b : Fin 2) (l : Lam) (s : State) : State :=
  let src := mget 0 (s.bank b.val).source l.val
  if !bankOn s b.val || decide (2 ≤ src) then s
  else
    let s1 := sticky s 0xA0A0 5 (laserBit b.val l.val)
    let s2 := warmSpare s1 b.val l.val
    let s3 := (halfFibres b.val).foldl
      (fun t f => if codeAt (t.fibre f).txMap l.val < 16 then t else fibreVacate t f l.val) s2
    bankSettle (pairsVacate s3 b.val l.val) b.val l.val

def execLaserAbruptLoss (b : Fin 2) (l : Lam) (s : State) : Host.Outcome State Fault Refusal :=
  .next (laserAbruptLoss b l s)

/-- SPARE_SOURCE_LOCKED (10 R260 step 5): the spare has locked to the grid; the bank switches once every change has
applied. -/
def execSpareSourceLocked (b : Fin 2) (l : Lam) (s : State) : Host.Outcome State Fault Refusal :=
  let src := mget 0 (s.bank b.val).source l.val
  .next (if bankOn s b.val && (src == 2 || src == 3) then
      bankSettle (s.setBank b.val { s.bank b.val with locked := mput false (s.bank b.val).locked l.val true }) b.val l.val
    else s)

/-- SPARE_SOURCE_LOCK_TIMEOUT (10 R260): the spare has not locked within 500 ms, and the λ is lost. -/
def execSpareSourceLockTimeout (b : Fin 2) (l : Lam) (s : State) : Host.Outcome State Fault Refusal :=
  let src := mget 0 (s.bank b.val).source l.val
  .next (if bankOn s b.val && (src == 2 || src == 3) && !mget false (s.bank b.val).locked l.val
        && decide (500000000 ≤ since s (mget 0 (s.bank b.val).warmAt l.val)) then
      laserLost s b.val l.val
    else s)

end Sys2Proof.Machine
end

