-- ==== Sys2Proof/Machine/Loss.lean ====
section
/-!
DEFINITION. The loss of a die to the rest of the module, shared by die reset, hub reset and stack retirement (01 R27;
06 R128, R153; 08 R197; 17 R377), and what an HBM stack keeps through a reset (07 R176).
-/

namespace Sys2Proof.Machine

/-- The queues of a die. -/
def queuesOf (s : State) (d : Nat) : List Nat := (s.queues.map (·.1)).filter (fun q => queueDie q == d)

/-- Every queue of a die: issued descriptors complete with DIE_LOST; at a reset the queue is DISABLED with its registers
at reset (06 Table 6.4), at a retirement a running one is in ERROR (01 R27). -/
def loseQueues (s : State) (d : Nat) (retired : Bool) : State :=
  (queuesOf s d).foldl (fun t q =>
    let u := ((t.queue q).jobs.map Job.idx).foldl (fun v i => dropRequests v q i)
      (t.setQueue q { t.queue q with waitAt := none, watch := none, notified := false, waitOpen := false })
    let v := completeAll u q 0x1B d
    let x := v.queue q
    if !retired then v.setQueue q Queue.init
    else if x.state = .running ∨ x.state = .parking then stopQueue v q x.head else v) s

/-- A NOTIFY of a watch has been accepted by the waiter's link (06 R153). -/
def notifyHeld (s : State) (w : Nat) (tag : Option (BitVec 16)) : Bool :=
  (List.range 9).any (fun x =>
    (heldMsgs ((s.pair x w).rx.getD 2 .init)).any (fun m => m.typ == 0x24 && m.dst.val == w && some m.tag == tag))

/-- The wait of a queue's head on a bell of a lost die completes with DIE_LOST, unless its NOTIFY has come (06 R153). -/
def loseHeadWait (s : State) (d q : Nat) : State :=
  let x := s.queue q
  match x.fetched with
  | f :: _ =>
    if x.state == .running && queueDie q != d && x.waitAt.isSome && waitEn f.words && !x.notified
        && bellDie (waitBell f.words) == d && !notifyHeld s (queueDie q) x.watch then
      refuse (s.setQueue q { x with waitAt := none, watch := none, waitOpen := false }) q f 0x1B d
    else s
  | [] => s

/-- And the wait of a descriptor that a REPLAY reissues on the queue (05 R121; 06 R153). -/
def loseReplayWait (s : State) (d q : Nat) : State :=
  if queueDie q = 8 ∨ queueDie q = d then s
  else match replayOn s q, replayNext s q with
    | some (p, j), some k =>
      match j.waitFrom, (replayFetch s q k).1 with
      | some _, some f =>
        if waitEn f.words && !j.notified && bellDie (waitBell f.words) == d && !notifyHeld s (queueDie q) j.watch then
          refuse (s.modJob p j.idx (fun j => { j with watch := none })) q f 0x1B d
        else s
      | _, _ => s
    | _, _ => s

/-- Waits on bells of a lost die complete with DIE_LOST. -/
def loseWaits (s : State) (d : Nat) : State :=
  (s.queues.map (·.1)).foldl (fun t q => loseReplayWait (loseHeadWait t d q) d q) s

/-- The bells, scheduled strikes and watches of a die are cleared, and the watches that stand for its queues (06
R153). -/
def loseBells (s : State) (d : Nat) : State :=
  { s with
    bells := s.bells.filter (fun e => bellDie e.1 != d),
    scheds := s.scheds.filter (fun e => e.1 != d), remScheds := s.remScheds.filter (fun e => e.1 != d),
    watches := s.watches.filter (fun e => e.1 != d && e.2.die != d) }

/-- The lines that other dies hold of a lost die leave: dirty ones are lost, and their holder's bit is set (08 R197). -/
def loseLines (s : State) (d : Nat) : State :=
  (List.range 8).foldl (fun t h =>
    let r := t.rc h
    let mine := fun (l : RcLine) => l.slot == ownSlot t && l.die == d
    if h = d ∨ !r.lines.any mine then t
    else
      let u := if r.lines.any (fun l => mine l && l.isDirty) then sticky t 0xA080 5 h else t
      u.setRc h { r with lines := r.lines.filter (fun l => !mine l) }) s

/-- Requests to a lost die fail with die lost; its own are forgotten (08 R197). -/
def loseRequests (s : State) (d : Nat) : State :=
  (s.d2dReqs.filter (fun r => r.slot == ownSlot s && r.owner == d)).foldl (fun t r => requestFailed t r 0x1B) s

/-- The plane of a die goes down: its six ports and the fibres of its ribbon (09 R200). -/
def losePlane (s : State) (d : Nat) : State :=
  let s1 := (List.range 6).foldl (fun t k => portDown t (6 * d + k)) s
  (List.range 7).foldl (fun t k =>
    let x := t.fibre (7 * d + k)
    if x.training = 0 then t
    else t.setFibre (7 * d + k) (stopFibre x 0))
    s1

/-- The HBM stack's controller starts again with its contents kept: where a retirement stood, by what is durable (07
R176). -/
def hbmRestart (s : State) (d : Nat) : State :=
  let h := s.hbm d
  let m := s.memRec d
  let retired := m.list.foldl (fun (v : BitVec 64) e => v ||| BitVec.ofNat 64 (2 ^ e.pc)) 0
  let clean := { h with waiting := [], ceTicks := [], ueRows := [], list := m.list, retired := retired }
  s.setHbm d (match m.active with
    | none => { clean with phase := 0, removed := none, batch := 0, cursor := 0 }
    | some r => match m.cursor with
      | none => { clean with phase := 2, pc := r.pc, gib := r.gib, removed := none, noticeAt := clock s, batch := 0, cursor := 0 }
      | some c => { clean with phase := 3, pc := r.pc, gib := r.gib, removed := some r.gib, batch := c, cursor := c })

/-- A pair that goes down: its lanes stay as they are, and of its traffic the whole messages that a receiver in service
has accepted (06 R153; 08 R190). -/
def downPair (p : Pair) (kept : Bool) : Pair :=
  { Pair.init with
    lanes := p.lanes, degraded := p.degraded, rx := if kept then p.rx.map keepWhole else Pair.init.rx }

/-- What die `d` relays and has not brought to its destination, in order: on its own pairs, then on those to it (08
R189). -/
def relayedBy (s : State) (d : Nat) : List D2dMsg :=
  (List.range 9).flatMap (fun b => ([2, 1, 0].flatMap (unheld (s.pair d b))).filter (fun m => m.src.val != d))
    ++ (List.range 9).flatMap (fun a =>
      let p := s.pair a d
      (((p.sentMsgs ++ p.wait).filter (fun w => w.1 == 3)).map (·.2)).filter (fun m => m.dst.val != d))

/-- The pairs of a die go down: what it relayed is sent again by its source (log 71), and messages from it or to it that no
receiver has accepted whole are gone (06 R153; 08 R189). -/
def downPairs (s : State) (d : Nat) : State :=
  let again := relayedBy s d
  let t := (List.range 9).foldl (fun t b =>
    let u := t.setPair d b (downPair (t.pair d b) true)
    u.setPair b d (downPair (u.pair b d) false)) s
  let held := (List.range 81).flatMap (fun k => (t.pair (k / 9) (k % 9)).rx.flatMap heldMsgs)
  let keep := fun (f : Flying) => f.dst != d && (f.src != d || held.contains f.msg)
  again.foldl (fun u m => sendHop u m.src.val m) (relaysAgain { t with flight := t.flight.filter keep })

/-- What a compute die itself holds is gone (06, 17 R377): its processor, arrays, vector engine, update lane, region and
requests. -/
def clearDie (s : State) (d : Nat) : State :=
  { s with
    cps := s.cps.filter (fun e => e.1 != d), arrays := s.arrays.filter (fun e => e.1 / 8 != d),
    ves := s.ves.filter (fun e => e.1 != d), lanes := s.lanes.filter (fun e => e.1 != d),
    rcs := s.rcs.filter (fun e => e.1 != d), d2dReqs := s.d2dReqs.filter (fun r => r.die != d) }

/-- A compute die is lost to the module: its domain bit is already off (`dieUp` is false). -/
def dieGone (s : State) (d : Nat) (retired : Bool) : State :=
  let s1 := loseQueues { s with rcs := s.rcs.filter (fun e => e.1 != d), d2dReqs := s.d2dReqs.filter (fun r => r.die != d) }
    d retired
  let s2 := collDieLost s1 d
  let s3 := loseRequests (clearDie s2 d) d
  let s4 := loseWaits (loseBells (loseLines s3 d) d) d
  losePlane (downPairs s4 d) d

/-- The record of a retirement in progress leaves the memory record (07 R177). -/
def dropRecord (s : State) (d : Nat) : State :=
  let m := s.memRec d
  if m.active.isNone then s else memRecordWrite (s.setMemRec d { m with active := none, cursor := none })

/-- The stack of a signal group: none for the hub's own (01 Table 1.2). -/
def groupStack : BumpGroup → Option Nat
  | .d2dLane d _ _ _ => some d.val
  | .fabLane d _ _ _ => some d.val
  | .hbmPc d _ _ => some d.val
  | .hbmLane d _ => some d.val
  | .baseCtl d _ _ => some d.val
  | .tierRead d _ _ => some d.val
  | .tierWrite d _ _ => some d.val
  | .tierCmd d _ _ => some d.val
  | .tierCtl d _ _ => some d.val
  | .hubLane p _ _ => some p.val
  | .hubPcie _ _ => none
  | .hubCtl _ _ => none

/-- A stack is retired (01 R27): its die is lost, its stores leave, its pairs go dark, its plane leaves service, a
retirement in progress is discarded and its record with it (07 R177), and swaps pending on it are cancelled.  The tier's
ports stay in TIER_PORT_MAP as they are (DESIGN CHOICE, log 74). -/
def retireStack (s : State) (n : Nat) : State :=
  if !s.stackMask.getLsbD n then s
  else
    let bit : Byte := BitVec.ofNat 8 (2 ^ n)
    let s1 := sticky { s with stackMask := s.stackMask &&& ~~~bit, dieReset := s.dieReset ||| bit } 0xA010 6 n
    let s2 := dieGone s1 n true
    let s3 := zeroTier s2 n
    let s4 := dropRecord (s3.setHbm n { Hbm.init with retired := (s3.hbm n).retired, list := (s3.hbm n).list }) n
    let dark := fun (p : Pair) => { p with lanes := { map := p.lanes.map.map (fun _ => none), spares := [], relay := none } }
    let s5 := (List.range 9).foldl (fun t b =>
      let u := t.setPair n b (dark (t.pair n b))
      u.setPair b n (dark (u.pair b n))) s4
    let own := [n, 8 + n, 16 + n]
    let on := own.foldl (fun (m : BitVec 30) d => m &&& ~~~(BitVec.ofNat 30 (2 ^ d))) s5.stage.domains
    { s5 with swaps := s5.swaps.filter (fun g => groupStack g != some n), stage := { s5.stage with domains := on } }

end Sys2Proof.Machine
end

