-- ==== Sys2Proof/Machine/Memory.lean ====
section
/-!
DEFINITION. Tiers and HBM stacks in service (07 R164, R169, R172 to R177): scrub, and the retirement of a pseudo-channel
with its notice, migration and durable cursor.
-/

namespace Sys2Proof.Machine

/-! ### Retirement of a pseudo-channel (07 R172 to R178) -/

/-- The next waiting trigger starts once none runs. -/
def nextRetire (d : Nat) : Nat → State → State
  | 0, s => s
  | n + 1, s =>
    let h := s.hbm d
    match h.waiting with
    | [] => s
    | p :: rest =>
      if h.phase ≠ 0 then s else nextRetire d n (startRetire (s.setHbm d { h with waiting := rest }) d p)

/-- A retirement is complete: the pseudo-channel leaves service (R173 step 5). -/
def completeRetire (s : State) (d : Nat) : State :=
  let h := s.hbm d
  let m := s.memRec d
  let e : PcRetire := ⟨h.pc, h.gib⟩
  let s1 := memRecordWrite (s.setMemRec d { m with list := m.list ++ [e], active := none, cursor := none })
  let s2 := s1.setHbm d
    { h with retired := h.retired ||| BitVec.ofNat 64 (2 ^ h.pc), list := h.list ++ [e], removed := none, phase := 0,
             batch := 0, cursor := 0 }
  nextRetire d ((s2.hbm d).waiting.length + 1) (sticky s2 0xA070 4 d)

/-- PC_RECORD_DURABLE (R173 steps 1 and 2, Table 7.2): the stack's bit is set and the notice begins. -/
def execPcRecordDurable (d : Die) (s : State) : Host.Outcome State Fault Refusal :=
  let h := s.hbm d.val
  .next (if dieUp s d.val && h.phase == 1 then
      let s1 := memRecordWrite (s.setMemRec d.val { s.memRec d.val with active := some ⟨h.pc, h.gib⟩, cursor := none })
      sticky (s1.setHbm d.val { h with phase := 2, noticeAt := clock s }) 0xA070 3 d.val
    else s)

/-- What a ghost holds of a GiB that leaves the map: an owner's blocks of it leave the epoch, and a hosted stack whose
window it cuts is LOST (13 Table 13.4). -/
def ghostRemoved (s : State) (d gib : Nat) : State :=
  let lo := cellKey d (0x1000000000 + gib * 1073741824)
  let inG := fun (k : Nat) => decide (lo ≤ k) && decide (k < lo + 1073741824)
  let keep := fun (i : Nat) => match ghostBlockKey i (ghostRegions s) 0 with
    | some k => !inG k
    | none => true
  let r := s.res
  let s1 := { s with res := { r with
    openSet := r.openSet.filter keep, closing := r.closing.filter keep, unacked := r.unacked.filter keep,
    staged := r.staged.filter (fun e => keep e.1) } }
  match windowOf s1 (dcell s1 0xC028 2 + d) with
  | none => s1
  | some w =>
    let k := cellKey (addrDie w.base) (addrOff w.base)
    if mget 0 s1.res.hostState d ≠ 0 ∧ k < lo + 1073741824 ∧ lo < k + w.len then
      sticky { s1 with res := { s1.res with hostState := mput 0 s1.res.hostState d 6 } } 0xA0C0 6 d
    else s1

/-- PC_NOTICE_END (R173 step 3): after PC_RETIRE_NOTICE beats the GiB leaves the map, and cursor 0 is written. -/
def execPcNoticeEnd (d : Die) (s : State) : Host.Outcome State Fault Refusal :=
  let h := s.hbm d.val
  .next (if dieUp s d.val && h.phase == 2 && decide (dnum s 0x5013 2 * 2 ^ 20 ≤ (clock s - h.noticeAt).toNat) then
      ghostRemoved (s.setHbm d.val { h with phase := 3, removed := some h.gib, batch := 0, cursor := 0 }) d.val h.gib
    else s)

/-- PC_CURSOR_DURABLE (R173 steps 4 and 5, R175): cursor 0 lets the migration begin, a later one flips its batch, and
the last completes the retirement. -/
def execPcCursorDurable (d : Die) (s : State) : Host.Outcome State Fault Refusal :=
  let h := s.hbm d.val
  let m := s.memRec d.val
  .next (if !dieUp s d.val || h.phase != 3 then s
    else match m.cursor with
      | none =>
        let lo := cellKey d.val (0x1000000000 + h.gib * 1073741824)
        let s1 := memRecordWrite (s.setMemRec d.val { m with cursor := some 0 })
        zeroRange s1 lo (lo + 1073741824)
      | some c =>
        if h.batch ≤ c then s
        else
          let s1 := memRecordWrite (s.setMemRec d.val { m with cursor := some (c + 1) })
          let s2 := s1.setHbm d.val { h with cursor := c + 1 }
          if batches s d.val ≤ c + 1 then completeRetire s2 d.val else s2)

/-- PC_BATCH_COPIED (R175): a batch has been copied and its cursor is written.  Words of its rows that the copy finds in
error are corrected, or marked poisoned at both places (R168). -/
def pcBatchCopied (d : Die) (finds : List WordFind) (s : State) : State :=
  let h := s.hbm d.val
  if dieUp s d.val && h.phase == 3 && (s.memRec d.val).cursor.isSome && decide (h.batch < batches s d.val) then
    let inBatch := fun (w : WordFind) => match movedRank s d.val ((w.off - 0x1000000000) / 256) with
      | some k => k / 524288 == h.batch && decide (0x1000000000 ≤ w.off)
      | none => false
    let t := (finds.filter inBatch).foldl (fun t w => wordFind t d.val w) s
    bump (t.setHbm d.val { t.hbm d.val with batch := h.batch + 1 }) 0x8074 (d.val + 1)
      (min 524288 (movedRows s d.val - h.batch * 524288) * 256)
  else s

def execPcBatchCopied (r : BatchRead) (s : State) : Host.Outcome State Fault Refusal :=
  .next (pcBatchCopied r.die r.finds s)

/-! ### Scrub (07 R164, R169) -/

/-- HBM_SCRUB (R169): one line is read, and its corrected words written back; its poisoned words count (R170). -/
def hbmScrub (d : Die) (line : Nat) (finds : List WordFind) (s : State) : State :=
  if !dieUp s d.val || decide (hbmGib s d.val ≤ line / gibLines) then s
  else
    let found := finds.filter (fun w => decide (0x1000000000 ≤ w.off) && (w.off - 0x1000000000) / 256 == line)
    found.foldl (fun t w => wordFind t d.val w) (carryRead s (cellKey d.val (0x1000000000 + line * 256)) 256)

def execHbmScrub (d : Die) (line : Nat) (finds : List WordFind) (s : State) : Host.Outcome State Fault Refusal :=
  .next (hbmScrub d line finds s)

/-- TIER_SCRUB (R164): a row, of the region too, is read, corrected and written back; its poisoned words count (R170). -/
def tierScrub (d : Die) (row : Nat) (finds : List WordFind) (s : State) : State :=
  if !dieUp s d.val || decide (tierMap s d.val ≤ row * 512) || (s.tier d.val).out.getLsbD (quadOf s d.val (row * 512))
      || (s.memRec d.val).holes.contains (tierRow s d.val (row * 512)) then s
  else
    (finds.filter (fun w => w.off / 512 == row)).foldl (fun t w => wordFind t d.val w)
      (carryRead s (cellKey d.val (row * 512)) 512)

def execTierScrub (d : Die) (row : Nat) (finds : List WordFind) (s : State) : Host.Outcome State Fault Refusal :=
  .next (tierScrub d row finds s)

end Sys2Proof.Machine
end

