-- ==== Sys2Proof/Machine/Stack.lean ====
section
/-!
DEFINITION. The vertical layer in service (01 R14 to R29): a failed bump and its spare, a group that is exhausted, tier
ports and quadrants, clock vias, and the failure of the module that these can end in.
-/

namespace Sys2Proof.Machine

/-- The bit of a group's die in 0xA010:01: 8 for the hub's interface (01 R29). -/
def groupDie : BumpGroup → Nat
  | .hubLane _ _ _ => 8
  | .hubPcie _ _ => 8
  | .hubCtl _ _ => 8
  | g => (groupStack g).getD 8

/-- The tier and port of a tier group. -/
def groupPort : BumpGroup → Option (Nat × Nat)
  | .tierRead d p _ => some (d.val, p.val)
  | .tierWrite d p _ => some (d.val, p.val)
  | .tierCmd d p _ => some (d.val, p.val)
  | _ => none

/-- Two groups of one tier quadrant (01 R18). -/
def sameQuad (g h : BumpGroup) : Bool :=
  match groupPort g, groupPort h with
  | some (d, p), some (e, q) => d == e && p / 2 == q / 2
  | _, _ => false

/-- The group is one of Table 1.2, and its stack is in service. -/
def groupLive (s : State) (g : BumpGroup) : Bool :=
  (match g with | .d2dLane d p _ _ => decide (p.val ≠ d.val) | _ => true) &&
  (match groupStack g with | some n => s.stackMask.getLsbD n | none => true)

/-- The module has failed with its domains on: nothing on the hub runs any more (01 R26, Table 1.2; log 20). -/
def moduleDead (s : State) : State :=
  { s with boot := { s.boot with dead := true, rom := 5 }, stage := { s.stage with moduleFailed := true } }

/-- A quadrant of a tier is mapped out (01 R20), unless a compaction of the map has already left it out (R29).  The lines of
the remote-cache region stay as they are, wherever they lie (DESIGN CHOICE, log 74). -/
def quadrantOut (s : State) (d q : Nat) : State :=
  let t := s.tier d
  if t.out.getLsbD q || !t.quads.contains q then s
  else sticky (s.setTier d { t with out := t.out ||| BitVec.ofNat 4 (2 ^ q) }) 0xA010 3 (4 * d + q)

/-- A tier port is retired, and swaps of its groups end with it (01 R18); with its partner gone too, the quadrant is mapped
out (R20). -/
def tierPortRetired (s : State) (d p : Nat) : State :=
  let t := s.tier d
  if !t.ports.getLsbD p then s
  else
    let s0 := { s with swaps := s.swaps.filter (fun g => groupPort g != some (d, p)) }
    let s1 := sticky (s0.setTier d { t with ports := t.ports &&& ~~~(BitVec.ofNat 8 (2 ^ p)) }) 0xA010 2 (8 * d + p)
    if t.ports.getLsbD (p / 2 * 2 + 1 - p % 2) then s1 else quadrantOut s1 d (p / 2)

/-- Is a PCIe lane out of use: a group of it is exhausted in either direction? -/
def pcieLaneDead (s : State) (k : Nat) : Bool :=
  s.flash.bumpDead.any (fun g => match g with | .hubPcie l _ => l.val == k | _ => false)

/-- The width that the lanes below the first dead one allow. -/
def pcieWidth (s : State) : Nat :=
  let n := ((List.range 16).find? (pcieLaneDead s)).getD 16
  ([16, 8, 4, 2, 1].find? (fun w => decide (w ≤ n))).getD 0

/-- The host link retrains at reduced width (01 Table 1.2; 14 R327); with no lane left it is down. -/
def hostNarrow (s : State) : State :=
  let w := pcieWidth s
  if !s.host.linkUp || decide (s.host.width.toNat ≤ w) then s
  else if w = 0 then linkLoss s
  else sticky (bump { s with host := { s.host with width := BitVec.ofNat 8 w } } 0x80D0 3 1) 0xA0D0 2 0

/-- A group is exhausted: the action of Table 1.2, entered in the repair map (01 R16, R19). -/
def exhausted (s : State) (g : BumpGroup) : State :=
  if s.flash.bumpDead.contains g then s
  else
    let s0 := { s with flash := { s.flash with bumpDead := s.flash.bumpDead ++ [g] }, swaps := s.swaps.filter (· != g) }
    match g with
    | .d2dLane d peer l tx => if tx then lamLost s0 d.val peer.val l.val else lamLost s0 peer.val d.val l.val
    | .hubLane peer l tx => if tx then lamLost s0 8 peer.val l.val else lamLost s0 peer.val 8 l.val
    | .fabLane d t l tx =>
      let f := 7 * d.val + t.val
      let x : Xcvr := if h : f < 56 then ⟨f, h⟩ else 0
      let s1 := { s0 with flash := { s0.flash with lambdas := s0.flash.lambdas ++ [(x, l, tx)] } }
      if tx then txFault s1 f l.val else rxLose s1 f l.val
    | .hbmPc d pc _ => triggerRetire s0 d.val pc.val
    | .hbmLane d pc => triggerRetire s0 d.val pc.val
    | .baseCtl d k twin => if s0.flash.bumpDead.contains (.baseCtl d k (!twin)) then retireStack s0 d.val else s0
    | .tierCtl d k twin => if s0.flash.bumpDead.contains (.tierCtl d k (!twin)) then retireStack s0 d.val else s0
    | .tierRead d p _ => tierPortRetired s0 d.val p.val
    | .tierWrite d p _ => tierPortRetired s0 d.val p.val
    | .tierCmd d p _ => tierPortRetired s0 d.val p.val
    | .hubPcie _ _ => hostNarrow s0
    | .hubCtl k twin => if s0.flash.bumpDead.contains (.hubCtl k (!twin)) then moduleDead s0 else s0

/-- A group that stands for a lane fault which HBM4's own repair cannot cover: it has no spare left (01, below Table 1.2). -/
def spareless : BumpGroup → Bool
  | .hbmLane _ _ => true
  | _ => false

/-- BUMP_FAILED (01 R16, R17, R19): the group's spare is brought in, or, with the spare in use, the group is
exhausted. -/
def bumpFailed (g : BumpGroup) (s : State) : State :=
  if !hubOn s || !groupLive s g then s
  else if s.flash.bumpSpared.contains g || spareless g then exhausted s g
  else
    let s1 := { s with flash := { s.flash with bumpSpared := s.flash.bumpSpared ++ [g] }, swaps := s.swaps ++ [g] }
    sticky s1 0xA010 1 (groupDie g)

def execBumpFailed (g : BumpGroup) (s : State) : Host.Outcome State Fault Refusal := .next (bumpFailed g s)

/-- The swaps that stand ahead of a group's. -/
def swapsAhead (g : BumpGroup) (l : List BumpGroup) : List BumpGroup := l.takeWhile (· != g)

/-- SPARE_SWAP_END (01 Table 1.3, R18): at cycle 320 the port resumes, or the group is exhausted.  A swap that waits
for another in its quadrant has not begun. -/
def spareSwapEnd (g : BumpGroup) (pass : Bool) (s : State) : State :=
  if !hubOn s || !s.swaps.contains g || (swapsAhead g s.swaps).any (sameQuad g) then s
  else if pass then { s with swaps := s.swaps.erase g }
  else exhausted s g

def execSpareSwapEnd (g : BumpGroup) (pass : Bool) (s : State) : Host.Outcome State Fault Refusal :=
  .next (spareSwapEnd g pass s)

/-- CLOCK_VIA_LOSS (01 R26): the die switches to the twin via, or with both gone its stack is retired, or the module
fails. -/
def clockViaLoss (who : ClockUser) (twinDead : Bool) (s : State) : State :=
  if !hubOn s then s
  else match who with
    | .cd d =>
      if !s.stackMask.getLsbD d.val then s
      else if twinDead || dcell s 0x3014 (d.val + 1) != 0 then retireStack (dset s 0x3014 (d.val + 1) 2) d.val
      else sticky (dset s 0x3014 (d.val + 1) 1) 0xA010 5 d.val
    | .tier d =>
      if !s.stackMask.getLsbD d.val then s
      else if twinDead || (s.tier d.val).clkTwin then retireStack s d.val
      else sticky (s.setTier d.val { s.tier d.val with clkTwin := true }) 0xA010 5 d.val
    | .hub =>
      if twinDead || dcell s 0x3014 9 != 0 then moduleDead (sticky (dset s 0x3014 9 2) 0xA010 7 0)
      else sticky (dset s 0x3014 9 1) 0xA010 5 8

def execClockViaLoss (who : ClockUser) (twinDead : Bool) (s : State) : Host.Outcome State Fault Refusal :=
  .next (clockViaLoss who twinDead s)

end Sys2Proof.Machine
end

