-- ==== Sys2Proof/Machine/Store.lean ====
section
/-!
DEFINITION. The persistent dictionary image (15 R344 to R346) and what a loss of every domain leaves of the module (16
R353, R356; 17, first paragraph): flash, fuses, the power stage and the bays.
-/

namespace Sys2Proof.Machine

/-! ### Values as bytes (15 R330) -/

/-- The length of a numeric type's value; 0 for STR and BLOB. -/
def tyLen : EType → Nat
  | .u8 => 1
  | .u16 => 2
  | .u32 => 4
  | .u64 => 8
  | .i32 => 4
  | .f32 => 4
  | .str => 0
  | .blob => 0

/-- A numeric entry? -/
def isNumeric (e : Entry) : Bool := tyLen e.ty != 0

/-- The default bytes of an entry that the dictionary stores: zeros, but for PORT_MAP, PLANE_ORDER and CLASS_MIN (09
Table 9.4, R210; 10 R235). -/
def defaultBlob (idx : Nat) : List Byte :=
  if idx = 0x40A0 then portMapReset
  else if idx = 0x9001 then List.replicate 8 0
  else if idx = 0x9003 then [64, 128, 64, 64, 64, 16].flatMap (natLe 2)
  else if idx = 0x7010 then List.replicate 32 0
  else if idx = 0x7011 then List.replicate 16 0
  else []

/-- The bytes that a stored entry holds. -/
def storedBytes (s : State) (e : Entry) (sub : Nat) : List Byte :=
  if isNumeric e then natLe (tyLen e.ty) (dnum s e.index sub)
  else mget (defaultBlob e.index) s.blobs (dkey e.index sub)

/-- The default bytes of a stored entry. -/
def defaultBytes (e : Entry) : List Byte :=
  if isNumeric e then natLe (tyLen e.ty) e.dflt else defaultBlob e.index

/-- Put a stored entry's bytes. -/
def putStored (s : State) (e : Entry) (sub : Nat) (v : List Byte) : State :=
  if isNumeric e then dset s e.index sub (leNat v)
  else { s with blobs := mput (defaultBlob e.index) s.blobs (dkey e.index sub) v }

/-- Is a number within an entry's range (15 R330, R333): a binary32 is compared as a number, and a NaN or, without a
range of its own, an infinity is outside. -/
def numInRange (e : Entry) (v : Nat) : Bool :=
  match e.range with
  | .full => if e.ty = .f32 then f32Le 0xFF7FFFFF v && f32Le v 0x7F7FFFFF else true
  | .span lo hi => if e.ty = .f32 then f32Le lo v && f32Le v hi else decide (lo ≤ v) && decide (v ≤ hi)
  | .mask m => v &&& m == v
  | .multiple k lo hi => decide (v % k = 0) && decide (lo ≤ v) && decide (v ≤ hi)
  | .bytes _ _ => true

/-- Is a value's length that of its entry, and is it within range? -/
def lengthOk (e : Entry) (v : List Byte) : Bool :=
  if isNumeric e then v.length == tyLen e.ty
  else match e.range with
    | .bytes lo hi => decide (lo ≤ v.length) && decide (v.length ≤ hi)
    | _ => true
def inRange (e : Entry) (v : List Byte) : Bool := if isNumeric e then numInRange e (leNat v) else true

/-! ### The image in flash (15 R345, R346) -/

/-- The persistent entries, one by one. -/
def persistentKeys : List (Entry × Nat) :=
  (dictTable.filter Entry.keep).flatMap (fun e => (List.range (e.last + 1 - e.sub)).map (fun k => (e, e.sub + k)))

/-- The records of an image of the present values: those that differ from their default. -/
def imageRecs (s : State) : SMap (List Byte) :=
  persistentKeys.foldl (fun m (e, sub) =>
    let v := storedBytes s e sub
    if v = defaultBytes e then m else mput [] m (dkey e.index sub) v) []

/-- Zeros up to a multiple of four bytes. -/
def pad4 (l : List Byte) : List Byte := l ++ List.replicate ((4 - l.length % 4) % 4) 0

/-- The bytes of a copy: header, a record of every persistent entry, check word (15 R345). -/
def imageBytes (c : DictCopy) : List Byte :=
  let recs := persistentKeys.flatMap (fun (e, sub) =>
    let v := (mfind c.recs (dkey e.index sub)).getD (defaultBytes e)
    pad4 (natLe 2 e.index ++ natLe 1 sub ++ natLe 1 v.length ++ v))
  let body := natLe 4 0x52545344 ++ natLe 4 c.seq ++ natLe 4 recs.length ++ natLe 2 1 ++ natLe 2 0 ++ recs
  body ++ natLe 4 (crc32c body)

/-- The next write goes to copy A: it is the invalid copy, or the one with the lower SEQ. -/
def writesA (f : Flash) : Bool := !f.copyA.valid || (f.copyB.valid && decide (f.copyA.seq < f.copyB.seq))

/-- The SEQ of the copy in use: the higher of the valid ones. -/
def storeSeq (f : Flash) : Nat := max (if f.copyA.valid then f.copyA.seq else 0) (if f.copyB.valid then f.copyB.seq else 0)

/-- The flash after a whole image has been written into the older copy. -/
def writeImage (f : Flash) (recs : SMap (List Byte)) : Flash :=
  let c : DictCopy := { valid := true, seq := storeSeq f + 1, recs := recs }
  if writesA f then { f with copyA := c } else { f with copyB := c }

/-- The flash while, or after, the older copy fails its read-back: that copy is not valid. -/
def spoilImage (f : Flash) : Flash :=
  if writesA f then { f with copyA := { f.copyA with valid := false } } else { f with copyB := { f.copyB with valid := false } }

/-- The image that a write of an entry stores. -/
def withRecord (s : State) (key : Nat) (v : List Byte) : SMap (List Byte) := mput [] (imageRecs s) key v

/-- The flash when power or the hub goes while writes are under way: a dictionary image is whole or its older copy
stands (a free choice, 16 R353), and a firmware image being written is lost (17 R375). -/
def interruptFlash (s : State) : State :=
  let s1 := match s.mgmt.store with
    | none => s
    | some j =>
      let (w, t) := freeWord s
      if w.getLsbD 0 then { t with flash := writeImage t.flash (withRecord t j.key j.value) } else t
  if s1.boot.update = 2 then { s1 with flash := { s1.flash with imageTorn := true } } else s1

/-- Every domain is off (16 R353): only flash, fuses, the stage and the bays keep what they hold. -/
def allOff (s : State) : State :=
  let t := interruptFlash s
  { State.reset with
    pending := t.pending, free := t.free, out := t.out, stage := { t.stage with domains := 0 }, fuses := t.fuses,
    flash := t.flash }

end Sys2Proof.Machine
end

