-- ==== Sys2Proof/Machine/Power.lean ====
section
/-!
DEFINITION. Power and thermal management (16 R352 to R366; 18 R387, R390): stops and domain faults, clock caps, the
thermal model and the sensor cross-check, stretching, the in-service margin survey and the coolant check.
-/

namespace Sys2Proof.Machine

/-! ### Stops and domain faults (16 R352, R353, R356) -/

/-- The input stops for a cause: every domain is off, and LAST_STOP records it (16 R353). -/
def inputStop (s : State) (cause : Byte) : State :=
  if !s.stage.inputGood then s
  else
    let t := allOff s
    { t with stage := { t.stage with inputGood := false, lastStop := cause } }

def execUndervoltageStop (s : State) : Host.Outcome State Fault Refusal := .next (inputStop s 1)

def execOvervoltageStop (s : State) : Host.Outcome State Fault Refusal := .next (inputStop s 2)

def execInputOvercurrentStop (s : State) : Host.Outcome State Fault Refusal := .next (inputStop s 3)

/-- INPUT_OUT_OF_RANGE (16 R352). -/
def execInputOutOfRange (mv : Nat) (s : State) : Host.Outcome State Fault Refusal :=
  .next (if !loaded s then s
    else
      let t := dset s 0x6000 1 (ratF32 mv 1000)
      if mv < 46000 ∨ 56000 < mv then sticky t 0xA010 12 0 else t)

/-- A fault of a domain fails the module (16 Table 16.4). -/
def failsModule (d : Nat) : Bool := d == 24 || d == 25 || d == 26 || d == 28

/-- The stacks that a domain's fault retires (16 Table 16.4). -/
def faultStacks (d : Nat) : List Nat := if d < 24 then [d % 8] else if d = 27 ∨ d = 29 then [2, 3, 6, 7] else []

/-- A domain faults: it and its dependents switch off, with the consequences of Table 16.4. -/
def domainFault (d : Nat) (s : State) : State :=
  if !domainOn s d then s
  else
    let s1 := if loaded s then sticky s 0xA010 13 d else s
    if failsModule d then
      let t := allOff s1
      { t with stage := { t.stage with lastStop := 4, moduleFailed := true } }
    else
      let s2 := (faultStacks d).foldl retireStack s1
      let gone : BitVec 30 := BitVec.ofNat 30 (2 ^ d) ||| (if d = 27 then BitVec.ofNat 30 (2 ^ 29) else 0)
      { s2 with stage := { s2.stage with domains := s2.stage.domains &&& ~~~gone } }

def execDomainFault (d : Fin 30) (s : State) : Host.Outcome State Fault Refusal := .next (domainFault d.val s)

/-- LASER_LATCH_OPEN (18 R390): the bank's LASER domain is switched off, as a fault of that domain. -/
def laserLatchOpen (b : Fin 2) (s : State) : State :=
  domainFault (laserDomain b.val)
    { s with stage := { s.stage with latch := s.stage.latch &&& ~~~(BitVec.ofNat 2 (2 ^ b.val)) } }

def execLaserLatchOpen (b : Fin 2) (s : State) : Host.Outcome State Fault Refusal := .next (laserLatchOpen b s)

/-! ### Clock caps (16 R358, R359) -/

/-- One step down, not below 16, and one up, not above 64. -/
def capDown (n k : Nat) : Nat := max 16 (n - k)
def capUp (n : Nat) : Nat := min 64 (n + 1)

/-- The clock of a compute die: the least of its four caps, in steps of 21.875 MHz (16 R358). -/
def clockSteps (s : State) (d : Nat) : Nat :=
  let t := s.therm d
  min (min t.capPath t.capCur) (min s.power.cap t.capTh)

/-- POWER_CAP_CHECK (16 R359): every 100 µs, and the entries of the input (0x6000:03, and :05 in mJ). -/
def powerCapCheck (meanW meanMsW meanMsMa : Nat) (s : State) : State :=
  if !loaded s then s
  else
    let e := s.power.energy + meanMsW
    let s0 := bump (dset s 0x6000 3 (ratF32 meanW 1)) 0x6000 5 (e / 10)
    let p := { s0.power with energy := e % 10 }
    let limit := dnum s0 0x6001 1
    let fall := if 2600 < meanMsW ∨ 50000 < meanMsMa then 4 else if limit < meanW then 1 else 0
    if fall ≠ 0 then
      let cap := capDown p.cap fall
      let t := { s0 with power := { p with cap := cap, okAt := none } }
      if cap < p.cap then sticky t 0xA010 11 0 else t
    else if meanW * 100 < limit * 97 then
      match p.okAt with
      | none => { s0 with power := { p with okAt := some (clock s0) } }
      | some t0 =>
        if dnum s0 0x6001 2 * 1000000 ≤ (clock s0 - t0).toNat then
          { s0 with power := { p with cap := capUp p.cap, okAt := some (clock s0) } }
        else { s0 with power := p }
    else { s0 with power := { p with okAt := none } }

def execPowerCapCheck (meanW meanMsW meanMsMa : Nat) (s : State) : Host.Outcome State Fault Refusal :=
  .next (periodic s ckPower 100000 (powerCapCheck meanW meanMsW meanMsMa))

/-- The path limit of a compute die in mA: CORE_CURRENT_LIMIT (01 R22). -/
def pathLimitMa (s : State) (d : Nat) : Nat := (f32Milli (dnum s 0x3012 (d + 1))).toNat

/-- CURRENT_CAP_CHECK (16 R358): every 100 µs, ten of them make the ms of a rise. -/
def currentCapCheck (d : Die) (meanMa : Nat) (s : State) : State :=
  if !dieUp s d.val then s
  else
    let t := s.therm d.val
    let limit := pathLimitMa s d.val
    if limit * 95 < meanMa * 100 then s.setTherm d.val { t with capCur := capDown t.capCur 1, upCur := 0 }
    else if meanMa * 100 < limit * 90 then
      if 10 ≤ t.upCur + 1 then s.setTherm d.val { t with capCur := capUp t.capCur, upCur := 0 }
      else s.setTherm d.val { t with upCur := t.upCur + 1 }
    else s.setTherm d.val { t with upCur := 0 }

def execCurrentCapCheck (d : Die) (meanMa : Nat) (s : State) : Host.Outcome State Fault Refusal :=
  .next (periodic s (ckCurrent d.val) 100000 (currentCapCheck d meanMa))

/-! ### The thermal model and the sensors (16 R360 to R362) -/

/-- A sensor of the stack is suspect. -/
def anySuspect (s : State) (d : Nat) : Bool := dcell s 0x6023 (d + 1) != 0 || dcell s 0x6024 (d + 1) != 0

/-- The larger of two optional numbers. -/
def maxOpt (a : Option Int) (b : Int) : Int := match a with | some x => max x b | none => b

/-- T_gov (16 R362): the highest compute-die reading, or with a suspect sensor the largest of what is trusted. -/
def governing (t : Therm) (suspect : Bool) : Int :=
  if suspect then maxOpt t.cdMax (maxOpt t.low t.tModel) else t.cdMax.getD t.tModel

/-- THERMAL_MODEL_UPDATE (16 R360): every 10 µs. -/
def thermalModelUpdate (d : Die) (mw : Nat) (inA inB : Int) (s : State) : State :=
  if !dieUp s d.val then s
  else
    let s0 := dset (dset s 0x6025 1 (ratF32 inA 1000)) 0x6025 2 (ratF32 inB 1000)
    let t := s0.therm d.val
    let p : Int := (mw : Int) * 1000
    let pf := if t.started then t.pf + (p - t.pf) * 10000 / (t.tau : Int) else p
    let u := { t with started := true, pf := pf, tModel := max inA inB + (t.rj : Int) * pf / 1000000000 }
    s0.setTherm d.val { u with tGov := governing u (anySuspect s0 d.val) }

def execThermalModelUpdate (d : Die) (mw : Nat) (inA inB : Int) (s : State) : Host.Outcome State Fault Refusal :=
  .next (periodic s (ckModel d.val) 10000 (thermalModelUpdate d mw inA inB))

/-- A coefficient moves one eighth of the way toward its fit, within a quarter of its factory value. -/
def refine (x fit factory : Nat) : Nat :=
  let y : Int := (x : Int) + ((fit : Int) - x) / 8
  (max ((factory : Int) * 3 / 4) (min ((factory : Int) * 5 / 4) y)).toNat

/-- MODEL_REFINE (16 R360): at a beat boundary, where no sensor is suspect and the stack was not throttled. -/
def modelRefine (d : Die) (fitR fitTau : Nat) (s : State) : State :=
  let t := s.therm d.val
  if !dieUp s d.val then s
  else if t.throttled || anySuspect s d.val then s.setTherm d.val { t with throttled := false }
  else s.setTherm d.val { t with rj := refine t.rj fitR 136000, tau := refine t.tau fitTau 250000 }

def execModelRefine (d : Die) (fitR fitTau : Nat) (s : State) : Host.Outcome State Fault Refusal :=
  .next (atBeat s (ckRefine d.val) (modelRefine d fitR fitTau))

/-- Twice the median of sixteen readings: the two middle ones together. -/
def medianTwice (l : List Int) : Int :=
  let m := l.insertionSort (· ≤ ·)
  m.getD (m.length / 2) 0 + m.getD ((m.length - 1) / 2) 0

/-- The readings of a layer that are trusted; `mask` gives the suspect sensors from bit `at_` on. -/
def trusted (l : List Int) (mask at_ : Nat) : List Int :=
  ((List.range l.length).filter (fun k => !mask.testBit (at_ + k))).map (fun k => l.getD k 0)

/-- The highest of some readings. -/
def highest : List Int → Option Int
  | [] => none
  | x :: r => some (r.foldl max x)

/-- One check of one sensor: eight failures in a row mark it suspect (16 R361). -/
def judgeSensor (d : Nat) (s : State) (slot idx bit : Nat) (fail : Bool) : State :=
  let t := s.therm d
  let n := if fail then mget 0 t.fails slot + 1 else 0
  if dbit s idx (d + 1) bit then s
  else
    let u := s.setTherm d { t with fails := mput 0 t.fails slot n }
    if 8 ≤ n then sticky (dputBit u idx (d + 1) bit true) 0xA010 9 d else u

/-- A reading differs by more than 10 K from its layer's median. -/
def offMedian (l : List Int) (k : Nat) : Bool := decide (20000 < (2 * l.getD k 0 - medianTwice l).natAbs)

/-- SENSOR_CROSS_CHECK (16 R361, R362): outer sensors, bounds, compute-die sensors, then T_gov. -/
def sensorCrossCheck (d : Die) (r : SensorReading) (s : State) : State :=
  if !dieUp s d.val then s
  else
    let n := d.val
    let s1 := (List.range 16).foldl (fun t k =>
      judgeSensor n (judgeSensor n t k 0x6024 k (offMedian r.base k)) (16 + k) 0x6024 (16 + k) (offMedian r.tier k)) s
    let outer := dcell s1 0x6024 (n + 1)
    let low := (highest (trusted r.base outer 0)).map (· - 2000)
    let high := (highest (trusted r.tier outer 16)).map (fun x => x + 110 * (r.mw : Int) / 1000 + 3000)
    let bad := fun (x : Int) =>
      (match low with | some l => decide (x < l) | none => false) || (match high with | some h => decide (h < x) | none => false)
    let s2 := (List.range 32).foldl (fun t k => judgeSensor n t (32 + k) 0x6023 k (bad (r.cd.getD k 0))) s1
    let top := highest (trusted r.cd (dcell s2 0x6023 (n + 1)) 0)
    let u := { s2.therm n with cdMax := top, low := low }
    s2.setTherm n { u with tGov := governing u (anySuspect s2 n) }

def execSensorCrossCheck (d : Die) (r : SensorReading) (s : State) : Host.Outcome State Fault Refusal :=
  .next (periodic s (ckSensor d.val) 1000000 (sensorCrossCheck d r))

/-! ### The thermal cap (16 R363) -/

/-- T_CRIT, 110 °C. -/
def tCrit : Int := 110000

/-- THERMAL_CAP_CHECK (16 R363): every 100 µs. A fall of the cap sets 0xA010:08, and T_CRIT, when it is reached,
0xA010:0A (16 Table 16.11; 15 R348). -/
def thermalCapCheck (d : Die) (s : State) : State :=
  if !dieUp s d.val then s
  else
    let n := d.val
    let t := s.therm n
    let hot := f32Milli (dnum s 0x6026 1)
    let fell := fun (u : State) => if 16 < t.capTh then sticky u 0xA010 8 n else u
    if tCrit ≤ t.tGov then
      let at_ := match t.critAt with | some x => some x | none => some (clock s)
      let u := s.setTherm n { t with capTh := 16, critAt := at_, coolAt := none, throttled := true }
      fell (if t.critAt.isNone then sticky u 0xA010 10 n else u)
    else if hot < t.tGov then
      fell (s.setTherm n { t with capTh := capDown t.capTh 1, critAt := none, coolAt := none, throttled := true })
    else if t.tGov < hot - 3000 then
      match t.coolAt with
      | none => s.setTherm n { t with coolAt := some (clock s), critAt := none }
      | some x =>
        if 1000000 ≤ (clock s - x).toNat then
          s.setTherm n { t with capTh := capUp t.capTh, coolAt := some (clock s), critAt := none }
        else s.setTherm n { t with critAt := none }
    else s.setTherm n { t with coolAt := none, critAt := none }

/-- The cap is judged every 100 µs, and at once at T_CRIT. -/
def execThermalCapCheck (d : Die) (s : State) : Host.Outcome State Fault Refusal :=
  .next (if tCrit ≤ (s.therm d.val).tGov then thermalCapCheck d s
    else periodic s (ckThermal d.val) 100000 (thermalCapCheck d))

/-- THERMAL_CRIT_TIMEOUT (16 R363): still critical 10 ms after the fall to 16 steps, the stack is retired. -/
def execThermalCritTimeout (d : Die) (s : State) : Host.Outcome State Fault Refusal :=
  let t := s.therm d.val
  .next (match t.critAt with
    | some x => if dieUp s d.val && decide (tCrit ≤ t.tGov) && decide (10000000 ≤ (clock s - x).toNat) then retireStack s d.val else s
    | none => s)

/-! ### Clock stretching (16 R357) -/

/-- The level that a rail voltage and the least monitor slack call for (16 Table 16.5). -/
def stretchLevel (mv : Nat) (slackPs : Int) : Nat := if mv < 755 then 2 else if mv < 775 ∨ slackPs < 8 then 1 else 0

/-- The time lost at a level over some ticks: 1 of 9 at 9/8 ×, 1 of 5 at 5/4 ×. -/
def stretchLost (level ticks : Nat) : Nat := if level = 1 then ticks / 9 else if level = 2 then ticks / 5 else 0

/-- A stage moves to a level: the time lost at the old one is counted, and every entry into level 1 or 2 (16 Table
16.10). -/
def stretchTo (s : State) (d level : Nat) : State :=
  let x := mget Stretch.init s.stretch d
  let u := bump s 0x6051 (d + 1) (stretchLost x.level (clock s - x.since).toNat)
  let t := if level = 0 then u else bump u 0x6050 (d + 1) 1
  { t with stretch := mput Stretch.init t.stretch d { level := level, since := clock s } }

/-- DROOP_DETECTED. -/
def execDroopDetected (d : Die9) (mv : Nat) (slackPs : Int) (s : State) : Host.Outcome State Fault Refusal :=
  let l := stretchLevel mv slackPs
  .next (if unitUp s d.val && decide ((mget Stretch.init s.stretch d.val).level < l) then
      stretchTo s d.val l
    else s)

/-- STRETCH_RELEASE: the release condition of the present level has held for 64 cycles. -/
def execStretchRelease (d : Die9) (mv : Nat) (slackPs : Int) (s : State) : Host.Outcome State Fault Refusal :=
  let l := (mget Stretch.init s.stretch d.val).level
  .next (if !unitUp s d.val then s
    else if l = 2 ∧ 765 < mv then stretchTo s d.val 1
    else if l = 1 ∧ 785 < mv ∧ 8 ≤ slackPs then stretchTo s d.val 0
    else s)

/-! ### The coolant (18 R387) -/

/-- COOLANT_CHECK, every second: the tenth comparison in a row above 20 K sets the bit; the same rise does not set it again
(15 R348). -/
def coolantCheck (inA inB outA outB : Int) (s : State) : State :=
  if !loaded s then s
  else
    let put := fun (t : State) (k : Nat) (v : Int) => dset t 0x6025 k (ratF32 v 1000)
    let s1 := dset (put (put (put (put s 1 inA) 2 inB) 3 outA) 4 outB) 0x6029 1 (ratF32 (outA + outB - inA - inB) 2000)
    let n := if 40000 < outA + outB - inA - inB then min 10 (s.power.hotRuns + 1) else 0
    let s2 := { s1 with power := { s1.power with hotRuns := n } }
    if n = 10 ∧ s.power.hotRuns < 10 then sticky s2 0xA010 14 0 else s2

def execCoolantCheck (inA inB outA outB : Int) (s : State) : Host.Outcome State Fault Refusal :=
  .next (periodic s ckCoolant 1000000000 (coolantCheck inA inB outA outB))

/-! ### Margins and vertical paths (16 R364; 01 R22, R23) -/

/-- Of a domain's path: groups, vias per group, vias needed, rating in mA; none for a base or laser domain
(01 Table 1.4). -/
def pathOf (d : Nat) : Option (Nat × Nat × Nat × Nat) :=
  if d < 8 then some (50, 72, 64, 5800) else if d < 16 then some (16, 36, 32, 2500)
  else if d < 24 then some (16, 36, 32, 2000) else if d = 24 then some (12, 36, 32, 3000)
  else if d = 25 then some (4, 36, 32, 3000) else none

/-- The good vias of a group: round(V × R_nom ÷ R_meas), at most those that its rating needs. -/
def goodVias (vias needed ratio : Nat) : Nat := if ratio = 0 then needed else min needed ((2000 * vias + ratio) / (2 * ratio))

/-- The limit of each group, in mA times its needed vias. -/
def groupLimits (d : Nat) (ratios : List Nat) : List Nat :=
  match pathOf d with
  | some (g, v, n, ma) => (List.range g).map (fun k => ma * goodVias v n (ratios.getD k 1000))
  | none => []

/-- A path's full limit, in the same unit. -/
def pathFull (d : Nat) : Nat := match pathOf d with | some (g, _, n, ma) => g * ma * n | none => 0

/-- The step, of 64, that a path's limit allows its clock: floor(64 × I_lim ÷ full). -/
def pathSteps (s : State) (d : Nat) : Nat :=
  if pathFull d = 0 then 64 else 64 * (pathFull d - mget 0 s.power.lost d) / pathFull d

/-- The bit of a domain's path in 0xA010:04. -/
def derateBit (d : Nat) : Nat := min d 24

/-- The via estimate of a survey (01 R22, R23). -/
def viaEstimate (s : State) (d : Nat) (ratios : List Nat) : State :=
  match pathOf d with
  | none => s
  | some (_, _, n, _) =>
    let limits := groupLimits d ratios
    let lost := pathFull d - limits.foldl (· + ·) 0
    let s1 := { s with power := { s.power with lost := mput 0 s.power.lost d lost } }
    let s2 := if mget 0 s.power.lost d < lost then sticky s1 0xA010 4 (derateBit d) else s1
    if d < 8 then
      let k := pathSteps s2 d
      let s3 := dset (dset s2 0x3012 (d + 1) (ratF32 ((pathFull d - lost : Nat) : Int) (n * 1000))) 0x3013 (d + 1) (k * 21875)
      s3.setTherm d { s3.therm d with capPath := max 16 k }
    else if d < 16 then
      (List.range 4).foldl (fun t q =>
        if (slice limits (4 * q) 4).foldl (· + ·) 0 < 5000 * n then quadrantOut t (d - 8) q else t) s2
    else s2

/-- The nominal rail of a domain (16 Table 16.2). -/
def nominalMv (d : Nat) : Nat :=
  if d < 8 then 800 else if d < 16 then 750 else if d < 24 then 1050 else if d = 24 then 800 else if d = 25 then 900
  else if d < 28 then 1000 else 3300

/-- The stepped survey of the domains that are on: VMIN, the margin of the nominal rail over it, the slack, and the via
estimate (16 R364, Table 16.2; 01 R22). -/
def steppedSurvey (s : State) (vmin : List Nat) (slackPs : List Int) (ratios : List (List Nat)) : State :=
  let one := fun (t : State) (d : Nat) =>
    if !domainOn t d then t
    else
      let v := vmin.getD d 0
      viaEstimate (dset (dset (dset t 0x6042 (d + 1) (ratF32 v 1)) 0x6040 (d + 1) (ratF32 ((nominalMv d : Int) - v) 1))
        0x6041 (d + 1) (ratF32 (slackPs.getD d 0) 1)) d (ratios.getD d [])
  let t := (List.range 30).foldl one s
  dset { t with health := { t.health with survey := true } } 0x6043 1 1

/-- MARGIN_SURVEY (16 R364). -/
def marginSurvey (d : Fin 30) (r : SurveyReading) (s : State) : State :=
  if !loaded s || !domainOn s d.val then s
  else
    let vmin := f32Milli (dnum s 0x6042 (d.val + 1))
    let s1 := dset s 0x6040 (d.val + 1) (ratF32 (r.railMv * 1000 - vmin) 1000)
    viaEstimate (dset s1 0x6041 (d.val + 1) (ratF32 r.slackPs 1)) d.val r.ratios

def execMarginSurvey (d : Fin 30) (r : SurveyReading) (s : State) : Host.Outcome State Fault Refusal :=
  .next (periodic s (ckSurvey d.val) (beats (dnum s 0x6043 2)) (marginSurvey d r))

end Sys2Proof.Machine
end

