-- ==== Sys2Proof/Machine/Resil.lean ====
section
/-!
DEFINITION. Resilience (13 R295 to R316): fencing and the neighbour detector, both ends of the ghost, shadow join and
admission, the health score and requalification.  The dictionary writes that start them arrive through
Sys2Proof/Machine/Mgmt.lean.
-/

namespace Sys2Proof.Machine

/-! ### Epoch, fences, detector (13 R295 to R300) -/

/-- A new fabric epoch: it takes effect, and every open collective is aborted (13 R295; 11 R278). -/
def fabricEpoch (s : State) (v : Nat) : State := collEpochAbort (dset s 0xC000 1 v) v

/-- The stacks whose hosted ghost an event touches lose their unacknowledged epoch (13 Table 13.4, Table 13.3). -/
def hostDiscard (s : State) : State :=
  let s1 := (List.range 8).foldl (fun t n =>
    let v := mget 0 t.res.hostState n
    if v = 3 then { t with res := { t.res with hostState := mput 0 t.res.hostState n 2 } }
    else if v = 4 then sticky { t with res := { t.res with hostState := mput 0 t.res.hostState n 6 } } 0xA0C0 6 n
    else t) s
  if (List.range 8).any (fun n => mget 0 s1.res.hostState n == 5) then s1 else { s1 with res := { s1.res with rx := [] } }

/-- A fence entry is written (13 R296, Table 13.4): one that fences the hosted owner discards its epoch, one that fences
the ghost's partner stops the engine. -/
def fenceEntry (s : State) (k v : Nat) : State :=
  let t := dset s 0xC001 (k + 1) v
  let c := bitsOf v 17 0
  if !v.testBit 31 then t
  else
    let t1 := if dnum t 0xC028 1 = c then hostDiscard t else t
    if t1.res.mode ≠ 0 ∧ dnum t1 0xC020 2 = c then sticky t1 0xA0C0 11 0 else t1

/-- The port of a direction on which a neighbour was heard last. -/
def lastHeard (s : State) (d : Nat) : Option Nat :=
  ((List.range 8).map (fun i => 6 * i + d)).foldl (fun b p =>
    if !(s.port p).known then b
    else match b with
      | none => some p
      | some q => if (clock s - (s.port p).heard).toNat < (clock s - (s.port q).heard).toNat then some p else b) none

/-- NEIGHBOUR_SUSPECTED (13 R299): DETECT_BEATS of silence on every plane. -/
def neighbourSuspected (d : Fin 6) (s : State) : State :=
  match lastHeard s d.val with
  | none => s
  | some p =>
    let x := s.port p
    if !loaded s || decide ((clock s - x.heard).toNat < beats (dnum s 0xC003 1)) || dcell s 0xC003 (d.val + 2) != 0 then s
    else
      let t := dset s 0xC003 (d.val + 2) (2 ^ 31 + x.peer.toNat)
      if dbit t 0xA0C0 2 d.val then raiseError t else sticky t 0xA0C0 2 d.val

def execNeighbourSuspected (dir : Fin 6) (s : State) : Host.Outcome State Fault Refusal := .next (neighbourSuspected dir s)

/-! ### The owner's ghost engine (13 R301 to R309) -/

/-- All blocks of the regions. -/
def allBlocks (s : State) : List Nat := List.range ((ghostRegions s).foldl (fun n r => n + r.2 / 65536) 0)

/-- G_n: the region total on a stack (13 R302). -/
def ghostTotal (s : State) (n : Nat) : Nat :=
  ((ghostRegions s).filter (fun r => addrDie r.1 == n)).foldl (fun a r => a + r.2) 0

/-- The blocks of a stack, and the first index of them. -/
def stackBlocks (s : State) (n : Nat) : List Nat := (allBlocks s).filter (fun i => ghostStack s i == n)
def stackFirst (s : State) (n : Nat) : Nat := (stackBlocks s n).head?.getD 0

/-- The HELLO record (13 R303). -/
def helloRecord (s : State) : GhostRec :=
  { ghostRecord s 1 0 with
    regionBytes := (List.range 8).map (fun n => BitVec.ofNat 8 ((ghostTotal s n + 2 ^ 30 - 1) / 2 ^ 30)),
    journalBytes := BitVec.ofNat 64 (dcell s 0xC020 10 * 1048576) }

/-- GHOST_MODE is written (13 R303, R304): leaving 0 it sends HELLO and counts every block dirty; at 0 the engine stops
and its sets are gone. -/
def ghostMode (s : State) (v : Nat) : State :=
  let r := s.res
  let t := dset s 0xC020 1 v
  if v = 0 then
    { t with res := { r with mode := 0, owner := 0, paired := false, openSet := [], closing := [], unacked := [],
                             staged := [], puts := 0 } }
  else
    let next := BitVec.ofNat 64 (dcell t 0xC020 8)
    if r.mode ≠ 0 then { t with res := { r with mode := v, bellNext := if v = 2 ∧ r.mode ≠ 2 then next else r.bellNext } }
    else
      let t1 := { dset t 0xC023 1 0 with res := { r with
        mode := v, owner := 0, paired := false, openSet := allBlocks t, closing := [], unacked := [], staged := [],
        puts := 0, bellNext := next, stepped := false } }
      if t1.res.fenced || isFenced t1 (ghostPartner t1) then sticky t1 0xA0C0 11 0
      else ghostPut t1 0 (dcell t1 0xC020 3) 0 (recordOf (helloRecord t1)) [] 0

/-- Stacks whose part of a set is larger than the journal: they go in direct mode (13 R306). -/
def directStacks (s : State) (set : List Nat) : List Nat :=
  (List.range 8).filter (fun n =>
    dcell s 0xC020 10 * 1048576 < (set.filter (fun i => ghostStack s i == n)).length * 65536)

/-- A mark (13 R304): the open epoch closes, or with an epoch unacknowledged the mark is skipped. -/
def takeMark (s : State) : State :=
  let r := s.res
  let s1 := { s with res := { r with
    stepped := false,
    bellNext := if r.mode = 2 then r.bellNext + BitVec.ofNat 64 (dnum s 0xC020 9) else r.bellNext } }
  if r.owner = 1 ∨ r.owner = 2 ∨ r.owner = 3 then bump s1 0x80C0 3 1
  else
    let direct := directStacks s1 r.openSet
    let e := if r.epoch + 1 ≤ beat s then beat s else r.epoch + 1
    let first := dcell s1 0xC023 1 = 0
    let s2 := { s1 with res := { s1.res with
      closing := r.openSet, openSet := [], unacked := [], staged := [], epoch := e, blocks := 0, jcount := [],
      crc := BitVec.allOnes 64, direct := BitVec.ofNat 8 ((direct.map (2 ^ ·)).foldl (· + ·) 0),
      owner := if first then 1 else 2 } }
    ghostCommitOut (if direct.isEmpty then s2 else sticky s2 0xA0C0 4 0)

/-- GHOST_MARK: a beat boundary is judged, each once. -/
def ghostMark (s0 : State) : State :=
  let s := { s0 with res := { s0.res with markAt := beat s0 } }
  let r := s.res
  let due :=
    if r.mode = 1 then beat s % BitVec.ofNat 64 (dnum s 0xC020 6) == 0 || r.stepped
    else if r.mode = 2 then decide (r.bellNext ≤ s.bell (dcell s 0xC020 7))
    else false
  if !loaded s0 || beat s0 == s0.res.markAt then s0
  else if due && r.paired && r.owner != 4 then takeMark s else s

def execGhostMark (s : State) : Host.Outcome State Fault Refusal := .next (ghostMark s)

/-- The bytes and marks of a closing block: staged, or from the region (13 R305). -/
def blockData (s : State) (i : Nat) : List Byte × List Bool :=
  match mfind s.res.staged i with
  | some x => x
  | none =>
    let key := (ghostBlockKey i (ghostRegions s) 0).getD 0
    (readBytes s key 65536, (wordsOf key 65536).map s.poison.contains)

/-- GHOST_BLOCK_SEND (13 R306): the lowest block of the closing set goes out as sixteen puts, into the next journal
entry with its index, or to its base position; poison marks travel with it. -/
def ghostBlockSend (s : State) : State :=
  let r := s.res
  match r.closing with
  | [] => ghostCommitOut s
  | i :: rest =>
    if !ghostOpen s || !(r.owner == 1 || r.owner == 2) || (allowedPlanes s (ghostPartner s) 0).isEmpty then s
    else
      let n := ghostStack s i
      let (data, marks) := blockData s i
      let direct := r.direct.getLsbD n
      let k := mget 0 r.jcount n
      let g := ghostTotal s n
      let j := dcell s 0xC020 10 * 1048576
      let at_ := if direct then 4096 + (i - stackFirst s n) * 65536 else 4096 + g + k * 65536
      let window := dcell s 0xC020 3 + n
      let s1 := { s with res := { r with
        closing := rest, unacked := r.unacked ++ [i], staged := mput ([], []) r.staged i ([], []),
        jcount := if direct then r.jcount else mput 0 r.jcount n (k + 1), blocks := r.blocks + 1,
        crc := BitVec.ofNat 64 (data.foldl crc64Byte r.crc.toNat) } }
      let s2 := (List.range 16).foldl (fun t p =>
        ghostPut t n window (at_ + p * 4096) (slice data (p * 4096) 4096) (slice marks (p * 512) 512) (16 * r.blocks + p)) s1
      let s3 := if direct then s2 else ghostPut s2 n window (4096 + g + j + 8 * k) (natLe 8 i) [] (16 * r.blocks)
      bump s3 0x80C0 2 65536

def execGhostBlockSend (s : State) : Host.Outcome State Fault Refusal := .next (ghostBlockSend s)

/-- GHOST_ACK (13 R303, R307): an ACK of epoch 0 pairs, and the acknowledged epoch is recorded. -/
def execGhostAck (r : GhostRec) (s : State) : Host.Outcome State Fault Refusal :=
  let x := s.res
  .next (if !loaded s || x.mode == 0 || x.owner == 4 || r.kind != 3 then s
    else if !x.paired then if r.epoch = 0 then { s with res := { x with paired := true } } else s
    else if x.owner = 3 ∧ r.epoch = x.epoch then
      bump (dset { s with res := { x with owner := 0, closing := [], unacked := [], staged := [] } } 0xC023 1 x.epoch.toNat)
        0x80C0 5 1
    else s)

/-- GHOST_REFUSE (13 R303, R307): a refused HELLO stops the engine, a refused COMMIT has the epoch sent again. -/
def execGhostRefuse (r : GhostRec) (s : State) : Host.Outcome State Fault Refusal :=
  let x := s.res
  .next (if !loaded s || x.mode == 0 || x.owner == 4 || r.kind != 4 then s
    else if !x.paired then sticky { s with res := { x with owner := 4 } } 0xA0C0 3 0
    else if x.owner = 3 then ghostAgain s
    else s)

/-- May a rollback run: the owner is not fenced, and as far as it knows every stack of its ghost is STABLE or RECEIVING
(13 R309; log 22)? -/
def rollbackOk (s : State) : Bool :=
  let r := s.res
  !r.fenced && r.mode != 0 && r.paired && (r.owner == 0 || r.owner == 2) && dcell s 0xC023 1 != 0
    && (r.owner == 0 || r.direct == 0)

/-- Pull one block back from the host's base. -/
def pullBlock (s : State) (i : Nat) : State :=
  let n := ghostStack s i
  let dst := ghostPartner s
  let key := (ghostBlockKey i (ghostRegions s) 0).getD 0
  (List.range 16).foldl (fun t p =>
    let off := 4096 + (i - stackFirst s n) * 65536 + p * 4096
    let pk := { newPacket t n dst 0 6 with
                id := BitVec.ofNat 12 (dcell t 0xC020 3 + n), len := 4096, offset := BitVec.ofNat 48 off,
                data := natLe 8 (n * 2 ^ 48 + (key % 2 ^ 48 + p * 4096)) }
    match planeAt (allowedPlanes t dst 0) (16 * i + p) with
    | some k => request t (64 * n) 0 k none true pk
    | none => t) s

/-- A rollback (13 R309): every block of the open set, the closing set and staging is pulled, and the sets are clear. -/
def ghostRollback (s : State) : State :=
  let r := s.res
  let all := (r.closing ++ r.unacked ++ r.staged.map (·.1)).foldl (fun l x => insertNat x l) r.openSet
  all.foldl pullBlock { s with res := { r with openSet := [], closing := [], unacked := [], staged := [], owner := 0 } }

/-- Every block of a stack is counted dirty (13 Table 13.4). -/
def ghostAllDirty (s : State) (n : Nat) : State :=
  if s.res.mode = 0 then s
  else { s with res := { s.res with openSet := (stackBlocks s n).foldl (fun l x => insertNat x l) s.res.openSet } }

/-! ### The host of a ghost (13 R302, R303, R307) -/

/-- The owner this device hosts. -/
def hostedOwner (s : State) : BitVec 18 := BitVec.ofNat 18 (dnum s 0xC028 1)

/-- Write a record at offset 0 of the owner's window GHOST_ACK_WINDOW (13 R302; log 22). -/
def hostAnswer (s : State) (r : GhostRec) : State :=
  let dst := hostedOwner s
  if !fabricOpen s || isFenced s dst then s
  else
    let bytes := recordOf r
    let p := { newPacket s 0 dst 0 4 with id := BitVec.ofNat 12 (dcell s 0xC020 4), len := 64, data := bytes }
    sendLoose s 0 p

/-- Why a HELLO is refused, if it is (13 R303). -/
def helloReason (s : State) (r : GhostRec) : Option Word :=
  let mine := dcell s 0xC000 3
  let j := hostJournal s
  let short := (List.range 8).any (fun n =>
    let g := (byteAt r.regionBytes n).toNat
    decide (g ≠ 0) && (match windowOf s (dcell s 0xC028 2 + n) with
      | none => true
      | some w => !w.put || !w.pull || w.filter != some (hostedOwner s) || decide (2 ^ 35 < w.len)
          || decide (hostBase s n ≤ (g - 1) * 2 ^ 30)))
  if r.domain.toNat = 0 ∨ mine = 0 ∨ r.domain.toNat = mine then some 1
  else if r.journalBytes.toNat ≠ j ∨ r.mode.toNat ≠ (if j = 0 then 0 else 1) ∨ r.kind ≠ 1 then some 2
  else if short then some 3
  else none

/-- GHOST_HELLO (13 R303): refused, or answered ACK of epoch 0, every hosted stack EMPTY. -/
def execGhostHello (r : GhostRec) (s : State) : Host.Outcome State Fault Refusal :=
  .next (if !loaded s || dnum s 0xC028 1 == 0xFFFFFFFF then s
    else match helloReason s r with
      | some why => hostAnswer s { ghostRecord s 4 0 with reason := why }
      | none =>
        hostAnswer (dset { s with res := { s.res with hostState := [], hostNew := 0, rx := [] } } 0xC029 9 0)
          (ghostRecord s 3 0))

/-- The key of an offset in a hosted window. -/
def hostKey (s : State) (n off : Nat) : Nat :=
  match windowOf s (dcell s 0xC028 2 + n) with
  | some w => cellKey (addrDie w.base) (addrOff w.base) + off
  | none => 0

/-- A received unit is a journal entry. -/
def inJournal (s : State) (x : Nat × Nat) : Bool := decide (4096 + hostBase s x.1 ≤ x.2)

/-- The epoch stands: every hosted stack is STABLE, and ACK is sent (13 R307). -/
def hostStable (s : State) : State :=
  let s1 := (List.range 8).foldl (fun t n =>
    let v := mget 0 t.res.hostState n
    if v = 0 ∨ v = 6 then t else { t with res := { t.res with hostState := mput 0 t.res.hostState n 2 } }) s
  let e := s1.res.hostNew
  hostAnswer (dset { s1 with res := { s1.res with rx := [] } } 0xC029 9 e.toNat) (ghostRecord s1 3 e)

/-- GHOST_COMMIT (13 R307): BLOCKS and DATA_CRC against what was received, in order of arrival. -/
def ghostCommit (r : GhostRec) (s : State) : State :=
  let rx := s.res.rx
  let crc := crc64 (rx.flatMap (fun x => readBytes s (hostKey s x.1 x.2) 65536))
  if !loaded s || r.kind != 2 || dnum s 0xC028 1 == 0xFFFFFFFF then s
  else if r.blocks.toNat = rx.length ∧ r.crc.toNat = crc then
    let s1 := { s with res := { s.res with hostNew := r.epoch } }
    let js := rx.filter (inJournal s)
    if js.isEmpty then hostStable s1
    else
      js.foldl (fun t x => { t with res := { t.res with hostState := mput 0 t.res.hostState x.1 5 } }) s1
  else
    let s1 := hostDiscard s
    hostAnswer s1 (ghostRecord s1 4 r.epoch)

def execGhostCommit (r : GhostRec) (s : State) : Host.Outcome State Fault Refusal := .next (ghostCommit r s)

/-- The first index of a hosted stack: the whole blocks of the bases of the stacks below it (log 18). -/
def hostFirst (s : State) (n : Nat) : Nat := (List.range n).foldl (fun a m => a + hostBase s m / 65536) 0

/-- One journal entry is copied into the base. -/
def applyEntry (s : State) (x : Nat × Nat) : State :=
  let (n, off) := x
  let g := hostBase s n
  let k := (off - 4096 - g) / 65536
  let i := leNat (readBytes s (hostKey s n (4096 + g + hostJournal s + 8 * k)) 8)
  let src := hostKey s n off
  let data := readBytes s src 65536
  if i < hostFirst s n ∨ g ≤ (i - hostFirst s n) * 65536 then s
  else storeBytes s (hostKey s n (4096 + (i - hostFirst s n) * 65536)) data (fun w => s.poison.contains (src / 8 + w))

/-- GHOST_APPLY_DONE (13 R307): the journal has been copied into the base in journal order. -/
def execGhostApplyDone (s : State) : Host.Outcome State Fault Refusal :=
  .next (if loaded s && (List.range 8).any (fun n => mget 0 s.res.hostState n == 5) then
      hostStable ((s.res.rx.filter (inJournal s)).foldl applyEntry s)
    else s)

/-! ### Shadow join (13 R310, R311) -/

/-- The join ends with a fault at a pair. -/
def shadowFault (s : State) (x : Shadow) (result : Nat) : State :=
  sticky (dset (dset s 0xC031 1 result) 0xC031 3 (x.queue * 2 ^ 48 + x.idx.toNat)) 0xA0C0 7 0

/-- A pair of digests is compared. -/
def shadowCompare (s : State) (a b : Shadow) : State :=
  let s1 := { s with res := { s.res with theirs := s.res.theirs.erase a, ours := s.res.ours.erase b } }
  if a.poisoned || b.poisoned then s1
  else if a.digest ≠ b.digest then shadowFault s1 a 3
  else
    let n := dcell s1 0xC031 2 + 1
    let s2 := dset s1 0xC031 2 n
    if dnum s2 0xC030 4 ≤ n then
      dset { s2 with res := { s2.res with passedOk := true } } 0xC031 1 2
    else s2

/-- The follower takes a digest of either side: it is compared with its pair, or kept until that comes. -/
def shadowTake (s : State) (x : Shadow) (leader : Bool) : State :=
  if dcell s 0xC030 1 ≠ 2 ∨ dcell s 0xC031 1 ≠ 1 then s
  else
    let same := fun (y : Shadow) => y.queue == x.queue && y.idx == x.idx
    let s1 := { s with res := { s.res with
      theirs := if leader then s.res.theirs ++ [x] else s.res.theirs,
      ours := if leader then s.res.ours else s.res.ours ++ [x] } }
    match s.res.theirs.find? same, s.res.ours.find? same with
    | some a, _ => if leader then s1 else shadowCompare s1 a x
    | none, some b => if leader then shadowCompare s1 x b else s1
    | none, none =>
      if 4096 ≤ s1.res.theirs.length ∨ 4096 ≤ s1.res.ours.length then shadowFault s1 x 4 else s1

/-- SHADOW_RECORD: a record of the leader has arrived in the window. -/
def execShadowRecord (bytes : List Byte) (s : State) : Host.Outcome State Fault Refusal :=
  let x : Shadow :=
    { queue := leNat (slice bytes 0 2), idx := BitVec.ofNat 32 (leNat (slice bytes 4 4)),
      digest := BitVec.ofNat 64 (leNat (slice bytes 8 8)), poisoned := false }
  .next (if loaded s then shadowTake s x true else s)

/-- A tile has completed with its digest: the leader puts its record, the follower compares (13 R310). -/
def shadowTile (s : State) (q : Nat) (i : BitVec 32) (digest : Word) (poison : Bool) : State :=
  if dcell s 0xC030 1 = 2 then shadowTake s { queue := q, idx := i, digest := digest, poisoned := poison } false
  else if dcell s 0xC030 1 = 1 && !poison then
    let dst := BitVec.ofNat 18 (dnum s 0xC030 2)
    let n := s.res.records
    let s1 := { s with res := { s.res with records := n + 1 } }
    if !fabricOpen s || isFenced s dst then s1
    else
      let data := natLe 2 q ++ [0, 0] ++ natLe 4 i.toNat ++ natLe 8 digest.toNat ++ natLe 8 (now s).toNat ++ natLe 8 0
      sendLoose s1 n { newPacket s (queueDie q) dst 0 4 with
        id := BitVec.ofNat 12 (dcell s 0xC030 3), len := 32, offset := BitVec.ofNat 48 (n % 4096 * 32), data := data }
  else s

/-- SHADOW_ROLE is written: a follower starts a join, a leader its count of records. -/
def shadowRole (s : State) (v : Nat) : State :=
  let t := dset s 0xC030 1 v
  if v = 2 then
    dset (dset (dset { t with res := { t.res with theirs := [], ours := [] } } 0xC031 1 1) 0xC031 2 0) 0xC031 3 0
  else if v = 1 then { t with res := { t.res with records := 0 } }
  else t

/-- ADMIT is accepted (13 R311): the fenced state ends, FABRIC_EPOCH takes the value, SHADOW_ROLE returns to 0. -/
def takeAdmission (s : State) (v : Nat) : State :=
  let t := dset (dset { s with res := { s.res with fenced := false } } 0xC000 2 0) 0xC030 1 0
  fabricEpoch t v

/-! ### Health (13 R312 to R315) -/

/-- A number clamped to 0 to 1,000. -/
def clampK (v : Int) : Nat := (max 0 (min 1000 v)).toNat

/-- The least of some numbers. -/
def least : List Int → Option Int
  | [] => none
  | x :: r => some (r.foldl min x)

/-- Has the optical survey completed: a full round on every direction in service (10 R261)? -/
def opticalDone (s : State) : Bool :=
  let up := (List.range 56).filter (fun f => (s.fibre f).training == 2)
  !up.isEmpty && up.all (fun f => decide (1 ≤ (s.fibre f).txCal.rounds) && decide (1 ≤ (s.fibre f).rxCal.rounds))

/-- The margin of a fibre direction, its least over λ, in mdB; its reserve in µW (10 Table 10.12). -/
def fibreMargin (s : State) (f : Nat) : Option Int := least ((s.fibre f).margins.map (·.2))
def fibreReserve (s : State) (f : Nat) : Option Int := least ((s.fibre f).reserve.map (fun e => (e.2 : Int)))

/-- The components of Table 13.6; one that has not been measured since power-up or the last requalification's start counts as
500. -/
def healthV (s : State) : Nat :=
  let on := (List.range 30).filter (domainOn s)
  if !s.health.survey then 500
  else clampK (((least (on.map (fun d => f32Milli (dcell s 0x6040 (d + 1))))).getD 25000) / 50)
def healthT (s : State) : Nat :=
  let on := (List.range 30).filter (domainOn s)
  if !s.health.survey then 500
  else clampK (((least (on.map (fun d => f32Milli (dcell s 0x6041 (d + 1))))).getD 20000) / 40)
def healthO (s : State) : Nat :=
  let up := (List.range 56).filter (fun f => (s.fibre f).training == 2)
  let base := s.health.rounds
  let since_ := up.all (fun f =>
    decide ((mget (0, 0) base f).1 < (s.fibre f).txCal.rounds) && decide ((mget (0, 0) base f).2 < (s.fibre f).rxCal.rounds))
  if !opticalDone s || !since_ then 500
  else
    let m := (least (up.filterMap (fibreMargin s))).getD 2000
    let r := (least (up.filterMap (fibreReserve s))).getD 1600
    min (clampK (m / 4)) (clampK (r * 1000 / 3200))
def healthE (s : State) : Nat := 1000 - s.health.debt

/-- HEALTH_SCORE (13 R312). -/
def healthScore (s : State) : Nat := min (min (healthV s) (healthT s)) (min (healthO s) (healthE s))

/-- The score and its components are entered. -/
def scoreHealth (s : State) : State :=
  let put := fun (t : State) (sub v : Nat) => dset t 0x30C0 sub v
  put (put (put (put (put s 1 (healthScore s)) 3 (healthV s)) 4 (healthT s)) 5 (healthO s)) 6 (healthE s)

/-- A health state is entered (13 R314); the error vector is raised (14 R323). -/
def enterHealth (s : State) (v : Nat) : State :=
  let t := dset (dset s 0x30C0 2 v) 0x30C0 7 (beat s).toNat
  let u := { t with health := { t.health with beatIn := beat s } }
  let w := raiseError u
  if v = 3 then sticky w 0xA0C0 8 0 else w

/-- A better state is entered once its condition has held through the dwell. -/
def dwell (s : State) (ok : Bool) (v : Nat) : State :=
  if !ok then { s with health := { s.health with failBeat := beat s } }
  else
    let h := s.health
    let from_ := if h.beatIn < h.failBeat then h.failBeat else h.beatIn
    if dnum s 0x30C1 4 ≤ (beat s - from_).toNat then enterHealth s v else s

/-- HEALTH_EVALUATION (13 R314, Table 13.8): each beat boundary is judged once. -/
def healthEvaluation (s0 : State) : State :=
  let s := { s0 with health := { s0.health with judgedAt := beat s0 } }
  if !loaded s0 || beat s0 == s0.health.judgedAt then s0
  else
    let t := scoreHealth s
    let score := healthScore s
    let st := healthState t
    if st = 3 then t
    else if score < dnum t 0x30C1 3 then enterHealth t 3
    else if st = 1 then (if score < dnum t 0x30C1 2 then enterHealth t 2 else t)
    else if st = 2 then dwell t (decide (dnum t 0x30C1 1 ≤ score)) 1
    else dwell t (decide (dnum t 0x30C1 1 ≤ score) && dcell t 0x6043 1 == 1 && opticalDone t) 1

def execHealthEvaluation (s : State) : Host.Outcome State Fault Refusal := .next (healthEvaluation s)

/-- EVENT_DEBT_DECAY (13 R313): every 1,024 beats. -/
def execEventDebtDecay (s : State) : Host.Outcome State Fault Refusal :=
  let h := s.health
  .next (if hubOn s && decide (beats 1024 ≤ since s h.decayAt) then
      { s with health := { h with debt := h.debt - 1, decayAt := h.decayAt + BitVec.ofNat 64 (beats 1024) } }
    else s)

/-- A requalification may start (13 R315). -/
def requalOk (s : State) : Bool :=
  !s.health.running && s.queues.all (fun e => e.2.state == .disabled) && s.coll.opens.isEmpty
    && decide ((s.health.starts.filter (fun b => decide (since s b < beats (dnum s 0x30C2 4)))).length < dnum s 0x30C2 3)

/-- What a refused start does (13 R315; 15 R334). -/
def requalRefused (s : State) : State := sticky (dset s 0x30C2 2 4) 0xA0C0 10 0

/-- A requalification starts: its count of debt begins, and the predictor tables are cleared (13 Table 13.9). -/
def requalStart (s : State) (v : Nat) : State :=
  let h := s.health
  dset { s with
    health := { h with running := true, destroy := v.testBit 1, found := 0, survey := false,
                       rounds := (List.range 56).foldl (fun m f =>
                         mput (0, 0) m f ((s.fibre f).txCal.rounds, (s.fibre f).rxCal.rounds)) [],
                       starts := h.starts.filter (fun b => decide (since s b < beats (dnum s 0x30C2 4))) ++ [clock s] },
    cps := mmap Cp.init (fun _ (c : Cp) => { c with predictor := [] }) s.cps } 0x30C2 2 1

/-- The sensors' marks are taken back, to be judged again (16 R361). -/
def clearSuspects (s : State) : State :=
  (List.range 8).foldl (fun t n =>
    (dset (dset t 0x6023 (n + 1) 0) 0x6024 (n + 1) 0).setTherm n { t.therm n with fails := [] }) s

end Sys2Proof.Machine
end

