-- ==== Sys2Proof/Machine/Tile.lean ====
section
/-!
DEFINITION. The arithmetic of an output tile (02 R30 to R51): the tile operation word and its refusals, the exact, the
FP32-equivalent and the strict chain, accumulation across K, and the emitted element.
-/

namespace Sys2Proof.Machine

/-! ### The tile operation word (02 Table 2.1) -/

def twCols (w : Word) : Nat := wbits w 59 51 + 1
def twRows (w : Word) : Nat := wbits w 42 32 + 1
def twDiag (w : Word) : Bool := w.getLsbD 19
def twDigest (w : Word) : Bool := w.getLsbD 18
def twColScale (w : Word) : Bool := w.getLsbD 15
def twRowScale (w : Word) : Bool := w.getLsbD 14
def twATrans (w : Word) : Bool := w.getLsbD 13
def twWTrans (w : Word) : Bool := w.getLsbD 12
def twSat (w : Word) : Bool := w.getLsbD 11
def twWide (w : Word) : Bool := w.getLsbD 10
def twOut (w : Word) : Nat := wbits w 9 8
def twWFmt (w : Word) : Nat := wbits w 7 4
def twAFmt (w : Word) : Nat := wbits w 3 0

/-- The chains of Table 2.3. -/
inductive Chain where
  | exact
  | fp32
  | strict
  deriving DecidableEq, Repr

/-- The chain of a format pair, none where the pair is illegal (02 R32, Table 2.3). -/
def chainOf (a w : Nat) : Option Chain :=
  let fp8 := fun f => f ≤ 4
  if fp8 a ∧ fp8 w then (if a = 1 ∨ w = 1 then some .fp32 else some .exact)
  else if (a = 5 ∨ a = 6) ∧ (w = 5 ∨ w = 6) then some .exact
  else if (a = 7 ∨ a = 8) ∧ a = w then some .fp32
  else if a = 9 ∧ w = 9 then some .strict
  else none

/-- Is a format of the pair an integer? -/
def intPair (a : Nat) : Bool := a == 5 || a == 6

/-- The legal output types of a pair (02 Table 2.3): FX64 only with WIDE, INT32 only without, neither in diagonal mode
but INT32 for integers (02 R51). -/
def outLegal (w : Word) (c : Chain) : Bool :=
  let ints := intPair (twAFmt w)
  if twDiag w then c != .strict && (twOut w == 0 || (twOut w == 1 && ints))
  else if twWide w then c == .exact && (twOut w == 0 || twOut w == 2)
  else twOut w == 0 || (twOut w == 1 && ints)

/-- A transposed operand's boundary in both dimensions: its address and its stride are multiples of the bytes of 128
elements (02 R50; DESIGN CHOICE, log 75). -/
def misaligned (f addr stride : Nat) : Bool := addr % fmtBytes f 128 != 0 || stride % fmtBytes f 128 != 0

/-- Is a tile operation word refused (02 R30, R32, R45, R50, R51; 06 R132)? -/
def tileRefused (l : List Word) : Bool :=
  let w := dword l 5
  let k := wbits (dword l 6) 31 0
  match chainOf (twAFmt w) (twWFmt w) with
  | none => true
  | some c =>
    wbits w 63 60 != 0 || w.getLsbD 43 || w.getLsbD 20 || wbits w 31 21 != 0
      || (!twDiag w && (w.getLsbD 17 || w.getLsbD 16 || wbits w 50 44 != 0))
      || !outLegal w c || ((twRowScale w || twColScale w) && twOut w != 0)
      || (!twDiag w && twWide w && (twRows w > 1024 || k > 134217728))
      || (!twDiag w && twATrans w && misaligned (twAFmt w) (dword l 7).toNat (wbits (dword l 10) 63 32))
      || (!twDiag w && twWTrans w && misaligned (twWFmt w) (dword l 8).toNat (wbits (dword l 10) 31 0))

/-! ### Products and sums -/

/-- Fast-mode rounding to nearest even, as the drain rounds (03 R64, R71). -/
def fastCtl : Arith := { strict := false, rnd := 0, satfin := false, sat := false }

/-- The canonical binary32 NaN (03 Table 3.2). -/
def nan32 : Nat := 0x7FC00000

/-- The base-2 exponent of a format's smallest nonzero magnitude (02 Table 2.2). -/
def fmtLsb (f : Nat) : Int :=
  match f with
  | 0 => -9
  | 2 => -4
  | 3 => -3
  | 4 => -1
  | _ => 0

/-- An element of an exact-chain format in units of its smallest magnitude; 0 at a NaN. -/
def unitOf (f x : Nat) : Int :=
  if intPair f then toSigned (intWidth f) x
  else match decodeF (ffmt f) x with
    | .fin neg m e => scaledTo neg m e (fmtLsb f)
    | _ => 0

/-- Is an element of an exact-chain format a NaN (02 R41)? -/
def unitNan (f x : Nat) : Bool := !intPair f && (decodeF (ffmt f) x).isNan

/-- An exact chunk: the integer sum of its products, and whether one has a NaN operand (02 R40, R41). -/
def exactChunk (fa fw : Nat) (l : List (Nat × Nat)) : Int × Bool :=
  l.foldl (fun r p => (r.1 + unitOf fa p.1 * unitOf fw p.2, r.2 || unitNan fa p.1 || unitNan fw p.2)) (0, false)

/-- A product formed exactly and rounded once to binary32, its operands as the feeder presents them (02 R42; 03 R70). -/
def product32 (fa fw : Nat) (p : Nat × Nat) : Res :=
  let (x, f) := operandF fa fastCtl p.1
  let (y, g) := operandF fw fastCtl p.2
  let r := (nanOf 9 fastCtl [x, y]).getD (mulV 9 fastCtl x y)
  (r.1, r.2 ||| f ||| g)

/-- One level of a balanced tree: neighbours are added, the lower on the left. -/
def treeLevel (add : Nat → Nat → Res) : List Res → List Res
  | x :: y :: r =>
    let v := add x.1 y.1
    (v.1, v.2 ||| x.2 ||| y.2) :: treeLevel add r
  | l => l

/-- `n` levels of a balanced tree over 2^n terms (02 R42; 03 R69). -/
def treeSum (add : Nat → Nat → Res) : Nat → List Res → Res
  | 0, l => l.headD (0, 0)
  | n + 1, l => treeSum add n (treeLevel add l)

/-- An FP32-equivalent chunk: 128 rounded products in a tree of seven levels, +0 above K_VALID (02 R42). -/
def fp32Chunk (fa fw : Nat) (l : List (Nat × Nat)) : Res :=
  let ps := l.map (product32 fa fw)
  treeSum (addF 9 fastCtl) 7 (ps ++ List.replicate (128 - ps.length) (0, 0))

/-- The strict chain: a product, then fused multiply-adds over the whole of K (02 R43). -/
def strictSum : List (Nat × Nat) → Res
  | [] => (0, 0)
  | p :: r => r.foldl (fun (acc : Res) q =>
      let v := fmaF 9 rneCtl q.1 q.2 acc.1
      (v.1, v.2 ||| acc.2)) (mulF 9 rneCtl p.1 p.2)

/-- An exact sum rounded to binary32 (02 Table 2.8). -/
def exactTo32 (v e : Int) : Res := roundF 9 fastCtl (v < 0) v.natAbs e false

/-- An accumulator entry: its bits, its NaN flag (wide mode), and the flags its sums raised. -/
structure Entry32 where
  bits : Nat
  nan  : Bool
  fp   : Nat
  deriving DecidableEq, Repr

/-- Add a chunk to an accumulator entry, in ascending K: `first` is the chunk with ACC_INIT = 1 (02 R44, Table 2.8). -/
def accumulate (w : Word) (first : Bool) (acc : Entry32) (l : List (Nat × Nat)) : Entry32 :=
  let fa := twAFmt w
  let fw := twWFmt w
  let add := fun (r : Res) =>
    if first then (⟨r.1, false, acc.fp ||| r.2⟩ : Entry32)
    else
      let v := addF 9 fastCtl acc.bits r.1
      ⟨v.1, false, acc.fp ||| r.2 ||| v.2⟩
  match chainOf fa fw with
  | some .exact =>
    let (sum, nan) := exactChunk fa fw l
    if twWide w then
      ⟨ofSigned 64 ((if first then 0 else toSigned 64 acc.bits) + sum), (!first && acc.nan) || nan, acc.fp⟩
    else if twOut w = 1 then
      let v := fitInt 10 (twSat w) ((if first then 0 else toSigned 32 acc.bits) + sum)
      ⟨v.1, false, acc.fp ||| v.2⟩
    else if nan then add (nan32, flNanCanon)
    else add (exactTo32 sum (fmtLsb fa + fmtLsb fw))
  | some .fp32 => add (fp32Chunk fa fw l)
  | _ =>
    if first then
      let v := strictSum l
      ⟨v.1, false, acc.fp ||| v.2⟩
    else
      let v := l.foldl (fun (a : Res) q =>
        let v := fmaF 9 rneCtl q.1 q.2 a.1
        (v.1, v.2 ||| a.2)) ((acc.bits, 0) : Res)
      ⟨v.1, false, acc.fp ||| v.2⟩

/-- A product of diagonal mode (02 R51). -/
def diagonal (w : Word) (p : Nat × Nat) : Entry32 :=
  let fa := twAFmt w
  let fw := twWFmt w
  if intPair fa then
    let v := unitOf fa p.1 * unitOf fw p.2
    if twOut w = 1 then ⟨ofSigned 32 v, false, 0⟩
    else
      let r := exactTo32 v 0
      ⟨r.1, false, r.2⟩
  else
    let r := product32 fa fw p
    ⟨r.1, false, r.2⟩

/-! ### Emit (02 R46, Table 2.9) -/

/-- Bytes of an emitted element. -/
def twSize (w : Word) : Nat := if twOut w = 2 then 8 else 4

/-- A multiplication by a scale, if it is present: strict for a strict tile, fast else. -/
def scaleBy (w : Word) (r : Option Nat) (x : Res) : Res :=
  match r with
  | none => x
  | some k =>
    let v := mulF 9 (if chainOf (twAFmt w) (twWFmt w) = some .strict then rneCtl else fastCtl) x.1 k
    (v.1, v.2 ||| x.2)

/-- The element written and the flags raised by writing it. -/
def emitElem (w : Word) (acc : Nat) (nan : Bool) (r c : Option Nat) : Res :=
  if twOut w = 2 then (if nan then fxNan else acc, 0)
  else if twOut w = 1 then (acc, 0)
  else
    let x : Res :=
      if twWide w && !twDiag w then
        (if nan then (nan32, flNanCanon)
         else exactTo32 (toSigned 64 acc) (fmtLsb (twAFmt w) + fmtLsb (twWFmt w)))
      else (acc, 0)
    scaleBy w c (scaleBy w r x)

end Sys2Proof.Machine
end

