-- ==== Sys2Proof/Machine/Array.lean ====
section
/-!
DEFINITION. The tensor arrays: tile contexts and accumulator rows, the chunks of a tile, its emit with digest and slice
hand-off, the known-answer test and retirement (02 R30 to R56; 05 R116 to R118; 06 R132 to R134).  A tile's chunks are
one step and its emit another.
-/

namespace Sys2Proof.Machine

/-! ### Contexts and accumulator rows (06 R133, R134) -/

/-- The usable arrays of a descriptor on a die, bit t for TAt (06 R134). -/
def usableArrays (s : State) (d : Nat) (l : List Word) : Nat :=
  let aff := wbits (dword l 6) 63 56
  (if aff = 0 then 0xFF else aff) &&& (inService s / 2 ^ (8 * d) % 256)

/-- The open tiles of an array with their contexts. -/
def openTiles (x : Arr) : List (Nat × TileCtx) :=
  x.tiles.filterMap (fun e => e.2.map (fun t => (e.1, t)))

/-- A tile boundary: every tile issued to the array has been presented (06 R145). -/
def atBoundary (s : State) (a : Nat) : Bool := (openTiles (s.arr a)).all (fun e => e.2.done)

/-- May a queue use an array (06 R145)? -/
def mayUse (s : State) (q a : Nat) : Bool :=
  let x := s.arr a
  !x.kat && (match x.owner with
    | none => true
    | some o => o == q && !x.closing)

/-- Accumulator rows of a tile, in rows of 2 KiB, and the step of its base (02 R45; 06 R133). -/
def tileNeed (w : Word) : Nat := if twDiag w then 0 else if twWide w then 2 * twRows w else twRows w
def tileStep (w : Word) : Nat := if twWide w && !twDiag w then 2 else 1

/-- Do `need` rows at a base lie in the buffer, clear of the rows in use? -/
def rowsFree (used : List (Nat × Nat)) (need base : Nat) : Bool :=
  decide (base + need ≤ 2048) && used.all (fun u => decide (base + need ≤ u.1) || decide (u.1 + u.2 ≤ base))

/-- The lowest base that fits: 0, or the end of rows in use. -/
def lowestBase (used : List (Nat × Nat)) (need step : Nat) : Option Nat :=
  (((0 :: used.map (fun u => (u.1 + u.2 + step - 1) / step * step)).filter (rowsFree used need)).foldl
    (fun (b : Option Nat) x => match b with
      | none => some x
      | some y => some (min x y)) none)

/-- A free context of an array, and the base of its rows, clear of rows that wait for a spare (06 R133; 07 R163). -/
def arrayRoom (s : State) (a : Nat) (w : Word) : Option (Nat × Nat) :=
  let x := s.arr a
  match (List.range 16).find? (fun c => (mget none x.tiles c).isNone) with
  | none => none
  | some c =>
    let used := (openTiles x).map (fun e => (e.2.base, e.2.rows)) ++ x.accOut.map (fun r => (r, 1))
    (lowestBase (used.filter (fun u => u.2 != 0)) (tileNeed w) (tileStep w)).map (fun b => (c, b))

/-- The array, context and base that a descriptor takes: the lowest usable array that the queue may use, if it has room
(06 R133); a withdrawn tile takes the lowest usable array that has room, whoever owns it (02 R55). -/
def pickArray (s : State) (q : Nat) (l : List Word) (again : Bool) : Option (Nat × Nat × Nat) :=
  let d := queueDie q
  let use := usableArrays s d l
  let w := dword l 5
  if again then
    (List.range 8).findSome? (fun t =>
      if use.testBit t then (arrayRoom s (8 * d + t) w).map (fun r => (8 * d + t, r)) else none)
  else
    match (List.range 8).find? (fun t => use.testBit t && mayUse s q (8 * d + t)) with
    | none => none
    | some t => (arrayRoom s (8 * d + t) w).map (fun r => (8 * d + t, r))

/-- An array gains an owner (06 R145, 0x8066). -/
def takeArray (s : State) (a q : Nat) : State :=
  bump (s.setArr a { s.arr a with owner := some q, closing := false, since := clock s - (now s &&& 0xFFFFF) })
    0x8066 (a / 8 + 1) 1

/-- Open a tile's context on an array for an issued descriptor. -/
def openTile (s : State) (q : Nat) (i : BitVec 32) (l : List Word) (a c base : Nat) : State :=
  let w := dword l 5
  let x := s.arr a
  let t : TileCtx :=
    { queue := q, idx := i, base := base, rows := tileNeed w, word := w, acc := [], nans := [], poison := [], fp := 0,
      seq := (openTiles x).foldl (fun n e => max n (e.2.seq + 1)) 0, done := false, held := false, rscale := [],
      cscale := [] }
  let s1 := s.setArr a { x with tiles := mput none x.tiles c (some t) }
  s1.modJob q i (fun j => { j with array := some a })

/-- The tile of an issued descriptor: its array, its context number and the context. -/
def tileOf (s : State) (q : Nat) (i : BitVec 32) (a : Nat) : Option (Nat × TileCtx) :=
  (openTiles (s.arr a)).find? (fun e => e.2.queue == q && e.2.idx == i)

/-! ### Retirement of an array (02 R54, R55) -/

/-- No usable array (06 R134). -/
def noArray (s : State) (q : Nat) (i : BitVec 32) : State :=
  finish s q i 0x16 (inService s / 2 ^ (8 * queueDie q) % 256)

/-- An array is retired: its bits are set, and every tile open on it is withdrawn, to be reissued from its first chunk,
or ends with NO_ARRAY (02 R54, R55; 06 R134). -/
def retireArray (s : State) (a : Nat) : State :=
  let tiles := openTiles (s.arr a)
  let s1 := { s with flash := { s.flash with retired := s.flash.retired ||| BitVec.ofNat 64 (2 ^ a) } }
  let s2 := s1.setArr a { Arr.init with lastBad := (s1.arr a).lastBad, katTurn := (s1.arr a).katTurn }
  let s3 := sticky s2 0xA020 1 a
  tiles.foldl (fun t e =>
    let u := t.modJob e.2.queue e.2.idx (fun j => { j with array := none, phase := .ready })
    match u.job e.2.queue e.2.idx with
    | some j => if usableArrays u (a / 8) j.words = 0 then noArray u e.2.queue e.2.idx else u
    | none => u) s3

/-! ### The accumulator and feed buffers (02 R47; 07 R163) -/

/-- Does an open tile of an array hold a row of its accumulator buffer? -/
def rowHeld (x : Arr) (r : Nat) : Bool :=
  (openTiles x).any (fun e => decide (e.2.base ≤ r) && decide (r < e.2.base + e.2.rows))

/-- The memory record counts `n` more spare rows of a buffer of an array (07 R163, R178). -/
def countSpares (s : State) (a : Nat) (feed : Bool) (n : Nat) : State :=
  let m := s.memRec (a / 8)
  if n = 0 then s
  else memRecordWrite (s.setMemRec (a / 8)
    (if feed then { m with feedSpares := mput 0 m.feedSpares a (mget 0 m.feedSpares a + n) }
     else { m with accSpares := mput 0 m.accSpares a (mget 0 m.accSpares a + n) }))

/-- Failing rows are spared: an accumulator row that no tile holds, and feed-buffer rows at a tile boundary (07 R163). -/
def settleRows (s : State) (a : Nat) : State :=
  let x := s.arr a
  let acc := x.accOut.filter (fun r => !rowHeld x r)
  let feed := if atBoundary s a then x.feedOut else []
  if acc.isEmpty && feed.isEmpty then s
  else
    countSpares (countSpares (s.setArr a { x with accOut := x.accOut.filter (rowHeld x),
                                                  feedOut := if feed.isEmpty then x.feedOut else [] })
      a false acc.length) a true feed.length

/-- A row of a buffer calls for a spare: it waits for one, or, where every spare is used or spoken for, the array is
retired (07 R163). -/
def failRow (s : State) (a : Nat) (feed : Bool) (r : Nat) : State :=
  let x := s.arr a
  let m := s.memRec (a / 8)
  let out := if feed then x.feedOut else x.accOut
  let used := mget 0 (if feed then m.feedSpares else m.accSpares) a + out.length
  if out.contains r then s
  else if (if feed then 16 else 32) ≤ used then retireArray s a
  else settleRows (s.setArr a (if feed then { x with feedOut := out ++ [r] } else { x with accOut := out ++ [r] })) a

/-- A corrected word of a buffer counts, and calls for a spare under the conditions of R160; a bit position that is wrong
in four rows has every one of them spared, since a buffer has no column groups (07 R163; log 76). -/
def bufCorrected (s : State) (a : Nat) (e : BufErr) (bit : Nat) : State :=
  let s0 := bump s 0x8022 (a / 8 + 1) 1
  let x := s0.arr a
  let finds := x.finds.filter (fun f => recent s f.2) ++ [(e, clock s)]
  let mine := finds.filter (fun f => f.1.feed == e.feed)
  let words := ((mine.filter (fun f => f.1.row == e.row)).map (fun f => f.1.word)).eraseDups
  let inCol := fun (f : BufErr × Word) => f.1.feed == e.feed && f.1.word == e.word && f.1.bit.map (·.val) == some bit
  let rows := ((finds.filter inCol).map (fun f => f.1.row)).eraseDups
  let bad := if 4 ≤ rows.length then rows else if 2 ≤ words.length then [e.row] else []
  let left := finds.filter (fun f => !(f.1.feed == e.feed && bad.contains f.1.row))
  bad.foldl (fun t r => failRow t a e.feed r) (s0.setArr a { x with finds := left })

/-- Rows of an open tile are marked as a poisoned operand marks them (02 R47). -/
def poisonTile (s : State) (a c : Nat) (rows : List Nat) : State :=
  let x := s.arr a
  match mget none x.tiles c with
  | none => s
  | some t =>
    s.setArr a { x with tiles := mput none x.tiles c (some { t with poison := rows.foldl (fun m r => mput false m r true) t.poison }) }

/-- The tile row that a row of the accumulator buffer belongs to, with its context. -/
def rowOwner (x : Arr) (r : Nat) : Option (Nat × Nat) :=
  ((openTiles x).find? (fun e => decide (e.2.base ≤ r) && decide (r < e.2.base + e.2.rows))).map (fun e =>
    (e.1, (r - e.2.base) / tileStep e.2.word))

/-- An uncorrectable word of a buffer poisons the rows it goes into, sets the die's bit, and has its row spared (02 R47;
07 R160, R163). -/
def bufFailed (s : State) (a c : Nat) (e : BufErr) : State :=
  let x := s.arr a
  let s1 :=
    if e.feed then
      match mget none x.tiles c with
      | some t => poisonTile s a c (match e.beat with
        | some m => if m < twRows t.word then [m] else []
        | none => List.range (twRows t.word))
      | none => s
    else match rowOwner x e.row with
      | some (k, m) => poisonTile s a k [m]
      | none => s
  failRow (sticky s1 0xA020 (if e.feed then 4 else 3) (a / 8)) a e.feed e.row

/-- One word of an array's buffers in error, read for the tile of a context. -/
def bufFind (a c : Nat) (s : State) (e : BufErr) : State :=
  if 2048 ≤ e.row then s
  else match e.bit with
    | some b => bufCorrected s a e b.val
    | none => bufFailed s a c e

/-- Close a context (02 R46); rows that waited for it are spared (07 R163). -/
def closeTile (s : State) (a c : Nat) : State :=
  let x := s.arr a
  settleRows (s.setArr a { x with tiles := mput none x.tiles c none }) a

/-! ### Operands in the tier (02 R50; 06 Table 6.7; 08 R191) -/

/-- An address of a descriptor plus an offset. -/
def addrPlus (w : Word) (n : Nat) : Nat := (bitsOf w.toNat 55 0 + n) % 2 ^ 56

/-- The key of an address of the device's own slot. -/
def addrKey (a : Nat) : Nat := cellKey (addrDie a) (addrOff a)

/-- The fault of a range that must lie in a die's own tier. -/
def tierFault (s : State) (d a len : Nat) : Option (Nat × Place) :=
  if !isOwnAddr s d a || decide (0x18000000 < addrOff a + len) then some (a, .bad)
  else (faultIn s d (addrOff a) len).map (fun f => (a - addrOff a + f.1, f.2))

/-- Element i of packed elements that start at a key (03 R62). -/
def elemAt (s : State) (f key i : Nat) : Nat :=
  unpackElem f (readBytes s (key + i / fmtGroup f * fmtBytes f 1) (fmtBytes f 1)) (i % fmtGroup f)

def aStride (l : List Word) : Nat := wbits (dword l 10) 63 32
def wStride (l : List Word) : Nat := wbits (dword l 10) 31 0
def outStride (l : List Word) : Nat := wbits (dword l 11) 63 32

/-- The reduction length of a tile: one product in diagonal mode. -/
def kTotal (l : List Word) : Nat := if twDiag (dword l 5) then 1 else wbits (dword l 6) 31 0

/-- The stored rows of A: how many, and elements in each (02 R50, R51). -/
def aShape (l : List Word) : Nat × Nat :=
  let w := dword l 5
  if twDiag w then (twRows w, twCols w) else if twATrans w then (kTotal l, twRows w) else (twRows w, kTotal l)

/-- The stored rows of W. -/
def wShape (l : List Word) : Nat × Nat :=
  let w := dword l 5
  if twDiag w then (twRows w, twCols w) else if twWTrans w then (twCols w, kTotal l) else (kTotal l, twCols w)

/-- Operand rows as address and length. -/
def operandRows (base : Word) (stride f : Nat) (shape : Nat × Nat) : List (Nat × Nat) :=
  (List.range shape.1).map (fun r => (addrPlus base (r * stride), fmtBytes f shape.2))

/-- A slice goes to the update lane (05 R116). -/
def isSlice (l : List Word) : Bool := trainRole l == 2 && !trainRoute l && !trainFrozen l

/-- Every range that a tile reads. -/
def tileReads (l : List Word) : List (Nat × Nat) :=
  let w := dword l 5
  operandRows (dword l 7) (aStride l) (twAFmt w) (aShape l) ++ operandRows (dword l 8) (wStride l) (twWFmt w) (wShape l)
    ++ (if twRowScale w then [(addrPlus (dword l 12) 0, 4 * twRows w)] else [])
    ++ (if twColScale w then [(addrPlus (dword l 13) 0, 2048)] else [])
    ++ (if isSlice l then [(addrPlus (dword l 15) 0, 32)] else [])

/-- Element (m, k) of the activations and (k, n) of the weights as they are presented; in diagonal mode both are of
row m, and the column stands for both (02 R50, R51). -/
def aElem (s : State) (l : List Word) (m k n : Nat) : Nat :=
  let w := dword l 5
  let (r, c) := if twDiag w then (m, n) else if twATrans w then (k, m) else (m, k)
  elemAt s (twAFmt w) (addrKey (addrPlus (dword l 7) (r * aStride l))) c
def wElem (s : State) (l : List Word) (m k n : Nat) : Nat :=
  let w := dword l 5
  let (r, c) := if twDiag w then (m, n) else if twWTrans w then (n, k) else (k, n)
  elemAt s (twWFmt w) (addrKey (addrPlus (dword l 8) (r * wStride l))) c

/-- The pairs of one chunk for an output element: 128 rows of K, or what is left (06 R132). -/
def chunkPairs (s : State) (l : List Word) (m n c : Nat) : List (Nat × Nat) :=
  (List.range (min 128 (kTotal l - 128 * c))).map (fun j => (aElem s l m (128 * c + j) n, wElem s l m (128 * c + j) n))

/-- An output element's accumulator entry after every chunk of its tile, in ascending K (02 R44). -/
def tileEntry (s : State) (l : List Word) (m n : Nat) : Entry32 :=
  let w := dword l 5
  if twDiag w then diagonal w (aElem s l m 0 n, wElem s l m 0 n)
  else
    (List.range ((kTotal l + 127) / 128)).foldl
      (fun e c => accumulate w (c == 0) e (chunkPairs s l m n c)) ⟨0, false, 0⟩

/-- Is any of the ranges poisoned? -/
def anyPoison (s : State) (l : List (Nat × Nat)) : Bool := l.any (fun r => rangePoison s (addrKey r.1) r.2)

/-- Does a poisoned operand touch row m (02 R47)?  A weight or a channel scale touches every row; scales of columns above
N_VALID, which nothing is multiplied by, do not count (DESIGN CHOICE, log 75). -/
def rowPoison (s : State) (l : List Word) (m : Nat) : Bool :=
  let w := dword l 5
  let rows := operandRows (dword l 7) (aStride l) (twAFmt w) (aShape l)
  let mine :=
    if twATrans w && !twDiag w then
      let b := fmtBits (twAFmt w)
      rows.any (fun r => rangePoison s (addrKey r.1 + m * b / 8) ((m * b + b - 1) / 8 - m * b / 8 + 1))
    else anyPoison s (slice rows m 1)
  let weights := operandRows (dword l 8) (wStride l) (twWFmt w) (wShape l)
  mine || (if twDiag w then anyPoison s (slice weights m 1) else anyPoison s weights)
    || (twRowScale w && rangePoison s (addrKey (addrPlus (dword l 12) (4 * m))) 4)
    || (twColScale w && rangePoison s (addrKey (addrPlus (dword l 13) 0)) (4 * twCols w))

/-- `n` binary32 values at an address. -/
def readF32s (s : State) (a : Word) (n : Nat) : List Nat :=
  (List.range n).map (fun k => leNat (readBytes s (addrKey (addrPlus a (4 * k))) 4))

/-- A tile's context after its last chunk (02 R44, R46, R47).  The zero weights of columns above N_VALID raise no flag of the
tile (DESIGN CHOICE, log 75). -/
def fillTile (s : State) (l : List Word) (t : TileCtx) : TileCtx :=
  let w := dword l 5
  let es := (List.range (twRows w)).flatMap (fun m =>
    (List.range (twCols w)).map (fun n => (512 * m + n, tileEntry s l m n)))
  { t with
    acc := es.filterMap (fun e => if e.2.bits = 0 then none else some (e.1, BitVec.ofNat 64 e.2.bits)),
    nans := es.filterMap (fun e => if e.2.nan then some (e.1, true) else none),
    poison := (List.range (twRows w)).filterMap (fun m => if rowPoison s l m then some (m, true) else none),
    fp := BitVec.ofNat 8 (es.foldl (fun f e => f ||| e.2.fp) 0), done := true,
    rscale := if twRowScale w then readF32s s (dword l 12) (twRows w) else [],
    cscale := if twColScale w then readF32s s (dword l 13) (twCols w) else [] }

/-! ### Emit (02 R46 to R48; 05 R116, R117) -/

/-- The bytes of an emitted row, and the flags raised by writing it. -/
def emitRow (t : TileCtx) (m : Nat) : List Byte × Nat :=
  let w := t.word
  let one := fun (n : Nat) =>
    emitElem w (mget 0 t.acc (512 * m + n)).toNat (mget false t.nans (512 * m + n))
      (if twRowScale w then t.rscale[m]? else none) (if twColScale w then t.cscale[n]? else none)
  let es := (List.range (twCols w)).map one
  (es.flatMap (fun e => natLe (twSize w) e.1), es.foldl (fun f e => f ||| e.2) 0)

/-- Store bytes in a die's own tier: the fault, if the range faults. -/
def tierStore (s : State) (d a : Nat) (data : List Byte) (pz : Bool) : Option (Nat × Place) × State :=
  match tierFault s d a data.length with
  | some f => (some f, s)
  | none => (none, storeBytes s (addrKey a) data (fun _ => pz))

/-- Emit the rows of a tile in ascending order, up to the first that faults. -/
def emitRows (s : State) (d : Nat) (l : List Word) (t : TileCtx) : Nat → Nat → Option (Nat × Place) × State
  | 0, _ => (none, s)
  | n + 1, m =>
    match tierStore s d (addrPlus (dword l 9) (m * outStride l)) (emitRow t m).1 (mget false t.poison m) with
    | (some f, u) => (some f, u)
    | (none, u) => emitRows u d l t n (m + 1)

/-- A descriptor ends with an access fault (06 R152). -/
def accessFault (s : State) (q : Nat) (i : BitVec 32) (f : Nat × Place) : State :=
  finish (faultSticky s (queueDie q) f.2) q i (placeStatus f.2) (placeDetail f.1 f.2)

/-- A slice's update request goes to the lane (05 R117): the record of Table 6.12 and the slice's rows. -/
def handOff (s : State) (q : Nat) (i : BitVec 32) (l : List Word) (t : TileCtx) (poison : Bool) : State :=
  let d := queueDie q
  let key := addrKey (addrPlus (dword l 15) 0)
  let u : UpdReq :=
    { queue := q, idx := i, words := wordsFrom 4 (readBytes s key 32), slice := addrPlus (dword l 9) 0,
      rows := twRows t.word, cols := twCols t.word, stride := outStride l, at_ := clock s, running := false, block := 0,
      loaded := false, wrTags := [], fp := t.fp, poisoned := poison || rangePoison s key 32, ending := none, freed := false }
  let s1 := s.setLane d (s.lane d ++ [u])
  s1.setCp d { s1.cp d with slices := (s1.cp d).slices + 1 }

/-- The flags of a tile up to an emitted row (03 R65). -/
def emitFlags (t : TileCtx) (n : Nat) : Byte :=
  t.fp ||| BitVec.ofNat 8 ((List.range n).foldl (fun f m => f ||| (emitRow t m).2) 0)

/-- How many rows of a tile the drain computes: those up to the first whose address faults. -/
def rowsOut (s : State) (d : Nat) (l : List Word) (t : TileCtx) : Nat :=
  let n := twRows t.word
  ((List.range n).find? (fun m =>
    (tierFault s d (addrPlus (dword l 9) (m * outStride l)) (emitRow t m).1.length).isSome)).elim n (· + 1)

/-- Emit a finished tile: its rows, its digest, and its end: a slice's descriptor ends with its update request (04 R103). -/
def emitTile (s : State) (a c : Nat) : State :=
  match mget none (s.arr a).tiles c with
  | none => s
  | some t =>
    let d := a / 8
    match s.job t.queue t.idx with
    | none => closeTile s a c
    | some j =>
      let l := j.words
      if !t.done then s
      else if isSlice l && decide (dnum s 0x2050 2 ≤ (s.cp d).slices) then
        let x := s.arr a
        s.setArr a { x with tiles := mput none x.tiles c (some { t with held := true }) }
      else
        let rows := twRows t.word
        let poison := !t.poison.isEmpty
        let fp := emitFlags t (rowsOut s d l t)
        let end_ := fun (u : State) => (closeTile u a c).modJob t.queue t.idx (fun j => { j with fp := fp, poisoned := poison })
        match emitRows s d l t rows 0 with
        | (some f, s1) => accessFault (end_ s1) t.queue t.idx f
        | (none, s1) =>
          let digest := if poison then 0 else crc64 ((List.range rows).flatMap (fun m => (emitRow t m).1))
          let (fault, s2) :=
            if twDigest t.word then tierStore s1 d (addrPlus (dword l 14) 0) (natLe 8 digest) false else (none, s1)
          match fault with
          | some f => accessFault (end_ s2) t.queue t.idx f
          | none =>
            let s3 := end_ (if twDigest t.word then shadowTile s2 t.queue t.idx (BitVec.ofNat 64 digest) poison else s2)
            if isSlice l then handOff s3 t.queue t.idx l { t with fp := fp } poison else finishOk s3 t.queue t.idx

/-! ### The matrix commands -/

/-- A chained kernel just before the descriptor has not stored the rows that its tile presents, in whole blocks of 128 (04
R99). -/
def kernelBefore (s : State) (q : Nat) (i : BitVec 32) (l : List Word) : Bool :=
  (s.queue q).jobs.any (fun j => j.idx == i - 1 && descType j.words == 2 && descChain j.words && j.phase != .finished
    && decide (j.nextOff / 128 * 128 < (aShape l).1))

/-- A tile operation word is refused (02 R30). -/
def refuseTile (s : State) (q : Nat) (i : BitVec 32) : State :=
  finish (sticky s 0xA020 5 (queueDie q)) q i 0x11 0

/-- A tile's chunks are presented: its operands are read with what they hold in error, and its context is filled; a tile of
diagonal mode is emitted as it leaves the drain (02 R44, R47, R51). -/
def presentTile (s : State) (q a c : Nat) (i : BitVec 32) (l : List Word) (t : TileCtx) (bufs : List BufErr) : State :=
  let s0 := (tileReads l).foldl (fun u r => carryRead u (addrKey r.1) r.2) s
  let x := s0.arr a
  let s1 := s0.setArr a { x with tiles := mput none x.tiles c (some (fillTile s l t)) }
  let s2 := bufs.foldl (bufFind a c) (s1.modJob q i (fun j => { j with phase := .working }))
  if twDiag t.word then emitTile s2 a c else settleRows s2 a

/-- A tile's chunks: refused, skipped as frozen, without an array, or computed into its context in the array's issue
order, while no collective holds the die (02 R30, R40 to R47, R55; 05 R118; 06 R132 to R134, R146). -/
def runTile (s : State) (q : Nat) (i : BitVec 32) (diag : Bool) (bufs : List BufErr) : State :=
  match s.job q i with
  | none => s
  | some j =>
    let l := j.words
    let d := queueDie q
    if descType l ≠ 1 ∨ j.phase ≠ .ready ∨ twDiag (dword l 5) ≠ diag then s
    else if tileRefused l then refuseTile s q i
    else if usableArrays s d l = 0 then noArray s q i
    else if (s.ve d).hold.isSome || kernelBefore s q i l then s
    else
      let s0 := match j.array with
        | some _ => s
        | none => match pickArray s q l true with
          | some (a, c, b) => openTile s q i l a c b
          | none => s
      match (s0.job q i).bind (fun j => j.array) with
      | none => s0
      | some a =>
        match tileOf s0 q i a with
        | none => s0
        | some (c, t) =>
          if (s0.arr a).kat || (openTiles (s0.arr a)).any (fun e => !e.2.done && decide (e.2.seq < t.seq)) then s0
          else match (tileReads l).findSome? (fun r => tierFault s0 d r.1 r.2) with
            | some f => accessFault (closeTile s0 a c) q i f
            | none => presentTile s0 q a c i l t bufs

/-- MATRIX (06 R132): the chunks of one output tile. -/
def execMatrix (q : QId) (r : TileRun) (s : State) :
    Host.Outcome State Fault Refusal := .next (runTile (readErrs s r.errs) q.val r.i false r.bufs)

/-- DIAGONAL_TILE (02 R51): element-wise products in one chunk, emitted as they leave the drain. -/
def execDiagonalTile (q : QId) (r : TileRun) (s : State) :
    Host.Outcome State Fault Refusal := .next (runTile (readErrs s r.errs) q.val r.i true r.bufs)

/-- TILE_EMIT (02 R46): the tile of a context is emitted, or its slice waits for a slot. -/
def execTileEmit (a : ArrId) (r : TileDrain) (s : State) : Host.Outcome State Fault Refusal :=
  .next (if dieUp s (a.val / 8) then emitTile (r.bufs.foldl (bufFind a.val r.ctx.val) s) a.val r.ctx.val else s)

/-! ### Known-answer test (02 R53, R54, R56) -/

/-- A known-answer test of an array is due: its interval has passed, the arrays in service take their turns, the one tested
longest ago first, and the turns are evenly spaced (02 R53). -/
def katDue (s : State) (a : Nat) : Bool :=
  let live := onesBelow 64 (inService s)
  let ticks := dnum s 0x2020 1 * 2 ^ 20
  let age := fun (k : Nat) => (clock s - (s.arr k).katTurn).toNat
  decide (ticks ≤ age a)
    && live.all (fun k => k == a || (decide (age k < age a || (age k = age a ∧ a < k)) && decide (ticks / live.length ≤ age k)))

/-- ARRAY_KAT_START (02 R53; 06 R145): an array in service whose test is due is taken at a tile boundary. -/
def execArrayKatStart (a : ArrId) (s : State) : Host.Outcome State Fault Refusal :=
  let x := s.arr a.val
  .next (if loaded s && (inService s).testBit a.val && dieUp s (a.val / 8) && !x.kat && atBoundary s a.val && katDue s a.val then
      s.setArr a.val { x with kat := true, owner := none, closing := false, katTurn := clock s }
    else s)

/-- A test of an array has passed, at a beat (02 R56, 0x3020). -/
def katPassed (s : State) (a : Nat) : State := dset s 0x3020 (a + 1) (beat s).toNat

/-- ARRAY_KAT_DONE (02 R54): a pass returns the array; a mismatch is judged by its repeat, and by an earlier mismatch
within 1,024 beats. -/
def arrayKatDone (a : ArrId) (pass repeatPass : Bool) (s : State) : State :=
  let x := s.arr a.val
  if !x.kat then s
  else
    let s1 := s.setArr a.val { x with kat := false }
    if pass then katPassed s1 a.val
    else if !repeatPass then retireArray s1 a.val
    else
      let soon := x.lastBad.any (fun t => decide ((clock s - t).toNat < 1024 * 2 ^ 20))
      let s2 := sticky s1 0xA020 2 a.val
      if soon then retireArray s2 a.val
      else katPassed (s2.setArr a.val { s2.arr a.val with lastBad := [clock s] }) a.val

def execArrayKatDone (a : ArrId) (pass repeatPass : Bool) (s : State) : Host.Outcome State Fault Refusal :=
  .next (arrayKatDone a pass repeatPass s)

end Sys2Proof.Machine
end

