-- ==== Sys2Proof/Machine/Crypto.lean ====
section
/-!
DEFINITION. SHA-512 and the verification of an Ed25519 signature, which the spec names and does not define (15 R341; 17
R370, R371): PRESUMED, FIPS 180-4 and RFC 8032 without cofactor (log 21).
-/

namespace Sys2Proof.Machine

/-! ### SHA-512 -/

/-- The first eighty primes. -/
def firstPrimes : List Nat :=
  [2, 3, 5, 7, 11, 13, 17, 19, 23, 29, 31, 37, 41, 43, 47, 53, 59, 61, 67, 71] ++
  [73, 79, 83, 89, 97, 101, 103, 107, 109, 113, 127, 131, 137, 139, 149, 151, 157, 163, 167, 173] ++
  [179, 181, 191, 193, 197, 199, 211, 223, 227, 229, 233, 239, 241, 251, 257, 263, 269, 271, 277, 281] ++
  [283, 293, 307, 311, 313, 317, 331, 337, 347, 349, 353, 359, 367, 373, 379, 383, 389, 397, 401, 409]

/-- The integer cube root by bits: `k` steps down from a bit. -/
def icbrtFrom (n : Nat) : Nat → Nat → Nat
  | 0, r => r
  | k + 1, r =>
    let t := r + 2 ^ k
    icbrtFrom n k (if t * t * t ≤ n then t else r)

/-- The round constants: the first 64 bits of the fractional parts of the primes' cube roots. -/
def shaK : List Word := firstPrimes.map (fun p => BitVec.ofNat 64 (icbrtFrom (p * 2 ^ 192) 68 0))

/-- The initial hash: the first 64 bits of the fractional parts of the first eight primes' square roots. -/
def shaInit : List Word := (firstPrimes.take 8).map (fun p => BitVec.ofNat 64 (isqrt (p * 2 ^ 128)))

/-- A big-endian word of eight bytes. -/
def beWord (l : List Byte) : Word := BitVec.ofNat 64 (leNat l.reverse)

/-- The message schedule, newest word first, extended by n words. -/
def shaSchedule : Nat → List Word → List Word
  | 0, w => w
  | n + 1, w =>
    let a := w.getD 1 0
    let b := w.getD 14 0
    let s1 := a.rotateRight 19 ^^^ a.rotateRight 61 ^^^ (a >>> 6)
    let s0 := b.rotateRight 1 ^^^ b.rotateRight 8 ^^^ (b >>> 7)
    shaSchedule n ((s1 + w.getD 6 0 + s0 + w.getD 15 0) :: w)

/-- One round. -/
def shaRound (h : List Word) (kw : Word) : List Word :=
  match h with
  | [a, b, c, d, e, f, g, x] =>
    let t1 := x + (e.rotateRight 14 ^^^ e.rotateRight 18 ^^^ e.rotateRight 41) + ((e &&& f) ^^^ (~~~e &&& g)) + kw
    let t2 := (a.rotateRight 28 ^^^ a.rotateRight 34 ^^^ a.rotateRight 39) + ((a &&& b) ^^^ (a &&& c) ^^^ (b &&& c))
    [t1 + t2, a, b, c, d + t1, e, f, g]
  | l => l

/-- One block of 128 bytes. -/
def shaBlock (h : List Word) (block : List Byte) : List Word :=
  let w := ((List.range 16).map (fun i => beWord (slice block (8 * i) 8))).reverse
  let sched := (shaSchedule 64 w).reverse
  let r := (List.zipWith (· + ·) shaK sched).foldl shaRound h
  List.zipWith (· + ·) h r

/-- Blocks of 128 bytes. -/
def shaBlocks : Nat → List Word → List Byte → List Word
  | 0, h, _ => h
  | n + 1, h, m => shaBlocks n (shaBlock h (m.take 128)) (m.drop 128)

/-- The SHA-512 digest, 64 bytes. -/
def sha512 (m : List Byte) : List Byte :=
  let zeros := (240 - (m.length + 1) % 128) % 128
  let padded := m ++ [0x80] ++ List.replicate zeros 0 ++ (natLe 16 (8 * m.length)).reverse
  (shaBlocks (padded.length / 128) shaInit padded).flatMap (fun w => (natLe 8 w.toNat).reverse)

/-! ### Ed25519 -/

/-- The prime of the field, the order of the base point, and the curve's d. -/
def edP : Nat := 2 ^ 255 - 19
def edL : Nat := 2 ^ 252 + 27742317777372353535851937790883648493
def edD : Nat := 37095705934669439343138083508754565189542113879843219016388785533085940283555

/-- b^e modulo m, over the low n bits of e. -/
def powMod (m : Nat) : Nat → Nat → Nat → Nat
  | 0, _, _ => 1
  | n + 1, b, e => (if e % 2 = 1 then b else 1) * powMod m n (b * b % m) (e / 2) % m

/-- The inverse in the field. -/
def edInv (x : Nat) : Nat := powMod edP 255 x (edP - 2)

/-- A point in extended coordinates. -/
structure EdPoint where
  x : Nat
  y : Nat
  z : Nat
  t : Nat
  deriving DecidableEq, Repr

/-- The neutral point. -/
def edZero : EdPoint := ⟨0, 1, 1, 0⟩

/-- The sum of two points. -/
def edAdd (p q : EdPoint) : EdPoint :=
  let a := (p.y + edP - p.x) * (q.y + edP - q.x) % edP
  let b := (p.y + p.x) * (q.y + q.x) % edP
  let c := 2 * p.t * q.t % edP * edD % edP
  let d := 2 * p.z * q.z % edP
  let e := b + edP - a
  let f := d + edP - c
  let g := d + c
  let h := b + a
  ⟨e * f % edP, g * h % edP, f * g % edP, e * h % edP⟩

/-- n-fold multiple over the low k bits of n. -/
def edMul : Nat → Nat → EdPoint → EdPoint
  | 0, _, _ => edZero
  | k + 1, n, p => if n % 2 = 1 then edAdd p (edMul k (n / 2) (edAdd p p)) else edMul k (n / 2) (edAdd p p)

/-- Equal as points. -/
def edEq (p q : EdPoint) : Bool :=
  p.x * q.z % edP == q.x * p.z % edP && p.y * q.z % edP == q.y * p.z % edP

/-- A square root of v modulo the prime, if it has one. -/
def edSqrt (v : Nat) : Option Nat :=
  let r := powMod edP 255 v ((edP + 3) / 8)
  if r * r % edP = v % edP then some r
  else
    let q := r * powMod edP 255 2 ((edP - 1) / 4) % edP
    if q * q % edP = v % edP then some q else none

/-- The point that 32 bytes encode. -/
def edDecode (l : List Byte) : Option EdPoint :=
  let n := leNat l
  let y := n % 2 ^ 255
  let sign := n / 2 ^ 255
  if l.length ≠ 32 ∨ edP ≤ y then none
  else
    let u := (y * y + edP - 1) % edP
    let v := (edD * (y * y % edP) + 1) % edP
    match edSqrt (u * edInv v % edP) with
    | none => none
    | some x =>
      if x = 0 ∧ sign = 1 then none
      else
        let x' := if x % 2 = sign then x else edP - x
        some ⟨x', y, 1, x' * y % edP⟩

/-- The base point. -/
def edBase : EdPoint :=
  (edDecode (natLe 32 (4 * edInv 5 % edP))).getD edZero

/-- Does a 64-byte signature over a message verify under a public key? -/
def edVerify (key msg sig : List Byte) : Bool :=
  let r := sig.take 32
  let s := leNat (sig.drop 32)
  match edDecode key, edDecode r with
  | some a, some rp =>
    let k := leNat (sha512 (r ++ key ++ msg)) % edL
    decide (sig.length = 64) && decide (s < edL) && edEq (edMul 256 s edBase) (edAdd rp (edMul 256 k a))
  | _, _ => false

end Sys2Proof.Machine
end

