-- ==== Sys2Proof/Machine/Boot.lean ====
section
/-!
DEFINITION. Start-up and reset (17 R367 to R381): the sequence of Table 17.1 from what the start measures, image
verification, the measured-boot log, the load of the dictionary (15 R347), the resets of Table 17.7, firmware update and
attestation.  A start is one step, and takes no tick of the model's clock (log 2).
-/

namespace Sys2Proof.Machine

/-! ### Measured boot (17 R371) -/

/-- An event is measured: its digest joins the running digest, and the log while it has room. -/
def measureDigest (s : State) (typ : Byte) (digest : List Byte) : State :=
  let b := s.boot
  if 256 ≤ b.log.length then s
  else
    { s with boot := { b with log := b.log ++ [{ typ := typ, tick := now s, digest := digest }],
                              running := sha512 (b.running ++ digest) } }

/-- An event is measured by its bytes. -/
def measure (s : State) (typ : Byte) (data : List Byte) : State := measureDigest s typ (sha512 data)

/-- The 80 bytes of a log entry. -/
def logBytes (e : LogEntry) : List Byte := [e.typ] ++ List.replicate 7 0 ++ natLe 8 e.tick.toNat ++ e.digest

/-! ### Image verification (17 R370, Table 17.3) -/

/-- The ROM's digest of a signing key: of key 0 the spec gives the first and the last four bytes. -/
def romDigest (k : Nat) : List Byte :=
  let open_ := (Config.romKey k ++ List.replicate 64 0).take 64
  if k = 0 then [0x3B, 0x9E, 0x41, 0xD0] ++ slice open_ 4 56 ++ [0x7A, 0x2C, 0xA4, 0xC1] else open_

def headVersion (img : List Byte) : BitVec 32 := BitVec.ofNat 32 (leNat (slice img 8 4))
def headSvn (img : List Byte) : BitVec 16 := BitVec.ofNat 16 (leNat (slice img 12 2))
def headKey (img : List Byte) : Byte := byteAt img 14
def headLength (img : List Byte) : Nat := leNat (slice img 16 4)

/-- Are bytes all zero? -/
def allZero (l : List Byte) : Bool := l.all (· == 0)

/-- The reason code of the first check of Table 17.3 that an image fails, from check 2 on; 0 where it passes.  Checks 4
to 6 of the image of production test have been made there (log 4). -/
def imageReason (fu : Fuses) (img : List Byte) (factory : Bool) : Byte :=
  let body := slice img 256 (headLength img)
  let key := slice img 32 32
  if img.length < 256 ∨ leNat (img.take 4) ≠ 0x4958314B ∨ leNat (slice img 4 4) ≠ 1 ∨ byteAt img 15 ≠ 0
      ∨ !allZero (slice img 20 12) ∨ !allZero (slice img 128 64) then 1
  else if headLength img = 0 ∨ 8388352 < headLength img then 2
  else if 4 ≤ (headKey img).toNat ∨ fu.keyRevoked.getLsbD (headKey img).toNat
      ∨ (!factory && sha512 key != romDigest (headKey img).toNat) then 3
  else if !factory && sha512 body != slice img 64 64 then 4
  else if !factory && !edVerify key (sha512 (img.take 192)) (slice img 192 64) then 5
  else if headSvn img < fu.svn then 6
  else 0

/-- The image that the hub buffer holds at offset 0, by its own header. -/
def stagedImage (s : State) : List Byte :=
  let head := readBytes s (cellKey 8 0) 256
  head ++ readBytes s (cellKey 8 256) (min (headLength head) 8388352)

/-! ### The load of the dictionary (15 R347) -/

/-- One record: ignored where the firmware holds no such entry, its default where it is out of range. -/
def loadRecord (s : State) (key : Nat) (v : List Byte) : State × Nat :=
  match entryOf (key / 256) (key % 256) with
  | none => (s, 0)
  | some e =>
    if !e.keep then (s, 0)
    else if lengthOk e v && inRange e v then (putStored s e (key % 256) v, 0)
    else (s, 1)

/-- The load: the copy in use, its records, the bits that the load sets, and at power-up the advance of
POWER_UP_COUNT. -/
def loadDict (s : State) (env : BootEnv) (powerUp : Bool) : State :=
  let a : DictCopy := { s.flash.copyA with valid := s.flash.copyA.valid && env.copyAOk }
  let b : DictCopy := { s.flash.copyB with valid := s.flash.copyB.valid && env.copyBOk }
  let recs := if a.valid && (!b.valid || decide (b.seq ≤ a.seq)) then a.recs else if b.valid then b.recs else []
  let s0 := { s with flash := { s.flash with copyA := a, copyB := b }, dict := [], blobs := [] }
  let (s1, bad) := recs.foldl (fun (acc : State × Nat) e =>
    let (t, n) := loadRecord acc.1 e.1 e.2
    (t, acc.2 + n)) (s0, 0)
  let s2 := { s1 with boot := { s1.boot with loaded := true } }
  let s3 := dset s2 0x30E0 5 (min 65535 bad)
  let s4 := if bad = 0 then s3 else sticky s3 0xA030 7 0
  let s5 := if !a.valid && !b.valid then sticky s4 0xA030 1 0 else if a.valid && b.valid then s4 else sticky s4 0xA030 2 0
  let s6 :=
    if powerUp then
      let n := (dcell s5 0x30E0 4 + 1) % 2 ^ 32
      let t := { s5 with flash := writeImage s5.flash (withRecord s5 (dkey 0x30E0 4) (natLe 4 n)) }
      dset t 0x30E0 4 n
    else s5
  dset (dset s6 0x30E0 2 (storeSeq s6.flash)) 0x30E0 3 (bitAt s6.flash.copyA.valid 0 + bitAt s6.flash.copyB.valid 1)

/-! ### Stacks at a start -/

/-- An HBM stack whose contents do not survive the start: zeroed, with every entry of its list applied as complete (07
R156, R176). -/
def startHbm (s : State) (d : Nat) : State :=
  let m := s.memRec d
  let list := m.list ++ (match m.active with | some e => [e] | none => [])
  let s1 := s.setMemRec d { m with list := list, active := none, cursor := none }
  let retired := list.foldl (fun (v : BitVec 64) e => v ||| BitVec.ofNat 64 (2 ^ e.pc)) 0
  zeroHbm (s1.setHbm d { Hbm.init with retired := retired, list := list }) d

/-- A pseudo-channel that fails training is retired with no notice and no copy, its stack zeroed, before the stack
accepts a request (07 R172, R173). -/
def trainRetire (s : State) (d p : Nat) : State :=
  let s0 := startHbm s d
  let h := s0.hbm d
  if (s.hbm d).retired.getLsbD p then s
  else if h.retired.getLsbD p then s0
  else if dnum s 0x5013 3 < h.list.length + 1 then sticky s 0xA070 5 d
  else
    let m := s0.memRec d
    let list := h.list ++ [⟨p, 63 - h.list.length⟩]
    let s1 := memRecordWrite (s0.setMemRec d { m with list := list })
    sticky (sticky (s1.setHbm d { h with retired := h.retired ||| BitVec.ofNat 64 (2 ^ p), list := list }) 0xA070 3 d)
      0xA070 4 d

/-- A group whose exhaustion takes its pseudo-channel out (01 Table 1.2; 07 R172). -/
def groupPc : BumpGroup → Option (Nat × Nat)
  | .hbmPc d pc _ => some (d.val, pc.val)
  | .hbmLane d pc => some (d.val, pc.val)
  | _ => none

/-- A bump that fails training: its group's spare, or the group is exhausted (01 R16). -/
def bumpAtTraining (s : State) (g : BumpGroup) : State :=
  if !groupLive s g || s.flash.bumpDead.contains g then s
  else if s.flash.bumpSpared.contains g || spareless g then
    match groupPc g with
    | some (d, pc) => trainRetire { s with flash := { s.flash with bumpDead := s.flash.bumpDead ++ [g] } } d pc
    | none => exhausted s g
  else sticky { s with flash := { s.flash with bumpSpared := s.flash.bumpSpared ++ [g] } } 0xA010 1 (groupDie g)

/-- A pseudo-channel of a group that the repair map has exhausted, and that no retirement covers yet: it fails training
where the stack starts zeroed, and triggers its retirement where it keeps its contents (01 R19; 07 R172, R176). -/
def deadPcAtStart (zero : Bool) (d : Nat) (s : State) (g : BumpGroup) : State :=
  match groupPc g with
  | some (n, pc) =>
    if n ≠ d ∨ (s.hbm d).retired.getLsbD pc = true then s else if zero then trainRetire s d pc else triggerRetire s d pc
  | none => s

/-- The size of the remote-cache region: TIER_RC_MIB, at least what the lent lines take (07 R159). -/
def rcSize (s : State) (d : Nat) : Nat := max (dnum s 0x5000 (d + 1)) (((s.memRec d).lent.length + 8191) / 8192 * 4)

/-- The ports of a tier that the repair map leaves in service. -/
def mapPorts (s : State) (d : Nat) : BitVec 8 :=
  s.flash.bumpDead.foldl (fun m g => match groupPort g with
    | some (n, p) => if n = d then m &&& ~~~(BitVec.ofNat 8 (2 ^ p)) else m
    | none => m) 0xFF

/-- A tier at a start of its die: the map compacted to the quadrants left, its contents zeroed, its region set (07
R156, R158; 01 R19, R20). -/
def startTier (s : State) (d : Nat) : State :=
  let ports := mapPorts s d
  let t := s.tier d
  let quads := t.quads.filter (fun q => !t.out.getLsbD q && (ports.getLsbD (2 * q) || ports.getLsbD (2 * q + 1)))
  let s1 := s.setTier d { t with quads := quads, out := 0, ports := ports, rcMib := rcSize s d, rcHeld := none, rowFinds := [] }
  zeroTier { s1 with rcs := s1.rcs.filter (fun e => e.1 != d) } d

/-- A die-to-die lane that fails training: onto the lowest-numbered free spare, or lost (08 R187 to R190). -/
def laneAtTraining (s : State) (x : Die9 × Die9 × Lam) : State :=
  let (a, b, l) := (x.1.val, x.2.1.val, x.2.2)
  let p := s.pair a b
  let keep := fun (lanes : PairLanes) => saveLanes (s.setPair a b { p with lanes := lanes }) a b
  match (List.range 16).find? (fun i => p.lanes.map.getD i none == some l) with
  | none =>
    if p.lanes.spares.contains l then keep { p.lanes with spares := p.lanes.spares.filter (· != l) } else s
  | some lane =>
    match p.lanes.spares.map (·.val) with
    | [] => dropLane s a b lane
    | k :: rest =>
      let spare := lamField (rest.foldl min k)
      sticky (keep { p.lanes with map := p.lanes.map.set lane (some spare), spares := p.lanes.spares.filter (· != spare) })
        0xA080 1 b

/-- The λ of an ordered pair that the repair map has exhausted (01 R19, Table 1.2). -/
def deadLams (s : State) (a b : Nat) : List Lam :=
  s.flash.bumpDead.filterMap (fun g => match g with
    | .d2dLane d peer l tx => if (if tx then (d.val, peer.val) else (peer.val, d.val)) = (a, b) then some l else none
    | .hubLane peer l tx => if (if tx then (8, peer.val) else (peer.val, 8)) = (a, b) then some l else none
    | _ => none)

/-- A pair of units in service starts with the lanes, spares and relay of flash, and without the λ whose groups are
exhausted (08 R190; 01 R19); whole messages that its receiver has accepted stay (06 R153). -/
def startPair (s : State) (a b : Nat) : State :=
  let lanes := (mget none s.flash.laneMaps (9 * a + b)).getD PairLanes.init
  let t := s.setPair a b { Pair.init with
    lanes := lanes, degraded := lanes.map.contains none, rx := (s.pair a b).rx.map keepWhole }
  (deadLams s a b).foldl (fun u l => laneAtTraining u (dieField a, dieField b, l)) t

/-- Pairs of units in service, and of one unit. -/
def livePairs (s : State) : List (Nat × Nat) :=
  ((List.range 81).map (fun k => (k / 9, k % 9))).filter (fun e => e.1 != e.2 && unitUp s e.1 && unitUp s e.2)
def startPairs (s : State) (pick : Nat × Nat → Bool) : State :=
  relaysAgain (((livePairs s).filter pick).foldl (fun t e => startPair t e.1 e.2) s)

/-- A laser source does not lock at its bank's start: its λ has no source, and the die-to-die lanes on it move (17 Table
17.1; 10 R260). -/
def sourceAtStart (s : State) (k : Nat) : State :=
  if bankOn s (k / 18) then pairsVacate (laserLost s (k / 18) (k % 18)) (k / 18) (k % 18) else s

/-- An array fails its test at power-up: retired at once (02 R54). -/
def arrayAtStart (s : State) (a : Nat) : State :=
  if s.flash.retired.getLsbD a then s
  else sticky { s with flash := { s.flash with retired := s.flash.retired ||| BitVec.ofNat 64 (2 ^ a) } } 0xA020 1 a

/-- Stack controllers start (07 R178): the memory record is read from the valid copy with the higher sequence number; with
neither valid the repairs and retirements of these stacks are forgotten, which is written as a change of the record
(DEDUCED, log 78).  Answers whether a copy was valid. -/
def recordStart (s : State) (env : BootEnv) (ds : List Nat) : Bool × State :=
  let f := s.flash
  let g := { f with memA := { f.memA with valid := f.memA.valid && env.memAOk },
                    memB := { f.memB with valid := f.memB.valid && env.memBOk } }
  let load := fun (recs : SMap MemRec) => ds.foldl (fun m d => mput MemRec.init m d (mget MemRec.init recs d)) g.mem
  match memNewest g with
  | some c => (true, { s with flash := { g with mem := load c.recs } })
  | none => (false, sticky (memRecordWrite { s with flash := { g with mem := load [] } }) 0xA070 8 0)

/-- One compute stack comes up: its tier, its memory, its bumps, its pseudo-channels. -/
def startStack (env : BootEnv) (zero : Bool) (s : State) (d : Nat) : State :=
  if !s.stackMask.getLsbD d then s
  else
    let s1 := startTier s d
    let s2 := if zero then startHbm s1 d else hbmRestart s1 d
    let s3 := s2.flash.bumpDead.foldl (deadPcAtStart zero d) s2
    let s4 := (env.bumps.filter (fun g => groupStack g == some d)).foldl bumpAtTraining s3
    if !s4.stackMask.getLsbD d then s4
    else (env.pcFail.filter (fun x => x.1.val == d)).foldl (fun t x => trainRetire t d x.2.val) s4

/-! ### The sequence of Table 17.1 -/

/-- A domain that does not come up, on its half or on its own. -/
def stackBad (env : BootEnv) (d : Nat) : Bool :=
  env.noGood.getLsbD d || env.noGood.getLsbD (8 + d) || env.noGood.getLsbD (16 + d) || env.slow.getLsbD d

/-- A bank that has been put into a bay brings its identity memory: commissioning powers and source states (10 R258). -/
def seatBank (s : State) (bay : Nat) (m : Option BankMem) : State :=
  match m with
  | none => s
  | some m =>
    { s with flash := { s.flash with
      bankPower := (List.range 18).foldl (fun l k => mput 24000 l (18 * bay + k) (m.power.getD k 24000)) s.flash.bankPower,
      bankSource := (List.range 18).foldl (fun l k => mput 0 l (18 * bay + k) (m.source.getD k 0)) s.flash.bankSource } }

/-- From the start of the firmware on: `zero` where HBM is zeroed, `powerUp` at power-on, `recovered` after a recovery
load. -/
def startFirmware (s : State) (env : BootEnv) (zero powerUp recovered : Bool) : State :=
  let b := s.boot
  let img := s.flash.image
  let s0 := { s with boot := { b with
    rom := 1, reason := if recovered then b.reason else 0, firmware := true, complete := false, identityOk := env.identityOk,
    fwVersion := headVersion img, imageSvn := headSvn img, keyIndex := headKey img, imageDigest := sha512 (img.take 192) } }
  let s1 := loadDict s0 env powerUp
  let inUse := if s1.flash.copyA.valid && (!s1.flash.copyB.valid || decide (s1.flash.copyB.seq ≤ s1.flash.copyA.seq))
    then s1.flash.copyA else s1.flash.copyB
  let s2 := measure s1 5 (imageBytes inUse)
  let s3 := if env.identityOk then s2 else sticky s2 0xA030 12 0
  let s4 := if recovered then sticky s3 0xA030 9 0 else s3
  let s5 := if s.boot.watchdog then sticky s4 0xA030 10 0 else s4
  let s6 := if !env.viaLost.getLsbD 0 then s5 else sticky (dset s5 0x3014 9 1) 0xA010 5 8
  let s7 := if env.duplicate then sticky { s6 with mgmt := { s6.mgmt with dadBad := true } } 0xA030 6 0 else s6
  let s7 := (List.range 2).foldl (fun t k => seatBank t k (env.banks.getD k none)) s7
  let bankBad := fun (k : Nat) => !env.bankOk.getLsbD k || env.noGood.getLsbD (28 + k) || !s7.stage.latch.getLsbD k
  let on : BitVec 30 := ((List.range 8).filter (fun n => !s7.stackMask.getLsbD n)).foldl
    (fun v n => v &&& ~~~(BitVec.ofNat 30 (2 ^ n * 0x10101))) (BitVec.allOnes 30)   -- a retired stack stays off (16 R355)
  let (kept, s8) := recordStart { s7 with
    stage := { s7.stage with domains := on }, dieReset := 0,
    banks := [0, 1].foldl (fun m k =>
      mput Bank.init m k { Bank.init with source :=
        (s7.flash.bankSource.filter (fun e => e.1 / 18 == k)).map (fun e => (e.1 % 18, e.2)) }) [] } env (onesBelow 8 s7.stackMask.toNat)
  let s9 := if env.noGood.getLsbD 27 then domainFault 27 s8 else s8
  let s10 := if bankBad 1 then domainFault 29 s9 else s9
  if bankBad 0 then domainFault 28 s10
  else
    let ctlDead := fun (n : Nat) => s10.flash.bumpDead.any (fun g =>
      (groupStack g == some n) && (match g with
        | .baseCtl d k t => s10.flash.bumpDead.contains (.baseCtl d k (!t))
        | .tierCtl d k t => s10.flash.bumpDead.contains (.tierCtl d k (!t))
        | _ => false))
    let s11 := ((List.range 8).filter (fun n => stackBad env n || ctlDead n)).foldl retireStack s10
    let s12 := startPairs s11 (fun _ => true)
    let s13 := (List.range 8).foldl (startStack env (zero || !kept)) s12
    let s14 := (env.bumps.filter (fun g => groupStack g == none)).foldl bumpAtTraining s13
    let s15 := (onesBelow 64 env.katFail.toNat).foldl arrayAtStart s14
    let s16 := measureDigest { s15 with free := s15.free + 1 } 6 (Config.mapMeasure s15.free)
    let s17 := env.laneFail.foldl laneAtTraining s16
    let s18 := (onesBelow 36 env.sourceFail.toNat).foldl sourceAtStart s17
    steppedSurvey (relaysAgain s18) env.vmin env.slackPs env.ratios

/-- The boot ROM from a hub that leaves reset: both clock vias and the PLL, the hub's control twins, the fuses, the image
(01 R19, R26; 17 R367, R370, R374). -/
def startRom (s : State) (env : BootEnv) (zero powerUp : Bool) : State :=
  let s1 := { s with
    stage := { s.stage with straps := env.straps, moduleFailed := false, domains := s.stage.domains ||| 0x7000000 },
    tempo := .init }
  if env.noGood.getLsbD 26 || env.noGood.getLsbD 24 || env.noGood.getLsbD 25 then
    let t := allOff s1
    { t with stage := { t.stage with moduleFailed := true } }
  else if env.viaLost = 3 ∨ env.pllLocked = false then
    { s1 with
      stage := { s1.stage with moduleFailed := true }, boot := { s1.boot with dead := true, rom := 5 },
      dict := mput dictAbsent s1.dict (dkey 0xA010 7) 1 }
  else if s1.flash.bumpDead.any (fun g => match g with
      | .hubCtl k t => s1.flash.bumpDead.contains (.hubCtl k (!t))
      | _ => false) then
    { s1 with stage := { s1.stage with moduleFailed := true }, boot := { s1.boot with dead := true, rom := 5 } }
  else
    let s2 := measureDigest s1 1 Config.romMeasure
    let fu := s2.fuses
    let s3 := measure s2 3 (natLe 8 fu.mask.toNat ++ natLe 2 fu.svn.toNat ++ natLe 1 fu.keyRevoked.toNat ++ fu.serial)
    let (w, s4) := freeWord s3
    let why : Byte :=
      if !env.flashOk then 7
      else if s4.flash.imageTorn then (if w.getLsbD 0 then 7 else 4)
      else imageReason s4.fuses s4.flash.image s4.flash.factory
    if why ≠ 0 then { s4 with boot := { s4.boot with rom := 2, reason := why } }
    else startFirmware (measure s4 2 (s4.flash.image.take 192)) env zero powerUp false

/-- INPUT_GOOD (17 R367): power-on. -/
def inputGood (env : BootEnv) (s : State) : State :=
  if s.stage.inputGood then s
  else
    let t := allOff s
    startRom { t with stage := { t.stage with inputGood := true, resetCause := 0 } } env true true

def execInputGood (env : BootEnv) (s : State) : Host.Outcome State Fault Refusal := .next (inputGood env s)

/-- A module reset: every domain but the input stage is cycled (17 Table 17.7). -/
def moduleReset (env : BootEnv) (s : State) : State :=
  let t := allOff s
  startRom { t with stage := { t.stage with resetCause := 1 } } env true false

/-- MODULE_RESET_N. -/
def execModuleResetN (env : BootEnv) (s : State) : Host.Outcome State Fault Refusal :=
  .next (if s.stage.inputGood then moduleReset env s else s)

/-- A hub reset (17 Table 17.7, R376): HBM keeps its contents in self-refresh, flash and retired stacks stay; a hosted
ghost is lost (13 Table 13.4). -/
def hubReset (env : BootEnv) (cause : Byte) (s : State) : State :=
  let kept := fun (k : Nat) => decide (k / 2 ^ 48 < 8) && decide (0x1000000000 ≤ k % 2 ^ 48)
  let t := interruptFlash s
  let hosted := (List.range 8).filter (fun n => mget 0 t.res.hostState n != 0)
  let base := { State.reset with
    pending := t.pending, free := t.free, out := t.out, fuses := t.fuses, flash := t.flash, stackMask := t.stackMask,
    stage := { t.stage with resetCause := cause },
    mem := t.mem.filter (fun c => kept c.1), poison := t.poison.filter (fun w => kept (8 * w)),
    tiers := t.tiers, hbms := t.hbms, boot := { Boot.init with watchdog := cause == 3 } }
  let u := startRom base env false false
  if u.boot.loaded then
    hosted.foldl (fun v n => sticky { v with res := { v.res with hostState := mput 0 v.res.hostState n 6 } } 0xA0C0 6 n) u
  else u

/-- A reset that RESET_CMD has asked for is taken, 10 ms after its reply (17 R376). -/
def asked (s : State) (r : ResetAsk) : Bool :=
  hubOn s && s.boot.reset == some r && decide (10000000 ≤ since s s.boot.resetAt)

/-- RESET_CMD_MODULE. -/
def execResetCmdModule (env : BootEnv) (s : State) : Host.Outcome State Fault Refusal :=
  .next (if asked s .module then moduleReset env s else s)

/-- RESET_CMD_HUB. -/
def execResetCmdHub (env : BootEnv) (s : State) : Host.Outcome State Fault Refusal :=
  .next (if asked s .hub then hubReset env 2 s else s)

/-- WATCHDOG_EXPIRY (17 R376). -/
def execWatchdogExpiry (env : BootEnv) (s : State) : Host.Outcome State Fault Refusal :=
  .next (if loaded s then hubReset env 3 s else s)

/-- A compute die is reset (17 R377): the module loses it, and it starts again with its HBM kept. -/
def dieReset (env : BootEnv) (kept : Bool) (s : State) (d : Nat) : State :=
  if !s.stackMask.getLsbD d then s
  else
    let bit : Byte := BitVec.ofNat 8 (2 ^ d)
    let s1 := dieGone { s with dieReset := s.dieReset ||| bit } d false
    let s2 := { s1 with dieReset := s1.dieReset &&& ~~~bit }
    if stackBad env d then retireStack s2 d
    else
      let s3 := startPairs s2 (fun e => e.1 == d || e.2 == d)
      let s4 := ghostAllDirty (startStack env (!kept) s3 d) d
      (env.laneFail.filter (fun x => x.1.val == d || x.2.1.val == d)).foldl laneAtTraining s4

/-- RESET_CMD_DIE: the dies of the mask. -/
def resetCmdDie (env : BootEnv) (s : State) : State :=
  match s.boot.reset with
  | some (.die m) =>
    if !asked s (.die m) then s
    else
      let s1 := { s with boot := { s.boot with reset := none }, stage := { s.stage with resetCause := 5 } }
      let ds := onesBelow 8 (m &&& s1.stackMask).toNat
      let (kept, s2) := recordStart s1 env ds
      if ds.isEmpty then s1 else ds.foldl (dieReset env kept) s2
  | _ => s

def execResetCmdDie (env : BootEnv) (s : State) : Host.Outcome State Fault Refusal := .next (resetCmdDie env s)

/-- BOOT_COMPLETE (17 R368). -/
def bootComplete (s : State) : State :=
  if !loaded s || s.boot.complete then s
  else
    let s1 := measure s 7 (natLe 1 (dcell s 0x7004 1))
    let s2 := measure s1 8 []
    let s3 := { s2 with boot := { s2.boot with complete := true } }
    if dcell s3 0x7004 1 = 1 then sticky s3 0xA030 11 0 else s3

def execBootComplete (s : State) : Host.Outcome State Fault Refusal := .next (bootComplete s)

/-! ### Firmware update and attestation (17 R373, R375) -/

/-- FW_UPDATE_CMD is written: 1 checks the staged image and starts the flash write, 2 advances FUSED_SVN. -/
def fwUpdate (s : State) (v : Nat) : State :=
  let b := s.boot
  if v = 1 then
    let img := stagedImage s
    let why := imageReason s.fuses img false
    if why = 0 then { s with boot := { b with update := 2, pendingImg := img } }
    else sticky { s with boot := { b with update := 4, reason := why } } 0xA030 9 0
  else { s with fuses := { s.fuses with svn := if s.fuses.svn < b.imageSvn then b.imageSvn else s.fuses.svn } }

/-- FW_UPDATE_FLASH_DONE (17 R375): the slot holds the new image, measured as TYPE 10, or no bootable one. -/
def fwUpdateFlashDone (ok : Bool) (s : State) : State :=
  let b := s.boot
  if !loaded s || b.update != 2 then s
  else if ok then
    measure { s with flash := { s.flash with image := b.pendingImg, imageTorn := false, factory := false },
                     boot := { b with update := 3, pendingImg := [] } } 10 (b.pendingImg.take 192)
  else
    sticky { s with flash := { s.flash with imageTorn := true, factory := false },
                    boot := { b with update := 4, reason := 7, pendingImg := [] } } 0xA030 9 0

def execFwUpdateFlashDone (readBackOk : Bool) (s : State) : Host.Outcome State Fault Refusal :=
  .next (fwUpdateFlashDone readBackOk s)

/-- The quote of a challenge (17 Table 17.5); zeros where the identity key could not be derived (R372). -/
def attest (s : State) (challenge : List Byte) : State :=
  let b := s.boot
  let head := (challenge ++ List.replicate 32 0).take 32 ++ (s.fuses.serial ++ List.replicate 16 0).take 16
    ++ natLe 4 b.fwVersion.toNat ++ natLe 2 s.fuses.romVersion.toNat ++ natLe 2 b.imageSvn.toNat ++ natLe 8 (now s).toNat
    ++ b.running ++ natLe 2 b.log.length ++ List.replicate 62 0
  let sig := (Config.identitySign (sha512 head) ++ List.replicate 64 0).take 64
  { s with boot := { b with quote := if b.identityOk then head ++ sig else List.replicate 256 0 } }

end Sys2Proof.Machine
end

