-- ==== Sys2Proof/Machine/Issue.lean ====
section
/-!
DEFINITION. Issue (06 R133 to R136, R139, R145, R149, R153), the step phase (05 R113 to R115), the block table and its
replay (05 R120 to R122), fencing of descriptors (13 R296, R297), and the passing of arrays between queues.
-/

namespace Sys2Proof.Machine

/-! ### The step phase (05 R113 to R115, R119) -/

/-- The frozen ranges that the entries name. -/
def frozenRanges (s : State) : List (Nat × Nat) :=
  (List.range (dnum s 0x2050 1)).map (fun k => (dcell s 0x2051 (k + 1), dcell s 0x2052 (k + 1)))

/-- The words of a queue's head. -/
def headWords (x : Queue) : List Word := (x.fetched.head?.map Fetched.words).getD []

/-- The phase changes: waits of the new phase hold it open, recordings still live end on leaving phase 1, and entering
it brings the frozen ranges into force. -/
def setPhase (s : State) (p : BitVec 2) : State :=
  let s1 := bump { s with train := { phase := p, held := 0, ranges := if p = 1 then frozenRanges s else s.train.ranges } }
    0x8050 1 1
  let opened := fun (_ : Nat) (x : Queue) =>
    { x with waitOpen := x.waitAt.isSome && trainPhase (headWords x) == p.toNat }
  let s2 := { s1 with queues := mmap Queue.init opened s1.queues }
  if s.train.phase = 1 then
    { s2 with cps := mmap Cp.init (fun _ (c : Cp) => { c with blocks := c.blocks.filter (fun b => !b.2.live) }) s2.cps }
  else s2

/-- May a descriptor of a phase start (05 R113)?  One whose wait holds the phase open may. -/
def phaseMay (s : State) (p : Nat) (waitOpen : Bool) : Bool :=
  p == 0 || waitOpen || (s.train.held == 0 && (s.train.phase == 0 || s.train.phase.toNat == p))

/-- A descriptor of the other phase at the point of issue is held, and closes the current phase. -/
def phaseHold (s : State) (p : Nat) : State :=
  if s.train.held = 0 then { s with train := { s.train with held := BitVec.ofNat 2 p } } else s

/-- A start sets the phase of an idle device. -/
def phaseStart (s : State) (p : Nat) : State := if p ≠ 0 ∧ s.train.phase = 0 then setPhase s (BitVec.ofNat 2 p) else s

/-- Work of the current phase that has not ended: descriptors that have started, waits that hold it open, and, in phase
2, update requests. -/
def phaseBusy (s : State) : Bool :=
  let p := s.train.phase.toNat
  s.queues.any (fun e => e.2.waitOpen || e.2.jobs.any (fun j => trainPhase j.words == p))
    || (p == 2 && s.lanes.any (fun e => !e.2.isEmpty))

/-- PHASE_SWITCH (05 R114): once the current phase's work has ended, the device takes the held phase. -/
def execPhaseSwitch (s : State) : Host.Outcome State Fault Refusal :=
  .next (if s.train.held = 0 ∨ phaseBusy s then s else setPhase s s.train.held)

/-! ### Fencing (13 R296, R297) -/

/-- Does the fence table hold a coordinate that a test picks? -/
def anyFenced (s : State) (pick : BitVec 18 → Bool) : Bool :=
  (List.range 64).any (fun k =>
    let v := dcell s 0xC001 (k + 1)
    v.testBit 31 && pick (BitVec.ofNat 18 v))

/-- Is an address of a COPY on another device of the board, and is it that device's coordinate? -/
def offDevice (s : State) (w : Word) : Bool := !isHost w && addrSlot (wbits w 55 0) != ownSlot s
def slotIs (s : State) (w : Word) (c : BitVec 18) : Bool :=
  offDevice s w && slotCoord ((ownCoord s).getD 0) (addrSlot (wbits w 55 0)) == c

/-- Is a coordinate a member of a collective, or of a multicast put (11 R264; 09 R222)? -/
def collHas (me : BitVec 18) (l : List Word) (c : BitVec 18) : Bool :=
  (List.range 3).all (fun a =>
    if ((axisSeq l).getD []).contains a then (collMembers l a).getLsbD (coordOn c a) else coordOn c a == coordOn me a)
def mcastHas (me : BitVec 18) (l : List Word) (c : BitVec 18) : Bool :=
  let w := dword l 6
  let axis := wbits w 61 60
  let span := wbits w 58 54 + 1
  (List.range 3).all (fun a =>
    if a = axis then
      if w.getLsbD 59 then decide (coordOn c a < coordOn me a) && decide (coordOn me a ≤ coordOn c a + span)
      else decide (coordOn me a < coordOn c a) && decide (coordOn c a ≤ coordOn me a + span)
    else coordOn c a == coordOn me a)

/-- A remote entry of a BELL descriptor. -/
def bellRemote (l : List Word) (e : Nat) : Bool := (dword l (5 + 3 * e)).getLsbD 63 && (dword l (5 + 3 * e)).getLsbD 62

/-- Does a descriptor start fabric traffic? -/
def startsTraffic (s : State) (l : List Word) : Bool :=
  let t := descType l
  t == 7 || t == 8 || t == 16 || t == 17 || (strikeEn l && strikeRemote l) || (t == 5 && (List.range 3).any (bellRemote l))
    || (t == 6 && (offDevice s (copySrc l) || offDevice s (copyDst l)))

/-- Does it name an endpoint? -/
def namesPoint (s : State) (l : List Word) (c : BitVec 18) : Bool :=
  let t := descType l
  let me := (ownCoord s).getD 0
  (strikeEn l && strikeRemote l && strikeEndpoint l == c)
    || (t == 5 && (List.range 3).any (fun e => bellRemote l e && BitVec.ofNat 18 (wbits (dword l (5 + 3 * e)) 47 30) == c))
    || (t == 6 && (slotIs s (copySrc l) c || slotIs s (copyDst l) c))
    || (t == 7 && (if (dword l 6).getLsbD 62 then mcastHas me l c else BitVec.ofNat 18 (wbits (dword l 6) 47 30) == c))
    || (t == 8 && BitVec.ofNat 18 (wbits (dword l 6) 47 30) == c)
    || (t == 16 && collHas me l c)

/-- A descriptor completes at issue with FENCED. -/
def isShut (s : State) (l : List Word) : Bool :=
  (s.res.fenced && startsTraffic s l) || anyFenced s (namesPoint s l)

/-! ### Waits (06 R149, R153; 08 R186) -/

/-- Watches of a die that count in its allowance at a bell's die. -/
def watchesHeld (s : State) (d bd : Nat) : Nat :=
  let fly := fun (src dst : Nat) (typ : Byte) => (s.flight.filter (fun f => f.src == src && f.dst == dst && f.msg.typ == typ)).length
  (s.watches.filter (fun w => w.1 == bd && w.2.die == d)).length + fly d bd 0x23 + fly bd d 0x24 - fly d bd 0x25

/-- A watch on a bell of another die, under a fresh tag and within the allowance: the tag, where it is sent. -/
def sendWatch (s : State) (d : Nat) (l : List Word) : Option (BitVec 16) × State :=
  let b := waitBell l
  let bd := bellDie b
  if watchesHeld s d bd < 64 then
    let (tag, t) := freshTag s
    (some tag, sendMsg t d bd (dataMsg 0x23 d bd tag (b % 512) (natLe 8 (waitValue l).toNat) []))
  else (none, s)

/-- What the wait of a descriptor answers. -/
inductive WaitRes where
  | met
  | wait (s : State)
  | lost

/-- The head's wait asks for its watch; without an allowance it asks again later. -/
def headWatch (s : State) (q : Nat) (l : List Word) : State :=
  let (tag, t) := sendWatch s (queueDie q) l
  t.setQueue q { t.queue q with watch := tag }

/-- The wait of the head: it starts on arrival, fails on the bell of a die out of service, and stands as a watch on the
bell of another die. -/
def waitStep (s : State) (q : Nat) (l : List Word) : WaitRes :=
  let x := s.queue q
  let d := queueDie q
  let b := waitBell l
  let bd := bellDie b
  if !waitEn l then .met
  else if x.waitAt.isNone then
    if !dieUp s bd then .lost
    else
      let p := trainPhase l
      let t := s.setQueue q
        { x with waitAt := some (clock s), watch := none, notified := false,
                 waitOpen := p != 0 && s.train.held == 0 && s.train.phase.toNat == p }
      if bd = d then (if waitValue l ≤ s.bell b then .met else .wait t) else .wait (headWatch t q l)
  else if bd = d then (if waitValue l ≤ s.bell b then .met else .wait s)
  else if x.notified then .met
  else if x.watch.isSome then .wait s
  else .wait (headWatch s q l)

/-- A reissued descriptor's wait asks for its watch. -/
def replayWatch (s : State) (p : Nat) (r : BitVec 32) (l : List Word) : State :=
  let (tag, t) := sendWatch s (queueDie p) l
  t.modJob p r (fun j => { j with watch := tag })

/-- The wait of the descriptor that a REPLAY reissues next: as the head's, with the REPLAY's job in the queue's place (05
R121; 06 R149). -/
def replayWait (s : State) (p : Nat) (j : Job) (l : List Word) : WaitRes :=
  let d := queueDie p
  let b := waitBell l
  let bd := bellDie b
  if !waitEn l || (bd == d && decide (waitValue l ≤ s.bell b)) then .met
  else if j.waitFrom.isNone then
    if !dieUp s bd then .lost
    else
      let t := s.modJob p j.idx (fun k => { k with waitFrom := some (clock s), watch := none, notified := false })
      .wait (if bd = d then t else replayWatch t p j.idx l)
  else if bd = d then .wait s
  else if j.notified then .met
  else if j.watch.isSome then .wait s
  else .wait (replayWatch s p j.idx l)

/-- A REPLAY gives up the wait of its next descriptor: a watch held on another die is released by UNWATCH (06 R149). -/
def dropReplayWait (s : State) (p : Nat) (j : Job) (l : List Word) : State :=
  let t := match j.watch with
    | some tag => sendUnwatch s (queueDie p) (waitBell l) tag
    | none => s
  t.modJob p j.idx (fun k => { k with waitFrom := none, watch := none, notified := false })

/-! ### The resource of a descriptor (06 R139 rule 6) -/

/-- What an issue takes: nothing to keep, or an array with a context and a base. -/
inductive Taken where
  | no
  | yes
  | array (a c base : Nat)

/-- A VE descriptor of the die has issued and not ended (06 R135). -/
def veTaken (s : State) (d : Nat) : Bool :=
  (veRun s d false).active
    || (List.range 64).any (fun k => (s.queue (64 * d + k)).jobs.any (fun j => descType j.words == 2 && j.phase != .finished))

/-- Collectives issued on the hub's queues and not ended. -/
def collsTaken (s : State) : Nat :=
  ((List.range 16).map (fun k =>
    ((s.queue (512 + k)).jobs.filter (fun j => descType j.words == 16 && j.phase != .finished)).length)).foldl (· + ·) 0

/-- A frozen descriptor of ROLE 2 completes on issue without its work (05 R118). -/
def isFrozen (l : List Word) : Bool := trainRole l == 2 && trainFrozen l

/-- Can its resource take a descriptor?  A frozen one needs none, nor does a MATRIX without a usable array. -/
def takes (s : State) (q : Nat) (l : List Word) : Taken :=
  let d := queueDie q
  if isFrozen l then .yes
  else match descType l with
  | 1 =>
    if usableArrays s d l == 0 then .yes
    else match pickArray s q l false with
      | some (a, c, b) => .array a c b
      | none => .no
  | 2 => if veTaken s d then .no else .yes
  | 16 => if 8 ≤ collsTaken s then .no else .yes
  | 6 => if (isHost (copySrc l) || isHost (copyDst l)) && !hostReady s then .no else .yes
  | _ => .yes

/-! ### The block table (05 R120) -/

/-- An entry that holds no record. -/
def Block.init : Block := { queue := 0, first := 0, last := 0, record := false, live := false, outcomes := [] }

/-- An issued descriptor of phase 1 starts or ends the recording of its block; one on another queue than the block's
leaves the entry without a record, since the block then spans two queues. -/
def noteBlock (s : State) (q : Nat) (i : BitVec 32) (l : List Word) : State :=
  let d := queueDie q
  if trainPhase l ≠ 1 ∨ d = 8 then s
  else
    let c := s.cp d
    let b := trainBlock l
    let started :=
      if trainStart l then
        mput Block.init c.blocks b { queue := q, first := i, last := i, record := false, live := true, outcomes := [] }
      else
        let e := mget Block.init c.blocks b
        if e.live ∧ e.queue ≠ q then mput Block.init c.blocks b .init else c.blocks
    let ended :=
      if trainEnd l then
        let e := mget Block.init started b
        if !e.live then started
        else if e.queue = q ∧ (i - e.first).toNat < 4096 then
          mput Block.init started b { e with last := i, record := true, live := false }
        else mput Block.init started b .init
      else started
    s.setCp d { c with blocks := ended }

/-! ### Issue (06 R139) -/

/-- The completion ring has room for INFLIGHT + 1 records. -/
def cqRoom (x : Queue) : Bool := decide ((x.cqTail - x.cqHead).toNat + x.jobs.length + 1 ≤ 256 * 2 ^ x.cqLog2.toNat)

/-- An earlier branch of the queue is unresolved. -/
def branchOpen (x : Queue) : Bool := x.jobs.any (fun j => descType j.words == 4 && j.phase != .finished)

/-- The words of a reissued descriptor: PHASE 2, and no part of a block (05 R121; log 27). -/
def reissued (l : List Word) : List Word := l.set 0 ((dword l 0 &&& ~~~0x3B) ||| 2)

/-- The refusal of a descriptor before it issues, with its status, DETAIL and sticky bit (06 R131, R396). -/
def refusal (s : State) (q : Nat) (f : Fetched) (l : List Word) : Option (Byte × Nat × Nat × Nat) :=
  match f.poison with
  | some k => some (0x1D, k, 0xA060, 6)
  | none =>
    match issueFault s q l with
    | some e => some e
    | none => if descType l = 1 ∧ tileRefused l then some (0x11, 0, 0xA020, 5) else none

/-- A refused descriptor completes and stops its queue; the hub has no bit among those of 0xA050. -/
def refuseWith (s : State) (q : Nat) (f : Fetched) (r : Byte × Nat × Nat × Nat) : State :=
  let (status, detail, idx, sub) := r
  let t := refuse s q f status detail
  if idx = 0xA050 ∧ queueDie q = 8 then t else sticky t idx sub (queueDie q)

/-- The earlier descriptors of a queue have completed; a reissued one does not count its own REPLAY (log 27). -/
def fenceClear (x : Queue) (q : Nat) (rep : Option (Nat × BitVec 32)) : Bool :=
  x.jobs.all (fun j => rep == some (q, j.idx) && descType j.words == 3)

/-- A descriptor issues: its place in the queue, its phase, its block, and the array it takes.  A frozen one ends at once
with FROZEN_SKIP and counts in 0x8050:03 (05 R118). -/
def commit (s : State) (q : Nat) (f : Fetched) (l : List Word) (rep : Option (Nat × Job)) (t : Taken) : State :=
  let j := { newJob f.idx l with
             replay := rep.map (fun r => (r.1, r.2.idx)),
             outcomes := (match rep with
               | some r => if descType l = 4 then r.2.outcomes else []
               | none => []) }
  let x := s.queue q
  let s1 := match rep with
    | none =>
      s.setQueue q
        { x with jobs := x.jobs ++ [j], head := f.idx + 1, fetched := x.fetched.drop 1, waitAt := none, watch := none,
                 notified := false, waitOpen := false }
    | some _ => s.setQueue q { x with jobs := x.jobs ++ [j], fetched := x.fetched.filter (fun g => g.idx != f.idx) }
  let s2 := phaseStart s1 (trainPhase l)
  let s3 := if rep.isNone then noteBlock s2 q f.idx l else s2
  let s4 := match t with
    | .array a c b => openTile (if (s3.arr a).owner = some q then s3 else takeArray s3 a q) q f.idx l a c b
    | _ => s3
  if isFrozen l then finish (bump s4 0x8050 3 1) q f.idx 0x02 0
  else if descType l = 5 ∧ (nextEntry l 0).isNone then finishOk s4 q f.idx
  else s4

/-- The rules that follow a satisfied wait: FENCE, the phase, fencing and the resource (06 R139; 05 R113; 13 R296). -/
def issueReady (s : State) (q : Nat) (f : Fetched) (l : List Word) (rep : Option (Nat × Job)) (acq : Bool) : State :=
  let x := s.queue q
  let p := trainPhase l
  let mine := rep.map (fun r => (r.1, r.2.idx))
  if descFence l && !fenceClear x q mine then s
  else if !phaseMay s p (rep.isNone && x.waitOpen) then phaseHold s p
  else if isShut s l then refuse s q f 0x1C (dcell s 0xC000 1)
  else match takes s q l with
    | .no => s
    | t => commit (if acq then acquire s (queueDie q) else s) q f l rep t

/-- May a queue issue now: its descriptors in order, and not while a REPLAY on it, or of it, reissues (log 27)? -/
def mayIssue (s : State) (q : Nat) : Bool :=
  let x := s.queue q
  hubOn s && unitUp s (queueDie q) && x.state == .running && cqRoom x && !branchOpen x
    && x.jobs.all (fun j => descType j.words != 3 || j.phase == .finished
      || (j.phase == .working && decide (2 ^ 32 ≤ j.nextOff)))
    && (queueDie q == 8 || (replayOn s q).isNone)

/-- DESCRIPTOR_ISSUE (06 R139): the head of a running queue issues, is refused, or waits. -/
def descriptorIssue (q : QId) (s : State) : State :=
  let x := s.queue q.val
  match x.fetched with
  | [] => s
  | f :: _ =>
    if !mayIssue s q.val || f.idx != x.head then s
    else match refusal s q.val f f.words with
      | some r => refuseWith s q.val f r
      | none =>
        match waitStep s q.val f.words with
        | .wait t => t
        | .lost => refuse s q.val f 0x1B (bellDie (waitBell f.words))
        | .met =>
          issueReady s q.val f f.words none (waitEn f.words && bellDie (waitBell f.words) == queueDie q.val)

def execDescriptorIssue (q : QId) (s : State) : Host.Outcome State Fault Refusal := .next (descriptorIssue q s)

/-! ### Replay (05 R121, R122) -/

/-- A REPLAY has dealt with its next descriptor: the count of its job goes on. -/
def replayAdvance (s : State) (p : Nat) (r : BitVec 32) (child : Bool) (popped : Bool) : State :=
  s.modJob p r (fun j =>
    { j with nextOff := j.nextOff + 1, need := j.need + (if child then 1 else 0), waitFrom := none,
             watch := none, notified := false,
             outcomes := if popped then j.outcomes.drop 1 else j.outcomes })

/-- A REPLAY that has reissued its last descriptor awaits those that have not completed. -/
def replayClose (s : State) (p : Nat) (r : BitVec 32) : State :=
  oneDone (s.modJob p r (fun j => { j with nextOff := 2 ^ 32 })) p r

/-- One recorded descriptor on its queue: skipped with its strike where it wrote the block's output, refused, waited for,
or issued again, once no descriptor of its ring index is in flight there (log 77). -/
def replayOne (s : State) (p : Nat) (j : Job) (q : Nat) (f : Fetched) : State :=
  let x := s.queue q
  let l := reissued f.words
  if !cqRoom x || branchOpen x || (s.job q f.idx).isSome then s
  else if f.poison.isNone && trainOut f.words then
    let t := headerStrike s q f.words
    let y := t.queue q
    replayAdvance (t.setQueue q { y with fetched := y.fetched.filter (fun g => g.idx != f.idx) }) p j.idx false false
  else match refusal s q f l with
    | some r => refuseWith s q f r
    | none =>
      match replayWait s p j l with
      | .wait t => t
      | .lost => refuse s q f 0x1B (bellDie (waitBell l))
      | .met =>
        let t := issueReady s q f l (some (p, j)) (waitEn l && bellDie (waitBell l) == queueDie q)
        if (t.job q f.idx).isSome then
          replayAdvance t p j.idx true (descType l == 4 && wbits (dword l 5) 55 53 != 7)
        else t

/-- A REPLAY ends where its queue, or the block's, has stopped: nothing more is reissued, and once what was has completed
it completes with a status that the spec does not give (free, log 3). -/
def replayCut (s : State) (p : Nat) (j : Job) (l : List Word) : State :=
  let s1 := dropReplayWait s p j l
  if j.need = 1 then
    let (w, t) := freeWord s1
    finish t p j.idx (BitVec.ofNat 8 w.toNat) (w.toNat / 256)
  else s1

/-- REPLAY (05 R121): without a record it ends with NO_RECORD; else each command reissues the next recorded descriptor
on the block's queue, in order. -/
def replayStep (q : QId) (i : BitVec 32) (s : State) : State :=
  match s.job q.val i with
  | none => s
  | some j =>
    let d := queueDie q.val
    let e := mget Block.init (s.cp d).blocks (trainBlock j.words)
    if descType j.words ≠ 3 ∨ j.phase = .finished ∨ !dieUp s d then s
    else if j.phase = .ready then
      if !e.record then finish (sticky s 0xA050 2 d) q.val i 0x17 (trainBlock j.words)
      else if (replayOn s e.queue).isSome then s
      else
        s.modJob q.val i (fun k => { k with phase := .working, need := 1, nextOff := 0, outcomes := e.outcomes })
    else if 2 ^ 32 ≤ j.nextOff then s
    else
      let x := s.queue e.queue
      let own := s.queue q.val
      if own.state = .error ∨ x.state = .error ∨ x.state = .disabled ∨ own.state = .disabled then
        let i := e.first + BitVec.ofNat 32 j.nextOff
        replayCut s q.val j (((replayFetch s e.queue i).1.map Fetched.words).getD [])
      else if !e.record ∨ (e.last - e.first).toNat < j.nextOff then replayClose s q.val i
      else if x.state ≠ .running ∧ !(e.queue = q.val ∧ x.state = .parking) then s
      else
        match replayFetch s e.queue (e.first + BitVec.ofNat 32 j.nextOff) with
        | (none, t) => t
        | (some f, t) => replayOne t q.val j e.queue f

def execReplay (q : QId) (i : Reading (BitVec 32)) (s : State) : Host.Outcome State Fault Refusal :=
  .next (replayStep q i.arg (readErrs s i.errs))

/-! ### Timeouts of waits (06 R149) -/

/-- BELL_WAIT_TIMEOUT (06 R149): a wait not satisfied in its time completes with BELL_TIMEOUT; the wait of a reissued
descriptor ends in the same way. -/
def bellWaitTimeout (q : QId) (s : State) : State :=
  let expired := fun (l : List Word) (t : Word) => decide (waitTicks s l ≤ (clock s - t).toNat)
  let x := s.queue q.val
  let head : Bool := match x.fetched, x.waitAt with
    | f :: _, some t =>
      x.state == .running && f.idx == x.head && waitEn f.words && !waitMet s q.val f.words && expired f.words t
    | _, _ => false
  if head then
    match x.fetched with
    | f :: _ => sticky (refuse (dropWait s q.val) q.val f 0x1A (waitBell f.words)) 0xA060 2 (queueDie q.val)
    | [] => s
  else match (if queueDie q.val = 8 then none else replayOn s q.val) with
    | none => s
    | some (p, j) =>
      match j.waitFrom, replayNext s q.val with
      | some t, some k =>
        match replayFetch s q.val k with
        | (some f, _) =>
          let b := waitBell f.words
          let met := if bellDie b = queueDie q.val then decide (waitValue f.words ≤ s.bell b) else j.notified
          if waitEn f.words && !met && expired f.words t then
            sticky (refuse (dropReplayWait s p j f.words) q.val f 0x1A b) 0xA060 2 (queueDie q.val)
          else s
        | _ => s
      | _, _ => s

def execBellWaitTimeout (q : QId) (s : State) : Host.Outcome State Fault Refusal := .next (bellWaitTimeout q s)

/-! ### Arrays between queues (06 R145) -/

/-- The words of a queue's next descriptor, with its fetched record: of a replay that reissues on it, or its head. -/
def nextDesc (s : State) (q : Nat) : Option (Fetched × List Word × Bool) :=
  match replayOn s q with
  | some _ =>
    match replayNext s q with
    | some k => (replayFetch s q k).1.map (fun f => (f, reissued f.words, true))
    | none => none
  | none =>
    match (s.queue q).fetched with
    | f :: _ => if f.idx = (s.queue q).head ∧ mayIssue s q then some (f, f.words, false) else none
    | [] => none

/-- The wait of the descriptor that a REPLAY reissues next on a queue is satisfied. -/
def replayMet (s : State) (q : Nat) (l : List Word) : Bool :=
  if bellDie (waitBell l) = queueDie q then decide (waitValue l ≤ s.bell (waitBell l))
  else (replayOn s q).any (fun r => r.2.notified)

/-- A queue has a MATRIX descriptor ready to issue, of those that may use an array where one is named: rules 1 to 5 and 7
hold of it (06 R139, R145). -/
def matrixReady (s : State) (q : Nat) (a : Option Nat) : Bool :=
  match nextDesc s q with
  | none => false
  | some (f, l, rep) =>
    let x := s.queue q
    descType l == 1 && !isFrozen l && (refusal s q f l).isNone && cqRoom x && !branchOpen x
      && a.all (fun k => (usableArrays s (queueDie q) l).testBit (k % 8))
      && (!waitEn l || (if rep then replayMet s q l else waitMet s q l))
      && (!descFence l || x.jobs.all (fun j => descType j.words == 3)) && phaseMay s (trainPhase l) x.waitOpen

/-- A queue waits for an array: its ready MATRIX may use it and can take none. -/
def waitsFor (s : State) (q a : Nat) : Bool :=
  matrixReady s q (some a) && match nextDesc s q with
    | some (_, l, _) =>
      (List.range 8).all (fun t => !(usableArrays s (queueDie q) l).testBit t || !mayUse s q (8 * queueDie q + t))
    | none => false

/-- The waiting queue with the lowest local index above the owner's, wrapping. -/
def nextOwner (s : State) (a o : Nat) : Option Nat :=
  ((List.range 63).map (fun k => 64 * (a / 8) + (o % 64 + 1 + k) % 64)).find? (fun w => waitsFor s w a)

/-- ARRAY_HANDOVER (06 R145): at a tile boundary, once the owner has no MATRIX ready or its quantum has passed, the array
passes to the next waiting queue or becomes free. -/
def arrayHandover (a : ArrId) (s : State) : State :=
  let x := s.arr a.val
  match x.owner with
  | none => s
  | some o =>
    if x.kat || !dieUp s (a.val / 8) || !atBoundary s a.val || (matrixReady s o none && !x.closing) then s
    else match nextOwner s a.val o with
      | some w => takeArray s a.val w
      | none => s.setArr a.val { x with owner := none, closing := false }

def execArrayHandover (a : ArrId) (s : State) : Host.Outcome State Fault Refusal := .next (arrayHandover a s)

/-- ARRAY_QUANTUM_EXPIRY (06 R145): ARRAY_QUANTUM beat boundaries have passed since the owner took the array and another
queue waits for it, so no further tile of the owner is issued to it. -/
def arrayQuantumExpiry (a : ArrId) (s : State) : State :=
  let x := s.arr a.val
  match x.owner with
  | none => s
  | some o =>
    if dieUp s (a.val / 8) && decide (dnum s 0x2060 1 ≤ (clock s - x.since).toNat / 2 ^ 20) && (nextOwner s a.val o).isSome then
      s.setArr a.val { x with closing := true }
    else s

def execArrayQuantumExpiry (a : ArrId) (s : State) : Host.Outcome State Fault Refusal := .next (arrayQuantumExpiry a s)

end Sys2Proof.Machine
end

