-- ==== Sys2Proof/Machine/Approx.lean ====
section
/-!
DEFINITION. The function approximations of the vector engine (04 R93, Table 4.5; 03 R68): each result is the exact value
rounded once.  The value is enclosed between two multiples of 2^-256 and both ends are rounded; where they would round
apart, which an enclosure this narrow leaves to no operand known, the result is a free value (log 3).
-/

namespace Sys2Proof.Machine

/-- Fraction bits of the fixed-point enclosures. -/
def fixP : Nat := 256

/-- Units by which every enclosure is widened, above the error of the sums below. -/
def fixErr : Nat := 2 ^ 20

/-- The sum of a series in fixed point: `step n t` is the term after t. -/
def series (step : Nat → Int → Int) : Nat → Nat → Int → Int → Int
  | 0, _, _, acc => acc
  | k + 1, n, t, acc => series step k (n + 1) (step n t) (acc + t)

/-- 2·atanh(1/3) = ln 2, in units of 2^-256. -/
def ln2Fix : Int :=
  2 * (List.range 90).foldl (fun acc j => acc + (2 : Int) ^ fixP / ((2 * j + 1 : Nat) * 3 ^ (2 * j + 1) : Nat)) 0

/-- atan(1/n) in units of 2^-256. -/
def atanInv (n : Nat) : Int :=
  (List.range 64).foldl (fun acc j =>
    let t : Int := (2 : Int) ^ fixP / ((2 * j + 1 : Nat) * n ^ (2 * j + 1) : Nat)
    if j % 2 = 0 then acc + t else acc - t) 0

/-- π in units of 2^-256 (Machin's formula). -/
def piFix : Int := 16 * atanInv 5 - 4 * atanInv 239

/-- 2/√π in units of 2^-256. -/
def twoRootPi : Int := (2 : Int) ^ (2 * fixP + 1) / isqrt (piFix.toNat * 2 ^ fixP)

/-- e^r for |r| below 1, in units of 2^-256. -/
def expSmall (r : Int) : Int := series (fun n t => t * r / 2 ^ fixP / (n + 1 : Nat)) 80 0 (2 ^ fixP) 0

/-- e^x of a fixed-point x as a fixed-point number and a power of two. -/
def expFix (x : Int) : Int × Int :=
  let k := x / ln2Fix
  (expSmall (x - k * ln2Fix), k)

/-- ln f for f in [1, 2), in units of 2^-256. -/
def lnSmall (f : Int) : Int :=
  let one : Int := 2 ^ fixP
  let z := (f - one) * one / (f + one)
  let z2 := z * z / one
  2 * ((List.range 90).foldl (fun (acc : Int × Int) j => (acc.1 + acc.2 / (2 * j + 1 : Nat), acc.2 * z2 / one)) (0, z)).1

/-- Σ (−1)^n x^(2n+1) / (n!·(2n+1)) for 0 ≤ x < 4, in units of 2^-256. -/
def erfSum (x : Int) : Int :=
  let one : Int := 2 ^ fixP
  let x2 := x * x / one
  ((List.range 150).foldl (fun (acc : Int × Int) n =>
    (acc.1 + acc.2 / (2 * n + 1 : Nat), -(acc.2 * x2 / one / (n + 1 : Nat)))) (0, x)).1

/-- A value strictly between lo·2^e and hi·2^e, rounded once: free where the ends round apart. -/
def roundBetween (fn : Nat) (x : Nat) (a : Arith) (neg : Bool) (lo hi : Int) (e : Int) : Res :=
  let r := roundF 9 a neg lo.toNat e true
  if roundF 9 a neg (hi - 1).toNat e true = r then r else (Config.approx fn x % 2 ^ 32, flInexact)

/-- A value within the error of a fixed-point number. -/
def roundFix (fn x : Nat) (a : Arith) (v : Int) (k : Int) : Res :=
  let m : Int := v.natAbs
  roundBetween fn x a (v < 0) (m - fixErr) (m + fixErr) (k - fixP)

/-- A value just below 1, and one below every subnormal. -/
def belowOne (a : Arith) (neg : Bool) : Res := roundF 9 a neg (2 ^ 100 - 1) (-100) true
def nearZero (a : Arith) : Res := roundF 9 a false 1 (-200) true

/-- m·2^e in units of 2^-256, for the exponents of binary32. -/
def toFix (neg : Bool) (m : Nat) (e : Int) : Int := scaledTo neg m e (-(fixP : Int))

/-- Is the magnitude m·2^e at least 2^k? -/
def atLeast (m : Nat) (e k : Int) : Bool := m != 0 && decide (k ≤ Nat.log2 m + e)

/-- The place of a function in `Config.approx`. -/
inductive Fn where
  | exp
  | exp2
  | log
  | log2
  | rcp
  | rsq
  | tanh
  | sigm
  | erf
  deriving DecidableEq, Repr

def one32 : Nat := 0x3F800000

/-- e^x and 2^x of a finite value. -/
def expOf (fn : Fn) (x : Nat) (a : Arith) (neg : Bool) (m : Nat) (e : Int) : Res :=
  let two := fn == .exp2
  if m = 0 then (one32, 0)
  else if two && (toIntegral 1 neg m e).2 = false then
    if atLeast m e 9 then (if neg then nearZero a else overflowF 9 a false)
    else roundF 9 a false 1 (toIntegral 1 neg m e).1 false
  else if atLeast m e 8 then (if neg then nearZero a else overflowF 9 a false)
  else
    let v := toFix neg m e
    let (y, k) :=
      if two then
        let k := v / 2 ^ fixP
        (expSmall ((v - k * 2 ^ fixP) * ln2Fix / 2 ^ fixP), k)
      else expFix v
    roundFix 0 x a y k

/-- ln x and log2 x of a positive finite value. -/
def logOf (fn : Fn) (x : Nat) (a : Arith) (m : Nat) (e : Int) : Res :=
  let t := Nat.log2 m
  let k : Int := t + e
  if m = 2 ^ t ∧ (fn = .log2 ∨ k = 0) then intF 9 a k
  else
    let f : Int := m * 2 ^ (fixP - t)
    let ln := k * ln2Fix + lnSmall f
    roundFix 2 x a (if fn = .log2 then ln * 2 ^ fixP / ln2Fix else ln) 0

/-- 1/√x of a positive finite value, exactly rounded. -/
def rsqOf (a : Arith) (m : Nat) (e : Int) : Res :=
  let m' := if e % 2 = 0 then m else 2 * m
  let e' := if e % 2 = 0 then e else e - 1
  let n := 2 ^ (2 * fixP)
  let r := isqrt (n / m')
  roundF 9 a false r (-(fixP : Int) - e' / 2) (r * r * m' != n)

/-- tanh of a finite value. -/
def tanhOf (x : Nat) (a : Arith) (neg : Bool) (m : Nat) (e : Int) : Res :=
  if m = 0 then (x, 0)
  else if atLeast m e 6 then belowOne a neg
  else if !atLeast m e (-50) then
    roundBetween 6 x a neg (m * 2 ^ 200 - m * 2 ^ 104) (m * 2 ^ 200) (e - 200)
  else
    let (y, k) := expFix (2 * toFix false m e)
    let big := y * 2 ^ k.toNat + 2 ^ fixP
    let v := 2 ^ fixP - 2 ^ (2 * fixP + 1) / big
    roundFix 6 x a (if neg then -v else v) 0

/-- 1/(1 + e^−x) of a finite value. -/
def sigmOf (x : Nat) (a : Arith) (neg : Bool) (m : Nat) (e : Int) : Res :=
  if m = 0 then (0x3F000000, 0)
  else if atLeast m e 7 then (if neg then nearZero a else belowOne a false)
  else
    let (y, k) := expFix (toFix false m e)
    let big := y * 2 ^ k.toNat + 2 ^ fixP
    let low := 2 ^ (3 * fixP) / big
    if neg then roundFix 7 x a low (-(fixP : Int))
    else roundFix 7 x a (2 ^ fixP - low / 2 ^ fixP) 0

/-- erf of a finite value. -/
def erfOf (x : Nat) (a : Arith) (neg : Bool) (m : Nat) (e : Int) : Res :=
  if m = 0 then (x, 0)
  else if atLeast m e 2 then belowOne a neg
  else if !atLeast m e (-100) then
    let v := m * twoRootPi
    roundBetween 8 x a neg (v - m * fixErr) (v + m * fixErr) (e - fixP)
  else
    let v := erfSum (toFix false m e) * twoRootPi / 2 ^ fixP
    roundFix 8 x a (if neg then -v else v) 0

/-- A function approximation of a binary32 pattern (04 Table 4.5). -/
def approxF (fn : Fn) (a : Arith) (x : Nat) : Res :=
  let v := decodeF f32 x
  match nanOf 9 a [v] with
  | some r => r
  | none =>
    match fn, v with
    | .rcp, _ => divF 9 a one32 x
    | .exp, .inf neg => (if neg then 0 else 0x7F800000, 0)
    | .exp2, .inf neg => (if neg then 0 else 0x7F800000, 0)
    | .log, .inf neg => if neg then invalidF 9 a else (0x7F800000, 0)
    | .log2, .inf neg => if neg then invalidF 9 a else (0x7F800000, 0)
    | .rsq, .inf neg => if neg then invalidF 9 a else (0, 0)
    | .tanh, .inf neg => (if neg then 0xBF800000 else one32, 0)
    | .sigm, .inf neg => (if neg then 0 else one32, 0)
    | .erf, .inf neg => (if neg then 0xBF800000 else one32, 0)
    | .exp, .fin neg m e => expOf .exp x a neg m e
    | .exp2, .fin neg m e => expOf .exp2 x a neg m e
    | .log, .fin neg m e =>
      if m = 0 then (0xFF800000, flDivZero) else if neg then invalidF 9 a else logOf .log x a m e
    | .log2, .fin neg m e =>
      if m = 0 then (0xFF800000, flDivZero) else if neg then invalidF 9 a else logOf .log2 x a m e
    | .rsq, .fin neg m e =>
      if m = 0 then (f32.signed neg 0x7F800000, flDivZero) else if neg then invalidF 9 a else rsqOf a m e
    | .tanh, .fin neg m e => tanhOf x a neg m e
    | .sigm, .fin neg m e => sigmOf x a neg m e
    | .erf, .fin neg m e => erfOf x a neg m e
    | _, .nan _ _ _ => (0x7FC00000, 0)

end Sys2Proof.Machine
end

