-- ==== Sys2Proof/Machine/Ve.lean ====
section
/-!
DEFINITION. The vector engine's machinery (04 R86 to R95): the instruction word and its refusals, registers with their
written flags and poison, loads and stores of the two contexts, and the one way an instruction issues and a program ends.
-/

namespace Sys2Proof.Machine

/-! ### The instruction word (04 Table 4.2) -/

/-- The fields of a vector-engine instruction word. -/
structure VeWord where
  op    : BitVec 8
  vd    : BitVec 6
  va    : BitVec 6
  vb    : BitVec 6
  vc    : BitVec 6
  mask  : BitVec 3
  dfmt  : BitVec 4
  sfmt  : BitVec 4
  arith : BitVec 5
  imm   : BitVec 16
  deriving DecidableEq, Repr

/-- The fields of a word. -/
def veDecode (w : Word) : VeWord :=
  { op := w.extractLsb' 56 8, vd := w.extractLsb' 50 6, va := w.extractLsb' 44 6, vb := w.extractLsb' 38 6,
    vc := w.extractLsb' 32 6, mask := w.extractLsb' 29 3, dfmt := w.extractLsb' 25 4, sfmt := w.extractLsb' 21 4,
    arith := w.extractLsb' 16 5, imm := w.extractLsb' 0 16 }

/-- The word of fields. -/
def veEncode (v : VeWord) : Word :=
  v.op ++ v.vd ++ v.va ++ v.vb ++ v.vc ++ v.mask ++ v.dfmt ++ v.sfmt ++ v.arith ++ v.imm

/-- The formats and the arithmetic control field of a word. -/
def VeWord.sf (v : VeWord) : Nat := v.sfmt.toNat
def VeWord.df (v : VeWord) : Nat := v.dfmt.toNat
def VeWord.ctl (v : VeWord) : Arith := arithOf v.arith.toNat

/-- The scalar that a scalar result names, in bits 54:50, and the mask register of a compare, in bits 52:50. -/
def VeWord.sd (v : VeWord) : Nat := v.vd.toNat % 32
def VeWord.md (v : VeWord) : Nat := v.vd.toNat % 8

/-- Is an opcode defined (04 Table 4.3)? -/
def opDefined (op : Nat) : Bool :=
  op ≤ 0x07 || (0x10 ≤ op && op ≤ 0x2C) || (0x30 ≤ op && op ≤ 0x32) || (0x38 ≤ op && op ≤ 0x3A)
    || (0x40 ≤ op && op ≤ 0x48) || (0x50 ≤ op && op ≤ 0x55) || (0x60 ≤ op && op ≤ 0x62) || (0x70 ≤ op && op ≤ 0x78)
    || (0x80 ≤ op && op ≤ 0x83)

/-- Does Table 4.4 allow the format pair of a word for its opcode?  It lists no formats for SMOV, SADD, SMUL and SGET, which
take any equal pair here, nor for ICMP, which takes those of integer arithmetic (DESIGN CHOICE, log 24); an opcode without
elements needs an equal pair alone (04, below Table 4.2). -/
def formatsLegal (v : VeWord) : Bool :=
  let op := v.op.toNat
  let s := v.sf
  let d := v.df
  let same := s == d
  let f3 := same && (7 ≤ d && d ≤ 9)
  let ints := same && (d == 10 || d == 5 || d == 6)
  if op = 0 ∨ (0x74 ≤ op ∧ op ≤ 0x78) ∨ 0x80 ≤ op then same
  else if op ≤ 6 then s < 12 && d < 12
  else if op = 7 ∨ op = 0x32 ∨ (0x60 ≤ op ∧ op ≤ 0x73) then same && d < 12
  else if op = 0x13 ∨ op = 0x14 ∨ op = 0x15 ∨ (0x1D ≤ op ∧ op ≤ 0x1F) ∨ (0x40 ≤ op ∧ op ≤ 0x48) then same && d == 9
  else if op ≤ 0x1C ∨ op = 0x30 then f3
  else if op = 0x20 ∨ op = 0x21 then ints || (same && d == 11)
  else if op ≤ 0x2C ∨ op = 0x31 then ints
  else if op = 0x38 then s < 12 && d < 12
  else if op = 0x39 then s ≤ 5 && (d ≤ 4 || (7 ≤ d && d ≤ 9))
  else if op = 0x3A then s == 9 && d ≤ 5
  else if op = 0x50 ∨ op = 0x53 then same && (9 ≤ d && d ≤ 11)
  else f3 || (same && d == 10)

/-- A register that a word names: a vector read or written in a format, a scalar, or a mask. -/
inductive VeUse where
  | vec (n f : Nat)
  | scal (n : Nat)
  | mask (n : Nat)
  deriving DecidableEq, Repr

/-- Has an opcode elements that MASK governs? -/
def opMasked (op : Nat) : Bool := 1 ≤ op && op ≤ 0x62

/-- The registers that a word writes, and those that it reads (04 Tables 4.2, 4.3; the fields a mnemonic uses are DEDUCED,
log 24). -/
def vePorts (v : VeWord) : List VeUse × List VeUse :=
  let op := v.op.toNat
  let d := VeUse.vec v.vd.toNat v.df
  let a := VeUse.vec v.va.toNat v.sf
  let b := VeUse.vec v.vb.toNat v.sf
  let c := VeUse.vec v.vc.toNat v.sf
  let addr := VeUse.scal v.vc.toNat
  let next := VeUse.scal (v.vc.toNat + 1)
  let onto := 0x53 ≤ op ∧ op ≤ 0x55
  if op = 0 ∨ op = 0x74 ∨ op = 0x75 ∨ op = 0x78 then ([], [])
  else if op = 1 ∨ op = 3 ∨ op = 7 then ([d], [addr])
  else if op = 2 ∨ op = 4 then ([], [.vec v.va.toNat v.df, addr])
  else if op = 5 then ([d], [addr, next])
  else if op = 6 then ([], [.vec v.va.toNat v.df, addr, next])
  else if op = 0x13 ∨ op = 0x23 then ([d], [a, b, c])
  else if op = 0x15 ∨ op = 0x1A ∨ op = 0x1B ∨ op = 0x1E ∨ op = 0x1F ∨ (0x25 ≤ op ∧ op ≤ 0x27) ∨ op = 0x38
      ∨ (0x40 ≤ op ∧ op ≤ 0x48) ∨ op = 0x61 ∨ op = 0x62 then ([d], [a])
  else if op = 0x1D then ([d], [a, .vec v.vb.toNat 10])
  else if op = 0x39 then ([d], [a, .vec v.vb.toNat 5])
  else if op = 0x3A then ([d, .vec (v.vd.toNat + 1) 5], [a])
  else if op = 0x30 ∨ op = 0x31 then ([.mask (v.vd.toNat % 8)], [a, b])
  else if op ≤ 0x32 ∨ op = 0x60 then ([d], [a, b])
  else if op ≤ 0x55 ∨ op = 0x73 then ([.scal v.sd], a :: (if onto then [.scal v.sd] else []))
  else if op = 0x70 then ([.scal v.sd], [.scal v.va.toNat])
  else if op ≤ 0x72 then ([.scal v.sd], [.scal v.va.toNat, .scal v.vb.toNat])
  else if op = 0x76 ∨ op = 0x77 then ([], [.scal v.va.toNat])
  else ([], [addr])

/-- The registers that a word reads, its mask with them. -/
def veReads (v : VeWord) : List VeUse :=
  (if opMasked v.op.toNat then [.mask v.mask.toNat] else []) ++ (vePorts v).2

/-- The registers that a word names. -/
def veUses (v : VeWord) : List VeUse := (vePorts v).1 ++ veReads v

/-- Does a context own a register, and is an FX64 pair even (04 Table 4.1, R88)?  M0 is both contexts'. -/
def useLegal (upd : Bool) : VeUse → Bool
  | .vec n f => (if upd then 48 ≤ n && n < 64 else n < 48) && (f != 11 || n % 2 == 0)
  | .scal n => if upd then 24 ≤ n && n < 32 else n < 24
  | .mask n => n == 0 || !upd

/-- Is a word refused in a context (04 R88, R395)?  The fixed kernels' own rules are R96's. -/
def veRefused (upd : Bool) (v : VeWord) : Bool :=
  !opDefined v.op.toNat || !formatsLegal v || !(veUses v).all (useLegal upd)

/-! ### Registers (04 R86, R87, R91) -/

/-- A register of zeros. -/
def VReg.zero : VReg := { elems := List.replicate 2048 0, poison := false }

/-- A vector register as a program sees it: +0 in every element until the program writes it. -/
def VeRun.reg (r : VeRun) (n : Nat) : VReg := if mget false r.vw n then mget VReg.zero r.v n else VReg.zero

/-- The elements of a register in a format: an FX64 vector takes an even and odd pair, the low words first. -/
def VeRun.elems (r : VeRun) (f n : Nat) : List Nat :=
  if f = 11 then
    List.zipWith (fun (a b : BitVec 32) => a.toNat + 2 ^ 32 * b.toNat) (r.reg n).elems (r.reg (n + 1)).elems
  else (r.reg n).elems.map (fun e => e.toNat % 2 ^ fmtBits f)

/-- Is a vector operand poisoned? -/
def VeRun.vecPoison (r : VeRun) (f n : Nat) : Bool := (r.reg n).poison || (f == 11 && (r.reg (n + 1)).poison)

/-- A scalar register: 0 until the program writes it. -/
def VeRun.scalar (r : VeRun) (n : Nat) : Word := if mget false r.sw n then mget 0 r.s n else 0
def VeRun.scalarPoison (r : VeRun) (n : Nat) : Bool := mget false r.sw n && mget false r.sp n

/-- Is an element unmasked?  M0 is all ones; an unwritten mask register is all zeros. -/
def VeRun.on (r : VeRun) (k i : Nat) : Bool := k == 0 || (mget false r.mw k && (mget [] r.m k).contains i)
def VeRun.maskPoison (r : VeRun) (k : Nat) : Bool := k != 0 && mget false r.mw k && mget false r.mp k

/-- Write one register; elements given as none keep their value.  Its poison is the result's, and, where elements are
kept, also its own. -/
def VeRun.putReg (r : VeRun) (n : Nat) (vals : List (Option (BitVec 32))) (poison : Bool) : VeRun :=
  let old := r.reg n
  let new := List.zipWith (fun (o : BitVec 32) (v : Option (BitVec 32)) => v.getD o) old.elems vals
  let p := poison || (old.poison && vals.any Option.isNone)
  { r with v := mput VReg.zero r.v n { elems := new, poison := p }, vw := mput false r.vw n true,
           poison := r.poison || p }

/-- Write the elements of a register in a format; the bits above a narrow element are zero (04 R86). -/
def VeRun.putElems (r : VeRun) (f n : Nat) (vals : List (Option Nat)) (poison : Bool) : VeRun :=
  if f = 11 then
    (r.putReg n (vals.map (Option.map (BitVec.ofNat 32))) poison).putReg (n + 1)
      (vals.map (Option.map (fun x => BitVec.ofNat 32 (x / 2 ^ 32)))) poison
  else r.putReg n (vals.map (Option.map (fun x => BitVec.ofNat 32 (x % 2 ^ fmtBits f)))) poison

/-- Write a scalar register. -/
def VeRun.putScalar (r : VeRun) (n : Nat) (v : Word) (poison : Bool) : VeRun :=
  { r with s := mput 0 r.s n v, sw := mput false r.sw n true, sp := mput false r.sp n poison,
           poison := r.poison || poison }

/-- Write the elements of a mask register; M0 is not writable.  A compare that names it runs and writes nothing: the spec
gives no refusal for it (DESIGN CHOICE, log 24). -/
def VeRun.putMask (r : VeRun) (n : Nat) (vals : List (Option Bool)) (poison : Bool) : VeRun :=
  if n = 0 then { r with poison := r.poison || poison }
  else
    let old := fun (i : Nat) => r.on n i
    let set := (List.range 2048).filter (fun i => (vals.getD i none).getD (old i))
    { r with m := mput [] r.m n set, mw := mput false r.mw n true,
             mp := mput false r.mp n (poison || (r.maskPoison n && vals.any Option.isNone)),
             poison := r.poison || poison }

/-- Raise flags of the program (03 R65). -/
def VeRun.raise (r : VeRun) (f : Nat) : VeRun := { r with fp := r.fp ||| BitVec.ofNat 8 f }

/-! ### Words of the register file in error (04 R91) -/

/-- Is a register that a word in error stands in among those that an instruction reads, and has the program written it? -/
def VeRun.readsReg (r : VeRun) (v : VeWord) (e : RegErr) : Bool :=
  let n := e.reg.val
  (veReads v).any (fun u => match u with
    | .vec m f => e.kind.val == 0 && (m == n || (f == 11 && m + 1 == n)) && mget false r.vw n
    | .scal m => e.kind.val == 1 && m == n && mget false r.sw n
    | .mask m => e.kind.val == 2 && m != 0 && m == n && mget false r.mw n)

/-- A register becomes poisoned, and the program with it. -/
def VeRun.spoilReg (r : VeRun) (e : RegErr) : VeRun :=
  let n := e.reg.val
  let p := { r with poison := true }
  match e.kind.val with
  | 0 => { p with v := mput VReg.zero r.v n { mget VReg.zero r.v n with poison := true } }
  | 1 => { p with sp := mput false r.sp n true }
  | _ => { p with mp := mput false r.mp n true }

/-- The words of the register file that an instruction's reads find in error, in order: a corrected one counts in 0x8043,
an uncorrectable one poisons its register and sets the die's bit in 0xA040:01. -/
def regErrs (d : Nat) (v : VeWord) (errs : List RegErr) (s : State) (r : VeRun) : State × VeRun :=
  errs.foldl (fun (acc : State × VeRun) e =>
    if !r.readsReg v e then acc
    else if e.corrected then (bump acc.1 0x8043 (d + 1) 1, acc.2)
    else (sticky acc.1 0xA040 1 d, acc.2.spoilReg e)) (s, r)

/-! ### Memory of a context (04 R90, R91; 08 R191, R193) -/

/-- What a load finds. -/
inductive Got where
  | bytes (data : List Byte) (poison : Bool)
  | wait (s : State)
  | bad (a : Nat) (p : Place)

/-- The pieces of a range within lines: line, place in it and length. -/
def linePieces (off len : Nat) : List (Nat × Nat × Nat) :=
  (linesOf off len).map (fun line =>
    let lo := max off (line * 512)
    let hi := min (off + len) (line * 512 + 512)
    (line, lo - line * 512, hi - lo))

/-- The fault of a range of the device's own slot. -/
def slotFault (s : State) (a len : Nat) : Option (Nat × Place) :=
  if addrSlot a ≠ ownSlot s then none
  else (faultIn s (addrDie a) (addrOff a) len).map (fun f => (a - addrOff a + f.1, f.2))

/-- Read a range for a context: of the die's own stores at once; of another die or device by the lines of the region,
asking for those that are missing. -/
def veGet (s : State) (d : Nat) (upd : Bool) (a len : Nat) : Got :=
  match slotFault s a len with
  | some f => .bad f.1 f.2
  | none =>
    if isOwnAddr s d a then .bytes (readBytes s (addrKey a) len) (rangePoison s (addrKey a) len)
    else
      let got := (linePieces (addrOff a) len).map (fun p =>
        (p, lineBytes s d upd (addrSlot a) (addrDie a) p.1 p.2.1 p.2.2))
      if got.all (fun g => g.2.isSome) then
        .bytes (got.flatMap (fun g => (g.2.map Prod.fst).getD []))
          (got.any (fun g => match g.2 with
            | some x => (wordsOf g.1.2.1 g.1.2.2).any x.2.getLsbD
            | none => false))
      else
        .wait ((got.filter (fun g => g.2.isNone)).foldl
          (fun t g => askLine t d upd (addrSlot a) (addrDie a) g.1.1) s)

/-- Read several ranges, in order. -/
def veGetAll (s : State) (d : Nat) (upd : Bool) : List (Nat × Nat) → Got
  | [] => .bytes [] false
  | r :: rest =>
    match veGet s d upd r.1 r.2 with
    | .bad a p => .bad a p
    | .wait t => match veGetAll t d upd rest with
      | .bad a p => .bad a p
      | .wait u => .wait u
      | .bytes _ _ => .wait t
    | .bytes x p => match veGetAll s d upd rest with
      | .bytes y q => .bytes (x ++ y) (p || q)
      | other => other

/-- A read that has all its bytes: words of the die's own stores that carry poison count (07 R170), and each line of
another die that the region held is a hit and becomes the latest used (08 R192, 0x8081). -/
def veTouch (s0 : State) (d : Nat) (upd : Bool) (ranges : List (Nat × Nat)) : State :=
  let s := (ranges.filter (fun g => isOwnAddr s0 d g.1)).foldl (fun t g => carryRead t (addrKey g.1) g.2) s0
  let ps := (ranges.filter (fun g => !isOwnAddr s d g.1)).flatMap
    (fun g => (linePieces (addrOff g.1) g.2).map (fun p => (addrSlot g.1, addrDie g.1, p)))
  ps.foldl (fun t x =>
    match rcFind t d x.1 x.2.1 x.2.2.1 with
    | some l =>
      let m := maskBits x.2.2.2.1 x.2.2.2.2
      if l.valid &&& m = m ∧ !(veRun t d upd).lines.any (fun k => k.isAt x.1 x.2.1 x.2.2.1) then
        rcPut (bump t 0x8081 (d + 1) 1) d l
      else t
    | none => t) s

/-- Store bytes for a context, under its writer tag and for its descriptor; `pz` marks words by their place a / 8.  The
range has been judged by `slotFault`. -/
def vePutMarked (s : State) (d tag : Nat) (job : Nat × BitVec 32) (a : Nat) (data : List Byte) (pz : Nat → Bool) : State :=
  if isOwnAddr s d a then storeBytes s (addrKey a) data (fun w => pz (a / 8 + w))
  else
    (linePieces (addrOff a) data.length).foldl
      (fun t p =>
        let at_ := p.1 * 512 + p.2.1 - addrOff a
        storeLine t d tag job (addrSlot a) (addrDie a) p.1 p.2.1 (slice data at_ p.2.2) (fun w => pz ((a + at_) / 8 + w))) s

/-- The same with one mark for every word. -/
def vePut (s : State) (d tag : Nat) (job : Nat × BitVec 32) (a : Nat) (data : List Byte) (pz : Bool) : State :=
  vePutMarked s d tag job a data (fun _ => pz)

/-- Runs of bytes to be written: their offsets and their bytes. -/
def byteRuns : Nat → List (Option Byte) → Option (Nat × List Byte) → List (Nat × List Byte)
  | _, [], cur => (cur.map (fun c => (c.1, c.2.reverse))).toList
  | k, some b :: r, cur => byteRuns (k + 1) r (some (match cur with | some c => (c.1, b :: c.2) | none => (k, [b])))
  | k, none :: r, cur => (cur.map (fun c => (c.1, c.2.reverse))).toList ++ byteRuns (k + 1) r none

/-- The elements of a packed format that lie in byte k. -/
def elemsIn (f k : Nat) : List Nat :=
  let b := fmtBits f
  (List.range ((8 * k + 7) / b + 1 - 8 * k / b)).map (· + 8 * k / b)

/-- The bytes of a piece that a masked store writes: none where every element in the byte is masked, merged with its
present contents where some are (04 R90). -/
def storeMerge (f : Nat) (vals : List Nat) (on : Nat → Bool) (old : List Byte) : List (Option Byte) :=
  let b := fmtBits f
  let new := packElems f vals
  (List.range new.length).map (fun k =>
    let es := elemsIn f k
    if es.all on then some (byteAt new k)
    else if es.any on then
      let bits := (List.range 8).foldl (fun m t =>
        let src := if on ((8 * k + t) / b) then byteAt new k else byteAt old k
        if src.getLsbD t then m + 2 ^ t else m) 0
      some (BitVec.ofNat 8 bits)
    else none)

/-- The bytes of a piece that a masked store merges. -/
def mergedBytes (f n : Nat) (on : Nat → Bool) : List Nat :=
  (List.range (fmtBytes f n)).filter (fun k => (elemsIn f k).any on && !(elemsIn f k).all on)

/-- The words, by their place, that hold a merged byte of a piece and carry poison: they keep their marking (04 R90). -/
def keptMarks (s : State) (d : Nat) (upd : Bool) (a : Nat) (merged : List Nat) : List Nat :=
  (merged.filter (fun k => match veGet s d upd (a + k) 1 with
    | .bytes _ p => p
    | _ => false)).map (fun k => (a + k) / 8)

/-! ### Issue and the end of a program (04 R88, R94, R95) -/

/-- What an instruction does, once it has issued. -/
inductive VeAct where
  | done (s : State) (r : VeRun)                -- the program goes on with the next index
  | jump (s : State) (r : VeRun) (goal : Nat)   -- or with another
  | over (s : State) (r : VeRun)                -- the program ends here
  | wait (s : State)                            -- it has not issued: lines of other dies are awaited, or it has ended
  | bad (a : Nat) (p : Place)                   -- an address faults
  | refuse                                      -- the word is refused after all

/-- The place of the running update request's first block not stored. -/
def updBlock (s : State) (d : Nat) : Nat := ((s.lane d).head?.map UpdReq.block).getD 0

/-- The main program of a die ends with a status. -/
def endMain (s : State) (d : Nat) (r : VeRun) (status : Byte) (detail : Nat) : State :=
  failVe (setVeRun s d false r) d status detail

/-- Has the main context retired more cycles of issue than VE_PROGRAM_LIMIT (04 R94)? -/
def overLimit (s : State) (r : VeRun) : Bool := decide (dnum s 0x2040 1 < r.cycles)

/-- A program ends past its limit (04 R94): its stores stay. -/
def endLimit (s : State) (d : Nat) (r : VeRun) : State := endMain (sticky s 0xA040 3 d) d r 0x14 0

/-- A program ends of itself: past its limit, or OK, or POISONED where anything of it became poisoned (04 R91, R94). -/
def endOk (s : State) (d : Nat) (r : VeRun) : State :=
  if overLimit s r then endLimit s d r else endMain s d r (if r.poison then 1 else 0) 0

/-- An instruction word is refused, or the program overruns, at an index (04 R88, R94, R102). -/
def refuseVe (s : State) (d : Nat) (upd : Bool) (r : VeRun) (at_ : Nat) : State :=
  let t := sticky s 0xA040 2 d
  if upd then failUpdate t d (updBlock t d) false else endMain t d r 0x12 at_

/-- An address of a program faults (06 R152; 04 R102). -/
def faultVe (s : State) (d : Nat) (upd : Bool) (r : VeRun) (a : Nat) (p : Place) : State :=
  let t := faultSticky s d p
  if upd then failUpdate t d (updBlock t d) false else endMain t d r (placeStatus p) (placeDetail a p)

/-- Instructions that a context's program may hold (04 R94, R101). -/
def progLimit (upd : Bool) : Nat := if upd then 256 else 4096

/-- The next instruction of a context: its word, if it may issue now. -/
inductive Fetch where
  | word (s : State) (w : Word) (poison : Bool)
  | wait (s : State)
  | bad (a : Nat) (p : Place)
  | none

/-- Fetch at a context's index, a read like a load's (04 R94; 08 R192): nothing while the context is idle, held by a collective, or past its limit. -/
def veFetch (s : State) (d : Nat) (upd : Bool) : Fetch :=
  let r := veRun s d upd
  if !r.active || (s.ve d).hold.isSome || !dieUp s d || (!upd && overLimit s r) then .none
  else
    let a := (r.prog + 8 * r.pc) % 2 ^ 56
    match veGet s d upd a 8 with
    | .bytes b p => .word (veTouch s d upd [(a, 8)]) (BitVec.ofNat 64 (leNat b)) p
    | .wait t => .wait t
    | .bad a p => .bad a p

/-- Count issue cycles of a context (04 R108). -/
def countCycles (s : State) (d : Nat) (upd : Bool) (n : Nat) : State := bump s (if upd then 0x8041 else 0x8040) (d + 1) n

/-- Issue the instruction at a context's index if its opcode is `op`; a refused word ends the program whichever command
meets it.  `cost` gives its cycles of issue.  The words of the stores that its reads find in error are handled first, then
those of the register file. -/
def veStep (s0 : State) (d : Die) (c : VeCtx) (op : Nat) (cost : VeWord → Nat)
    (act : State → VeRun → Bool → Word → VeWord → VeAct) : State :=
  let s := readErrs s0 c.words
  let upd := c.upd
  match veFetch s d.val upd with
  | .none => s
  | .wait t => t
  | .bad a p => faultVe s d.val upd (veRun s d.val upd) a p
  | .word s1 w p =>
    let r0 := veRun s1 d.val upd
    let r1 := if p then { r0 with poison := true } else r0
    let v := veDecode w
    if veRefused upd v then refuseVe s1 d.val upd r1 r1.pc
    else if v.op.toNat ≠ op then s
    else
      let (s2, r) := regErrs d.val v c.regs s1 r1
      let u := setVeRun s2 d.val upd r
      let go := fun (t : State) (x : VeRun) (goal : Nat) =>
        let y := { x with pc := goal, cycles := x.cycles + cost v, lines := [] }
        let u := setVeRun (countCycles t d.val upd (cost v)) d.val upd y
        if progLimit upd ≤ goal then refuseVe u d.val upd y goal else u
      match act u r upd w v with
      | .done t x => go t x (r.pc + 1)
      | .jump t x goal => go t x goal
      | .over t x =>
        let y := { x with cycles := x.cycles + cost v }
        let u := countCycles t d.val upd (cost v)
        if upd then setVeRun u d.val true { y with active := false, lines := [] } else endOk u d.val y
      | .wait t => t
      | .bad a p => faultVe u d.val upd r a p
      | .refuse => refuseVe u d.val upd r r.pc

/-- One cycle of issue; the cycles of a rate (04 R89). -/
def oneCycle (_ : VeWord) : Nat := 1
def atRate (rate : Nat) (_ : VeWord) : Nat := 2048 / rate

/-! ### Element-wise instructions (04 R88, MASK) -/

/-- Apply an operation to the unmasked elements of three sources, with the flags it raised. -/
def vlanes (on : Nat → Bool) (op : Nat → Nat → Nat → Res) :
    Nat → List Nat → List Nat → List Nat → List (Option Nat) × Nat
  | i, x :: xs, y :: ys, z :: zs =>
    let (rest, f) := vlanes on op (i + 1) xs ys zs
    if on i then
      let v := op x y z
      (some v.1 :: rest, v.2 ||| f)
    else (none :: rest, f)
  | _, _, _, _ => ([], 0)

/-- An element-wise instruction of one, two or three sources: VA, VB and VC in SFMT, VD in DFMT. -/
def elementwise (n : Nat) (op : VeWord → Nat → Nat → Nat → Res) (s : State) (r : VeRun) (_ : Bool) (_ : Word)
    (v : VeWord) : VeAct :=
  let k := v.mask.toNat
  let src := fun (m : Nat) (reg : BitVec 6) => r.elems v.sf (if m ≤ n then reg.toNat else v.va.toNat)
  let p := r.vecPoison v.sf v.va.toNat || (2 ≤ n && r.vecPoison v.sf v.vb.toNat)
    || (3 ≤ n && r.vecPoison v.sf v.vc.toNat) || r.maskPoison k
  let (vals, f) := vlanes (r.on k) (op v) 0 (src 1 v.va) (src 2 v.vb) (src 3 v.vc)
  .done s ((r.putElems v.df v.vd.toNat vals p).raise f)

/-- An operation of binary32, BF16 or FP16: the operands are widened exactly, one binary32 operation is made, and the
result is rounded once into the format (04 R89; 03 R66, R70). -/
def wide2 (op : Nat → Arith → Nat → Nat → Res) (v : VeWord) (x y : Nat) : Res :=
  let a := v.ctl
  if v.sf = 9 then op 9 a x y
  else
    let p := convert v.sf 9 a 0 x
    let q := convert v.sf 9 a 0 y
    let r := op 9 a p.1 q.1
    let t := convert 9 v.sf a 0 r.1
    (t.1, p.2 ||| q.2 ||| r.2 ||| t.2)

end Sys2Proof.Machine
end

