-- ==== Sys2Proof/Machine/VeOps.lean ====
section
/-!
DEFINITION. The instructions of the vector engine (04 R89 to R95, R395), one command for each opcode of Table 4.3 but the
fixed kernels.  What the spec does not say of a word's spelling is a function in `Config` (log 24).
-/

namespace Sys2Proof.Machine

/-! ### Loads, stores, broadcast (04 R90, R91) -/

/-- The address of a memory instruction: scalar VC plus IMM.  The spec does not say what becomes of a sum beyond 56 bits:
its bits 63:56 are dropped here (DESIGN CHOICE, log 24). -/
def memAddr (r : VeRun) (v : VeWord) : Nat := (r.scalar v.vc.toNat + v.imm.zeroExtend 64).toNat % 2 ^ 56

/-- The address of piece l of a strided access: the stride in scalar VC + 1 is signed, so it adds modulo 2^64. -/
def pieceAddr (r : VeRun) (v : VeWord) (l : Nat) : Nat :=
  (r.scalar v.vc.toNat + v.imm.zeroExtend 64 + BitVec.ofNat 64 l * r.scalar (v.vc.toNat + 1)).toNat % 2 ^ 56

/-- The pieces of an access as address and first element, each of `n` elements. -/
def memPieces (strided : Bool) (r : VeRun) (v : VeWord) : List (Nat × Nat) × Nat :=
  if strided then ((List.range 32).map (fun l => (pieceAddr r v l, 64 * l)), 64) else ([(memAddr r v, 0)], 2048)

/-- Poisoned scalars of an address. -/
def addrPoison (strided : Bool) (r : VeRun) (v : VeWord) : Bool :=
  r.scalarPoison v.vc.toNat || (strided && r.scalarPoison (v.vc.toNat + 1))

/-- Elements of packed bytes. -/
def unpackElems (f n : Nat) (data : List Byte) : List Nat := (List.range n).map (unpackElem f data)

/-- A load: every element's bytes are read, and the unmasked elements written (04 R90); a poisoned word poisons the
register (04 R91). -/
def veLoad (strided : Bool) (d : Nat) (s : State) (r : VeRun) (upd : Bool) (_ : Word) (v : VeWord) : VeAct :=
  let (ps, n) := memPieces strided r v
  let len := fmtBytes v.df n
  let rs := ps.map (fun p => (p.1, len))
  match veGetAll s d upd rs with
  | .bad a p => .bad a p
  | .wait t => .wait t
  | .bytes data poison =>
    let elems := ps.zipIdx.flatMap (fun p => unpackElems v.df n (slice data (p.2 * len) len))
    let k := v.mask.toNat
    let vals := elems.zipIdx.map (fun e => if r.on k e.2 then some e.1 else none)
    .done (veTouch s d upd rs) (r.putElems v.df v.vd.toNat vals (poison || addrPoison strided r v || r.maskPoison k))

/-- The writer tag of a context: its queue's local index, 64 for the update lane (08 R193). -/
def writerTag (r : VeRun) (upd : Bool) : Nat := if upd then 64 else queueLocal r.queue

/-- A store: the unmasked elements of VA, piece by piece in ascending order; the bytes of masked elements keep their
contents (04 R90), and a poisoned register poisons every word it writes (04 R91). -/
def veStore (strided : Bool) (d : Nat) (s : State) (r : VeRun) (upd : Bool) (_ : Word) (v : VeWord) : VeAct :=
  let (ps, n) := memPieces strided r v
  let len := fmtBytes v.df n
  let k := v.mask.toNat
  let on := fun (first i : Nat) => decide (i < n) && r.on k (first + i)
  match ps.findSome? (fun p => slotFault s p.1 len) with
  | some f => .bad f.1 f.2
  | none =>
    let merging := ps.filter (fun p => !(mergedBytes v.df n (on p.2)).isEmpty)
    let rs := merging.map (fun p => (p.1, len))
    match veGetAll s d upd rs with
    | .bad a p => .bad a p
    | .wait t => .wait t
    | .bytes _ _ =>
      let elems := r.elems v.df v.va.toNat
      let pz := r.vecPoison v.df v.va.toNat || addrPoison strided r v || r.maskPoison k
      .done (ps.foldl (fun t p =>
        let old := match veGet t d upd p.1 len with
          | .bytes b _ => b
          | _ => []
        let kept := keptMarks t d upd p.1 (mergedBytes v.df n (on p.2))
        (byteRuns 0 (storeMerge v.df (slice elems p.2 n) (on p.2) old) none).foldl
          (fun u run => vePutMarked u d (writerTag r upd) (r.queue, r.idx) (p.1 + run.1) run.2
            (fun w => pz || kept.contains w)) t) (veTouch s d upd rs)) { r with poison := r.poison || pz }

/-- A half load: the elements that the word moves, each at its own offset, which the spec does not give (log 24). -/
def veHalfLoad (d : Nat) (s : State) (r : VeRun) (upd : Bool) (w : Word) (v : VeWord) : VeAct :=
  let es := (List.range 2048).filter (Config.halfMoves w)
  let len := fmtBytes v.df 1
  let rs := es.map (fun i => ((memAddr r v + Config.halfOffset w i) % 2 ^ 56, len))
  match veGetAll s d upd rs with
  | .bad a p => .bad a p
  | .wait t => .wait t
  | .bytes data poison =>
    let k := v.mask.toNat
    let vals := (List.range 2048).map (fun i =>
      if es.contains i && r.on k i then some (unpackElem v.df (slice data (es.idxOf i * len) len) 0) else none)
    .done (veTouch s d upd rs) (r.putElems v.df v.vd.toNat vals (poison || addrPoison false r v || r.maskPoison k))

/-- A half store. -/
def veHalfStore (d : Nat) (s : State) (r : VeRun) (upd : Bool) (w : Word) (v : VeWord) : VeAct :=
  let k := v.mask.toNat
  let es := (List.range 2048).filter (fun i => Config.halfMoves w i && r.on k i)
  let at_ := fun (i : Nat) => (memAddr r v + Config.halfOffset w i) % 2 ^ 56
  let len := fmtBytes v.df 1
  match es.findSome? (fun i => slotFault s (at_ i) len) with
  | some f => .bad f.1 f.2
  | none =>
    let elems := r.elems v.df v.va.toNat
    let pz := r.vecPoison v.df v.va.toNat || addrPoison false r v || r.maskPoison k
    .done (es.foldl (fun t i => vePut t d (writerTag r upd) (r.queue, r.idx) (at_ i) (packElems v.df [elems.getD i 0]) pz) s)
      { r with poison := r.poison || pz }

/-- VE_NOP (04 R89). -/
def execVeNop (d : Die) (c : VeCtx) (s : State) : Host.Outcome State Fault Refusal :=
  .next (veStep s d c 0x00 oneCycle (fun t r _ _ _ => .done t r))

/-- VLD (04 R90): 2,048 consecutive elements. -/
def execVld (d : Die) (c : VeCtx) (s : State) : Host.Outcome State Fault Refusal :=
  .next (veStep s d c 0x01 oneCycle (veLoad false d.val))

/-- VST (04 R90). -/
def execVst (d : Die) (c : VeCtx) (s : State) : Host.Outcome State Fault Refusal :=
  .next (veStep s d c 0x02 oneCycle (veStore false d.val))

/-- VLDH (04 Table 4.3). -/
def execVldh (d : Die) (c : VeCtx) (s : State) : Host.Outcome State Fault Refusal :=
  .next (veStep s d c 0x03 oneCycle (veHalfLoad d.val))

/-- VSTH (04 Table 4.3). -/
def execVsth (d : Die) (c : VeCtx) (s : State) : Host.Outcome State Fault Refusal :=
  .next (veStep s d c 0x04 oneCycle (veHalfStore d.val))

/-- VLDS (04 R90): 32 pieces of 64 elements. -/
def execVlds (d : Die) (c : VeCtx) (s : State) : Host.Outcome State Fault Refusal :=
  .next (veStep s d c 0x05 oneCycle (veLoad true d.val))

/-- VSTS (04 R90): 32 pieces in ascending order. -/
def execVsts (d : Die) (c : VeCtx) (s : State) : Host.Outcome State Fault Refusal :=
  .next (veStep s d c 0x06 oneCycle (veStore true d.val))

/-- Write elements chosen by their index to the unmasked elements of VD. -/
def writeLanes (r : VeRun) (v : VeWord) (f : Nat → Nat) (poison : Bool) : VeRun :=
  let k := v.mask.toNat
  r.putElems v.df v.vd.toNat ((List.range 2048).map (fun i => if r.on k i then some (f i) else none))
    (poison || r.maskPoison k)

/-- VBCAST (04 R89): scalar VC into every element. -/
def execVbcast (d : Die) (c : VeCtx) (s : State) : Host.Outcome State Fault Refusal :=
  .next (veStep s d c 0x07 oneCycle (fun t r _ _ v =>
    .done t (writeLanes r v (fun _ => (r.scalar v.vc.toNat).toNat) (r.scalarPoison v.vc.toNat))))

/-! ### Floating-point (03 R66 to R73; 04 R89) -/

/-- FADD. -/
def execFadd (d : Die) (c : VeCtx) (s : State) : Host.Outcome State Fault Refusal :=
  .next (veStep s d c 0x10 oneCycle (elementwise 2 (fun v x y _ => wide2 addF v x y)))

/-- FSUB. -/
def execFsub (d : Die) (c : VeCtx) (s : State) : Host.Outcome State Fault Refusal :=
  .next (veStep s d c 0x11 oneCycle (elementwise 2 (fun v x y _ => wide2 subF v x y)))

/-- FMUL. -/
def execFmul (d : Die) (c : VeCtx) (s : State) : Host.Outcome State Fault Refusal :=
  .next (veStep s d c 0x12 oneCycle (elementwise 2 (fun v x y _ => wide2 mulF v x y)))

/-- FMA: VA·VB + VC with one rounding. -/
def execFma (d : Die) (c : VeCtx) (s : State) : Host.Outcome State Fault Refusal :=
  .next (veStep s d c 0x13 oneCycle (elementwise 3 (fun v x y z => fmaF 9 v.ctl x y z)))

/-- FDIV. -/
def execFdiv (d : Die) (c : VeCtx) (s : State) : Host.Outcome State Fault Refusal :=
  .next (veStep s d c 0x14 (atRate 512) (elementwise 2 (fun v x y _ => divF 9 v.ctl x y)))

/-- FSQRT. -/
def execFsqrt (d : Die) (c : VeCtx) (s : State) : Host.Outcome State Fault Refusal :=
  .next (veStep s d c 0x15 (atRate 512) (elementwise 1 (fun v x _ _ => sqrtF 9 v.ctl x)))

/-- FMAX (03 R73). -/
def execFmax (d : Die) (c : VeCtx) (s : State) : Host.Outcome State Fault Refusal :=
  .next (veStep s d c 0x16 oneCycle (elementwise 2 (fun v x y _ => extremeF v.sf v.ctl true false x y)))

/-- FMIN (03 R73). -/
def execFmin (d : Die) (c : VeCtx) (s : State) : Host.Outcome State Fault Refusal :=
  .next (veStep s d c 0x17 oneCycle (elementwise 2 (fun v x y _ => extremeF v.sf v.ctl false false x y)))

/-- FMAXM: maximumMagnitude. -/
def execFmaxm (d : Die) (c : VeCtx) (s : State) : Host.Outcome State Fault Refusal :=
  .next (veStep s d c 0x18 oneCycle (elementwise 2 (fun v x y _ => extremeF v.sf v.ctl true true x y)))

/-- FMINM: minimumMagnitude. -/
def execFminm (d : Die) (c : VeCtx) (s : State) : Host.Outcome State Fault Refusal :=
  .next (veStep s d c 0x19 oneCycle (elementwise 2 (fun v x y _ => extremeF v.sf v.ctl false true x y)))

/-- The magnitude and the sign of a pattern. -/
def magOf (c x : Nat) : Nat := x % (ffmt c).signBit
def signOf (c x : Nat) : Bool := x / (ffmt c).signBit % 2 == 1

/-- FABS: the sign bit alone (03 R71). -/
def execFabs (d : Die) (c : VeCtx) (s : State) : Host.Outcome State Fault Refusal :=
  .next (veStep s d c 0x1A oneCycle (elementwise 1 (fun v x _ _ => (magOf v.sf x, 0))))

/-- FNEG (03 R71). -/
def execFneg (d : Die) (c : VeCtx) (s : State) : Host.Outcome State Fault Refusal :=
  .next (veStep s d c 0x1B oneCycle
    (elementwise 1 (fun v x _ _ => ((ffmt v.sf).signed (!signOf v.sf x) (magOf v.sf x), 0))))

/-- FCPSGN: the magnitude of VA with the sign of VB (03 R71). -/
def execFcpsgn (d : Die) (c : VeCtx) (s : State) : Host.Outcome State Fault Refusal :=
  .next (veStep s d c 0x1C oneCycle
    (elementwise 2 (fun v x y _ => ((ffmt v.sf).signed (signOf v.sf y) (magOf v.sf x), 0))))

/-- FSCALEB: scaleB of VA by the element of VB read as INT32 (04 R89). -/
def execFscaleb (d : Die) (c : VeCtx) (s : State) : Host.Outcome State Fault Refusal :=
  .next (veStep s d c 0x1D oneCycle (elementwise 2 (fun v x y _ => scalebF 9 v.ctl x (toSigned 32 y))))

/-- FLOGB. -/
def execFlogb (d : Die) (c : VeCtx) (s : State) : Host.Outcome State Fault Refusal :=
  .next (veStep s d c 0x1E oneCycle (elementwise 1 (fun v x _ _ => logbF 9 v.ctl x)))

/-- FRINT: in the direction RND selects (03 R66). -/
def execFrint (d : Die) (c : VeCtx) (s : State) : Host.Outcome State Fault Refusal :=
  .next (veStep s d c 0x1F oneCycle (elementwise 1 (fun v x _ _ => rintF 9 v.ctl x)))

/-! ### Integers (03 R74) -/

/-- The signed value of an element. -/
def intOf (c x : Nat) : Int := toSigned (intWidth c) x

/-- IADD. -/
def execIadd (d : Die) (c : VeCtx) (s : State) : Host.Outcome State Fault Refusal :=
  .next (veStep s d c 0x20 oneCycle (elementwise 2 (fun v x y _ => binInt v.sf v.ctl (· + ·) x y)))

/-- ISUB. -/
def execIsub (d : Die) (c : VeCtx) (s : State) : Host.Outcome State Fault Refusal :=
  .next (veStep s d c 0x21 oneCycle (elementwise 2 (fun v x y _ => binInt v.sf v.ctl (· - ·) x y)))

/-- IMUL. -/
def execImul (d : Die) (c : VeCtx) (s : State) : Host.Outcome State Fault Refusal :=
  .next (veStep s d c 0x22 oneCycle (elementwise 2 (fun v x y _ => binInt v.sf v.ctl (· * ·) x y)))

/-- IMAD: VA·VB + VC, fitted once. -/
def execImad (d : Die) (c : VeCtx) (s : State) : Host.Outcome State Fault Refusal :=
  .next (veStep s d c 0x23 oneCycle
    (elementwise 3 (fun v x y z => fitInt v.sf v.ctl.sat (intOf v.sf x * intOf v.sf y + intOf v.sf z))))

/-- IDIV: toward zero. -/
def execIdiv (d : Die) (c : VeCtx) (s : State) : Host.Outcome State Fault Refusal :=
  .next (veStep s d c 0x24 (atRate 512) (elementwise 2 (fun v x y _ => divInt v.sf v.ctl x y)))

/-- ISHL: by IMM places. -/
def execIshl (d : Die) (c : VeCtx) (s : State) : Host.Outcome State Fault Refusal :=
  .next (veStep s d c 0x25 oneCycle
    (elementwise 1 (fun v x _ _ => fitInt v.sf v.ctl.sat (intOf v.sf x * 2 ^ v.imm.toNat))))

/-- ISHR: by IMM places, with copies of the sign bit or zeros above (log 24). -/
def execIshr (d : Die) (c : VeCtx) (s : State) : Host.Outcome State Fault Refusal :=
  .next (veStep s d c 0x26 oneCycle (elementwise 1 (fun v x _ _ =>
    (if Config.shiftArithmetic (veEncode v) then ofSigned (intWidth v.sf) (intOf v.sf x / 2 ^ v.imm.toNat)
     else x / 2 ^ v.imm.toNat, 0))))

/-- INEG. -/
def execIneg (d : Die) (c : VeCtx) (s : State) : Host.Outcome State Fault Refusal :=
  .next (veStep s d c 0x27 oneCycle (elementwise 1 (fun v x _ _ => fitInt v.sf v.ctl.sat (-intOf v.sf x))))

/-- IAND. -/
def execIand (d : Die) (c : VeCtx) (s : State) : Host.Outcome State Fault Refusal :=
  .next (veStep s d c 0x28 oneCycle (elementwise 2 (fun _ x y _ => (x &&& y, 0))))

/-- IOR. -/
def execIor (d : Die) (c : VeCtx) (s : State) : Host.Outcome State Fault Refusal :=
  .next (veStep s d c 0x29 oneCycle (elementwise 2 (fun _ x y _ => (x ||| y, 0))))

/-- IXOR. -/
def execIxor (d : Die) (c : VeCtx) (s : State) : Host.Outcome State Fault Refusal :=
  .next (veStep s d c 0x2A oneCycle (elementwise 2 (fun _ x y _ => (x ^^^ y, 0))))

/-- IMAX. -/
def execImax (d : Die) (c : VeCtx) (s : State) : Host.Outcome State Fault Refusal :=
  .next (veStep s d c 0x2B oneCycle (elementwise 2 (fun v x y _ => (if intOf v.sf x < intOf v.sf y then y else x, 0))))

/-- IMIN. -/
def execImin (d : Die) (c : VeCtx) (s : State) : Host.Outcome State Fault Refusal :=
  .next (veStep s d c 0x2C oneCycle (elementwise 2 (fun v x y _ => (if intOf v.sf y < intOf v.sf x then y else x, 0))))

/-! ### Compare and select (03 R66, R71) -/

/-- Does a predicate hold of an order, none where unordered? -/
def predHolds (pred : Nat) : Option Int → Bool
  | none => pred.testBit 3
  | some k => if k < 0 then pred.testBit 0 else if k = 0 then pred.testBit 1 else pred.testBit 2

/-- A compare of VA with VB into the mask register of bits 52:50. -/
def compareInto (order : VeWord → Nat → Nat → Option Int × Nat) (s : State) (r : VeRun) (_ : Bool) (_ : Word)
    (v : VeWord) : VeAct :=
  let k := v.mask.toNat
  let pred := Config.cmpPred v.imm.toNat
  let one := fun (p : (Nat × Nat) × Nat) =>
    if r.on k p.2 then
      let o := order v p.1.1 p.1.2
      (some (predHolds pred o.1), o.2)
    else (none, 0)
  let out := ((r.elems v.sf v.va.toNat).zip (r.elems v.sf v.vb.toNat)).zipIdx.map one
  let p := r.vecPoison v.sf v.va.toNat || r.vecPoison v.sf v.vb.toNat || r.maskPoison k
  .done s ((r.putMask v.md (out.map (·.1)) p).raise (out.foldl (fun f o => f ||| o.2) 0))

/-- FCMP. -/
def execFcmp (d : Die) (c : VeCtx) (s : State) : Host.Outcome State Fault Refusal :=
  .next (veStep s d c 0x30 oneCycle (compareInto (fun v x y =>
    compareF v.sf v.ctl ((Config.cmpPred v.imm.toNat).testBit 4) x y)))

/-- ICMP. -/
def execIcmp (d : Die) (c : VeCtx) (s : State) : Host.Outcome State Fault Refusal :=
  .next (veStep s d c 0x31 oneCycle (compareInto (fun v x y => (some (intOf v.sf x - intOf v.sf y), 0))))

/-- SEL: an element of VA where the mask has a 1, of VB where it has a 0, unchanged (03 R71). -/
def execSel (d : Die) (c : VeCtx) (s : State) : Host.Outcome State Fault Refusal :=
  .next (veStep s d c 0x32 oneCycle (fun t r _ _ v =>
    let k := v.mask.toNat
    let both := ((r.elems v.sf v.va.toNat).zip (r.elems v.sf v.vb.toNat)).zipIdx
    .done t (r.putElems v.df v.vd.toNat (both.map (fun p => some (if r.on k p.2 then p.1.1 else p.1.2)))
      (r.vecPoison v.sf v.va.toNat || r.vecPoison v.sf v.vb.toNat || r.maskPoison k))))

/-! ### Conversions (03 R76 to R82, R394; 04 R395) -/

/-- The LSB exponent e of a convert: IMM bits 7:0, signed. -/
def lsbExp (v : VeWord) : Int := toSigned 8 v.imm.toNat

/-- CVT. -/
def execCvt (d : Die) (c : VeCtx) (s : State) : Host.Outcome State Fault Refusal :=
  .next (veStep s d c 0x38 oneCycle (elementwise 1 (fun v x _ _ => convert v.sf v.df v.ctl (lsbExp v) x)))

/-- MXEXP: block j of VA expanded by the scale in element j of VB (04 R395). -/
def execMxexp (d : Die) (c : VeCtx) (s : State) : Host.Outcome State Fault Refusal :=
  .next (veStep s d c 0x39 oneCycle (fun t r _ _ v =>
    let scales := r.elems 5 v.vb.toNat
    let k := v.mask.toNat
    let out := (r.elems v.sf v.va.toNat).zipIdx.map (fun e =>
      if r.on k e.2 then
        let x := mxExpand v.sf v.df v.ctl (scales.getD (e.2 / 32) 0) e.1
        (some x.1, x.2)
      else (none, 0))
    .done t ((r.putElems v.df v.vd.toNat (out.map (·.1))
        (r.vecPoison v.sf v.va.toNat || r.vecPoison 5 v.vb.toNat || r.maskPoison k)).raise
      (out.foldl (fun f o => f ||| o.2) 0))))

/-- MXPACK: every block's scale to VD + 1, and its elements to VD under the mask (04 R395; 03 R82).  A block with a NaN or
an infinity raises INVALID whatever the mask; the flags of an element that the mask leaves out are not raised (DESIGN
CHOICE, log 35). -/
def execMxpack (d : Die) (c : VeCtx) (s : State) : Host.Outcome State Fault Refusal :=
  .next (veStep s d c 0x3A oneCycle (fun t r _ _ v =>
    let xs := r.elems 9 v.va.toNat
    let k := v.mask.toNat
    let scales := (List.range 64).map (fun j => mxScale v.df (slice xs (32 * j) 32))
    let zero := (List.range 64).map (fun j => (slice xs (32 * j) 32).all (fun x => magOf 9 x == 0))
    let out := xs.zipIdx.map (fun e =>
      let sc := scales.getD (e.2 / 32) (0, false)
      let x := if sc.2 || zero.getD (e.2 / 32) false then (0, 0) else mxPack v.df v.ctl sc.1 e.1
      if r.on k e.2 then (some x.1, x.2) else (none, 0))
    let bad := if scales.any Prod.snd then flInvalid else 0
    let p := r.vecPoison 9 v.va.toNat || r.maskPoison k
    let wide := scales.map (fun sc => some sc.1) ++ List.replicate 1984 (some 0)
    .done t (((r.putElems v.df v.vd.toNat (out.map (·.1)) p).putElems 5 (v.vd.toNat + 1) wide p).raise
      (out.foldl (fun f o => f ||| o.2) bad))))

/-! ### Function approximations (04 R93) -/

/-- FEXP. -/
def execFexp (d : Die) (c : VeCtx) (s : State) : Host.Outcome State Fault Refusal :=
  .next (veStep s d c 0x40 (atRate 1024) (elementwise 1 (fun v x _ _ => approxF .exp v.ctl x)))

/-- FEXP2. -/
def execFexp2 (d : Die) (c : VeCtx) (s : State) : Host.Outcome State Fault Refusal :=
  .next (veStep s d c 0x41 (atRate 1024) (elementwise 1 (fun v x _ _ => approxF .exp2 v.ctl x)))

/-- FLOG. -/
def execFlog (d : Die) (c : VeCtx) (s : State) : Host.Outcome State Fault Refusal :=
  .next (veStep s d c 0x42 (atRate 1024) (elementwise 1 (fun v x _ _ => approxF .log v.ctl x)))

/-- FLOG2. -/
def execFlog2 (d : Die) (c : VeCtx) (s : State) : Host.Outcome State Fault Refusal :=
  .next (veStep s d c 0x43 (atRate 1024) (elementwise 1 (fun v x _ _ => approxF .log2 v.ctl x)))

/-- FRCP. -/
def execFrcp (d : Die) (c : VeCtx) (s : State) : Host.Outcome State Fault Refusal :=
  .next (veStep s d c 0x44 (atRate 1024) (elementwise 1 (fun v x _ _ => approxF .rcp v.ctl x)))

/-- FRSQ. -/
def execFrsq (d : Die) (c : VeCtx) (s : State) : Host.Outcome State Fault Refusal :=
  .next (veStep s d c 0x45 (atRate 1024) (elementwise 1 (fun v x _ _ => approxF .rsq v.ctl x)))

/-- FTANH. -/
def execFtanh (d : Die) (c : VeCtx) (s : State) : Host.Outcome State Fault Refusal :=
  .next (veStep s d c 0x46 (atRate 1024) (elementwise 1 (fun v x _ _ => approxF .tanh v.ctl x)))

/-- FSIGM. -/
def execFsigm (d : Die) (c : VeCtx) (s : State) : Host.Outcome State Fault Refusal :=
  .next (veStep s d c 0x47 (atRate 1024) (elementwise 1 (fun v x _ _ => approxF .sigm v.ctl x)))

/-- FERF. -/
def execFerf (d : Die) (c : VeCtx) (s : State) : Host.Outcome State Fault Refusal :=
  .next (veStep s d c 0x48 (atRate 1024) (elementwise 1 (fun v x _ _ => approxF .erf v.ctl x)))

/-! ### Reductions (04 R92; 03 R69, R73, R74) -/

/-- The operations of a reduction. -/
inductive RedOp where
  | sum
  | max
  | min
  deriving DecidableEq, Repr

/-- One combination of a reduction, the left operand first. -/
def redCombine (k : RedOp) (f : Nat) (a : Arith) (x y : Nat) : Res :=
  match k with
  | .sum => if f = 10 ∨ f = 11 then binInt f a (· + ·) x y else addF f a x y
  | .max => if f = 10 then (if intOf 10 x < intOf 10 y then y else x, 0) else extremeF f a true false x y
  | .min => if f = 10 then (if intOf 10 y < intOf 10 x then y else x, 0) else extremeF f a false false x y

/-- The identity of a reduction: of masked elements and of the padding of a segment (04 R92). -/
def redIdentity (k : RedOp) (f : Nat) : Nat :=
  match k with
  | .sum => 0
  | .max => if f = 10 then 0x80000000 else (ffmt f).signed true ((ffmt f).maxMag + 1)
  | .min => if f = 10 then 0x7FFFFFFF else (ffmt f).signed false ((ffmt f).maxMag + 1)

/-- Sum from left to right onto a value. -/
def sumLeft (f : Nat) (a : Arith) (first : Res) (l : List Nat) : Res :=
  l.foldl (fun (acc : Res) x =>
    let v := redCombine .sum f a acc.1 x
    (v.1, v.2 ||| acc.2)) first

/-- A register of 2,048 elements reduced, onto the scalar on its left where one is given (04 R92). -/
def reduceRow (k : RedOp) (f : Nat) (a : Arith) (left : Option Nat) (xs : List Nat) : Res :=
  if k = .sum ∧ a.strict then
    match left, xs with
    | some v, _ => sumLeft f a (v, 0) xs
    | none, x :: r => sumLeft f a (x, 0) r
    | none, [] => (0, 0)
  else
    let t := treeSum (redCombine k f a) 11 (xs.map (fun x => (x, 0)))
    match left with
    | none => t
    | some v =>
      let w := redCombine k f a v t.1
      (w.1, w.2 ||| t.2)

/-- A reduction instruction: VA under the mask, to the scalar of bits 54:50. -/
def reduction (k : RedOp) (onto : Bool) (s : State) (r : VeRun) (_ : Bool) (_ : Word) (v : VeWord) : VeAct :=
  let f := v.sf
  let m := v.mask.toNat
  let xs := (r.elems f v.va.toNat).zipIdx.map (fun e => if r.on m e.2 then e.1 else redIdentity k f)
  let left := if onto then some ((r.scalar v.sd).toNat % 2 ^ fmtBits f) else none
  let res := reduceRow k f v.ctl left xs
  .done s ((r.putScalar v.sd (BitVec.ofNat 64 res.1)
    (r.vecPoison f v.va.toNat || r.maskPoison m || (onto && r.scalarPoison v.sd))).raise res.2)

/-- RSUM. -/
def execRsum (d : Die) (c : VeCtx) (s : State) : Host.Outcome State Fault Refusal :=
  .next (veStep s d c 0x50 oneCycle (reduction .sum false))

/-- RMAX. -/
def execRmax (d : Die) (c : VeCtx) (s : State) : Host.Outcome State Fault Refusal :=
  .next (veStep s d c 0x51 oneCycle (reduction .max false))

/-- RMIN. -/
def execRmin (d : Die) (c : VeCtx) (s : State) : Host.Outcome State Fault Refusal :=
  .next (veStep s d c 0x52 oneCycle (reduction .min false))

/-- RSUMC. -/
def execRsumc (d : Die) (c : VeCtx) (s : State) : Host.Outcome State Fault Refusal :=
  .next (veStep s d c 0x53 oneCycle (reduction .sum true))

/-- RMAXC. -/
def execRmaxc (d : Die) (c : VeCtx) (s : State) : Host.Outcome State Fault Refusal :=
  .next (veStep s d c 0x54 oneCycle (reduction .max true))

/-- RMINC. -/
def execRminc (d : Die) (c : VeCtx) (s : State) : Host.Outcome State Fault Refusal :=
  .next (veStep s d c 0x55 oneCycle (reduction .min true))

/-! ### Permutes (03 R71) -/

/-- VPERM: the element that the word and VB name (log 24). -/
def execVperm (d : Die) (c : VeCtx) (s : State) : Host.Outcome State Fault Refusal :=
  .next (veStep s d c 0x60 oneCycle (fun t r _ w v =>
    let xs := r.elems v.sf v.va.toNat
    let is := r.elems v.sf v.vb.toNat
    .done t (writeLanes r v (fun i => xs.getD (Config.permIndex w i (is.getD i 0) % 2048) 0)
      (r.vecPoison v.sf v.va.toNat || r.vecPoison v.sf v.vb.toNat))))

/-- VREV: element 2,047 − i of VA. -/
def execVrev (d : Die) (c : VeCtx) (s : State) : Host.Outcome State Fault Refusal :=
  .next (veStep s d c 0x61 oneCycle (fun t r _ _ v =>
    let xs := (r.elems v.sf v.va.toNat).reverse
    .done t (writeLanes r v (fun i => xs.getD i 0) (r.vecPoison v.sf v.va.toNat))))

/-- VSHL: the elements of VA moved across positions; by how many, and what fills a vacated one, is open (log 24). -/
def execVshl (d : Die) (c : VeCtx) (s : State) : Host.Outcome State Fault Refusal :=
  .next (veStep s d c 0x62 oneCycle (fun t r _ w v =>
    let xs := r.elems v.sf v.va.toNat
    let from_ := fun (i : Nat) => (i : Int) - Config.shiftDistance w
    .done t (writeLanes r v
      (fun i => if 0 ≤ from_ i ∧ from_ i < 2048 then xs.getD (from_ i).toNat 0 else Config.shiftFill w i)
      (r.vecPoison v.sf v.va.toNat))))

/-! ### Scalars and control (04 R89, R94, R95) -/

/-- A scalar operation on the low bits of VA and VB in a format. -/
def scalarOp (fop : Nat → Arith → Nat → Nat → Res) (iop : Int → Int → Int) (s : State) (r : VeRun) (_ : Bool) (_ : Word)
    (v : VeWord) : VeAct :=
  let f := v.sf
  let x := (r.scalar v.va.toNat).toNat % 2 ^ fmtBits f
  let y := (r.scalar v.vb.toNat).toNat % 2 ^ fmtBits f
  let res := if isFloat f then fop f v.ctl x y else binInt f v.ctl iop x y
  .done s ((r.putScalar v.sd (BitVec.ofNat 64 res.1) (r.scalarPoison v.va.toNat || r.scalarPoison v.vb.toNat)).raise res.2)

/-- SMOV: scalar VA to the scalar of bits 54:50. -/
def execSmov (d : Die) (c : VeCtx) (s : State) : Host.Outcome State Fault Refusal :=
  .next (veStep s d c 0x70 oneCycle (fun t r _ _ v =>
    .done t (r.putScalar v.sd (r.scalar v.va.toNat) (r.scalarPoison v.va.toNat))))

/-- SADD. -/
def execSadd (d : Die) (c : VeCtx) (s : State) : Host.Outcome State Fault Refusal :=
  .next (veStep s d c 0x71 oneCycle (scalarOp addF (· + ·)))

/-- SMUL. -/
def execSmul (d : Die) (c : VeCtx) (s : State) : Host.Outcome State Fault Refusal :=
  .next (veStep s d c 0x72 oneCycle (scalarOp mulF (· * ·)))

/-- SGET: the element of VA that the word names (log 24) to the scalar of bits 54:50. -/
def execSget (d : Die) (c : VeCtx) (s : State) : Host.Outcome State Fault Refusal :=
  .next (veStep s d c 0x73 oneCycle (fun t r _ w v =>
    .done t (r.putScalar v.sd (BitVec.ofNat 64 ((r.elems v.sf v.va.toNat).getD (Config.getIndex w % 2048) 0))
      (r.vecPoison v.sf v.va.toNat))))

/-- LOOP: counts its passes, and branches back at those that the word makes it (log 24). -/
def execLoop (d : Die) (c : VeCtx) (s : State) : Host.Outcome State Fault Refusal :=
  .next (veStep s d c 0x74 oneCycle (fun t r _ w _ =>
    let n := mget 0 r.loops r.pc
    if Config.loopTaken w n then .jump t { r with loops := mput 0 r.loops r.pc (n + 1) } (Config.branchTarget w r.pc)
    else .done t { r with loops := mput 0 r.loops r.pc 0 }))

/-- BR: to the index that the word names (log 24). -/
def execBr (d : Die) (c : VeCtx) (s : State) : Host.Outcome State Fault Refusal :=
  .next (veStep s d c 0x75 oneCycle (fun t r _ w _ => .jump t r (Config.branchTarget w r.pc)))

/-- BRZ: BR where scalar VA is zero; a poisoned scalar ends the program at once (04 R91).  A user program of the update
lane that ends so has its V49 to V51 stored, marked as they are: the spec does not say what becomes of its block (DESIGN
CHOICE, log 26). -/
def execBrz (d : Die) (c : VeCtx) (s : State) : Host.Outcome State Fault Refusal :=
  .next (veStep s d c 0x76 oneCycle (fun t r _ w v =>
    if r.scalarPoison v.va.toNat then .over t { r with poison := true }
    else if r.scalar v.va.toNat = 0 then .jump t r (Config.branchTarget w r.pc)
    else .done t r))

/-- PUB: scalar VA to a branch input of the queue, seen at program end (04 R95). -/
def execPub (d : Die) (c : VeCtx) (s : State) : Host.Outcome State Fault Refusal :=
  .next (veStep s d c 0x77 oneCycle (fun t r _ w v =>
    .done t { r with pubs := (Config.pubInput w % 4, r.scalar v.va.toNat) :: r.pubs }))

/-- END (04 R94). -/
def execVeEnd (d : Die) (c : VeCtx) (s : State) : Host.Outcome State Fault Refusal :=
  .next (veStep s d c 0x78 oneCycle (fun t r _ _ _ => .over t r))

/-! ### Descriptors and the limit (04 R94; 06 R135) -/

/-- VE_DESCRIPTOR (06 R135): ARG0 to ARG7 go into S0 to S7, every other register counts as unwritten (04 R87), and the
program starts at PROG_ADDR. -/
def veDescriptor (q : QId) (i : BitVec 32) (s : State) : State :=
  match s.job q.val i with
  | none => s
  | some j =>
    let d := queueDie q.val
    let r := veRun s d false
    if descType j.words ≠ 2 ∨ j.phase ≠ .ready ∨ r.active ∨ (s.ve d).hold.isSome ∨ !dieUp s d then s
    else
      let clean : VeRun :=
        { r with
          active := true, queue := q.val, idx := i, prog := wbits (dword j.words 5) 55 0, pc := 0, cycles := 0, fp := 0,
          poison := false, vw := [], sw := [], mw := [], loops := [], pubs := [], lines := [] }
      let args := (List.range 8).foldl (fun x k => x.putScalar k (dword j.words (6 + k)) false) clean
      (setVeRun s d false args).modJob q.val i (fun j => { j with phase := .working })

def execVeDescriptor (q : QId) (i : BitVec 32) (s : State) : Host.Outcome State Fault Refusal :=
  .next (veDescriptor q i s)

/-- VE_PROGRAM_LIMIT_EXCEEDED (04 R94): a program past its issue cycles ends; its stores stay. -/
def execVeProgramLimitExceeded (d : Die) (s : State) : Host.Outcome State Fault Refusal :=
  let r := veRun s d.val false
  .next (if r.active && overLimit s r then endLimit s d.val r else s)

end Sys2Proof.Machine
end

