-- ==== Sys2Proof/Machine/Kernel.lean ====
section
/-!
DEFINITION. The fixed kernels of the vector engine (04 R96 to R99): the parameter block and its refusals, the arithmetic
of one row in the order of R97, and rows one after another, all at once or in the blocks of 128 of a chained kernel.
-/

namespace Sys2Proof.Machine

/-! ### The parameter block (04 Table 4.6) -/

/-- The fields of a parameter block. -/
structure KBlock where
  accDgb : Bool
  arith  : Arith
  kind   : Nat
  outFmt : Nat
  inFmt  : Nat
  xFmt   : Nat                          -- the format of x: that of the block, and FP32 in a chained kernel (04 R99)
  rows   : Nat
  len    : Nat
  scale  : Nat
  eps    : Nat
  dgb    : Nat
  gamma  : Nat
  stat   : Nat
  dy     : Nat
  y      : Nat
  x      : Nat
  deriving DecidableEq, Repr

/-- The fields of the 64 bytes of a block. -/
def kBlock (n : Nat) : KBlock :=
  { accDgb := n.testBit 497, arith := arithOf (bitsOf n 496 492), kind := bitsOf n 491 488, outFmt := bitsOf n 487 484,
    inFmt := bitsOf n 483 480, xFmt := bitsOf n 483 480, rows := bitsOf n 479 468 + 1, len := bitsOf n 467 448 + 1, scale := bitsOf n 447 416,
    eps := bitsOf n 415 384, dgb := bitsOf n 375 320, gamma := bitsOf n 311 256, stat := bitsOf n 247 192,
    dy := bitsOf n 183 128, y := bitsOf n 119 64, x := bitsOf n 55 0 }

/-- The four kernels. -/
inductive Kernel where
  | normF
  | normB
  | smaxF
  | smaxB
  deriving DecidableEq, Repr

/-- The opcode of a kernel (04 Table 4.3). -/
def Kernel.op : Kernel → Nat
  | .normF => 0x80
  | .normB => 0x81
  | .smaxF => 0x82
  | .smaxB => 0x83

def Kernel.isNorm (k : Kernel) : Bool := k == .normF || k == .normB
def Kernel.isBack (k : Kernel) : Bool := k == .normB || k == .smaxB

/-- Is a block refused (04 R96)?  A reserved bit that is not 0 refuses it too (log 26). -/
def kRefused (k : Kernel) (n : Nat) : Bool :=
  let b := kBlock n
  bitsOf n 511 498 != 0 || !(7 ≤ b.inFmt && b.inFmt ≤ 9) || !(b.outFmt ≤ 1 || (7 ≤ b.outFmt && b.outFmt ≤ 9))
    || !(if k.isNorm then b.kind ≤ 1 else b.kind == 2) || decide (1048575 < b.len)
    || (List.range 6).any (fun w => bitsOf n (64 * w + 63) (64 * w + 56) != 0)

/-- Issue cycles of a row (04 Table 4.7). -/
def kCycles (k : Kernel) (b : KBlock) : Nat :=
  let short := decide (b.len ≤ 4096)
  let each := match k, b.kind with
    | .normF, 0 => if short then 10 else 17
    | .normF, _ => if short then 8 else 11
    | .smaxF, _ => if short then 11 else 20
    | .normB, 0 => if short then 17 else 31
    | .normB, _ => if short then 14 else 26
    | .smaxB, _ => if short then 15 else 22
  (b.len + 2047) / 2048 * each + 6

/-! ### Rows as registers -/

/-- A row in registers, and a scalar: their elements, and whether they are poisoned (04 R91). -/
abbrev KVec := List (List Nat × Bool)
abbrev KScal := Nat × Bool

/-- One instruction per register of a row, with one source, two, and one and a scalar. -/
def kMap (op : Nat → Res) (v : KVec) : KVec × Nat :=
  let out := v.map (fun g => (g.1.map op, g.2))
  (out.map (fun g => (g.1.map Prod.fst, g.2)), out.foldl (fun f g => g.1.foldl (fun f e => f ||| e.2) f) 0)
def kMap2 (op : Nat → Nat → Res) (u v : KVec) : KVec × Nat :=
  let out := List.zipWith (fun (g h : List Nat × Bool) => (List.zipWith op g.1 h.1, g.2 || h.2)) u v
  (out.map (fun g => (g.1.map Prod.fst, g.2)), out.foldl (fun f g => g.1.foldl (fun f e => f ||| e.2) f) 0)
def kMapS (op : Nat → Nat → Res) (v : KVec) (x : KScal) : KVec × Nat :=
  kMap2 op v (v.map (fun g => (g.1.map (fun _ => x.1), x.2)))

/-- A fused multiply-add per register. -/
def kFma (a : Arith) (x y z : KVec) : KVec × Nat :=
  let pairs := List.zipWith (fun (g h : List Nat × Bool) => (g.1.zip h.1, g.2 || h.2)) x y
  let out := List.zipWith (fun (g : List (Nat × Nat) × Bool) (h : List Nat × Bool) =>
    (List.zipWith (fun (p : Nat × Nat) c => fmaF 9 a p.1 p.2 c) g.1 h.1, g.2 || h.2)) pairs z
  (out.map (fun g => (g.1.map Prod.fst, g.2)), out.foldl (fun f g => g.1.foldl (fun f e => f ||| e.2) f) 0)

/-- A reduction over a whole row: an R-form instruction on its first register and C-forms on the others (04 R92). -/
def kReduce (k : RedOp) (a : Arith) (v : KVec) : KScal × Nat :=
  let pad := fun (l : List Nat) => l ++ List.replicate (2048 - l.length) (redIdentity k 9)
  match v with
  | [] => ((0, false), 0)
  | g :: rest =>
    let first := reduceRow k 9 a none (pad g.1)
    rest.foldl (fun (acc : KScal × Nat) h =>
      let r := reduceRow k 9 a (some acc.1.1) (pad h.1)
      ((r.1, acc.1.2 || h.2), acc.2 ||| r.2)) ((first.1, g.2), first.2)

/-- A scalar operation. -/
def kScal (op : Nat → Nat → Res) (x y : KScal) : KScal × Nat :=
  let r := op x.1 y.1
  ((r.1, x.2 || y.2), r.2)

/-- The results of a row. -/
structure KRow where
  y     : KVec
  stat  : Option (KScal × KScal)
  dg    : KVec
  db    : KVec
  fp    : Nat
  deriving DecidableEq, Repr

/-- 1/L, formed once for a descriptor (04 R97). -/
def kInv (b : KBlock) : KScal × Nat :=
  let r := divF 9 b.arith one32 (intF 9 rneCtl b.len).1
  ((r.1, false), r.2)

/-- 1/√x and 1/x: an approximation, or in strict mode a division (04 R97). -/
def kRsq (a : Arith) (x : KScal) : KScal × Nat :=
  if a.strict then
    let q := sqrtF 9 a x.1
    let r := divF 9 a one32 q.1
    ((r.1, x.2), q.2 ||| r.2)
  else
    let r := approxF .rsq a x.1
    ((r.1, x.2), r.2)
def kRcp (a : Arith) (x : KScal) : KScal × Nat :=
  let r := if a.strict then divF 9 a one32 x.1 else approxF .rcp a x.1
  ((r.1, x.2), r.2)

/-- A number with its sign changed. -/
def kNeg (v : KVec) : KVec := v.map (fun g => (g.1.map (fun x => f32.signed (!signOf 9 x) (magOf 9 x)), g.2))

/-- Layer norm and RMS norm forward (04 R97). -/
def kNormF (b : KBlock) (x : KVec) (gamma beta : Option KVec) : KRow :=
  let a := b.arith
  let layer := b.kind == 0
  let (inv, f0) := kInv b
  let (mu, d, f1) : KScal × KVec × Nat :=
    if layer then
      let (t, g) := kReduce .sum a x
      let (mu, h) := kScal (mulF 9 a) t inv
      let (d, k) := kMapS (subF 9 a) x mu
      (mu, d, g ||| h ||| k)
    else ((0, false), x, 0)
  let (sq, f2) := kMap2 (mulF 9 a) d d
  let (t, f3) := kReduce .sum a sq
  let (var, f4) := kScal (mulF 9 a) t inv
  let (ve, f5) := kScal (addF 9 a) var (b.eps, false)
  let (rstd, f6) := kRsq a ve
  let (n, f7) := kMapS (mulF 9 a) d rstd
  let (y, f8) := match gamma, beta with
    | some g, some h => kFma a n g h
    | some g, none => kMap2 (mulF 9 a) n g
    | none, _ => (n, 0)
  { y := y, stat := some (mu, rstd), dg := [], db := [], fp := f0 ||| f1 ||| f2 ||| f3 ||| f4 ||| f5 ||| f6 ||| f7 ||| f8 }

/-- Layer norm and RMS norm backward (04 R97): `dg` and `db` are what the columns hold before the row. -/
def kNormB (b : KBlock) (x dy : KVec) (gamma : Option KVec) (mu rstd : KScal) (dg db : KVec) : KRow :=
  let a := b.arith
  let layer := b.kind == 0
  let (inv, f0) := kInv b
  let (c, f1) := if layer then kMapS (subF 9 a) x mu else (x, 0)
  let (xh, f2) := kMapS (mulF 9 a) c rstd
  let (g, f3) := match gamma with
    | some k => kMap2 (mulF 9 a) dy k
    | none => (dy, 0)
  let (gx, f4) := kMap2 (mulF 9 a) g xh
  let (t, f5) := kReduce .sum a gx
  let (bb, f6) := kScal (mulF 9 a) t inv
  let (m, f7) := kFma a (kNeg xh) (xh.map (fun h => (h.1.map (fun _ => bb.1), bb.2))) g
  let (c2, f8) : KVec × Nat :=
    if layer then
      let (u, p) := kReduce .sum a g
      let (aa, q) := kScal (mulF 9 a) u inv
      let (w, r) := kMapS (subF 9 a) m aa
      (w, p ||| q ||| r)
    else (m, 0)
  let (dx, f9) := kMapS (mulF 9 a) c2 rstd
  let (dg2, f10) := kFma a dy xh dg
  let (db2, f11) := kMap2 (addF 9 a) db dy
  { y := dx, stat := none, dg := dg2, db := db2,
    fp := f0 ||| f1 ||| f2 ||| f3 ||| f4 ||| f5 ||| f6 ||| f7 ||| f8 ||| f9 ||| f10 ||| f11 }

/-- The pattern of −∞. -/
def negInf32 : Nat := 0xFF800000

/-- A row of +0. -/
def kZeros (x : KVec) : KVec := x.map (fun g => (g.1.map (fun _ => 0), g.2))

/-- Multiplication by SCALE: 1.0 omits it. -/
def kScale (b : KBlock) (x : KVec) : KVec × Nat := if b.scale = one32 then (x, 0) else kMapS (mulF 9 b.arith) x (b.scale, false)

/-- Soft-maximum forward (04 R97). -/
def kSmaxF (b : KBlock) (x : KVec) : KRow :=
  let a := b.arith
  let (z, f1) := kScale b x
  let (m, f2) := kReduce .max a z
  if m.1 = negInf32 then { y := kZeros z, stat := some (m, (0, m.2)), dg := [], db := [], fp := 0 }
  else
    let (c, f3) := kMapS (subF 9 a) z m
    let (e, f4) := kMap (approxF .exp a) c
    let (t, f5) := kReduce .sum a e
    let (q, f6) := kRcp a t
    let (y, f7) := kMapS (mulF 9 a) e q
    { y := y, stat := some (m, t), dg := [], db := [], fp := f1 ||| f2 ||| f3 ||| f4 ||| f5 ||| f6 ||| f7 }

/-- Soft-maximum backward (04 R97). -/
def kSmaxB (b : KBlock) (x dy : KVec) (m t : KScal) : KRow :=
  let a := b.arith
  if m.1 = negInf32 then { y := kZeros x, stat := none, dg := [], db := [], fp := 0 }
  else
    let (z, f1) := kScale b x
    let (c, f2) := kMapS (subF 9 a) z m
    let (e, f3) := kMap (approxF .exp a) c
    let (q, f4) := kRcp a t
    let (y, f5) := kMapS (mulF 9 a) e q
    let (p, f6) := kMap2 (mulF 9 a) y dy
    let (u, f7) := kReduce .sum a p
    let (h, f8) := kMapS (subF 9 a) dy u
    let (k, f9) := kMap2 (mulF 9 a) y h
    let (dx, f10) := kScale b k
    { y := dx, stat := none, dg := [], db := [],
      fp := f1 ||| f2 ||| f3 ||| f4 ||| f5 ||| f6 ||| f7 ||| f8 ||| f9 ||| f10 }

/-! ### Rows of a kernel -/

/-- An address a number of bytes beyond another. -/
def kAt (a n : Nat) : Nat := (a + n) % 2 ^ 56

/-- A row's registers as address and elements, in a format. -/
def kRegs (a f len : Nat) : List (Nat × Nat) :=
  (List.range ((len + 2047) / 2048)).map (fun k => (kAt a (fmtBytes f (2048 * k)), min 2048 (len - 2048 * k)))

/-- Load a row that is there, each element converted exactly to binary32. -/
def kLoad (s : State) (d : Nat) (a f len : Nat) (ctl : Arith) : KVec × Nat :=
  let raw : KVec := (kRegs a f len).map (fun g =>
    match veGet s d false g.1 (fmtBytes f g.2) with
    | .bytes data p => (unpackElems f g.2 data, p)
    | _ => ([], false))
  if f = 9 then (raw, 0) else kMap (widen32 f ctl) raw

/-- Store a row, each element converted last. -/
def kStore (s : State) (d tag : Nat) (job : Nat × BitVec 32) (a f : Nat) (ctl : Arith) (pz : Bool) (v : KVec) : State × Nat :=
  let (out, fp) := if f = 9 then (v, 0) else kMap (convert 9 f ctl 0) v
  (out.zipIdx.foldl (fun t g =>
    vePut t d tag job (kAt a (fmtBytes f (2048 * g.2))) (packElems f g.1.1) (pz || g.1.2)) s, fp)

/-- What a row reads, and what it writes. -/
def kReads (k : Kernel) (b : KBlock) (row : Nat) : List (Nat × Nat) :=
  let n := fmtBytes b.inFmt b.len
  let m := fmtBytes b.xFmt b.len
  let w := 4 * b.len
  [(kAt b.x (row * m), m)]
    ++ (if k.isBack then [(kAt b.dy (row * n), n), (kAt b.stat (8 * row), 8)] else [])
    ++ (if k.isNorm && b.gamma != 0 then [(b.gamma, if k == .normF && b.kind == 0 then 2 * w else w)] else [])
    ++ (if k == .normB && (b.accDgb || row != 0) then [(b.dgb, 2 * w)] else [])
def kWrites (k : Kernel) (b : KBlock) (row : Nat) : List (Nat × Nat) :=
  let n := fmtBytes b.outFmt b.len
  [(kAt b.y (row * n), n)] ++ (if k.isBack then [] else [(kAt b.stat (8 * row), 8)])
    ++ (if k == .normB then [(b.dgb, 8 * b.len)] else [])

/-- A row's statistics. -/
def kStats (s : State) (d : Nat) (b : KBlock) (row : Nat) : KScal × KScal :=
  match veGet s d false (kAt b.stat (8 * row)) 8 with
  | .bytes data p => ((leNat (slice data 0 4), p), (leNat (slice data 4 4), p))
  | _ => ((0, false), (0, false))

/-- The results of a row whose operands are there. -/
def kRow (k : Kernel) (b : KBlock) (s : State) (d row : Nat) : KRow :=
  let n := fmtBytes b.inFmt b.len
  let (x, f) := kLoad s d (kAt b.x (row * fmtBytes b.xFmt b.len)) b.xFmt b.len b.arith
  let (dy, g) := if k.isBack then kLoad s d (kAt b.dy (row * n)) b.inFmt b.len b.arith else (([] : KVec), 0)
  let col := fun (i : Nat) => (kLoad s d (kAt b.gamma (i * 4 * b.len)) 9 b.len b.arith).1
  let acc := fun (i : Nat) =>
    if b.accDgb || row != 0 then (kLoad s d (kAt b.dgb (i * 4 * b.len)) 9 b.len b.arith).1 else kZeros (dy.map (fun h => (h.1, false)))
  let (st, su) := if k.isBack then kStats s d b row else ((0, false), (0, false))
  let r := match k with
    | .normF =>
      kNormF b x (if b.gamma = 0 then none else some (col 0)) (if b.gamma = 0 ∨ b.kind ≠ 0 then none else some (col 1))
    | .normB => kNormB b x dy (if b.gamma = 0 then none else some (col 0)) st su (acc 0) (acc 1)
    | .smaxF => kSmaxF b x
    | .smaxB => kSmaxB b x dy st su
  let quiet := if k.isNorm then false else if k.isBack then decide (st.1 = negInf32)
    else r.stat.any (fun t => t.1.1 == negInf32)
  { r with fp := if quiet then 0 else r.fp ||| f ||| g }

/-- The row's results are stored; poison anywhere in it poisons the program (04 R91). -/
def kPut (k : Kernel) (b : KBlock) (s : State) (d tag : Nat) (job : Nat × BitVec 32) (row : Nat) (pz : Bool) (r : KRow) :
    State × Nat × Bool :=
  let n := fmtBytes b.outFmt b.len
  let (s1, f) := kStore s d tag job (kAt b.y (row * n)) b.outFmt b.arith pz r.y
  let s2 := match r.stat with
    | some (p, q) =>
      vePut s1 d tag job (kAt b.stat (8 * row)) (natLe 4 p.1 ++ natLe 4 q.1) (pz || p.2 || q.2)
    | none => s1
  let s3 :=
    if k == .normB then
      (kStore (kStore s2 d tag job b.dgb 9 b.arith pz r.dg).1 d tag job (kAt b.dgb (4 * b.len)) 9 b.arith pz r.db).1
    else s2
  let any := pz || (r.y ++ r.dg ++ r.db).any (fun g => g.2) || r.stat.any (fun t => t.1.2 || t.2.2)
  (s3, r.fp ||| f, any)

/-- One row of a kernel: its faults are judged before it stores anything. -/
def kernelRow (k : Kernel) (b : KBlock) (d row : Nat) (pz : Bool) (s : State) (r : VeRun) : VeAct :=
  match veGetAll s d false (kReads k b row), (kWrites k b row).findSome? (fun w => slotFault s w.1 w.2) with
  | .bad a p, _ => .bad a p
  | .wait t, _ => .wait t
  | .bytes _ _, some f => .bad f.1 f.2
  | .bytes _ _, none =>
    let (t, fp, poison) := kPut k b (veTouch s d false (kReads k b row)) d (writerTag r false) (r.queue, r.idx) row pz (kRow k b s d row)
    let n := kCycles k b
    .done (countCycles t d false n)
      ({ r with cycles := r.cycles + n, lines := [], poison := r.poison || poison }.raise fp)

/-- Rows from one on, at most `n` of them, while the program is within its limit; the job counts the rows stored. -/
def kernelRows (k : Kernel) (b : KBlock) (d : Nat) (pz : Bool) : Nat → Nat → State → VeRun → VeAct
  | 0, row, s, r => if b.rows ≤ row then .over s r else .wait (setVeRun s d false r)
  | n + 1, row, s, r =>
    if b.rows ≤ row then .over s r
    else if overLimit s r then .wait (setVeRun s d false r)
    else
      match kernelRow k b d row pz s r with
      | .done t x => kernelRows k b d pz n (row + 1) (t.modJob r.queue r.idx (fun j => { j with nextOff := row + 1 })) x
      | .wait t => .wait (setVeRun t d false { r with lines := (veRun t d false).lines })
      | .bad a p => .wait (faultVe s d false r a p)     -- the rows before it stay stored
      | other => other

/-- A kernel's word: its place, its scalar, its parameter block, and its rows from the first not stored (04 R96); x of a
chained kernel is the emitted FP32 rows (04 R99).  A kernel at index 0 is the single instruction of its program: the words
after it never issue and are not judged, since the spec gives no check of them (DESIGN CHOICE, log 33). -/
def kernelAct (k : Kernel) (d limit : Nat) (chained spoiled : Bool) (s : State) (r : VeRun) (upd : Bool) (_ : Word) (v : VeWord) : VeAct :=
  let a := memAddr r v
  if upd || r.pc != 0 || decide (7 < v.vc.toNat) || a % 64 != 0 then .refuse
  else match tierFault s d a 64 with
    | some (_, .bad) => .refuse
    | some (x, p) => .bad x p
    | none =>
      let n := leNat (readBytes s (addrKey a) 64)
      let pz := spoiled || rangePoison s (addrKey a) 64 || r.scalarPoison v.vc.toNat
      let b := kBlock n
      if kRefused k n then .refuse
      else
        kernelRows k (if chained then { b with xFmt := 9 } else b) d pz limit
          (((s.job r.queue r.idx).map Job.nextOff).getD 0) (veTouch s d false [(a, 64)])
          { r with poison := r.poison || pz }

/-- Is the program of a die's main context that of a chained descriptor (04 R99)? -/
def kernelChained (s : State) (d : Nat) : Bool :=
  let r := veRun s d false
  (s.job r.queue r.idx).any (fun j => descChain j.words)

/-- Have the rows of the matrix descriptor before a chained kernel been emitted (04 R99)? -/
def rowsEmitted (s : State) (q : Nat) (i : BitVec 32) : Bool :=
  (s.queue q).jobs.all (fun j => j.idx != i - 1 || descType j.words != 1 || j.phase == .finished
    || (j.phase == .working && j.array.all (fun a => (tileOf s q j.idx a).isNone)))

/-- The words of the register file that a fixed operation finds in error (04 R91): which register a word of a kernel or of
an update stands in is not given, so an uncorrectable one poisons all that the command's rows store (DESIGN CHOICE, log
77). -/
def fileErrs (d : Nat) (regs : List RegErr) (s : State) : State × Bool :=
  regs.foldl (fun (acc : State × Bool) e =>
    if e.corrected then (bump acc.1 0x8043 (d + 1) 1, acc.2) else (sticky acc.1 0xA040 1 d, true)) (s, false)

/-- A kernel's word issued for its rows, at most `limit` of them, with the words of the register file that they find in
error. -/
def kernelIssue (k : Kernel) (limit : Nat) (chained : Bool) (regs : List RegErr) (s : State) (d : Die) : State :=
  veStep s d .main k.op (fun _ => 0) (fun t r upd w v =>
    let (t1, bad) := fileErrs d.val regs t
    kernelAct k d.val limit chained bad t1 r upd w v)

/-- A fixed kernel: all of its rows; of a chained one, only its word is judged, and its rows run in blocks. -/
def kernelStep (k : Kernel) (regs : List RegErr) (s : State) (d : Die) : State :=
  let chained := kernelChained s d.val
  kernelIssue k (if chained then 0 else 4096) chained regs s d

/-- KNORMF (04 R97): layer and RMS normalisation forward. -/
def execKnormf (r : LaneRun) (s : State) : Host.Outcome State Fault Refusal :=
  .next (kernelStep .normF r.regs (readErrs s r.errs) r.die)

/-- KNORMB (04 R97). -/
def execKnormb (r : LaneRun) (s : State) : Host.Outcome State Fault Refusal :=
  .next (kernelStep .normB r.regs (readErrs s r.errs) r.die)

/-- KSMAXF (04 R97): soft-maximum forward. -/
def execKsmaxf (r : LaneRun) (s : State) : Host.Outcome State Fault Refusal :=
  .next (kernelStep .smaxF r.regs (readErrs s r.errs) r.die)

/-- KSMAXB (04 R97). -/
def execKsmaxb (r : LaneRun) (s : State) : Host.Outcome State Fault Refusal :=
  .next (kernelStep .smaxB r.regs (readErrs s r.errs) r.die)

/-- The kernel of an opcode. -/
def kernelOf (op : Nat) : Kernel := if op = 0x80 then .normF else if op = 0x81 then .normB else if op = 0x82 then .smaxF else .smaxB

/-- CHAINED_BLOCK_START (04 R99): the next 128 rows of a chained kernel, once the rows before it have been emitted. -/
def chainedBlock (d : Die) (regs : List RegErr) (s : State) : State :=
  let r := veRun s d.val false
  if !kernelChained s d.val || !rowsEmitted s r.queue r.idx then s
  else match veFetch s d.val false with
    | .word _ w _ =>
      let op := (veDecode w).op.toNat
      if op < 0x80 ∨ 0x83 < op then s
      else
        let row := ((s.job r.queue r.idx).map Job.nextOff).getD 0
        kernelIssue (kernelOf op) (128 - row % 128) true regs s d
    | .wait t => t
    | _ => s

def execChainedBlockStart (r : LaneRun) (s : State) :
    Host.Outcome State Fault Refusal :=
  .next (chainedBlock r.die r.regs (readErrs s r.errs))

end Sys2Proof.Machine
end

