-- ==== Sys2Proof/Machine/Dict.lean ====
section
/-!
DEFINITION. What an entry of the object dictionary reads (15 R329 to R331): entries that show other state are computed
from it at the read, entries that a sensor or a cycle count outside the model feeds are free values within their range
(log 3), and every other entry is what the dictionary stores.
-/

namespace Sys2Proof.Machine

/-! ### Entries computed from the state -/

/-- A bit mask of the positions below `n` that satisfy `p`. -/
def maskOf (n : Nat) (p : Nat → Bool) : Nat := (List.range n).foldl (fun v i => if p i then v + 2 ^ i else v) 0

/-- The least number of spare rows left in any bank of a tier (07 R160). -/
def rowSparesLeft (s : State) (d : Nat) : Nat := 48 - (s.memRec d).rowSpares.foldl (fun a e => max a e.2) 0

/-- PC_MIGRATION (07 Table 7.4): state, pseudo-channel, triggers waiting, durable cursor. -/
def pcMigration (s : State) (d : Nat) : Nat :=
  let h := s.hbm d
  h.phase % 16 * 2 ^ 28 + h.pc % 64 * 2 ^ 22 + min 63 h.waiting.length * 2 ^ 16 + min 65535 h.cursor

/-- Blocks of the ghost engine's sets, each counted once (13 Table 13.10, GHOST_DIRTY_BYTES). -/
def dirtyBlocks (s : State) : Nat :=
  let r := s.res
  ((r.closing ++ r.unacked ++ r.staged.map (·.1)).foldl (fun l x => insertNat x l) r.openSet).length

/-- Nonces issued and neither consumed nor expired (15 R342). -/
def nonceLive (s : State) (n : Nonce) : Bool := decide ((clock s - n.at_).toNat < dnum s 0x20E0 8 * 1000000)
def noncesOut (s : State) : Nat := (s.mgmt.nonces.filter (nonceLive s)).length

/-- PLCA_STATUS (15 R336). -/
def plcaStatus (s : State) : Nat := if dnum s 0x20E0 1 = 255 then 0 else if s.mgmt.fallback then 2 else 1

/-- A 128-bit address as its sixteen bytes, the first one sent first. -/
def addrBytes (a : BitVec 128) : List Byte := (natLe 16 a.toNat).reverse

/-- The modified EUI-64 link-local address (15 R337). -/
def linkLocal (s : State) : BitVec 128 :=
  let m := (natLe 6 s.fuses.mac.toNat).reverse
  let id := [byteAt m 0 ^^^ 2, byteAt m 1, byteAt m 2, 0xFF, 0xFE, byteAt m 3, byteAt m 4, byteAt m 5]
  BitVec.ofNat 128 (leNat (([0xFE, 0x80, 0, 0, 0, 0, 0, 0] ++ id).reverse))

/-- PORT_STATE (09 Table 9.11). -/
def portState (s : State) (p : Nat) : Nat :=
  let x := s.port p
  x.state % 4 * 2 ^ 30 + x.spans % 4 * 2 ^ 28 + x.peer.toNat

/-- A margin's pattern, 0 where nothing is measured. -/
def milliF32 (v : Option Int) : Nat := match v with | some x => ratF32 x 1000 | none => 0

/-- Steps of a clock cap in kHz (16 R358). -/
def stepsKhz (n : Nat) : Nat := n * 21875

/-- The numeric entries that show other state. -/
def derivedNum (s : State) (idx sub : Nat) : Option Nat :=
  let d := sub - 1
  match idx with
  | 0x1000 => if sub = 3 then some s.boot.fwVersion.toNat else if sub = 6 then some s.fuses.mac.toNat else none
  | 0x1010 =>
    some (if sub = 1 then s.fuses.mask.toNat else if sub = 2 then popBelow 64 s.fuses.mask.toNat
      else if sub = 3 then inService s else popBelow 64 (inService s))
  | 0x3010 => some ((s.flash.bumpSpared.filter (fun g => groupDie g == d)).length)
  | 0x3011 => some (s.tier d).ports.toNat
  | 0x3015 => some s.stackMask.toNat
  | 0x30A0 => some (milliF32 (fibreMargin s d))
  | 0x30A1 => some ((s.fibre d).bers.foldl (fun a e => if f32Le a e.2 then e.2 else a) 0)
  | 0x30A2 => some (milliF32 (fibreReserve s d))
  | 0x30A3 => some (bitAt (opticalDone s) 0)
  | 0x30D0 => some (hostLinkStatus s)
  | 0x30E0 => if sub = 1 then some (plcaStatus s) else if sub = 6 then some (noncesOut s) else none
  | 0x40A8 => some (bitAt (domainOn s 28 && s.stage.latch.getLsbD 0) 0 + bitAt (domainOn s 29 && s.stage.latch.getLsbD 1) 1)
  | 0x4082 => some (maskOf 9 (fun b =>
      b != d && unitUp s d && unitUp s b && pairLanes (s.pair d b) == 0 && (s.pair d b).lanes.relay.isSome))
  | 0x5001 =>
    let t := s.tier d
    some (if s.stackMask.getLsbD d then
        (tierTop s d - (t.quads.filter (fun k => t.out.getLsbD k)).length * 100663296) / 1048576 else 0)
  | 0x5002 => some (s.memRec d).lent.length
  | 0x5003 => some (rowSparesLeft s d)
  | 0x5010 => some (if s.stackMask.getLsbD d then hbmGib s d else 0)
  | 0x5011 => some (if s.stackMask.getLsbD d then (~~~(s.hbm d).retired).toNat else 0)
  | 0x5012 => some (pcMigration s d)
  | 0x6000 => if sub = 6 then some s.stage.lastStop.toNat else none
  | 0x6012 => some s.stage.domains.toNat
  | 0x6020 => some (ratF32 (s.therm d).tGov 1000)
  | 0x6021 => some (ratF32 (s.therm d).tModel 1000)
  | 0x6022 => some (match (s.therm d).cdMax with | some t => ratF32 t 1000 | none => 0xC3888000)
  | 0x6027 => some (ratF32 (s.therm d).rj 1000000)
  | 0x6028 => some (ratF32 (s.therm d).tau 1000)
  | 0x6030 => some (stepsKhz s.power.cap)
  | 0x6031 => some (stepsKhz (s.therm d).capCur)
  | 0x6032 => if sub = 9 then none else some (stepsKhz (s.therm d).capTh)
  | 0x6033 => some (stepsKhz (clockSteps s d))
  | 0x7000 =>
    if sub = 1 then some s.fuses.romVersion.toNat else if sub = 2 then some s.boot.imageSvn.toNat
    else if sub = 3 then some s.fuses.svn.toNat else if sub = 4 then some s.boot.keyIndex.toNat
    else if sub = 5 then some s.fuses.keyRevoked.toNat else none
  | 0x7003 => if sub = 2 then some s.boot.log.length else none
  | 0x7005 => if sub = 2 then some s.boot.update.toNat else if sub = 3 then some s.boot.reason.toNat else none
  | 0x7006 => if sub = 1 then some s.stage.resetCause.toNat else none
  | 0x9000 => if sub = 2 then some s.stage.straps.toNat else none
  | 0x9001 => if sub = 2 then some (bitAt s.fab.released 0) else none
  | 0x9010 => some (portState s d)
  | 0x9011 => some (s.port d).lanes.toNat
  | 0x9012 =>
    some (if sub = 1 then s.fab.windows.length else if sub = 2 then s.fab.rqs.length
      else (s.fab.circuits.filter (·.isOpen)).length)
  | 0x9020 =>
    let t := s.tempo
    if sub = 1 then some t.ticks.toNat else if sub = 2 then some t.state
    else if sub = 3 then some (match t.root with | some r => r.toNat | none => 0xFFFFFFFF)
    else if sub = 4 then some t.depth
    else if sub = 5 then some (match t.parent with | some p => p.val | none => 7)
    else if sub = 7 then some (ratF32 (((t.incr.toNat : Int) - incrNominal) * 1000000) incrNominal)
    else none
  | 0xA0FF => if sub = 2 then some s.flash.journalCnt else none
  | 0xB050 => some s.train.phase.toNat
  | 0xB060 =>
    if sub = 9 then some (maskOf 16 (fun i => (s.queue (512 + i)).state != .disabled))
    else some (maskOf 64 (fun i => (s.queue (64 * d + i)).state != .disabled))
  | 0xB061 => some (maskOf 64 (fun i => (s.queue (64 * d + i)).state == .error))
  | 0xB0B0 => some (if sub = 1 then s.coll.opens.length else s.coll.pend.length)
  | 0xC023 => if sub = 2 then some s.res.owner else if sub = 3 then some (dirtyBlocks s * 65536) else none
  | 0xC029 => if sub ≤ 8 then some (mget 0 s.res.hostState d) else none
  | _ => none

/-- The bytes of a journal entry (15 R349). -/
def journalBytes (e : JEntry) : List Byte :=
  natLe 4 e.powerUps.toNat ++ natLe 8 e.beat.toNat ++ natLe 2 e.index.toNat ++ [e.sub, e.bit]

/-- The detour table's entry as DETOUR_ENTRY shows it (09 R211). -/
def detourBytes (e : Detour) : List Byte := natLe 16 (e.lo.toNat * 2 ^ 110 + e.hi.toNat * 2 ^ 92 + e.mask.toNat * 2 ^ 84)

/-- The STR and BLOB entries that show other state. -/
def derivedBytes (s : State) (idx sub : Nat) : Option (List Byte) :=
  let d := sub - 1
  match idx with
  | 0x1000 =>
    if sub = 1 then some s.fuses.partNumber else if sub = 4 then some s.fuses.serial
    else if sub = 7 then some (addrBytes (linkLocal s)) else none
  | 0x4080 => some ((List.range 9).map (fun b =>
      if b = d ∨ !unitUp s d ∨ !unitUp s b then 0 else BitVec.ofNat 8 (pairLanes (s.pair d b))))
  | 0x4081 => some ((List.range 9).map (fun b =>
      if b = d ∨ !unitUp s d ∨ !unitUp s b then 0 else BitVec.ofNat 8 (s.pair d b).lanes.spares.length))
  | 0x40A1 => some ((s.fibre d).txMap.map (fun c => BitVec.ofNat 8 c.toNat))
  | 0x40A2 => some ((s.fibre d).rxMap.map (fun c => BitVec.ofNat 8 c.toNat))
  | 0x40A3 => some ((List.range 18).map (fun k => BitVec.ofNat 8 (mget 0 (s.bank d).source k)))
  | 0x7000 => if sub = 6 then some s.boot.imageDigest else none
  | 0x7001 =>
    if sub = 1 then some (if s.boot.identityOk then ((Config.identityKey s.fuses.serial) ++ List.replicate 32 0).take 32
      else List.replicate 32 0)
    else some s.fuses.cert
  | 0x7002 => if sub = 2 then some s.boot.quote else none
  | 0x7003 => if sub = 1 then some (s.boot.log.flatMap logBytes) else if sub = 3 then some s.boot.running else none
  | 0x9002 => some (match s.fab.detours[d]? with | some e => detourBytes e | none => List.replicate 16 0)
  | 0xA0FF => some ((List.range 4096).flatMap (fun k => journalBytes (mget JEntry.blank s.flash.journal k)))
  | _ => none

/-- Entries whose value comes from a sensor, or from a count of cycles, that no command brings (log 3). -/
def telemetry (idx sub : Nat) : Bool :=
  [0x6010, 0x6011, 0x40A7, 0x8020, 0x8021, 0x8042, 0x8051].contains idx
    || (idx == 0x6000 && (sub == 2 || sub == 4)) || (idx == 0x80C0 && sub == 4)

/-- A free number of an entry, within its range (log 3). -/
def freeNum (e : Entry) (w : Word) : Nat :=
  let v := w.toNat % 2 ^ (8 * tyLen e.ty)
  if numInRange e v then v else e.dflt

/-- The value of zero of an entry's type: what a WO entry reads (00 R9). -/
def zeroValue (e : Entry) : List Byte :=
  if isNumeric e then natLe (tyLen e.ty) 0
  else match e.range with
    | .bytes lo _ => List.replicate lo 0
    | _ => []

/-- What an entry reads, and the state after (15 R331; a free value is used up). -/
def readEntry (s : State) (e : Entry) (sub : Nat) : List Byte × State :=
  if e.acc = .wo then (zeroValue e, s)
  else if e.index = 0x40A7 ∧ !(domainOn s (27 + sub) && s.stage.latch.getLsbD (sub - 1)) then ([], s)
  else if telemetry e.index sub then
    let (w, t) := freeWord s
    if isNumeric e then (natLe (tyLen e.ty) (freeNum e w), t)
    else (natLe 8 w.toNat, t)
  else if isNumeric e then
    (natLe (tyLen e.ty) ((derivedNum s e.index sub).getD (dnum s e.index sub)), s)
  else ((derivedBytes s e.index sub).getD (storedBytes s e sub), s)

/-! ### Sub 00 (15 R329) -/

/-- Does an index exist? -/
def indexKnown (idx : Nat) : Bool := dictTable.any (fun e => e.index == idx)

/-- The highest sub of an index. -/
def highestSub (idx : Nat) : Nat := dictTable.foldl (fun m e => if e.index = idx then max m e.last else m) 0

/-- The entry that sub 00 of an index is; the spec gives it no name. -/
def subZero (idx : Nat) : Entry :=
  ⟨idx, 0, 0, "", .u8, .ro, highestSub idx, false, .full, false⟩

/-- The entry that a request names (15 R329): none is NO_SUB where the index is known. -/
def namedEntry (idx sub : Nat) : Option Entry := if sub = 0 then (if indexKnown idx then some (subZero idx) else none) else entryOf idx sub

/-! ### DESCRIBE (15 Table 15.10) -/

def tyCode : EType → Nat
  | .u8 => 1
  | .u16 => 2
  | .u32 => 3
  | .u64 => 4
  | .i32 => 5
  | .f32 => 6
  | .str => 7
  | .blob => 8

def accCode : Access → Nat
  | .ro => 1
  | .rw => 2
  | .wo => 3
  | .w1c => 4
  | .rws => 5
  | .rwl => 6

/-- The least and the greatest value of an entry, as the reply writes them. -/
def describeRange (e : Entry) : Nat × Nat :=
  match e.range with
  | .full =>
    if e.ty = .f32 then (0xFF7FFFFF, 0x7F7FFFFF)
    else if e.ty = .i32 then (0xFFFFFFFF80000000, 0x7FFFFFFF)
    else (0, 2 ^ (8 * tyLen e.ty) - 1)
  | .span lo hi => (lo, hi)
  | .mask m => (0, m)
  | .multiple _ lo hi => (lo, hi)
  | .bytes lo hi => (lo, hi)

/-- The largest value length of an entry. -/
def maxLength (e : Entry) : Nat :=
  if isNumeric e then tyLen e.ty
  else match e.range with | .bytes _ hi => hi | _ => 0

/-- The 64 bytes of a DESCRIBE reply; `name` stands for the name of sub 00, which the spec does not give. -/
def describeBytes (e : Entry) (sub : Nat) (name : List Byte) : List Byte :=
  let text := if e.sub = 0 then name else e.name.toList.map (fun c => BitVec.ofNat 8 c.toNat)
  let r := describeRange e
  natLe 2 e.index ++ natLe 1 sub ++ natLe 1 (tyCode e.ty) ++ natLe 1 (accCode e.acc)
    ++ natLe 1 (bitAt e.keep 0 + bitAt e.dev 1) ++ natLe 2 (maxLength e % 65536)
    ++ (text ++ List.replicate 32 0).take 32 ++ natLe 8 (if e.dev ∨ !isNumeric e then 0 else e.dflt) ++ natLe 8 r.1 ++ natLe 8 r.2

end Sys2Proof.Machine
end

