-- ==== Sys2Proof/Machine/Mgmt.lean ====
section
/-!
DEFINITION. The management controller (15 R329 to R349; 14 R325): one pipeline for a BDP message of either path, from
its arrival to its reply, with nonces, signatures, the reply cache, the token buckets and the persistent store; the rows
of dictionary writes that have a name of their own build their WRITE message and go through it.
-/

namespace Sys2Proof.Machine

/-! ### Messages (15 R332, R341) -/

/-- The 16-byte header: flag bits 87:80 and RESULT (15 Table 15.2). -/
def bdpHeader (op : Byte) (seq : BitVec 32) (len flags result : Nat) : List Byte :=
  natLe 2 0x5042 ++ [1, op] ++ natLe 4 seq.toNat ++ natLe 2 len ++ natLe 1 flags ++ natLe 1 result ++ natLe 4 0

/-- The 88 bytes of a trailer. -/
def trailerBytes (t : Trailer) : List Byte := natLe 8 t.keyId.toNat ++ natLe 16 t.nonce.toNat ++ t.sig

/-- A request as its sender writes it. -/
def bdpRequest (src : Source) (op : Byte) (seq : BitVec 32) (body : List Byte) (trailer : Option Trailer) : BdpMsg :=
  match trailer with
  | none => { src := src, bytes := bdpHeader op seq body.length 0 0 ++ body }
  | some t => { src := src, bytes := bdpHeader op seq body.length 1 0 ++ body ++ trailerBytes t }

def msgOp (m : BdpMsg) : Byte := byteAt m.bytes 3
def msgSeq (m : BdpMsg) : BitVec 32 := BitVec.ofNat 32 (leNat (slice m.bytes 4 4))
def msgLen (m : BdpMsg) : Nat := leNat (slice m.bytes 8 2)
def msgFlags (m : BdpMsg) : Byte := byteAt m.bytes 10
def msgSigned (m : BdpMsg) : Bool := (msgFlags m).getLsbD 0
def msgBody (m : BdpMsg) : List Byte := slice m.bytes 16 (msgLen m)
def msgIndex (m : BdpMsg) : Nat := leNat (slice m.bytes 16 2)
def msgSub (m : BdpMsg) : Nat := (byteAt m.bytes 18).toNat
def msgType (m : BdpMsg) : Nat := (byteAt m.bytes 19).toNat
/-- The value that a WRITE carries. -/
def msgValue (m : BdpMsg) : List Byte := (msgBody m).drop 4
def msgTrailer (m : BdpMsg) : List Byte := slice m.bytes (16 + msgLen m) 88

/-- MAGIC and VERSION hold (15 R332). -/
def isBdp (m : BdpMsg) : Bool := decide (16 ≤ m.bytes.length) && leNat (m.bytes.take 2) == 0x5042 && byteAt m.bytes 2 == 1

/-- The form of a request: reserved fields, RESULT 0, a known OP, LENGTH and the body's own form (15 R332, R333). -/
def formOk (m : BdpMsg) : Bool :=
  let len := msgLen m
  let body := msgBody m
  leNat (slice m.bytes 12 4) == 0 && byteAt m.bytes 11 == 0 && (msgFlags m).toNat < 16
    && m.bytes.length == 16 + len + (if msgSigned m then 88 else 0)
    && (match (msgOp m).toNat with
        | 1 => len == 12 && byteAt body 3 == 0 && leNat (slice body 10 2) == 0
        | 2 => decide (4 ≤ len)
        | 3 => len == 4 && byteAt body 3 == 0
        | 4 => len == 0
        | _ => false)

/-! ### Keys and nonces (15 R340 to R343) -/

/-- The operator keys held. -/
def operatorKeys (s : State) : List (List Byte) :=
  ((List.range 8).map (fun k => mget (defaultBlob 0x7010) s.blobs (dkey 0x7010 (k + 1)))).filter (fun k => !allZero k)

/-- A source is known (15 R338); the mailbox always is. -/
def sourceKnown (s : State) : Source → Bool
  | .mailbox => true
  | .udp a => a != 0 && (List.range 16).any (fun k => mget (defaultBlob 0x7011) s.blobs (dkey 0x7011 (k + 1)) == addrBytes a)

/-- A nonce is issued: the fifth of a source takes the place of its oldest (15 R342). -/
def issueNonce (s : State) (src : Source) : BitVec 128 × State :=
  let m := s.mgmt
  let v := Config.nonce m.draws
  let mine := m.nonces.filter (fun n => n.src == src)
  let rest := if 4 ≤ mine.length then (match mine with | o :: _ => m.nonces.erase o | [] => m.nonces) else m.nonces
  (v, { s with mgmt := { m with nonces := rest ++ [{ src := src, value := v, at_ := clock s }], draws := m.draws + 1 } })

/-- What a signature covers: the digest of "BDP1", SERIAL, the header, the body, KEY_ID and NONCE (15 R341). -/
def signedDigest (s : State) (m : BdpMsg) : List Byte :=
  sha512 ([0x42, 0x44, 0x50, 0x31] ++ (s.fuses.serial ++ List.replicate 16 0).take 16 ++ m.bytes.take 16 ++ msgBody m
    ++ (msgTrailer m).take 24)

/-- The results of the signature's checks, in the order of R335; the state with the nonce that the request names
consumed, whichever of them fails (R342). -/
def checkSignature (s : State) (m : BdpMsg) : Nat × State :=
  let t := msgTrailer m
  let nonce := BitVec.ofNat 128 (leNat (slice t 8 16))
  let mine := s.mgmt.nonces.find? (fun n => n.src == m.src && n.value == nonce && nonceLive s n)
  let u := match mine with
    | none => s
    | some n => { s with mgmt := { s.mgmt with nonces := s.mgmt.nonces.erase n } }
  match (operatorKeys s).find? (fun k => (sha512 k).take 8 == t.take 8) with
  | none => (9, u)
  | some key =>
    if mine.isNone then (8, u)
    else (if edVerify key (signedDigest s m) (slice t 24 64) then 0 else 7, u)

/-- A write of this access code needs a signature on this path (15 R340, R343). -/
def needsSignature (s : State) (src : Source) (acc : Access) : Bool :=
  match src with
  | .mailbox => acc == .rws && !(operatorKeys s).isEmpty
  | .udp _ => acc == .rws || dnum s 0x20E0 6 == 1

/-- The signature's step of a request: 0, or its result with the failure recorded (15 R340). -/
def authorise (s : State) (m : BdpMsg) (needed : Bool) : Nat × State :=
  if msgSigned m then
    let (r, t) := checkSignature s m
    (r, if r = 0 then t else sticky (bump t 0x80E0 6 1) 0xA030 4 0)
  else if needed then (6, s) else (0, s)

/-! ### What an entry's own rule demands (15 R335) -/

/-- Ranges that the tables give in words: the values of PLANE_ORDER and CLASS_MIN (09 Table 9.11), the order of the
health thresholds (13 Table 13.10), the last operator key (15 R343), and a ghost region within one die's HBM (13 R301). -/
def valueOk (s : State) (e : Entry) (sub : Nat) (v : List Byte) : Bool :=
  let n := leNat v
  match e.index with
  | 0x9001 => sub != 1 || v.all (fun b => decide (b.toNat ≤ 5))
  | 0x9003 =>
    let c := (List.range 6).map (fun k => leNat (slice v (2 * k) 2))
    sub != 1 || (c.all (fun x => decide (16 ≤ x ∧ x ≤ 256)) && decide (c.foldl (· + ·) 0 ≤ 640))
  | 0x30C1 =>
    if sub = 1 then decide (dnum s 0x30C1 2 < n)
    else if sub = 2 then decide (n < dnum s 0x30C1 1) && decide (dnum s 0x30C1 3 < n)
    else if sub = 3 then decide (n < dnum s 0x30C1 2) else true
  | 0x7010 => !allZero v || (List.range 8).any (fun k =>
      k + 1 != sub && !allZero (mget (defaultBlob 0x7010) s.blobs (dkey 0x7010 (k + 1))))
      || allZero (mget (defaultBlob 0x7010) s.blobs (dkey 0x7010 sub))
  | 0xC021 =>
    let len := dcell s 0xC022 sub
    n % 65536 == 0 && (len == 0 || (addrDie n < 8 && decide (0x1000000000 ≤ addrOff n) && decide (addrOff n + len ≤ 0x2000000000)))
  | 0xC022 =>
    let base := dcell s 0xC021 sub
    n == 0 || (addrDie base < 8 && addrSlot base == ownSlot s && decide (0x1000000000 ≤ addrOff base)
      && decide (addrOff base + n ≤ 0x2000000000))
  | _ => true

/-- The regions on one stack may total at most 32 GiB − 4 KiB (13 R301). -/
def regionsFit (s : State) (idx sub n : Nat) : Bool :=
  let l := (List.range 16).map (fun k =>
    (if idx = 0xC021 ∧ k + 1 = sub then n else dcell s 0xC021 (k + 1), if idx = 0xC022 ∧ k + 1 = sub then n else dcell s 0xC022 (k + 1)))
  (List.range 8).all (fun d => decide ((l.filter (fun r => addrDie r.1 == d)).foldl (fun a r => a + r.2) 0 ≤ 34359734272))

/-- The entry's own rule accepts the write in the present state; else the result is STATE. -/
def stateOk (s : State) (e : Entry) (sub : Nat) (v : List Byte) : Bool :=
  let n := leNat v
  match e.index with
  | 0x9000 => sub != 1 || (bitsOf n 13 12 == s.stage.straps.toNat / 4 && bitsOf n 7 6 == s.stage.straps.toNat % 4)
  | 0x9001 => sub != 2 || n == 1
  | 0x7005 => s.boot.update != 1 && s.boot.update != 2
  | 0x7010 => decide (s.boot.log.length < 256)
  | 0x7011 => decide (s.boot.log.length < 256)
  | 0xC002 => s.res.passedOk
  | 0xC020 => sub != 12 || rollbackOk s
  | 0xC021 => s.res.mode == 0 && regionsFit s 0xC021 sub n
  | 0xC022 => s.res.mode == 0 && regionsFit s 0xC022 sub n
  | 0x30C2 => sub != 1 || !n.testBit 0 || requalOk s
  | 0x40A0 => sub != 9 || !((List.range 8).any (fun k => !portMapLegal (writtenMap s k)) || (mapChanges s).any (circuitOn s))
  | _ => true

/-- The effects that a refusal by an entry's own rule still has (15 R334; 10 R235; 13 R315). -/
def refusalEffect (s : State) (e : Entry) (sub : Nat) : State :=
  if e.index = 0x30C2 ∧ sub = 1 then requalRefused s
  else if e.index = 0x40A0 ∧ sub = 9 then portMapApply s
  else s

/-! ### Applying a write -/

/-- The device leaves dark-through (09 R229): its ports may train, and the straight-through entries of the circuits that
both neighbours report are installed. -/
def darkRelease (s : State) (circuits : List HopEntry) : State :=
  if s.fab.released then s
  else
    let straight := circuits.filter (fun h =>
      h.inPort.val / 6 == h.outPort.val / 6 && (h.inPort.val % 6 / 2 == h.outPort.val % 6 / 2) && h.inPort != h.outPort)
    let s1 := { s with fab := { s.fab with released := true, hops := s.fab.hops ++ straight } }
    straight.foldl (fun t h => takeLanes t h.outPort.val (BitVec.ofNat 16 (2 ^ h.lane.val))) s1

/-- TIER_RC_MIB as it is stored: at least the region's lent lines, rounded up to 4 MiB (07 R159). -/
def rcStored (s : State) (d n : Nat) : Nat := max n (((s.memRec d).lent.length + 8191) / 8192 * 4)

/-- The value that a write stores. -/
def normalised (s : State) (e : Entry) (sub : Nat) (v : List Byte) : List Byte :=
  if e.index = 0x5000 then natLe 1 (rcStored s (sub - 1) (leNat v)) else v

/-- A region size is written: it waits until every queue of the die is DISABLED (07 R159). -/
def rcWrite (s : State) (d n : Nat) : State := rcResize (s.setTier d { s.tier d with rcHeld := some n }) d

/-- A reset is asked for (17 R376). -/
def askReset (s : State) (n : Nat) : State :=
  let r : ResetAsk :=
    match n with
    | 1 => ResetAsk.module
    | 2 => ResetAsk.hub
    | _ => ResetAsk.die (BitVec.ofNat 8 (dcell s 0x7006 3))
  { s with boot := { s.boot with reset := some r, resetAt := clock s } }

/-- An accepted write takes effect. -/
def applyWrite (s : State) (e : Entry) (sub : Nat) (v : List Byte) (circuits : List HopEntry) : State :=
  let n := leNat v
  if e.acc = .w1c then dset s e.index sub (dcell s e.index sub - (dcell s e.index sub &&& n))
  else match e.index with
    | 0x5000 => rcWrite (putStored s e sub v) (sub - 1) n
    | 0x7002 => attest s v
    | 0x7005 => fwUpdate s n
    | 0x7006 => if sub = 2 then askReset s n else putStored s e sub v
    | 0x7010 => measure (putStored s e sub v) 9 v
    | 0x7011 => measure (putStored s e sub v) 9 v
    | 0x9001 => if sub = 2 then darkRelease s circuits else putStored s e sub v
    | 0x20E0 => if sub = 1 then putStored { s with mgmt := { s.mgmt with fallback := false } } e sub v else putStored s e sub v
    | 0x30C2 => if sub = 1 then (if n.testBit 0 then requalStart s n else s) else putStored s e sub v
    | 0x40A0 => if sub = 9 then portMapApply s else putStored s e sub v
    | 0xC000 =>
      if sub = 1 then fabricEpoch s n
      else if sub = 2 then (if n = 1 then enterFenced s else s)
      else putStored s e sub v
    | 0xC001 => fenceEntry s (sub - 1) n
    | 0xC002 => takeAdmission s n
    | 0xC020 => if sub = 1 then ghostMode s n else if sub = 12 then ghostRollback s else putStored s e sub v
    | 0xC030 => if sub = 1 then shadowRole s n else putStored s e sub v
    | _ => putStored s e sub v

/-- The reply says HELD: the write takes effect later, under the entry's own rule (15 R336; 05 R119; 09 R201, R210, R213;
17 R376; 07 R159). -/
def heldWrite (s : State) (idx sub : Nat) : Bool :=
  (idx == 0x20E0 && sub ≤ 4) || (idx == 0x2050 && sub == 1) || idx == 0x2051 || idx == 0x2052 || (idx == 0x9000 && sub == 1)
    || (idx == 0x9001 && sub == 1) || (idx == 0x9003 && sub == 1) || (idx == 0x7006 && sub == 2)
    || (idx == 0x5000 && (List.range 64).any (fun i => (s.queue (64 * (sub - 1) + i)).state != .disabled))

/-! ### Replies (15 R335, R339; 14 R325) -/

/-- A reply enters the cache of its source, which keeps the last eight (15 R335). -/
def cacheReply (s : State) (m : BdpMsg) (reply : List Byte) : State :=
  match m.src with
  | .mailbox => s
  | .udp _ =>
    let others := s.mgmt.cache.filter (fun c => !(c.src == m.src && c.seq == msgSeq m))
    let mine := others.filter (fun c => c.src == m.src)
    let kept := if 8 ≤ mine.length then (match mine with | o :: _ => others.erase o | [] => others) else others
    { s with mgmt := { s.mgmt with cache := kept ++ [{ src := m.src, seq := msgSeq m, req := m.bytes, reply := reply }] } }

/-- The mailbox sets DONE with a status and a response (14 R325, R324). -/
def mbxFinish (s : State) (status : Byte) (response : List Byte) : State :=
  raiseVector { s with host := { s.host with mbxBusy := false, mbxDone := true, mbxStatus := status, rspBuf := response } }
    s.host.mgmtVector.toNat

/-- A frame goes to the transmit queue of sixteen; how many have left since the last one is open (15 R339; log 3). -/
def sendFrame (s : State) (o : Output) : Bool × State :=
  let (w, t) := freeWord s
  let left := w.toNat % (t.mgmt.txq + 1)
  let n := t.mgmt.txq - left
  if 16 ≤ n then (false, bump { t with mgmt := { t.mgmt with txq := n } } 0x80E0 9 1)
  else (true, emit { t with mgmt := { t.mgmt with txq := n + 1 } } o)

/-- The bytes of a reply leave on the path of the request. -/
def sendReply (s : State) (src : Source) (bytes : List Byte) (result : Nat) : State :=
  match src with
  | .mailbox => bump (mbxFinish s (if result = 0 then 0 else 3) bytes) 0x80E0 10 1
  | .udp _ =>
    let (ok, t) := sendFrame s (.bdp src bytes)
    if ok then bump t 0x80E0 4 1 else t

/-- A request ends with its result (15 R332, R334, R335); a refused one carries no body. -/
def answer (s : State) (m : BdpMsg) (result : Nat) (held : Bool) (body : List Byte) : State :=
  let b := if result = 0 then body else []
  let bytes := bdpHeader (msgOp m) (msgSeq m) b.length (2 + bitAt held 3) result ++ b
  let s1 := if result = 0 then s else bump s 0x80E0 5 1
  sendReply (cacheReply s1 m bytes) m.src bytes result

/-! ### The operations (15 R333, R346) -/

/-- Bytes of one reply's room (15 R333). -/
def replyRoom : Source → Nat
  | .mailbox => 4068
  | .udp _ => 1424

/-- The reply body of a READ. -/
def readBody (m : BdpMsg) (e : Entry) (v : List Byte) : List Byte :=
  let off := leNat (slice (msgBody m) 4 4)
  let most := leNat (slice (msgBody m) 8 2)
  let head := natLe 2 (msgIndex m) ++ natLe 1 (msgSub m) ++ natLe 1 (tyCode e.ty) ++ natLe 4 v.length
  if isNumeric e then head ++ natLe 4 0 ++ v
  else head ++ natLe 4 off ++ slice v off (min most (replyRoom m.src))

/-- The body of a WRITE's reply. -/
def writeBody (m : BdpMsg) : List Byte := (msgBody m).take 4

/-- A write that has passed its checks: a persistent one is stored first and answered when it is durable. -/
def acceptWrite (s : State) (m : BdpMsg) (e : Entry) (circuits : List HopEntry) : State :=
  let sub := msgSub m
  let v := normalised s e sub (msgValue m)
  if e.keep then
    { s with mgmt := { s.mgmt with store := some { msg := m, key := dkey e.index sub, value := v, again := false, silent := false } } }
  else
    let held := heldWrite s e.index sub
    if e.index = 0x7006 ∧ sub = 2 then applyWrite (answer s m 0 held (writeBody m)) e sub v circuits
    else answer (applyWrite s e sub v circuits) m 0 held (writeBody m)

/-- A WRITE (15 R335): access, signature, type, length and range, the entry's own rule. -/
def doWrite (s : State) (m : BdpMsg) (e : Entry) (circuits : List HopEntry) : State :=
  let sub := msgSub m
  let v := msgValue m
  if sub = 0 ∨ e.acc = .ro then answer s m 3 false []
  else if e.acc = .rwl ∧ s.boot.complete then answer s m 10 false []
  else
    let (r, t) := authorise s m (needsSignature s m.src e.acc)
    if r ≠ 0 then answer t m r false []
    else if msgType m ≠ tyCode e.ty ∨ !lengthOk e v then answer t m 4 false []
    else if e.acc != .w1c && !(inRange e v && valueOk t e sub v) then answer t m 5 false []
    else if !stateOk t e sub v then answer (refusalEffect t e sub) m 11 false []
    else acceptWrite t m e circuits

/-- Sixteen free bytes, twice: the name of sub 00 (log 3). -/
def freeName (s : State) : List Byte × State :=
  let (a, t) := freeWord s
  let (b, u) := freeWord t
  let (c, v) := freeWord u
  let (d, w) := freeWord v
  (natLe 8 a.toNat ++ natLe 8 b.toNat ++ natLe 8 c.toNat ++ natLe 8 d.toNat, w)

/-- A request that names an entry: it exists, and a signature that it carries is good. -/
def withEntryOf (s : State) (m : BdpMsg) (act : State → Entry → State) : State :=
  if !indexKnown (msgIndex m) then answer s m 1 false []
  else match namedEntry (msgIndex m) (msgSub m) with
    | none => answer s m 2 false []
    | some e => act s e

/-- One request of a source that may make it, from the check of its form to its reply (15 R335). -/
def serve (s : State) (m : BdpMsg) (circuits : List HopEntry) : State :=
  if !formOk m then answer s m 13 false []
  else match (msgOp m).toNat with
    | 4 =>
      let (v, t) := issueNonce s m.src
      answer t m 0 false (natLe 16 v.toNat ++ natLe 4 (dnum t 0x20E0 8))
    | 2 => withEntryOf s m (fun t e => doWrite t m e circuits)
    | 3 => withEntryOf s m (fun t e =>
        let (r, u) := authorise t m false
        let (name, w) := if e.sub = 0 then freeName u else ([], u)
        if r ≠ 0 then answer u m r false [] else answer w m 0 false (describeBytes e (msgSub m) name))
    | _ => withEntryOf s m (fun t e =>
        let (r, u) := authorise t m false
        if r ≠ 0 then answer u m r false []
        else
          let (v, w) := if e.sub = 0 then (natLe 1 e.dflt, u) else readEntry u e (msgSub m)
          answer w m 0 false (readBody m e v))

/-- A request comes to its turn: the cache first (15 R335). -/
def takeTurn (s : State) (x : BdpMsg × List HopEntry) : State :=
  match s.mgmt.cache.find? (fun c => c.src == x.1.src && c.seq == msgSeq x.1 && c.req == x.1.bytes) with
  | some c =>
    let again := c.reply.set 10 (byteAt c.reply 10 ||| 4)
    sendReply s x.1.src again (byteAt c.reply 11).toNat
  | none => serve s x.1 x.2

/-- Requests are applied one at a time, in order of arrival (15 R331): one that waits for the store holds up the rest. -/
def inTurn (s : State) (x : BdpMsg × List HopEntry) : State :=
  if s.mgmt.store.isSome then { s with mgmt := { s.mgmt with waiting := s.mgmt.waiting ++ [x] } } else takeTurn s x

/-- The requests that waited. -/
def drainWaiting (s : State) : State :=
  s.mgmt.waiting.foldl inTurn { s with mgmt := { s.mgmt with waiting := [] } }

/-! ### Arrival (15 R338, R339; 14 R325) -/

/-- The tokens of a source after refilling, in billionths: BDP_RATE_LIMIT at most, and that many a second (15 R339). -/
def bucketOf (s : State) (a : BitVec 128) : Nat :=
  let rate := dnum s 0x20E0 7
  match s.mgmt.buckets.find? (fun b => b.addr == a) with
  | none => rate * second
  | some b => min (rate * second) (b.tokens + rate * (clock s - b.at_).toNat)

/-- A token is taken, or the request is dropped. -/
def takeToken (s : State) (a : BitVec 128) : Bool × State :=
  let have_ := bucketOf s a
  let ok := decide (second ≤ have_)
  let rest := s.mgmt.buckets.filter (fun b => b.addr != a)
  (ok, { s with mgmt := { s.mgmt with
    buckets := rest ++ [{ addr := a, tokens := if ok then have_ - second else have_, at_ := clock s }] } })

/-- A datagram on BDP_PORT (15 R335, R337, R338): before the load, or with a duplicate address, nothing answers. -/
def udpArrive (s : State) (a : BitVec 128) (x : BdpMsg × List HopEntry) : State :=
  if !loaded s || s.mgmt.dadBad then s
  else
    let s1 := bump s 0x80E0 1 1
    if !sourceKnown s1 x.1.src then bump s1 0x80E0 3 1
    else if !isBdp x.1 then bump s1 0x80E0 2 1
    else
      let (ok, t) := takeToken s1 a
      if ok then inTurn t x else bump t 0x80E0 7 1

/-! ### The mailbox (14 R325) and the loader (17 R374) -/

/-- The request buffer's first bytes. -/
def reqBytes (s : State) (n : Nat) : List Byte := (List.range n).map (mget 0 s.host.reqBuf)

/-- The buffer is set to a request, as the host writes it. -/
def setRequest (s : State) (bytes : List Byte) : State :=
  let l := bytes.take 4096
  { s with host := { s.host with
      reqLen := BitVec.ofNat 16 bytes.length,
      reqBuf := (List.range l.length).foldl (fun m k => mput 0 m k (byteAt l k)) s.host.reqBuf } }

/-- The boot ROM answers the mailbox: in its loader, or with a clock fault (17 R374; 01 R26). -/
def romRuns (s : State) : Bool := domainOn s 24 && !s.boot.firmware && (s.boot.rom == 2 || s.boot.rom == 5)

/-- A loader reply. -/
def romReply (s : State) (op : Byte) (body : List Byte) : State :=
  mbxFinish s 0 (bdpHeader op (BitVec.ofNat 32 (leNat ((reqBytes s 8).drop 4))) body.length 2 0 ++ body)

/-- ROM_STATUS's answer. -/
def romStatusReply (s : State) : State :=
  romReply s 0x20 ([s.boot.rom, s.boot.reason] ++ natLe 2 s.fuses.romVersion.toNat)

/-- GO is written: the request of the buffer (14 R325). -/
def mbxRun (s : State) (circuits : List HopEntry) : State :=
  let n := s.host.reqLen.toNat
  let bytes := reqBytes s (min n 4096)
  let m : BdpMsg := { src := .mailbox, bytes := bytes }
  if s.host.mbxBusy then { s with host := { s.host with mbxStatus := 2 } }
  else if romRuns s then
    if isBdp m && byteAt bytes 3 == 0x20 then romStatusReply s
    else if isBdp m && byteAt bytes 3 == 0x21 && s.boot.rom == 2 then { s with host := { s.host with mbxBusy := true } }
    else mbxFinish s 4 []
  else if !loaded s then (if hubOn s then mbxFinish s 4 [] else s)
  else if n = 0 ∨ 4096 < n then bump (mbxFinish s 1 []) 0x80E0 10 1
  else if !isBdp m then bump (mbxFinish (bump s 0x80E0 2 1) 1 []) 0x80E0 10 1
  else inTurn { s with host := { s.host with mbxBusy := true } } (m, circuits)

/-- A request arrives on its path. -/
def submit (s : State) (m : BdpMsg) (circuits : List HopEntry) : State :=
  match m.src with
  | .mailbox => if s.host.mbxBusy then mbxRun s circuits else mbxRun (setRequest s m.bytes) circuits
  | .udp a => udpArrive s a (m, circuits)

/-! ### The rows of the protocol -/

/-- BDP_READ (15 R333). -/
def execBdpRead (m : BdpMsg) (s : State) : Host.Outcome State Fault Refusal := .next (submit s m [])

/-- BDP_WRITE (15 R333, R335). -/
def execBdpWrite (m : BdpMsg) (s : State) : Host.Outcome State Fault Refusal := .next (submit s m [])

/-- BDP_DESCRIBE (15 R333). -/
def execBdpDescribe (m : BdpMsg) (s : State) : Host.Outcome State Fault Refusal := .next (submit s m [])

/-- BDP_NONCE (15 R342). -/
def execBdpNonce (m : BdpMsg) (s : State) : Host.Outcome State Fault Refusal := .next (submit s m [])

/-- MBX_GO (14 R325): GO is written with REQ_LEN. -/
def execMbxGo (reqLen : BitVec 16) (s : State) : Host.Outcome State Fault Refusal :=
  .next (if !domainOn s 24 then s
    else mbxRun (if s.host.mbxBusy then s else { s with host := { s.host with reqLen := reqLen } }) [])

/-- STORE_DURABLE (15 R346): the image is read back; a copy that fails is written once more, then the write fails. -/
def storeDurable (readBackOk : Bool) (s : State) : State :=
  match s.mgmt.store with
  | none => s
  | some j =>
    if !loaded s then s
    else
      let idx := j.key / 256
      let sub := j.key % 256
      let note := fun (t : State) =>
        dset (dset t 0x30E0 2 (storeSeq t.flash)) 0x30E0 3 (bitAt t.flash.copyA.valid 0 + bitAt t.flash.copyB.valid 1)
      let tell := fun (t : State) (result : Nat) (held : Bool) (body : List Byte) =>
        if j.silent then t else answer t j.msg result held body
      if readBackOk then
        let t := note { s with flash := writeImage s.flash (withRecord s j.key j.value), mgmt := { s.mgmt with store := none } }
        let held := heldWrite t idx sub
        match entryOf idx sub with
        | none => drainWaiting t
        | some e =>
          if idx = 0x20E0 then drainWaiting (applyWrite (tell t 0 held (writeBody j.msg)) e sub j.value [])
          else drainWaiting (tell (applyWrite t e sub j.value []) 0 held (writeBody j.msg))
      else
        let t := note { s with flash := spoilImage s.flash }
        if j.again then
          drainWaiting (tell (sticky { t with mgmt := { t.mgmt with store := none } } 0xA030 3 0) 12 false [])
        else { t with mgmt := { t.mgmt with store := some { j with again := true } } }

def execStoreDurable (readBackOk : Bool) (s : State) : Host.Outcome State Fault Refusal := .next (storeDurable readBackOk s)

/-- NONCE_EXPIRED (15 R342): nonces past their lifetime are gone. -/
def execNonceExpired (s : State) : Host.Outcome State Fault Refusal :=
  .next { s with mgmt := { s.mgmt with nonces := s.mgmt.nonces.filter (nonceLive s) } }

/-! ### The drop (15 R336, R337) -/

/-- PLCA_BEACON_LOSS: a node other than the coordinator falls back. -/
def execPlcaBeaconLoss (s : State) : Host.Outcome State Fault Refusal :=
  .next (if loaded s && plcaStatus s == 1 && dnum s 0x20E0 1 != 0 then
      sticky { s with mgmt := { s.mgmt with fallback := true } } 0xA030 5 0
    else s)

/-- PLCA_BEACON: a fallen node returns. -/
def execPlcaBeacon (s : State) : Host.Outcome State Fault Refusal :=
  .next (if loaded s then { s with mgmt := { s.mgmt with fallback := false } } else s)

/-- PLCA_COLLISION: counted while PLCA is active; the frame is sent again, up to sixteen attempts, then dropped. -/
def execPlcaCollision (attempt : Nat) (s : State) : Host.Outcome State Fault Refusal :=
  .next (if loaded s && plcaStatus s == 1 then
      let t := sticky (bump s 0x80E0 8 1) 0xA030 5 0
      if 16 ≤ attempt then bump { t with mgmt := { t.mgmt with txq := t.mgmt.txq - 1 } } 0x80E0 9 1 else t
    else s)

/-- NEIGHBOR_SOLICITATION: answered for the device's own address, from any source; the frame names its ICMPv6 type. -/
def execNeighborSolicitation (target : BitVec 128) (s : State) : Host.Outcome State Fault Refusal :=
  .next (if loaded s && !s.mgmt.dadBad && target == linkLocal s then
      (sendFrame s (.frame (136 :: addrBytes target))).2
    else s)

/-- ECHO_REQUEST: answered for a known source only. -/
def execEchoRequest (src : BitVec 128) (s : State) : Host.Outcome State Fault Refusal :=
  .next (if !loaded s || s.mgmt.dadBad then s
    else
      let t := bump s 0x80E0 1 1
      if sourceKnown t (.udp src) then (sendFrame t (.frame (129 :: addrBytes src))).2 else bump t 0x80E0 3 1)

/-- BAD_FRAME (15 R332, R337): a frame that fails its FCS, or a frame to the device with a message of another MAGIC or
VERSION, is discarded and counted. -/
def execBadFrame (fcsBad : Bool) (s : State) : Host.Outcome State Fault Refusal :=
  .next (if !loaded s then s else bump (if fcsBad then s else bump s 0x80E0 1 1) 0x80E0 2 1)

/-- JOURNAL_FLUSH (15 R349): the entries that wait reach flash, in their order. -/
def journalFlush (s : State) : State :=
  (s.mgmt.jwait.take 64).foldl (fun t e =>
    { t with flash := { t.flash with journal := mput JEntry.blank t.flash.journal (t.flash.journalCnt % 4096) e,
                                     journalCnt := t.flash.journalCnt + 1 } })
    { s with mgmt := { s.mgmt with jwait := s.mgmt.jwait.drop 64 } }

def execJournalFlush (s : State) : Host.Outcome State Fault Refusal := .next (if hubOn s then journalFlush s else s)

/-! ### Writes with a row of their own -/

/-- A WRITE of an entry, as its sender frames it. -/
def writeOf (w : WriteCtx) (idx sub : Nat) (v : List Byte) : BdpMsg :=
  let ty := ((entryOf idx sub).map (fun e => tyCode e.ty)).getD 0
  bdpRequest w.src 2 w.seq (natLe 2 idx ++ natLe 1 sub ++ natLe 1 ty ++ v) w.trailer

/-- FW_UPDATE_CMD_UPDATE (17 R375): 1 is written to FW_UPDATE_CMD. -/
def execFwUpdateCmdUpdate (w : WriteCtx) (s : State) : Host.Outcome State Fault Refusal :=
  .next (submit s (writeOf w 0x7005 1 [1]) [])

/-- FW_UPDATE_CMD_SVN (17 R375): 2 is written. -/
def execFwUpdateCmdSvn (w : WriteCtx) (s : State) : Host.Outcome State Fault Refusal :=
  .next (submit s (writeOf w 0x7005 1 [2]) [])

/-- ATTEST_CHALLENGE (17 R373). -/
def execAttestChallenge (data : List Byte) (w : WriteCtx) (s : State) : Host.Outcome State Fault Refusal :=
  .next (submit s (writeOf w 0x7002 1 data) [])

/-- TIER_RC_MIB_WRITE (07 R159). -/
def execTierRcMibWrite (d : Die) (v : Byte) (w : WriteCtx) (s : State) : Host.Outcome State Fault Refusal :=
  .next (submit s (writeOf w 0x5000 (d.val + 1) [v]) [])

/-- ENDPOINT_COORD_WRITE (09 R201). -/
def execEndpointCoordWrite (v : BitVec 32) (w : WriteCtx) (s : State) : Host.Outcome State Fault Refusal :=
  .next (submit s (writeOf w 0x9000 1 (natLe 4 v.toNat)) [])

/-- DARK_RELEASE (09 R229). -/
def execDarkRelease (v : Byte) (w : WriteCtx) (circuits : List HopEntry) (s : State) : Host.Outcome State Fault Refusal :=
  .next (submit s (writeOf w 0x9001 2 [v]) circuits)

/-- PORT_MAP_APPLY (10 R235). -/
def execPortMapApply (v : Byte) (w : WriteCtx) (s : State) : Host.Outcome State Fault Refusal :=
  .next (submit s (writeOf w 0x40A0 9 [v]) [])

/-- FABRIC_EPOCH_WRITE (13 R295). -/
def execFabricEpochWrite (v : BitVec 16) (w : WriteCtx) (s : State) : Host.Outcome State Fault Refusal :=
  .next (submit s (writeOf w 0xC000 1 (natLe 2 v.toNat)) [])

/-- FENCE_ENTRY_WRITE (13 R296). -/
def execFenceEntryWrite (k : Fin 64) (v : BitVec 32) (w : WriteCtx) (s : State) : Host.Outcome State Fault Refusal :=
  .next (submit s (writeOf w 0xC001 (k.val + 1) (natLe 4 v.toNat)) [])

/-- FENCE_SELF_WRITE (13 R297). -/
def execFenceSelfWrite (v : Byte) (w : WriteCtx) (s : State) : Host.Outcome State Fault Refusal :=
  .next (submit s (writeOf w 0xC000 2 [v]) [])

/-- GHOST_MODE_WRITE (13 R303). -/
def execGhostModeWrite (v : Byte) (w : WriteCtx) (s : State) : Host.Outcome State Fault Refusal :=
  .next (submit s (writeOf w 0xC020 1 [v]) [])

/-- GHOST_ROLLBACK (13 R309): GHOST_CMD is written. -/
def execGhostRollback (v : Byte) (w : WriteCtx) (s : State) : Host.Outcome State Fault Refusal :=
  .next (submit s (writeOf w 0xC020 12 [v]) [])

/-- ADMIT (13 R311). -/
def execAdmitDevice (v : BitVec 16) (w : WriteCtx) (s : State) : Host.Outcome State Fault Refusal :=
  .next (submit s (writeOf w 0xC002 1 (natLe 2 v.toNat)) [])

/-- REQUAL_START (13 R315). -/
def execRequalStart (v : Byte) (w : WriteCtx) (s : State) : Host.Outcome State Fault Refusal :=
  .next (submit s (writeOf w 0x30C2 1 [v]) [])

/-- PLCA_SETTING_WRITE (15 R336). -/
def execPlcaSettingWrite (sub : Fin 4) (v : Byte) (w : WriteCtx) (s : State) : Host.Outcome State Fault Refusal :=
  .next (submit s (writeOf w 0x20E0 (sub.val + 1) [v]) [])

/-! ### Loader requests (17 R374) -/

/-- ROM_STATUS: a mailbox request with OP 0x20. -/
def execRomStatus (s : State) : Host.Outcome State Fault Refusal :=
  .next (if s.host.mbxBusy then mbxRun s []
    else mbxRun (setRequest s (bdpHeader 0x20 (BitVec.ofNat 32 (leNat ((reqBytes s 8).drop 4))) 0 0 0)) [])

/-- The pushed image, of the length the request gives, at offset 0 of the hub buffer. -/
def pushedImage (s : State) (len : Nat) : List Byte := readBytes s (cellKey 8 0) (min len 8388608)

/-- RECOVERY_LOAD (17 R374): in the loader's state 2 the pushed image is checked; a failure is reported with its reason,
a pass is logged as TYPE 4, written to the slot, read back and booted, with RESET_CAUSE 4; the load then is that of the
start that led to the loader, and a slot that cannot be read back leaves the loader waiting with reason 7. -/
def recoveryLoad (len : BitVec 32) (env : BootEnv) (s : State) : State :=
  if !romRuns s then submit s (bdpRequest .mailbox 0x21 0 (natLe 4 len.toNat) none) []
  else if s.boot.rom ≠ 2 then mbxFinish s 4 []
  else
    let img := pushedImage s len.toNat
    let why := imageReason s.fuses img false
    if why ≠ 0 then romReply { s with boot := { s.boot with rom := 2, reason := why } } 0x21 [2, why]
    else
      let s1 := measure s 4 (img.take 192)
      let s2 := romReply { s1 with boot := { s1.boot with rom := 4 } } 0x21 [4, 0]
      if !env.flashOk then
        { s2 with flash := { s2.flash with image := img, imageTorn := true, factory := false },
                  boot := { s2.boot with rom := 2, reason := 7 } }
      else
        let s3 := { s2 with flash := { s2.flash with image := img, imageTorn := false, factory := false },
                            stage := { s2.stage with resetCause := 4 } }
        startFirmware (measure s3 2 (img.take 192)) env (s.stage.resetCause.toNat < 2) (s.stage.resetCause == 0) true

def execRecoveryLoad (len : BitVec 32) (env : BootEnv) (s : State) : Host.Outcome State Fault Refusal :=
  .next (recoveryLoad len env s)

end Sys2Proof.Machine
end

