-- ==== Sys2Proof/Machine/Requal.lean ====
section
/-!
DEFINITION. Requalification (13 R315, Table 13.9): what its phases find is handled under each fault's own rule, and the
verdict that ends it.
-/

namespace Sys2Proof.Machine

/-- The known-answer tests of a requalification (02 R53, R54, R56): an array that fails is retired, and, where the phase
completes, the time of the others is kept in 0x3020. -/
def requalKat (e : RequalEnv) (done : Bool) (s : State) : State :=
  let live := onesBelow 64 (inService s)
  let bad := live.filter (fun a => e.katFail.getLsbD a)
  let t := bad.foldl retireArray s
  if done then (live.filter (fun a => !bad.contains a)).foldl katPassed t else t

/-- The words of the arrays' buffers that the march finds: with no tile open, their rows are spared at once (07 R163). -/
def requalBuffers (e : RequalEnv) (s : State) : State :=
  e.buffers.foldl (fun t x => settleRows (bufFind x.1.val 16 t x.2) x.1.val) s

/-- What the phases find, each under its own rule, in the order of Table 13.9: arrays, tiers and buffers, HBM, the
die-to-die lanes, the stepped survey. -/
def requalFinds (e : RequalEnv) (reached : Nat → Bool) (s : State) : State :=
  let tier := fun (x : ReadErr) => decide (x.word.off < 0x18000000)
  let up := (List.range 8).filter (dieUp s)
  let s1 := requalBuffers e (readErrs (requalKat e (reached 1) s) (e.words.filter tier))
  let s2 := if reached 2 then up.foldl (fun t d => zeroTier { t with rcs := t.rcs.filter (fun e => e.1 != d) } d) s1 else s1
  let s3 := readErrs s2 (e.words.filter (fun x => !tier x))
  let s4 := if reached 3 && s.health.destroy then up.foldl (fun t d => ghostAllDirty (zeroHbm t d) d) s3 else s3
  let s5 := e.laneFail.foldl laneAtTraining s4
  let s6 := if reached 5 then steppedSurvey s5 e.vmin e.slackPs e.ratios else s5
  if reached 6 then clearSuspects s6 else s6

/-- REQUAL_VERDICT (13 R315): what the phases found, tiers zeroed, a destructive run's HBM zeroed too; the debt is that of
what was found, and the verdict stands on the phases and the score. -/
def requalVerdict (e : RequalEnv) (s : State) : State :=
  if !loaded s || !s.health.running then s
  else
    let reached := fun (k : Nat) => match e.failed with
      | some f => decide (k < f.val)
      | none => true
    let s1 := requalFinds e reached s
    let h := s1.health
    let s2 := scoreHealth { s1 with health := { h with running := false, debt := min 1000 h.found, found := 0 } }
    match e.failed with
    | none =>
      if 500 ≤ healthScore s2 then enterHealth (dset s2 0x30C2 2 2) 0
      else sticky (dset (dset s2 0x30C2 2 3) 0x30C2 5 9) 0xA0C0 9 0
    | some f => sticky (dset (dset s2 0x30C2 2 3) 0x30C2 5 (f.val + 1)) 0xA0C0 9 0

def execRequalVerdict (e : RequalEnv) (s : State) : Host.Outcome State Fault Refusal := .next (requalVerdict e s)

end Sys2Proof.Machine
end

