-- ==== Sys2Proof/Machine/Update.lean ====
section
/-!
DEFINITION. The update lane (04 R100 to R104; 05 R116, R117, R119): the start of a request, the fixed algorithms block by
block, the user program, and the timeout of its wait.
-/

namespace Sys2Proof.Machine

/-! ### Requests and parameter blocks (06 Table 6.12; 04 Table 4.8) -/

/-- The fields of an update request. -/
def updParamAddr (u : UpdReq) : Nat := wbits (dword u.words 0) 55 0
def updRow (u : UpdReq) : Nat := wbits (dword u.words 1) 31 0
def updCol (u : UpdReq) : Nat := wbits (dword u.words 2) 31 0
def updBell (u : UpdReq) : Nat := wbits (dword u.words 2) 63 52
def updValue (u : UpdReq) : Word := dword u.words 3

/-- The fields of a parameter block. -/
structure UBlock where
  arith   : Arith
  copyFmt : Nat
  momFmt  : Nat
  algo    : Nat
  stride  : Nat
  prog    : Nat
  amax    : Nat
  bc2     : Nat
  bc1     : Nat
  wd      : Nat
  eps     : Nat
  beta2   : Nat
  beta1   : Nat
  lr      : Nat
  rscale  : Nat
  copy    : Nat
  v       : Nat
  m       : Nat
  w       : Nat
  deriving DecidableEq, Repr

/-- The fields of the 128 bytes of a block. -/
def uBlock (n : Nat) : UBlock :=
  { arith := arithOf (bitsOf n 720 716), copyFmt := bitsOf n 715 712, momFmt := bitsOf n 711 708, algo := bitsOf n 707 704,
    stride := bitsOf n 703 672, prog := bitsOf n 663 608, amax := bitsOf n 599 544, bc2 := bitsOf n 543 512,
    bc1 := bitsOf n 511 480, wd := bitsOf n 479 448, eps := bitsOf n 447 416, beta2 := bitsOf n 415 384,
    beta1 := bitsOf n 383 352, lr := bitsOf n 351 320, rscale := bitsOf n 311 256, copy := bitsOf n 247 192,
    v := bitsOf n 183 128, m := bitsOf n 119 64, w := bitsOf n 55 0 }

/-- Does an algorithm keep a first moment, and a second one? -/
def UBlock.hasM (b : UBlock) : Bool := b.algo != 0
def UBlock.hasV (b : UBlock) : Bool := 2 ≤ b.algo

/-- Bytes of a stored moment and of an element of the copy. -/
def UBlock.momSize (b : UBlock) : Nat := fmtBytes b.momFmt 1
def UBlock.copySize (b : UBlock) : Nat := fmtBytes b.copyFmt 1

/-- Is a block refused (04 R102): a reserved bit or an address bit that must be 0, or a value outside an enumeration
that the request uses (log 26)? -/
def uRefused (n : Nat) : Bool :=
  let b := uBlock n
  bitsOf n 1023 721 != 0 || decide (3 < b.algo)
    || (b.copy != 0 && !(b.copyFmt ≤ 1 || b.copyFmt == 7 || b.copyFmt == 8))
    || (b.hasM && b.momFmt != 9 && b.momFmt != 7)
    || [0, 64, 128, 192, 256, 544, 608].any (fun k => bitsOf n (k + 63) (k + 56) != 0)

/-- The rows of a block that the slice has. -/
def updRows (u : UpdReq) (k : Nat) : List Nat := ((List.range 4).map (4 * k + ·)).filter (fun r => decide (r < u.rows))

/-- A row of the slice in a tensor of elements of `z` bytes, as address and length. -/
def updRange (u : UpdReq) (b : UBlock) (base z r : Nat) : Nat × Nat :=
  (kAt base ((updRow u + r) * b.stride + updCol u * z), min 512 u.cols * z)

/-- The ranges of the tensors that an update writes, for some rows. -/
def updTensors (u : UpdReq) (b : UBlock) (rows : List Nat) : List (Nat × Nat) :=
  rows.map (updRange u b b.w 4) ++ (if b.hasM then rows.map (updRange u b b.m b.momSize) else [])
    ++ (if b.hasV then rows.map (updRange u b b.v b.momSize) else [])
    ++ (if b.copy != 0 then rows.map (updRange u b b.copy b.copySize) else [])

/-- Does a range meet a frozen range in force (05 R119)? -/
def meetsFrozen (s : State) (r : Nat × Nat) : Bool :=
  s.train.ranges.any (fun f => decide (r.1 < f.1 + f.2) && decide (f.1 < r.1 + r.2))

/-- The parameter block of the lane's request. -/
def updParam (s : State) (d : Nat) (u : UpdReq) : Got :=
  if wbits (dword u.words 0) 63 56 ≠ 0 then .bad (updParamAddr u) .bad else veGet s d true (updParamAddr u) 128

/-- The lane's request and its block, if the request is running and its block can be read now; else what happens. -/
def withUpdate (d : Nat) (act : State → UpdReq → UBlock → Bool → State) (s : State) : State :=
  match s.lane d with
  | [] => s
  | u :: _ =>
    if !u.running || (s.ve d).hold.isSome || !dieUp s d || decide (32 ≤ u.block) then s
    else match updParam s d u with
      | .wait t => t
      | .bad _ p => failUpdate (faultSticky s d p) d u.block false
      | .bytes data poison => act (veTouch s d true [(updParamAddr u, 128)]) u (uBlock (leNat data)) poison

/-- UPDATE_REQUEST_START (04 R100, R102; 05 R119; 08 R195): the next request starts once its bell has reached its value,
an acquire.  A poisoned slice is not applied; a refused block and a frozen range end it with UPDATE_FAULT. -/
def updateRequestStart (d : Die) (s : State) : State :=
  match s.lane d.val with
  | [] => s
  | u :: rest =>
    if u.running || (s.ve d.val).hold.isSome || !dieUp s d.val || decide (s.bell (updBell u) < updValue u) then s
    else
      let s1 := acquire s d.val
      if u.poisoned then
        let s2 := freeSlice (nextUpdate s1 d.val rest) d.val
        finish (sticky s2 0xA040 5 d.val) u.queue u.idx 0x01 0
      else match updParam s1 d.val u with
        | .wait t => t
        | .bad _ p => failUpdate (faultSticky s1 d.val p) d.val 0 false
        | .bytes data _ =>
          let s2 := veTouch s1 d.val true [(updParamAddr u, 128)]
          let n := leNat data
          let b := uBlock n
          if uRefused n then failUpdate (sticky s2 0xA040 2 d.val) d.val 0 false
          else if (updTensors u b (List.range (min 128 u.rows))).any (meetsFrozen s2) then
            failUpdate (sticky s2 0xA050 3 d.val) d.val 0 false
          else s2.setLane d.val ({ u with running := true, block := 0, loaded := false } :: rest)

def execUpdateRequestStart (d : Reading Die) (s : State) : Host.Outcome State Fault Refusal :=
  .next (updateRequestStart d.arg (readErrs s d.errs))

/-- UPDATE_WAIT_TIMEOUT (04 R103): the wait counts from the moment the request became the lane's next; no block is
touched, and the slice's count is freed. -/
def updateWaitTimeout (d : Die) (s : State) : State :=
  match s.lane d.val with
  | [] => s
  | u :: rest =>
    if u.running || !decide (s.bell (updBell u) < updValue u)
        || decide ((clock s - u.at_).toNat < dnum s 0x2060 2 * 1024) then s
    else
      let s1 := freeSlice (nextUpdate s d.val rest) d.val
      finish (sticky s1 0xA060 2 d.val) u.queue u.idx 0x1A (updBell u)

def execUpdateWaitTimeout (d : Die) (s : State) : Host.Outcome State Fault Refusal := .next (updateWaitTimeout d s)

/-! ### The arithmetic of an element (04 R101) -/

/-- A number with its sign changed. -/
def fneg32 (x : Nat) : Nat := f32.signed (!signOf 9 x) (magOf 9 x)

/-- What an element holds: its weight and moments, and the flags raised. -/
structure UElem where
  w  : Nat
  m  : Nat
  v  : Nat
  fp : Nat
  deriving DecidableEq, Repr

/-- 1 − β, formed once for a slice with one rounding. -/
def oneMinus (a : Arith) (beta : Nat) : Res := subF 9 a one32 beta

/-- SGD: w = fma(−lr, fma(wd, w, g), w). -/
def sgdElem (b : UBlock) (g w : Nat) : UElem :=
  let a := b.arith
  let x := fmaF 9 a b.wd w g
  let y := fmaF 9 a (fneg32 b.lr) x.1 w
  { w := y.1, m := 0, v := 0, fp := x.2 ||| y.2 }

/-- SGD with momentum. -/
def momElem (b : UBlock) (g w m : Nat) : UElem :=
  let a := b.arith
  let x := fmaF 9 a b.wd w g
  let n := fmaF 9 a b.beta1 m x.1
  let y := fmaF 9 a (fneg32 b.lr) n.1 w
  { w := y.1, m := n.1, v := 0, fp := x.2 ||| n.2 ||| y.2 }

/-- AdamW. -/
def adamElem (b : UBlock) (g w m v : Nat) : UElem :=
  let a := b.arith
  let c1 := oneMinus a b.beta1
  let c2 := oneMinus a b.beta2
  let p := mulF 9 a c1.1 g
  let m1 := fmaF 9 a b.beta1 m p.1
  let q := mulF 9 a c2.1 g
  let q2 := mulF 9 a q.1 g
  let v1 := fmaF 9 a b.beta2 v q2.1
  let x := mulF 9 a m1.1 b.bc1
  let y := mulF 9 a v1.1 b.bc2
  let z := sqrtF 9 a y.1
  let e := addF 9 a z.1 b.eps
  let u : Res :=
    if a.strict then divF 9 a x.1 e.1
    else
      let r := approxF .rcp a e.1
      let t := mulF 9 a x.1 r.1
      (t.1, r.2 ||| t.2)
  let d := fmaF 9 a b.wd w u.1
  let w1 := fmaF 9 a (fneg32 b.lr) d.1 w
  { w := w1.1, m := m1.1, v := v1.1,
    fp := c1.2 ||| c2.2 ||| p.2 ||| m1.2 ||| q.2 ||| q2.2 ||| v1.2 ||| x.2 ||| y.2 ||| z.2 ||| e.2 ||| u.2 ||| d.2 ||| w1.2 }

/-- An element under the algorithm of the block. -/
def updElem (b : UBlock) (g w m v : Nat) : UElem :=
  if b.algo = 0 then sgdElem b g w else if b.algo = 1 then momElem b g w m else adamElem b g w m v

/-! ### Blocks (04 R101) -/

/-- Rows of numbers that are there, with whether any is poisoned. -/
def updLoad (s : State) (d : Nat) (f : Nat) (rs : List (Nat × Nat)) : List (List Nat) × Bool :=
  let got := rs.map (fun r => match veGet s d true r.1 r.2 with
    | .bytes data p => (unpackElems f (r.2 / fmtBytes f 1) data, p)
    | _ => ([], false))
  (got.map (·.1), got.any (·.2))

/-- A moment as it is stored, widened exactly (04 R101). -/
def widenMom (b : UBlock) (x : Nat) : Res := if b.momFmt = 7 then widen32 7 b.arith x else (x, 0)

/-- Rows of moments widened, and the flags raised. -/
def widenRows (b : UBlock) (rows : List (List Nat)) : List (List Nat) × Nat :=
  let out := rows.map (List.map (widenMom b))
  (out.map (List.map Prod.fst), out.foldl (fun f row => row.foldl (fun f e => f ||| e.2) f) 0)

/-- The operands of a block: g, w, m and v by rows, with their poison and the flags of widening. -/
structure UData where
  g  : List (List Nat)
  w  : List (List Nat)
  m  : List (List Nat)
  v  : List (List Nat)
  pg : Bool
  pw : Bool
  pm : Bool
  pv : Bool
  fp : Nat
  deriving DecidableEq, Repr

/-- The rows of the slice in the tier. -/
def updSlice (u : UpdReq) (rows : List Nat) : List (Nat × Nat) :=
  rows.map (fun r => (kAt u.slice (r * u.stride), 4 * min 512 u.cols))

/-- The per-column vectors: the reciprocal scales and the maxima. -/
def updCols (u : UpdReq) (b : UBlock) : List (Nat × Nat) :=
  let n := 4 * min 512 u.cols
  (if b.copy != 0 then [(b.rscale, n)] else []) ++ (if b.amax != 0 then [(b.amax, n)] else [])

/-- Everything that a block reads. -/
def updReads (u : UpdReq) (b : UBlock) : List (Nat × Nat) :=
  let rows := updRows u u.block
  updSlice u rows ++ rows.map (updRange u b b.w 4)
    ++ (if b.hasM then rows.map (updRange u b b.m b.momSize) else [])
    ++ (if b.hasV then rows.map (updRange u b b.v b.momSize) else []) ++ updCols u b

/-- Everything that it writes. -/
def updWrites (u : UpdReq) (b : UBlock) : List (Nat × Nat) :=
  updTensors u b (updRows u u.block) ++ (if b.amax != 0 then [(b.amax, 4 * min 512 u.cols)] else [])

/-- The operands of the next block. -/
def updData (s : State) (d : Nat) (u : UpdReq) (b : UBlock) : UData :=
  let rows := updRows u u.block
  let (g, pg) := updLoad s d 9 (updSlice u rows)
  let (w, pw) := updLoad s d 9 (rows.map (updRange u b b.w 4))
  let (m, pm) := if b.hasM then updLoad s d b.momFmt (rows.map (updRange u b b.m b.momSize)) else ([], false)
  let (v, pv) := if b.hasV then updLoad s d b.momFmt (rows.map (updRange u b b.v b.momSize)) else ([], false)
  let (m1, f1) := widenRows b m
  let (v1, f2) := widenRows b v
  { g := g, w := w, m := m1, v := v1, pg := pg, pw := pw, pm := pm, pv := pv, fp := f1 ||| f2 }

/-- Store rows of elements in a format, under the update lane's tag; answers the flags of their conversion. -/
def updStore (s : State) (d : Nat) (job : Nat × BitVec 32) (f : Nat) (ctl : Arith) (pz : Bool) (rs : List (Nat × Nat)) (vals : List (List Nat)) :
    State × Nat :=
  (rs.zip vals).foldl (fun (acc : State × Nat) x =>
    let out := x.2.map (fun e => if f = 9 then (e, 0) else convert 9 f ctl 0 e)
    (vePut acc.1 d 64 job x.1.1 (packElems f (out.map Prod.fst)) pz, out.foldl (fun g e => g ||| e.2) acc.2)) (s, 0)

/-- The largest magnitude of each column so far (04 R101). -/
def amaxRow (a : Arith) (acc : List Nat × Nat) (row : List Nat) : List Nat × Nat :=
  let out := List.zipWith (fun x w => extremeF 9 a true false x (magOf 9 w)) acc.1 row
  (out.map Prod.fst, out.foldl (fun f e => f ||| e.2) acc.2)

/-- Store the results of a block: weights, moments, the working copy (SATFIN forced to 1) and the maxima; then the next
block, and after the last the slice's count is freed and the request's release starts (04 R101, R103; 05 R117; 08 R194).
`cycles` are those of the algorithm. -/
def updPut (s : State) (d : Nat) (u : UpdReq) (b : UBlock) (w m v : List (List Nat)) (pw pm pv : Bool) (fp cycles : Nat) :
    State :=
  let rows := updRows u u.block
  let a := b.arith
  let sat := { a with satfin := true }
  let job := (u.queue, u.idx)
  let (s1, _) := updStore s d job 9 a pw (rows.map (updRange u b b.w 4)) w
  let (s2, f2) := if b.hasM then updStore s1 d job b.momFmt a pm (rows.map (updRange u b b.m b.momSize)) m else (s1, 0)
  let (s3, f3) := if b.hasV then updStore s2 d job b.momFmt a pv (rows.map (updRange u b b.v b.momSize)) v else (s2, 0)
  let n := 4 * min 512 u.cols
  let (s4, f4) :=
    if b.copy != 0 then
      let (sc, p) := updLoad s d 9 [(b.rscale, n)]
      let scaled := w.map (fun row => List.zipWith (mulF 9 a) row (sc.headD []))
      let (t, f) := updStore s3 d job b.copyFmt sat (pw || p) (rows.map (updRange u b b.copy b.copySize))
        (scaled.map (List.map Prod.fst))
      (t, scaled.foldl (fun f row => row.foldl (fun f e => f ||| e.2) f) f)
    else (s3, 0)
  let (s5, f5) :=
    if b.amax != 0 then
      let (old, p) := updLoad s d 9 [(b.amax, n)]
      let (top, f) := w.foldl (amaxRow a) (old.headD [], 0)
      ((updStore s4 d job 9 a (pw || p) [(b.amax, n)] [top]).1, f)
    else (s4, 0)
  let extra := if b.copy != 0 || b.amax != 0 then 4 else 0
  let s6 := countCycles s5 d true (cycles + extra)
  let s7 := setVeRun s6 d true { veRun s6 d true with lines := [] }
  let u' := { u with block := u.block + 1, loaded := false, fp := u.fp ||| BitVec.ofNat 8 (fp ||| f2 ||| f3 ||| f4 ||| f5) }
  let rest := (s7.lane d).drop 1
  if u'.block < 32 then s7.setLane d (u' :: rest)
  else
    let (tags, t) := startRelease (if u.freed then s7 else freeSlice s7 d) d 64 .update
    settleUpdate (t.setLane d ({ u' with wrTags := tags, freed := true } :: rest)) d

/-- Issue cycles of a block of an algorithm (04 Table 4.9). -/
def updCycles (b : UBlock) : Nat :=
  let strict := if b.arith.strict then 1 else 0
  if b.algo = 0 then 2 else if b.algo = 1 then (if b.momFmt = 7 then 5 else 3) else (if b.momFmt = 7 then 21 else 17) + strict

/-- The elements of a block under its algorithm. -/
def updCompute (b : UBlock) (x : UData) : List (List UElem) :=
  let none_ := fun (r : List (List Nat)) => r.map (List.map (fun _ => 0))
  let m := if b.hasM then x.m else none_ x.w
  let v := if b.hasV then x.v else none_ x.w
  List.zipWith (fun (gw : List (Nat × Nat)) (mv : List (Nat × Nat)) =>
      List.zipWith (fun (p q : Nat × Nat) => updElem b p.1 p.2 q.1 q.2) gw mv)
    (List.zipWith List.zip x.g x.w) (List.zipWith List.zip m v)

/-- The next block under a fixed algorithm: its faults are judged before it stores anything (04 R101, R102). -/
def updBlockStep (s : State) (d : Nat) (u : UpdReq) (b : UBlock) (pz : Bool) : State :=
  match veGetAll s d true (updReads u b), (updWrites u b).findSome? (fun r => slotFault s r.1 r.2) with
  | .bad _ p, _ => failUpdate (faultSticky s d p) d u.block false
  | .wait t, _ => t
  | .bytes _ _, some f => failUpdate (faultSticky s d f.2) d u.block false
  | .bytes _ _, none =>
    let x := updData s d u b
    let out := updCompute b x
    let p := pz || x.pg || x.pw || x.pm || x.pv
    let fp := out.foldl (fun f row => row.foldl (fun f e => f ||| e.fp) f) x.fp
    updPut (veTouch s d true (updReads u b)) d u b (out.map (List.map UElem.w)) (out.map (List.map UElem.m)) (out.map (List.map UElem.v)) p p p fp
      (updCycles b)

/-- Blocks one after another, until one waits for lines or the slice is done. -/
def updBlocks (d algo : Nat) (spoiled : Bool) : Nat → State → State
  | 0, s => s
  | n + 1, s =>
    let before := updBlock s d
    let t := withUpdate d (fun s u b pz => if b.algo = algo then updBlockStep s d u b (spoiled || pz) else s) s
    if (t.lane d).isEmpty || updBlock t d = before then t else updBlocks d algo spoiled n t

/-- The blocks that a request has left, in one step, with the words that its reads find in error. -/
def updRun (d : Die) (algo : Nat) (errs : List ReadErr) (regs : List RegErr) (s : State) : State :=
  let t := readErrs s errs
  let (t1, bad) := fileErrs d.val regs t
  updBlocks d.val algo bad (32 - updBlock t1 d.val) t1

/-- UPDATE_SGD (04 R101). -/
def execUpdateSgd (r : LaneRun) (s : State) : Host.Outcome State Fault Refusal :=
  .next (updRun r.die 0 r.errs r.regs s)

/-- UPDATE_SGD_MOMENTUM (04 R101). -/
def execUpdateSgdMomentum (r : LaneRun) (s : State) : Host.Outcome State Fault Refusal :=
  .next (updRun r.die 1 r.errs r.regs s)

/-- UPDATE_ADAMW (04 R101). -/
def execUpdateAdamw (r : LaneRun) (s : State) : Host.Outcome State Fault Refusal :=
  .next (updRun r.die 2 r.errs r.regs s)

/-! ### User programs (04 R101) -/

/-- A register from rows of a block. -/
def updReg (r : VeRun) (n : Nat) (rows : List (List Nat)) (pz : Bool) : VeRun :=
  let es := (rows.flatMap (fun row => row ++ List.replicate (512 - row.length) 0)).map some
  r.putElems 9 n (es ++ List.replicate (2048 - es.length) (some 0)) pz

/-- Rows of a block from a register. -/
def updUnreg (u : UpdReq) (r : VeRun) (n : Nat) : List (List Nat) :=
  (List.range (updRows u u.block).length).map (fun k => slice (r.elems 9 n) (512 * k) (min 512 u.cols))

/-- UPDATE_USER_PROGRAM (04 R101): g, w, m and v of the next block are loaded into V48 to V51 and the program starts in
the update context; once it has ended, what it left in V49 to V51 is stored. -/
def updUserProgram (d : Nat) (s : State) (u : UpdReq) (b : UBlock) (pz : Bool) : State :=
  let r := veRun s d true
  if b.algo ≠ 3 ∨ r.active then s
  else match veGetAll s d true (updReads u b), (updWrites u b).findSome? (fun x => slotFault s x.1 x.2) with
    | .bad _ p, _ => failUpdate (faultSticky s d p) d u.block false
    | .wait t, _ => t
    | .bytes _ _, some f => failUpdate (faultSticky s d f.2) d u.block false
    | .bytes _ _, none =>
      if u.loaded then
        updPut s d u b (updUnreg u r 49) (updUnreg u r 50) (updUnreg u r 51) (pz || r.vecPoison 9 49)
          (pz || r.vecPoison 9 50) (pz || r.vecPoison 9 51) r.fp.toNat 0
      else
        let x := updData s d u b
        let clean : VeRun :=
          { r with
            active := true, queue := u.queue, idx := u.idx, prog := b.prog, pc := 0, cycles := 0, fp := BitVec.ofNat 8 x.fp, poison := false,
            vw := [], sw := [], mw := [], loops := [], pubs := [], lines := [] }
        let full := updReg (updReg (updReg (updReg clean 48 x.g (pz || x.pg)) 49 x.w (pz || x.pw)) 50 x.m (pz || x.pm)) 51
          x.v (pz || x.pv)
        let t := setVeRun (veTouch s d true (updReads u b)) d true full
        let last := decide (u.block = 31)     -- the slice has been read whole (05 R117)
        (if last then freeSlice t d else t).setLane d ({ u with loaded := true, freed := last } :: (t.lane d).drop 1)

def execUpdateUserProgram (d : Reading Die) (s : State) : Host.Outcome State Fault Refusal :=
  .next (withUpdate d.arg.val (updUserProgram d.arg.val) (readErrs s d.errs))

end Sys2Proof.Machine
end

