-- ==== Sys2Proof/Machine/Dispatch.lean ====
section
/-!
DEFINITION. The dispatch: one arm for each command, each one direct call of the command's meaning.
-/

namespace Sys2Proof.Machine

open Sys2Proof

def exec (i : Instr) (s : State) : Host.Outcome State Fault Refusal :=
  match i with
  | .inputGood env => Sys2Proof.Machine.execInputGood env s
  | .undervoltageStop => Sys2Proof.Machine.execUndervoltageStop s
  | .overvoltageStop => Sys2Proof.Machine.execOvervoltageStop s
  | .inputOvercurrentStop => Sys2Proof.Machine.execInputOvercurrentStop s
  | .inputOutOfRange mv => Sys2Proof.Machine.execInputOutOfRange mv s
  | .domainFault d => Sys2Proof.Machine.execDomainFault d s
  | .moduleResetN env => Sys2Proof.Machine.execModuleResetN env s
  | .perstN => Sys2Proof.Machine.execPerstN s
  | .functionLevelReset => Sys2Proof.Machine.execFunctionLevelReset s
  | .resetCmdModule env => Sys2Proof.Machine.execResetCmdModule env s
  | .resetCmdHub env => Sys2Proof.Machine.execResetCmdHub env s
  | .resetCmdDie env => Sys2Proof.Machine.execResetCmdDie env s
  | .watchdogExpiry env => Sys2Proof.Machine.execWatchdogExpiry env s
  | .laserLatchOpen b => Sys2Proof.Machine.execLaserLatchOpen b s
  | .bootComplete => Sys2Proof.Machine.execBootComplete s
  | .romStatus => Sys2Proof.Machine.execRomStatus s
  | .recoveryLoad len env => Sys2Proof.Machine.execRecoveryLoad len env s
  | .fwUpdateCmdUpdate w => Sys2Proof.Machine.execFwUpdateCmdUpdate w s
  | .fwUpdateCmdSvn w => Sys2Proof.Machine.execFwUpdateCmdSvn w s
  | .fwUpdateFlashDone readBackOk => Sys2Proof.Machine.execFwUpdateFlashDone readBackOk s
  | .attestChallenge data w => Sys2Proof.Machine.execAttestChallenge data w s
  | .tailWrite q v => Sys2Proof.Machine.execTailWrite q v s
  | .qctlEnable q v => Sys2Proof.Machine.execQctlEnable q v s
  | .qctlPark q v => Sys2Proof.Machine.execQctlPark q v s
  | .qctlResume q v => Sys2Proof.Machine.execQctlResume q v s
  | .qctlDisable q v => Sys2Proof.Machine.execQctlDisable q v s
  | .qctlErrAck q v => Sys2Proof.Machine.execQctlErrAck q v s
  | .queueRegisterWrite off wide v => Sys2Proof.Machine.execQueueRegisterWrite off wide v s
  | .bellStrikeWindow b wide v => Sys2Proof.Machine.execBellStrikeWindow b wide v s
  | .bellSetWindow b wide v => Sys2Proof.Machine.execBellSetWindow b wide v s
  | .bar0ReservedAccess off write => Sys2Proof.Machine.execBar0ReservedAccess off write s
  | .bar2Access off len data => Sys2Proof.Machine.execBar2Access off len data s
  | .mbxGo reqLen => Sys2Proof.Machine.execMbxGo reqLen s
  | .msixUnmask v => Sys2Proof.Machine.execMsixUnmask v s
  | .irqHoldoffExpiry q => Sys2Proof.Machine.execIrqHoldoffExpiry q s
  | .hostLinkDown => Sys2Proof.Machine.execHostLinkDown s
  | .hostLinkTrained width rate => Sys2Proof.Machine.execHostLinkTrained width rate s
  | .hostReadCompletion tag status ep data => Sys2Proof.Machine.execHostReadCompletion tag status ep data s
  | .hostReadTimeout tag => Sys2Proof.Machine.execHostReadTimeout tag s
  | .descriptorFetch q => Sys2Proof.Machine.execDescriptorFetch q s
  | .descriptorIssue q => Sys2Proof.Machine.execDescriptorIssue q s
  | .descNop q idx => Sys2Proof.Machine.execDescNop q idx s
  | .matrix q r => Sys2Proof.Machine.execMatrix q r s
  | .diagonalTile q r => Sys2Proof.Machine.execDiagonalTile q r s
  | .veDescriptor q idx => Sys2Proof.Machine.execVeDescriptor q idx s
  | .replay q idx => Sys2Proof.Machine.execReplay q idx s
  | .branch q idx => Sys2Proof.Machine.execBranch q idx s
  | .bellEntryStrike q idx e => Sys2Proof.Machine.execBellEntryStrike q idx e s
  | .bellEntrySet q idx e => Sys2Proof.Machine.execBellEntrySet q idx e s
  | .bellEntryStrikeAt q idx e => Sys2Proof.Machine.execBellEntryStrikeAt q idx e s
  | .copy q idx => Sys2Proof.Machine.execCopy q idx s
  | .put q idx => Sys2Proof.Machine.execPut q idx s
  | .pull q idx => Sys2Proof.Machine.execPull q idx s
  | .mcastPut q idx => Sys2Proof.Machine.execMcastPut q idx s
  | .circuitPut q idx => Sys2Proof.Machine.execCircuitPut q idx s
  | .send q idx => Sys2Proof.Machine.execSend q idx s
  | .reduceScatter q idx => Sys2Proof.Machine.execReduceScatter q idx s
  | .allGather q idx => Sys2Proof.Machine.execAllGather q idx s
  | .allReduce q idx => Sys2Proof.Machine.execAllReduce q idx s
  | .broadcast q idx => Sys2Proof.Machine.execBroadcast q idx s
  | .circuitOpen q idx => Sys2Proof.Machine.execCircuitOpen q idx s
  | .circuitClose q idx => Sys2Proof.Machine.execCircuitClose q idx s
  | .detourLoad q idx => Sys2Proof.Machine.execDetourLoad q idx s
  | .windowReg q idx => Sys2Proof.Machine.execWindowReg q idx s
  | .windowDereg q idx => Sys2Proof.Machine.execWindowDereg q idx s
  | .rqReg q idx => Sys2Proof.Machine.execRqReg q idx s
  | .rqDereg q idx => Sys2Proof.Machine.execRqDereg q idx s
  | .descriptorComplete q idx => Sys2Proof.Machine.execDescriptorComplete q idx s
  | .branchResolve q idx => Sys2Proof.Machine.execBranchResolve q idx s
  | .bellWaitTimeout q => Sys2Proof.Machine.execBellWaitTimeout q s
  | .scheduledStrike d remote k => Sys2Proof.Machine.execScheduledStrike d remote k s
  | .speculativeFill q idx => Sys2Proof.Machine.execSpeculativeFill q idx s
  | .arrayHandover a => Sys2Proof.Machine.execArrayHandover a s
  | .arrayQuantumExpiry a => Sys2Proof.Machine.execArrayQuantumExpiry a s
  | .phaseSwitch => Sys2Proof.Machine.execPhaseSwitch s
  | .tileEmit a r => Sys2Proof.Machine.execTileEmit a r s
  | .chainedBlockStart r => Sys2Proof.Machine.execChainedBlockStart r s
  | .arrayKatStart a => Sys2Proof.Machine.execArrayKatStart a s
  | .arrayKatDone a pass repeatPass => Sys2Proof.Machine.execArrayKatDone a pass repeatPass s
  | .veNop d c => Sys2Proof.Machine.execVeNop d c s
  | .vld d c => Sys2Proof.Machine.execVld d c s
  | .vst d c => Sys2Proof.Machine.execVst d c s
  | .vldh d c => Sys2Proof.Machine.execVldh d c s
  | .vsth d c => Sys2Proof.Machine.execVsth d c s
  | .vlds d c => Sys2Proof.Machine.execVlds d c s
  | .vsts d c => Sys2Proof.Machine.execVsts d c s
  | .vbcast d c => Sys2Proof.Machine.execVbcast d c s
  | .fadd d c => Sys2Proof.Machine.execFadd d c s
  | .fsub d c => Sys2Proof.Machine.execFsub d c s
  | .fmul d c => Sys2Proof.Machine.execFmul d c s
  | .fma d c => Sys2Proof.Machine.execFma d c s
  | .fdiv d c => Sys2Proof.Machine.execFdiv d c s
  | .fsqrt d c => Sys2Proof.Machine.execFsqrt d c s
  | .fmax d c => Sys2Proof.Machine.execFmax d c s
  | .fmin d c => Sys2Proof.Machine.execFmin d c s
  | .fmaxm d c => Sys2Proof.Machine.execFmaxm d c s
  | .fminm d c => Sys2Proof.Machine.execFminm d c s
  | .fabs d c => Sys2Proof.Machine.execFabs d c s
  | .fneg d c => Sys2Proof.Machine.execFneg d c s
  | .fcpsgn d c => Sys2Proof.Machine.execFcpsgn d c s
  | .fscaleb d c => Sys2Proof.Machine.execFscaleb d c s
  | .flogb d c => Sys2Proof.Machine.execFlogb d c s
  | .frint d c => Sys2Proof.Machine.execFrint d c s
  | .iadd d c => Sys2Proof.Machine.execIadd d c s
  | .isub d c => Sys2Proof.Machine.execIsub d c s
  | .imul d c => Sys2Proof.Machine.execImul d c s
  | .imad d c => Sys2Proof.Machine.execImad d c s
  | .idiv d c => Sys2Proof.Machine.execIdiv d c s
  | .ishl d c => Sys2Proof.Machine.execIshl d c s
  | .ishr d c => Sys2Proof.Machine.execIshr d c s
  | .ineg d c => Sys2Proof.Machine.execIneg d c s
  | .iand d c => Sys2Proof.Machine.execIand d c s
  | .ior d c => Sys2Proof.Machine.execIor d c s
  | .ixor d c => Sys2Proof.Machine.execIxor d c s
  | .imax d c => Sys2Proof.Machine.execImax d c s
  | .imin d c => Sys2Proof.Machine.execImin d c s
  | .fcmp d c => Sys2Proof.Machine.execFcmp d c s
  | .icmp d c => Sys2Proof.Machine.execIcmp d c s
  | .sel d c => Sys2Proof.Machine.execSel d c s
  | .cvt d c => Sys2Proof.Machine.execCvt d c s
  | .mxexp d c => Sys2Proof.Machine.execMxexp d c s
  | .mxpack d c => Sys2Proof.Machine.execMxpack d c s
  | .fexp d c => Sys2Proof.Machine.execFexp d c s
  | .fexp2 d c => Sys2Proof.Machine.execFexp2 d c s
  | .flog d c => Sys2Proof.Machine.execFlog d c s
  | .flog2 d c => Sys2Proof.Machine.execFlog2 d c s
  | .frcp d c => Sys2Proof.Machine.execFrcp d c s
  | .frsq d c => Sys2Proof.Machine.execFrsq d c s
  | .ftanh d c => Sys2Proof.Machine.execFtanh d c s
  | .fsigm d c => Sys2Proof.Machine.execFsigm d c s
  | .ferf d c => Sys2Proof.Machine.execFerf d c s
  | .rsum d c => Sys2Proof.Machine.execRsum d c s
  | .rmax d c => Sys2Proof.Machine.execRmax d c s
  | .rmin d c => Sys2Proof.Machine.execRmin d c s
  | .rsumc d c => Sys2Proof.Machine.execRsumc d c s
  | .rmaxc d c => Sys2Proof.Machine.execRmaxc d c s
  | .rminc d c => Sys2Proof.Machine.execRminc d c s
  | .vperm d c => Sys2Proof.Machine.execVperm d c s
  | .vrev d c => Sys2Proof.Machine.execVrev d c s
  | .vshl d c => Sys2Proof.Machine.execVshl d c s
  | .smov d c => Sys2Proof.Machine.execSmov d c s
  | .sadd d c => Sys2Proof.Machine.execSadd d c s
  | .smul d c => Sys2Proof.Machine.execSmul d c s
  | .sget d c => Sys2Proof.Machine.execSget d c s
  | .loop d c => Sys2Proof.Machine.execLoop d c s
  | .br d c => Sys2Proof.Machine.execBr d c s
  | .brz d c => Sys2Proof.Machine.execBrz d c s
  | .pub d c => Sys2Proof.Machine.execPub d c s
  | .veEnd d c => Sys2Proof.Machine.execVeEnd d c s
  | .knormf r => Sys2Proof.Machine.execKnormf r s
  | .knormb r => Sys2Proof.Machine.execKnormb r s
  | .ksmaxf r => Sys2Proof.Machine.execKsmaxf r s
  | .ksmaxb r => Sys2Proof.Machine.execKsmaxb r s
  | .veProgramLimitExceeded d => Sys2Proof.Machine.execVeProgramLimitExceeded d s
  | .updateRequestStart d => Sys2Proof.Machine.execUpdateRequestStart d s
  | .updateSgd r => Sys2Proof.Machine.execUpdateSgd r s
  | .updateSgdMomentum r => Sys2Proof.Machine.execUpdateSgdMomentum r s
  | .updateAdamw r => Sys2Proof.Machine.execUpdateAdamw r s
  | .updateUserProgram d => Sys2Proof.Machine.execUpdateUserProgram d s
  | .updateWaitTimeout d => Sys2Proof.Machine.execUpdateWaitTimeout d s
  | .bumpFailed g => Sys2Proof.Machine.execBumpFailed g s
  | .spareSwapEnd g pass => Sys2Proof.Machine.execSpareSwapEnd g pass s
  | .clockViaLoss who twinDead => Sys2Proof.Machine.execClockViaLoss who twinDead s
  | .marginSurvey d r => Sys2Proof.Machine.execMarginSurvey d r s
  | .tierScrub d row finds => Sys2Proof.Machine.execTierScrub d row finds s
  | .hbmScrub d line finds => Sys2Proof.Machine.execHbmScrub d line finds s
  | .pcRecordDurable d => Sys2Proof.Machine.execPcRecordDurable d s
  | .pcNoticeEnd d => Sys2Proof.Machine.execPcNoticeEnd d s
  | .pcCursorDurable d => Sys2Proof.Machine.execPcCursorDurable d s
  | .pcBatchCopied r => Sys2Proof.Machine.execPcBatchCopied r s
  | .tierRcMibWrite d v w => Sys2Proof.Machine.execTierRcMibWrite d v w s
  | .d2dFlitReceived a b f => Sys2Proof.Machine.execD2dFlitReceived a b f s
  | .d2dSwap a b lane spare => Sys2Proof.Machine.execD2dSwap a b lane spare s
  | .d2dSwapAck a b lane spare k => Sys2Proof.Machine.execD2dSwapAck a b lane spare k s
  | .d2dLaneSwitch a b => Sys2Proof.Machine.execD2dLaneSwitch a b s
  | .d2dRd m => Sys2Proof.Machine.execD2dRd m s
  | .d2dWr m => Sys2Proof.Machine.execD2dWr m s
  | .d2dWrm m => Sys2Proof.Machine.execD2dWrm m s
  | .d2dRdr m => Sys2Proof.Machine.execD2dRdr m s
  | .d2dWra m => Sys2Proof.Machine.execD2dWra m s
  | .d2dErr m => Sys2Proof.Machine.execD2dErr m s
  | .d2dStrike m => Sys2Proof.Machine.execD2dStrike m s
  | .d2dStrikeAt m => Sys2Proof.Machine.execD2dStrikeAt m s
  | .d2dSetb m => Sys2Proof.Machine.execD2dSetb m s
  | .d2dWatch m => Sys2Proof.Machine.execD2dWatch m s
  | .d2dNotify m => Sys2Proof.Machine.execD2dNotify m s
  | .d2dUnwatch m => Sys2Proof.Machine.execD2dUnwatch m s
  | .d2dRequestTimeout d tag => Sys2Proof.Machine.execD2dRequestTimeout d tag s
  | .packetTransit p => Sys2Proof.Machine.execPacketTransit p s
  | .fabLd p => Sys2Proof.Machine.execFabLd p s
  | .fabSt p => Sys2Proof.Machine.execFabSt p s
  | .fabStm p => Sys2Proof.Machine.execFabStm p s
  | .fabPut p => Sys2Proof.Machine.execFabPut p s
  | .fabSend p => Sys2Proof.Machine.execFabSend p s
  | .fabPull p => Sys2Proof.Machine.execFabPull p s
  | .fabCsetup p => Sys2Proof.Machine.execFabCsetup p s
  | .fabCtear p => Sys2Proof.Machine.execFabCtear p s
  | .fabPulld p => Sys2Proof.Machine.execFabPulld p s
  | .fabLdr p => Sys2Proof.Machine.execFabLdr p s
  | .fabSta p => Sys2Proof.Machine.execFabSta p s
  | .fabPuta p => Sys2Proof.Machine.execFabPuta p s
  | .fabSenda p => Sys2Proof.Machine.execFabSenda p s
  | .fabCack p => Sys2Proof.Machine.execFabCack p s
  | .fabErr p => Sys2Proof.Machine.execFabErr p s
  | .fabStrike p => Sys2Proof.Machine.execFabStrike p s
  | .fabStrikeAt p => Sys2Proof.Machine.execFabStrikeAt p s
  | .fabReqTimeout tag => Sys2Proof.Machine.execFabReqTimeout tag s
  | .circuitResendExpiry tag => Sys2Proof.Machine.execCircuitResendExpiry tag s
  | .bellCreditRestore port => Sys2Proof.Machine.execBellCreditRestore port s
  | .endpointCoordWrite v w => Sys2Proof.Machine.execEndpointCoordWrite v w s
  | .darkRelease v w circuits => Sys2Proof.Machine.execDarkRelease v w circuits s
  | .linkFlitReceived f fl => Sys2Proof.Machine.execLinkFlitReceived f fl s
  | .linkReplayTimeout f => Sys2Proof.Machine.execLinkReplayTimeout f s
  | .changeReq f m => Sys2Proof.Machine.execChangeReq f m s
  | .changeAck f m => Sys2Proof.Machine.execChangeAck f m s
  | .commit f m => Sys2Proof.Machine.execCommit f m s
  | .laneFault f m => Sys2Proof.Machine.execLaneFault f m s
  | .lost f m => Sys2Proof.Machine.execLost f m s
  | .calSched f m => Sys2Proof.Machine.execCalSched f m s
  | .laneMapApply f tx => Sys2Proof.Machine.execLaneMapApply f tx s
  | .laneSignalLoss f l => Sys2Proof.Machine.execLaneSignalLoss f l s
  | .laneBerCheck f l r => Sys2Proof.Machine.execLaneBerCheck f l r s
  | .trainingStart f => Sys2Proof.Machine.execTrainingStart f s
  | .trainingDone f r => Sys2Proof.Machine.execTrainingDone f r s
  | .trainingTimeout f => Sys2Proof.Machine.execTrainingTimeout f s
  | .portMapApply v w => Sys2Proof.Machine.execPortMapApply v w s
  | .portLossOfSignal port => Sys2Proof.Machine.execPortLossOfSignal port s
  | .calChangePropose f => Sys2Proof.Machine.execCalChangePropose f s
  | .calWindowStart e => Sys2Proof.Machine.execCalWindowStart e s
  | .calWindowEnd e r => Sys2Proof.Machine.execCalWindowEnd e r s
  | .calMaxGapExpiry f => Sys2Proof.Machine.execCalMaxGapExpiry f s
  | .ringLockLost r l => Sys2Proof.Machine.execRingLockLost r l s
  | .ringFeedForward d mw => Sys2Proof.Machine.execRingFeedForward d mw s
  | .laserPowerCheck b mdbm => Sys2Proof.Machine.execLaserPowerCheck b mdbm s
  | .laserAbruptLoss b l => Sys2Proof.Machine.execLaserAbruptLoss b l s
  | .spareSourceLocked b l => Sys2Proof.Machine.execSpareSourceLocked b l s
  | .spareSourceLockTimeout b l => Sys2Proof.Machine.execSpareSourceLockTimeout b l s
  | .collHandshakeStart q idx => Sys2Proof.Machine.execCollHandshakeStart q idx s
  | .chs p => Sys2Proof.Machine.execChs p s
  | .cdata p => Sys2Proof.Machine.execCdata p s
  | .cabort p => Sys2Proof.Machine.execCabort p s
  | .collProgressTimeout cid => Sys2Proof.Machine.execCollProgressTimeout cid s
  | .tempoFlitSend port => Sys2Proof.Machine.execTempoFlitSend port s
  | .tempoFlit port t => Sys2Proof.Machine.execTempoFlit port t s
  | .tempoServo => Sys2Proof.Machine.execTempoServo s
  | .tempoParentSelect => Sys2Proof.Machine.execTempoParentSelect s
  | .tempoRootSelect => Sys2Proof.Machine.execTempoRootSelect s
  | .tempoParentLost => Sys2Proof.Machine.execTempoParentLost s
  | .holdoverExpired => Sys2Proof.Machine.execHoldoverExpired s
  | .fabricEpochWrite v w => Sys2Proof.Machine.execFabricEpochWrite v w s
  | .fenceEntryWrite k v w => Sys2Proof.Machine.execFenceEntryWrite k v w s
  | .fenceSelfWrite v w => Sys2Proof.Machine.execFenceSelfWrite v w s
  | .neighbourSuspected dir => Sys2Proof.Machine.execNeighbourSuspected dir s
  | .ghostModeWrite v w => Sys2Proof.Machine.execGhostModeWrite v w s
  | .ghostMark => Sys2Proof.Machine.execGhostMark s
  | .ghostBlockSend => Sys2Proof.Machine.execGhostBlockSend s
  | .ghostHello r => Sys2Proof.Machine.execGhostHello r s
  | .ghostCommit r => Sys2Proof.Machine.execGhostCommit r s
  | .ghostAck r => Sys2Proof.Machine.execGhostAck r s
  | .ghostRefuse r => Sys2Proof.Machine.execGhostRefuse r s
  | .ghostApplyDone => Sys2Proof.Machine.execGhostApplyDone s
  | .ghostRollback v w => Sys2Proof.Machine.execGhostRollback v w s
  | .shadowRecord bytes => Sys2Proof.Machine.execShadowRecord bytes s
  | .admitDevice v w => Sys2Proof.Machine.execAdmitDevice v w s
  | .healthEvaluation => Sys2Proof.Machine.execHealthEvaluation s
  | .eventDebtDecay => Sys2Proof.Machine.execEventDebtDecay s
  | .requalStart v w => Sys2Proof.Machine.execRequalStart v w s
  | .requalVerdict e => Sys2Proof.Machine.execRequalVerdict e s
  | .bdpRead m => Sys2Proof.Machine.execBdpRead m s
  | .bdpWrite m => Sys2Proof.Machine.execBdpWrite m s
  | .bdpDescribe m => Sys2Proof.Machine.execBdpDescribe m s
  | .bdpNonce m => Sys2Proof.Machine.execBdpNonce m s
  | .storeDurable readBackOk => Sys2Proof.Machine.execStoreDurable readBackOk s
  | .nonceExpired => Sys2Proof.Machine.execNonceExpired s
  | .plcaSettingWrite sub v w => Sys2Proof.Machine.execPlcaSettingWrite sub v w s
  | .plcaBeaconLoss => Sys2Proof.Machine.execPlcaBeaconLoss s
  | .plcaBeacon => Sys2Proof.Machine.execPlcaBeacon s
  | .plcaCollision attempt => Sys2Proof.Machine.execPlcaCollision attempt s
  | .neighborSolicitation target => Sys2Proof.Machine.execNeighborSolicitation target s
  | .echoRequest src => Sys2Proof.Machine.execEchoRequest src s
  | .journalFlush => Sys2Proof.Machine.execJournalFlush s
  | .powerCapCheck meanW meanMsW meanMsMa => Sys2Proof.Machine.execPowerCapCheck meanW meanMsW meanMsMa s
  | .currentCapCheck d meanMa => Sys2Proof.Machine.execCurrentCapCheck d meanMa s
  | .thermalModelUpdate d mw inA inB => Sys2Proof.Machine.execThermalModelUpdate d mw inA inB s
  | .modelRefine d fitR fitTau => Sys2Proof.Machine.execModelRefine d fitR fitTau s
  | .sensorCrossCheck d r => Sys2Proof.Machine.execSensorCrossCheck d r s
  | .thermalCapCheck d => Sys2Proof.Machine.execThermalCapCheck d s
  | .thermalCritTimeout d => Sys2Proof.Machine.execThermalCritTimeout d s
  | .droopDetected d mv slackPs => Sys2Proof.Machine.execDroopDetected d mv slackPs s
  | .stretchRelease d mv slackPs => Sys2Proof.Machine.execStretchRelease d mv slackPs s
  | .coolantCheck inA inB outA outB => Sys2Proof.Machine.execCoolantCheck inA inB outA outB s
  | .busMasterEnable on => Sys2Proof.Machine.execBusMasterEnable on s
  | .powerStateChange d3hot => Sys2Proof.Machine.execPowerStateChange d3hot s
  | .d2dRetrainDone a b => Sys2Proof.Machine.execD2dRetrainDone a b s
  | .d2dLossOfSignal a b lane => Sys2Proof.Machine.execD2dLossOfSignal a b lane s
  | .badFrame fcsBad => Sys2Proof.Machine.execBadFrame fcsBad s

end Sys2Proof.Machine
end

