-- ==== Sys2Proof/Safety.lean ====
section
/-!
DEFINITION. The terms in which statements speak of runs: the canonical form that every step keeps, when a packet takes its
effect, and how a management request comes to its turn.
-/

namespace Sys2Proof.Machine

/-- Numbers rise strictly, from `lo` on. -/
def rising : Nat → List Nat → Bool
  | _, [] => true
  | lo, k :: r => decide (lo ≤ k) && rising (k + 1) r

/-- The state's data stand in their one canonical form: the memory, the poisoned words, and every map of the state's own
from numbers to pieces of state. -/
def State.canonical (s : State) : Bool :=
  Memory.wf s.mem && rising 0 s.poison && mwf dictAbsent 0 s.dict && mwf Queue.init 0 s.queues && mwf Cp.init 0 s.cps
    && mwf 0 0 s.bells && mwf Arr.init 0 s.arrays && mwf Ve.init 0 s.ves && mwf [] 0 s.lanes && mwf Tier.init 0 s.tiers
    && mwf Hbm.init 0 s.hbms && mwf Rc.init 0 s.rcs && mwf Pair.init 0 s.pairs && mwf Fibre.init 0 s.fibres
    && mwf Bank.init 0 s.banks && mwf Therm.init 0 s.therms && mwf PortSt.init 0 s.fab.ports
    && mwf portMapReset 0 s.portMaps && mwf 0 0 s.host.reqBuf && mwf none 0 s.rings

/-- The invariant that every step keeps. -/
abbrev Inv (s : State) : Prop := s.canonical = true

/-- A packet is ejected here and takes its effect, `u` being the state in which it has been taken: the device takes part in
the fabric, the packet is for it and is the oldest whole one of its stream, the reply to it has credit, its source is not
fenced and its epoch is the device's own, the next or the one before. -/
def Accepts (s : State) (p : Packet) (u : State) : Prop :=
  fabricLive s = true ∧ s.fab.coord = some p.dst ∧ replyCredit s p = true ∧ takePacket s p = some u ∧
    isFenced u p.src = false ∧ epochOk u p = true

/-- The next word of a context of a vector engine issues as a command's: `u` and `r` are the state and the context in which
it acts, after what the command's reads find in error has been handled; it is legal. -/
def Issues (s : State) (d : Die) (c : VeCtx) (w : Word) (u : State) (r : VeRun) : Prop :=
  ∃ (t v : State) (p : Bool), veFetch (readErrs s c.words) d.val c.upd = .word t w p ∧ veRefused c.upd (veDecode w) = false ∧
    regErrs d.val (veDecode w) c.regs t (if p then { veRun t d.val c.upd with poison := true } else veRun t d.val c.upd) = (v, r) ∧
    u = setVeRun v d.val c.upd r

/-- A BDP request is taken from its source's path, and `t` is the state in which it comes to its turn: by the mailbox, whose
buffer it fills and which is then busy, or by the multidrop, from a known source with a token, which it takes and where
it is counted. -/
def Arrives (s : State) (m : BdpMsg) (t : State) : Prop :=
  loaded s = true ∧ isBdp m = true ∧ s.mgmt.store = none ∧
    match m.src with
    | .mailbox => s.host.mbxBusy = false ∧ romRuns s = false ∧ m.bytes.length ≤ 4096 ∧
        t = { setRequest s m.bytes with host := { (setRequest s m.bytes).host with mbxBusy := true } }
    | .udp a => s.mgmt.dadBad = false ∧ sourceKnown s (.udp a) = true ∧ second ≤ bucketOf s a ∧
        t = (takeToken (bump s 0x80E0 1 1) a).2

/-- No reply to this very request is held (15 R335). -/
def Fresh (s : State) (m : BdpMsg) : Prop :=
  s.mgmt.cache.find? (fun c => c.src == m.src && c.seq == msgSeq m && c.req == m.bytes) = none

end Sys2Proof.Machine
end

