-- ==== Sys2Proof/Certificates/Slice0/Obligations.lean ====
section
/-!
DEFINITION. The statements for the provers.  Each says what a command answers: the next state, written with the model's
named operations on its state, so what the equation does not name is unchanged; or a property of every state.
-/

open Sys2Proof Sys2Proof.Machine

/-- O1 (98_reader.md, 07_memory.md (R160, R168)). A step runs the command at the front of the queue, and a command's
reads in error are handled before its effect. For every command c and state s, the step of s with c put at the front
of its queue is exec of c on s: the rest of the queue is what s holds. With an empty queue a step is one edge of the
350 MHz reference, the model's choice (log 9). A command outside the vector engine's context that carries the words
its reads find in error acts as the same command with none, on the state in which those words have been handled. -/
def Obligations.StepRunsFrontCommand : Prop :=
  (∀ (c : Instr) (s : State), step { s with pending := c :: s.pending } = exec c s)
    ∧ (∀ s : State, s.pending = [] → step s = .next (referenceEdge s))
    ∧ (∀ (q : QId) (i : BitVec 32) (d : Die) (p : Packet) (off : BitVec 41) (n : Nat) (data : Option (List Byte))
        (errs : List ReadErr) (bufs : List BufErr) (regs : List RegErr) (s : State) (c clean : Instr),
      hubOn s = true →
      ((c, clean) ∈
        [(Instr.descriptorFetch ⟨q, errs⟩, Instr.descriptorFetch ⟨q, []⟩), (.replay q ⟨i, errs⟩, .replay q ⟨i, []⟩),
         (.matrix q ⟨i, errs, bufs⟩, .matrix q ⟨i, [], bufs⟩), (.diagonalTile q ⟨i, errs, bufs⟩, .diagonalTile q ⟨i, [], bufs⟩),
         (.copy q ⟨i, errs⟩, .copy q ⟨i, []⟩), (.put q ⟨i, errs⟩, .put q ⟨i, []⟩), (.mcastPut q ⟨i, errs⟩, .mcastPut q ⟨i, []⟩),
         (.circuitPut q ⟨i, errs⟩, .circuitPut q ⟨i, []⟩), (.send q ⟨i, errs⟩, .send q ⟨i, []⟩),
         (.speculativeFill q ⟨i, errs⟩, .speculativeFill q ⟨i, []⟩), (.chainedBlockStart ⟨d, errs, regs⟩, .chainedBlockStart ⟨d, [], regs⟩),
         (.knormf ⟨d, errs, regs⟩, .knormf ⟨d, [], regs⟩), (.knormb ⟨d, errs, regs⟩, .knormb ⟨d, [], regs⟩),
         (.ksmaxf ⟨d, errs, regs⟩, .ksmaxf ⟨d, [], regs⟩), (.ksmaxb ⟨d, errs, regs⟩, .ksmaxb ⟨d, [], regs⟩),
         (.updateRequestStart ⟨d, errs⟩, .updateRequestStart ⟨d, []⟩), (.updateSgd ⟨d, errs, regs⟩, .updateSgd ⟨d, [], regs⟩),
         (.updateSgdMomentum ⟨d, errs, regs⟩, .updateSgdMomentum ⟨d, [], regs⟩), (.updateAdamw ⟨d, errs, regs⟩, .updateAdamw ⟨d, [], regs⟩),
         (.updateUserProgram ⟨d, errs⟩, .updateUserProgram ⟨d, []⟩), (.fabLd ⟨p, errs⟩, .fabLd ⟨p, []⟩), (.fabPull ⟨p, errs⟩, .fabPull ⟨p, []⟩),
         (.bar2Access off n ⟨data, errs⟩, .bar2Access off n ⟨data, []⟩)]) →
      (∀ t, t = readErrs s errs → hubOn t = true → exec c s = exec clean t))

/-- O2 (07_memory.md (R155, R156)). The state at reset is canonical and holds the values the spec gives. At reset the
memory lists no cell and every map of the state is in its canonical form; every queue is DISABLED with every
register 0, every bell is 0, every predictor counter is 1, tempo is 0 and FREE, the training phase is 0, the power
cap is 64 steps, and no byte of memory reads other than 0. That the module is unpowered at reset is the model's
choice (log 2). -/
def Obligations.CanonicalAtReset : Prop :=
  Inv State.reset
    ∧ (∀ q, State.reset.queue q = Queue.init) ∧ Queue.init.state = .disabled ∧ qctlRead Queue.init = 0
    ∧ Queue.init.inputs = [0, 0, 0, 0]
    ∧ (∀ b, State.reset.bell b = 0) ∧ (∀ q i, predCount State.reset q i = 1)
    ∧ State.reset.tempo.ticks = 0 ∧ State.reset.tempo.state = 0 ∧ State.reset.train.phase = 0
    ∧ State.reset.power.cap = 64 ∧ (∀ d, (State.reset.therm d).capTh = 64)
    ∧ ∀ k, readByte State.reset k = 0

/-- O3 (07_memory.md (R155, R156, R171), 98_reader.md). Every step keeps the state's canonical form. For every state
whose memory, poison list and maps are in canonical form, if a step answers a next state then that state is in
canonical form too: addresses strictly rise, no cell is listed at the value an unlisted one reads as, poisoned words
strictly rise, and no map of queues, command processors, bells, arrays, engines, tiers, stacks, pairs, fibres,
banks, ports, ring models or dictionary numbers lists an entry at its default. -/
def Obligations.CanonicalKept : Prop := ∀ s t : State, Inv s → step s = .next t → Inv t

/-- O4 (07_memory.md (R155, R171, the marking of a write)). A store's bytes read back and no other byte changes; it
replaces the marking of a whole word and adds to that of a partial one. In a canonical memory, after bytes are
stored at a key, each key of the store reads the byte stored there, and every other key reads as before. In any
memory, a 64-bit word that lies whole within the store is marked exactly if its data are; a word it covers in part
is marked if it was or if its data are; every other word keeps its marking. -/
def Obligations.StoredBytesAndMarks : Prop :=
  (∀ (s : State) (key : Nat) (data : List Byte) (pz : Nat → Bool), Memory.wf s.mem = true →
    (∀ i < data.length, readByte (storeBytes s key data pz) (key + i) = data.getD i 0)
      ∧ ∀ k, (k < key ∨ key + data.length ≤ k) → readByte (storeBytes s key data pz) k = readByte s k)
  ∧ (∀ (s : State) (key : Nat) (data : List Byte) (pz : Nat → Bool) (w : Nat),
    (storeBytes s key data pz).poison.contains w =
      if key ≤ 8 * w ∧ 8 * w + 8 ≤ key + data.length then pz (w - key / 8)
      else if w ∈ wordsOf key data.length then s.poison.contains w || pz (w - key / 8)
      else s.poison.contains w)

/-- O5 (13_resilience.md (Table 13.7), 14_host_interface.md (R323), 15_management_dictionary.md (R348, R349)). A sticky
bit's first event sets it and touches the journal, the debt and the error vector; later ones do nothing. An event
whose bit stands set changes nothing. An event whose bit is clear sets it in a canonical dictionary, and leaves
everything but the dictionary, the journal's books, the health debt, the host function and the outputs as it was;
the debt rises by the bit's number of Table 13.7 and stays at most 1,000. -/
def Obligations.StickyBitEvents : Prop :=
  ∀ (s : State) (idx sub b : Nat),
    (dbit s idx sub b = true → sticky s idx sub b = s)
    ∧ (dbit s idx sub b = false →
        sticky s idx sub b =
          { s with dict := (sticky s idx sub b).dict, mgmt := (sticky s idx sub b).mgmt,
                   health := (sticky s idx sub b).health, host := (sticky s idx sub b).host,
                   out := (sticky s idx sub b).out }
        ∧ (sticky s idx sub b).health.debt = min 1000 (s.health.debt + debtOf idx sub)
        ∧ (Inv s → (idx, sub) ≠ (0xA0FF, 3) → (idx, sub) ≠ (0x80D0, 4) → sub < 256 →
            (dcell s idx sub) < dictAbsent → b < 64 → dbit (sticky s idx sub b) idx sub b = true))

/-- O6 (06_command_processors_and_bells.md (Tables 6.2 to 6.4, R127), 14_host_interface.md (R321, Table 14.2)). TAIL,
QCTL and the other queue registers are written as Tables 6.2 and 6.4 say. While the hub runs: a doorbell sets TAIL
and nothing else; ENABLE in DISABLED starts the queue at HEAD with its branch inputs 0; PARK in RUNNING makes it
PARKING, discards what has not issued and settles the queue; ENABLE without PARK resumes PARKED at HEAD; ENABLE = 0
in PARKED disables it whatever PARK is; ERR_ACK in ERROR is held and then settled. Each also takes VECTOR,
IRQ_HOLDOFF and RING_LOG2 where the state lets them change. Of queue q: HEAD is written (and fetching restarts
there) in DISABLED and PARKED; RING_BASE and CQ_BASE are written there with their fixed bits 0, CQ_CTL unless above
8; a write of any of these in another state changes nothing; CQ_HEAD is written in every state and CQ_TAIL in none. -/
def Obligations.QueueRegistersWritten : Prop :=
  (∀ (q : QId) (s : State), hubOn s = true →
    (∀ v, exec (.tailWrite q v) s = .next (s.setQueue q.val { s.queue q.val with tail := v }))
    ∧ (∀ v, (s.queue q.val).state = .disabled → s.boot.complete = true → (s.queue q.val).jobs = [] →
        unitUp s (queueDie q.val) = true →
        exec (.qctlEnable q v) s = .next (s.setQueue q.val
          { qctlFields (s.queue q.val) ((v ||| 0x4) &&& ~~~0x18) with
            park := false, state := .running, inputs := [0, 0, 0, 0], fetched := [], fetchAt := (s.queue q.val).head }))
    ∧ (∀ v, (s.queue q.val).state = .running →
        exec (.qctlPark q v) s = .next (settleQueue (discardDecoded
          (s.setQueue q.val { s.queue q.val with park := true, state := .parking }) q.val) q.val))
    ∧ (∀ v, (s.queue q.val).state = .parked →
        exec (.qctlResume q v) s = .next (s.setQueue q.val
          { qctlFields (s.queue q.val) ((v ||| 0x4) &&& ~~~0x18) with
            park := false, state := .running, fetchAt := (s.queue q.val).head, fetched := [] }))
    ∧ (∀ v, (s.queue q.val).state = .parked → (s.tier (queueDie q.val)).rcHeld = none →
        exec (.qctlDisable q v) s = .next (s.setQueue q.val
          { qctlFields (s.queue q.val) (v &&& ~~~0x14) with park := v.getLsbD 3, state := .disabled }))
    ∧ (∀ v, (s.queue q.val).state = .error →
        exec (.qctlErrAck q v) s = .next (settleQueue (s.setQueue q.val { s.queue q.val with ackHeld := true }) q.val)))
  ∧ (∀ (q : QId) (v : BitVec 64) (s : State), hubOn s = true →
    let write := fun (reg : Nat) => exec (.queueRegisterWrite (BitVec.ofNat 24 (0x10000 + 64 * q.val + reg)) true v) s
    let x := s.queue q.val
    (quiet x = true →
      write 0x08 = .next (s.setQueue q.val { x with ringBase := (v &&& 0x8000000000000000) ||| (v &&& 0x00FFFFFFFFFFFF80) })
      ∧ write 0x18 = .next (s.setQueue q.val { x with head := v.setWidth 32, fetchAt := v.setWidth 32 })
      ∧ write 0x20 = .next (s.setQueue q.val { x with cqBase := (v &&& 0x8000000000000000) ||| (v &&& 0x00FFFFFFFFFFFFE0) })
      ∧ (wbits v 3 0 ≤ 8 → write 0x28 = .next (s.setQueue q.val { x with cqLog2 := v.setWidth 4 }))
      ∧ (8 < wbits v 3 0 → write 0x28 = .next s))
    ∧ (quiet x = false → write 0x08 = .next s ∧ write 0x18 = .next s ∧ write 0x20 = .next s ∧ write 0x28 = .next s)
    ∧ write 0x30 = .next s
    ∧ write 0x38 = .next (s.setQueue q.val { x with cqHead := v.setWidth 32 }))

/-- O7 (06_command_processors_and_bells.md (R142, R396), 14_host_interface.md (R322)). A running queue reads its next
descriptor whole from a mapped ring, and asks the host for one in host memory. A running queue with room under
RUN_AHEAD and something below TAIL advances its fetch index by one. From a ring in device memory whose 128 bytes are
mapped, and whose sixteen words carry no poison, it keeps the descriptor's words, in ring order. From a ring in host
memory it issues one read of 128 bytes. -/
def Obligations.DescriptorFetched : Prop := ∀ (q : QId) (s : State),
  let x := s.queue q.val
  let a := bitsOf x.ringBase.toNat 55 0 + x.fetchAt.toNat % (256 * 2 ^ x.ringLog2.toNat) * 128
  let key := cellKey (addrDie a) (addrOff a)
  Inv s → hubOn s = true → unitUp s (queueDie q.val) = true → x.state = .running → x.fetchAt ≠ x.tail →
  (x.fetchAt - oldest x).toNat < min 256 (dnum s 0x2060 4) →
  (x.ringBase.getLsbD 63 = false → addrSlot a = ownSlot s → faultIn s (addrDie a) (addrOff a) 128 = none →
    firstMark (fun k => poisoned s (key + 8 * k)) = none →
    ∃ t, exec (.descriptorFetch ⟨q, []⟩) s = .next t ∧ t = { carryRead s key 128 with queues := t.queues }
      ∧ t.queue q.val = { x with
          fetchAt := x.fetchAt + 1,
          fetched := insertFetched x.head
            { idx := x.fetchAt, words := wordsFrom 16 (readBytes s key 128), poison := none } x.fetched }
      ∧ ∀ p, p ≠ q.val → t.queue p = s.queue p)
  ∧ (x.ringBase.getLsbD 63 = true → hostReady s = true → s.host.reads.length < 1024 →
    exec (.descriptorFetch ⟨q, []⟩) s = .next
      (hostRead (s.setQueue q.val { x with fetchAt := x.fetchAt + 1 }) a 128 (.fetch q.val x.fetchAt)))

/-- O8 (06_command_processors_and_bells.md (R139), 05_training_path.md (R113)). The head of a running queue issues when
every rule of R139 holds, and then joins those in flight. A head that waits on no bell, is refused by no rule,
carries no fence, belongs to no phase, is not frozen, is not fenced off and whose resource takes it issues: HEAD
passes it, it leaves the fetched descriptors and joins those in flight with its words, ready to run, and nothing
else changes. Its refusal instead writes its record with the status of the rule and stops the queue. -/
def Obligations.DescriptorIssued : Prop := ∀ (q : QId) (s : State) (f : Fetched) (rest : List Fetched),
  let x := s.queue q.val
  x.fetched = f :: rest → mayIssue s q.val = true → f.idx = x.head →
  (refusal s q.val f f.words = none → isFrozen f.words = false → waitEn f.words = false → descFence f.words = false →
    trainPhase f.words = 0 → isShut s f.words = false → takes s q.val f.words = .yes → descType f.words ≠ 5 →
    exec (.descriptorIssue q) s = .next (s.setQueue q.val
      { x with jobs := x.jobs ++ [newJob f.idx f.words], head := f.idx + 1, fetched := rest, waitAt := none,
               watch := none, notified := false, waitOpen := false }))
  ∧ (∀ r, refusal s q.val f f.words = some r → exec (.descriptorIssue q) s = .next (refuseWith s q.val f r))

/-- O9 (06_command_processors_and_bells.md (R139, R140, Tables 6.3, 6.13), 08_isroum_base_fabric.md (R194)). A finished
descriptor writes its record and ends; held raises are delivered as one when IRQ_HOLDOFF ends. A descriptor whose
work has ended with a status that does not stop the queue, and that neither strikes nor raises its vector and, of a
collective, has no packet that still waits for its credits, completes on a running queue: CQ_TAIL advances by one,
the 32 bytes of its record stand at the ring's place in device memory, unpoisoned, and the descriptor is in flight
no longer. Nothing else changes but what a store of bytes changes. When a raise of a queue's vector is held and
IRQ_HOLDOFF microseconds have passed since the last one, the vector is raised once, and the hold-off starts again;
before then nothing happens. -/
def Obligations.DescriptorCompletes : Prop :=
  (∀ (q : QId) (i : BitVec 32) (s : State) (j : Job),
    let x := s.queue q.val
    let place := recordAt x.cqBase x.cqLog2.toNat x.cqTail
    Inv s → s.job q.val i = some j → j.phase = .finished → collHeld s j = false → isStopping j.status = false →
    strikeEn j.words = false →
    descIrq j.words = false → descType j.words ≠ 3 → j.replay = none → j.cqOld = none → x.state = .running →
    x.cqBase.getLsbD 63 = false → addrSlot place.1 = ownSlot s → faultIn s (addrDie place.1) (addrOff place.1) 32 = none →
    exec (.descriptorComplete q i) s = .next
      ((storeBytes (s.setQueue q.val { x with cqTail := x.cqTail + 1 }) (cellKey (addrDie place.1) (addrOff place.1))
          (recordBytes s j place.2) (fun _ => false)).setQueue q.val
        { x with cqTail := x.cqTail + 1, jobs := x.jobs.filter (fun k => !(k.idx == j.idx && k.replay == j.replay)) }))
  ∧ (∀ (q : QId) (s : State) (t : Word),
    let x := s.queue q.val
    x.lastRaise = some t →
    (x.raiseHeld = true → x.holdoff.toNat * 1000 ≤ (clock s - t).toNat → exec (.irqHoldoffExpiry q) s = .next
      (raiseVector (s.setQueue q.val { x with lastRaise := some (clock s), raiseHeld := false }) x.vector.toNat))
    ∧ ((clock s - t).toNat < x.holdoff.toNat * 1000 → exec (.irqHoldoffExpiry q) s = .next s))

/-- O10 (06_command_processors_and_bells.md (R149, R152, R153), 05_training_path.md (R118)). A head waits for its bell
up to its timeout, and a frozen ROLE 2 descriptor ends with FROZEN_SKIP. A head whose wait is on a bell of its own
die below the wanted value begins its wait and issues nothing. When its timeout has passed with the bell still
short, the descriptor is refused with BELL_TIMEOUT and the bell's number, and the die's bit of 0xA060:02 is set. A
head of ROLE 2 with FROZEN = 1, of any type, that no rule refuses and that waits for nothing ends as it issues with
status FROZEN_SKIP and DETAIL 0, counted once in 0x8050:03, whatever the arrays hold: beyond its place in the queue,
its phase and its block nothing changes, so no array, slice or update request does. -/
def Obligations.WaitingAndFrozenHeads : Prop :=
  (∀ (q : QId) (s : State) (f : Fetched) (rest : List Fetched),
    let x := s.queue q.val
    x.fetched = f :: rest → f.idx = x.head → waitEn f.words = true →
    bellDie (waitBell f.words) = queueDie q.val → s.bell (waitBell f.words) < waitValue f.words →
    (mayIssue s q.val = true → refusal s q.val f f.words = none → x.waitAt = none →
      dieUp s (bellDie (waitBell f.words)) = true → trainPhase f.words = 0 →
      exec (.descriptorIssue q) s = .next (s.setQueue q.val
        { x with waitAt := some (clock s), watch := none, notified := false, waitOpen := false }))
    ∧ (∀ t, x.state = .running → x.waitAt = some t → waitTicks s f.words ≤ (clock s - t).toNat →
      exec (.bellWaitTimeout q) s = .next
        (sticky (refuse (dropWait s q.val) q.val f 0x1A (waitBell f.words)) 0xA060 2 (queueDie q.val))))
  ∧ (∀ (q : QId) (s : State) (f : Fetched) (rest : List Fetched),
    let x := s.queue q.val
    let issued := s.setQueue q.val
      { x with jobs := x.jobs ++ [newJob f.idx f.words], head := f.idx + 1, fetched := rest, waitAt := none, watch := none,
               notified := false, waitOpen := false }
    x.fetched = f :: rest → f.idx = x.head → mayIssue s q.val = true → refusal s q.val f f.words = none →
    waitEn f.words = false → (descFence f.words = true → x.jobs = []) →
    phaseMay s (trainPhase f.words) x.waitOpen = true → isShut s f.words = false →
    trainRole f.words = 2 → trainFrozen f.words = true →
    exec (.descriptorIssue q) s = .next (finish (bump (noteBlock (phaseStart issued (trainPhase f.words)) q.val f.idx f.words)
      0x8050 3 1) q.val f.idx 0x02 0))

/-- O11 (06_command_processors_and_bells.md (Tables 6.6, 6.9, R136, R143)). A NOP ends at once; a branch is taken, or
predicted from its counter and left to resolve. An issued NOP ends OK (POISONED where a poisoned word moved). A
branch of PRED 7 whose skip lies below TAIL is taken: it ends, and the next issue is the descriptor after those it
skips. Any other branch outside a replay takes the prediction of its two-bit counter, taken from 2 on, and waits to
resolve. -/
def Obligations.NopAndBranchIssue : Prop := ∀ (q : QId) (i : BitVec 32) (s : State) (j : Job),
  s.job q.val i = some j → j.phase = .ready →
  (descType j.words = 0 → exec (.descNop q i) s = .next (finish s q.val i (if j.poisoned then 1 else 0) 0))
  ∧ (descType j.words = 4 → wbits (dword j.words 5) 55 53 = 7 → j.replay = none → skipCovered (s.queue q.val) i j.words = true →
      exec (.branch q i) s = .next
        (takeSkip (finishOk (s.modJob q.val i (fun k => { k with taken := true })) q.val i) q.val i j.words))
  ∧ (descType j.words = 4 → wbits (dword j.words 5) 55 53 ≠ 7 → j.outcomes = [] →
      exec (.branch q i) s = .next (s.modJob q.val i (fun k =>
        { k with phase := .working,
                 predicted := if k.outcomes.isEmpty then some (decide (2 ≤ predCount s q.val i)) else k.outcomes.head? })))

/-- O12 (06_command_processors_and_bells.md (R136, R143, R144), 05_training_path.md (R120)). A branch resolves by its
comparison, trains its counter, and squashes a wrong path. A branch with no earlier VE descriptor running, outside a
replay, resolves as its comparison says where its skip lies below TAIL. Its counter moves one step toward the
outcome, a recording block notes the outcome, and the branches count by one. Mispredicted, it also counts there,
releases every speculative line of the queue, and discards what the queue has fetched, to be fetched again from
HEAD. Taken, the next issue is the one after the skip: in a canonical state HEAD is then i + 1 + SKIP. -/
def Obligations.BranchResolution : Prop := ∀ (q : QId) (i : BitVec 32) (s : State) (j : Job),
  let x := s.queue q.val
  let d := queueDie q.val
  let taken := branchTaken j.words x.inputs
  let done := bump (recordOutcome (trainPred (finishOk (s.modJob q.val i (fun k => { k with taken := taken })) q.val i)
    q.val i taken) q.val taken) 0x8060 (d + 1) 1
  s.job q.val i = some j → j.phase = .working → descType j.words = 4 → veBefore x i = false → j.replay = none →
  (taken = false → j.predicted = some false → exec (.branchResolve q i) s = .next done)
  ∧ (taken = false → j.predicted = some true →
      exec (.branchResolve q i) s = .next (squash done q.val))
  ∧ (taken = true → skipCovered x i j.words = true → j.predicted = some true →
      exec (.branchResolve q i) s = .next (takeSkip done q.val i j.words))
  ∧ (taken = true → skipCovered x i j.words = true → j.predicted = some false →
      exec (.branchResolve q i) s = .next (takeSkip (squash done q.val) q.val i j.words))
  ∧ (∀ u : State, Inv u → ((u.queue q.val).state = .running ∨ (u.queue q.val).state = .parking) →
      ((takeSkip u q.val i j.words).queue q.val).head = i + 1 + BitVec.ofNat 32 (wbits (dword j.words 5) 63 56)
      ∧ ((squash u q.val).queue q.val).fetched = []
      ∧ ((squash u q.val).queue q.val).fetchAt = (u.queue q.val).head)

/-- O13 (06_command_processors_and_bells.md (R147)). A strike adds to its bell modulo 2^64, a SET writes it, and no
other bell moves. In a canonical state the struck bell reads the sum modulo 2^64 and every other bell as before; a
SET bell reads the value written. A strike that does not wrap and that satisfies no watch changes the bell alone. -/
def Obligations.BellArithmetic : Prop := ∀ (s : State) (b : Nat) (v : Word), Inv s →
  (strike s b v).bell b = s.bell b + v ∧ (setBell s b v).bell b = v
  ∧ (∀ c, c ≠ b → (strike s b v).bell c = s.bell c ∧ (setBell s b v).bell c = s.bell c)
  ∧ (s.watches = [] → s.bell b ≤ s.bell b + v → strike s b v = s.setBell b (s.bell b + v))

/-- O14 (06_command_processors_and_bells.md (R137, R150, R151, Table 6.10)). A BELL descriptor's next entry strikes,
sets or schedules its bell once its release is done. With the descriptor's release done, its next entry acts: a
strike or a SET on a bell of the same die at once, on a bell of another die of the package as a message to it, on a
bell of another device as a frame; a strike whose tick has not passed is entered in the die's own table of 32, and
one whose tick has passed is performed late; on another die, within the allowance of four, it leaves as STRIKE_AT,
and on another device as a frame. -/
def Obligations.BellEntriesPerformed : Prop :=
  ∀ (q : QId) (i : BitVec 32) (e : Fin 3) (s t : State) (j : Job),
  let w := dword j.words (5 + 3 * e.val)
  let add := dword j.words (6 + 3 * e.val)
  let tick := dword j.words (7 + 3 * e.val)
  let b := wbits w 11 0
  let d := queueDie q.val
  s.job q.val i = some j → descType j.words = 5 → j.phase ≠ .finished → nextEntry j.words j.entries = some e.val →
  bellReady s q.val i j = (true, t) →
  (w.getLsbD 61 = false → w.getLsbD 60 = false → w.getLsbD 62 = false → bellDie b = d →
    exec (.bellEntryStrike q i e) s = .next (entryDone (strike t b add) q.val i e.val false))
  ∧ (w.getLsbD 61 = false → w.getLsbD 60 = false → w.getLsbD 62 = false → bellDie b ≠ d →
    exec (.bellEntryStrike q i e) s = .next (entryDone
      (sendMsg t d (bellDie b) (dataMsg 0x20 d (bellDie b) 0 (b % 512) (natLe 8 add.toNat) [])) q.val i e.val false))
  ∧ (w.getLsbD 61 = false → w.getLsbD 60 = false → w.getLsbD 62 = true →
    exec (.bellEntryStrike q i e) s = .next (entryDone
      (remoteStrike t q.val (BitVec.ofNat 18 (wbits w 47 30)) b add none) q.val i e.val false))
  ∧ (w.getLsbD 61 = false → w.getLsbD 60 = true → bellDie b = d →
    exec (.bellEntrySet q i e) s = .next (entryDone (setBell t b add) q.val i e.val false))
  ∧ (w.getLsbD 61 = false → w.getLsbD 60 = true → bellDie b ≠ d →
    exec (.bellEntrySet q i e) s = .next (entryDone
      (sendMsg t d (bellDie b) (dataMsg 0x22 d (bellDie b) 0 (b % 512) (natLe 8 add.toNat) [])) q.val i e.val false))
  ∧ (w.getLsbD 61 = true → w.getLsbD 62 = true →
    exec (.bellEntryStrikeAt q i e) s = .next (entryDone
      (remoteStrike t q.val (BitVec.ofNat 18 (wbits w 47 30)) b add (some tick)) q.val i e.val false))
  ∧ (w.getLsbD 61 = true → w.getLsbD 62 = false → bellDie b ≠ d → schedAllowance t d (bellDie b) < 4 →
    exec (.bellEntryStrikeAt q i e) s = .next (entryDone
      (sendMsg t d (bellDie b) (dataMsg 0x21 d (bellDie b) 0 (b % 512) (natLe 8 add.toNat ++ natLe 8 tick.toNat) []))
      q.val i e.val (decide (tick < now t))))
  ∧ (w.getLsbD 61 = true → w.getLsbD 62 = false → bellDie b = d → now t ≤ tick → ownScheds t d < 32 →
    exec (.bellEntryStrikeAt q i e) s = .next (entryDone
      { t with scheds := t.scheds ++ [(d, { bell := b, add := add, tick := tick, src := none })] } q.val i e.val false))
  ∧ (w.getLsbD 61 = true → w.getLsbD 62 = false → bellDie b = d → tick < now t →
    exec (.bellEntryStrikeAt q i e) s = .next (entryDone (strike (bump t 0x8065 (d + 1) 1) b add) q.val i e.val true))

/-- O15 (06_command_processors_and_bells.md (R149, R150, R151), 14_host_interface.md (R319), 08_isroum_base_fabric.md
(Table 8.3, R184)). The host's bell windows and the messages between dies act on the bells of a die in service. A
host access to a bell window becomes STRIKE or SETB to the bell's die, of the low 32 bits where the access is one of
32 bits. A message that a die in service takes, as the oldest whole one of its class, strikes or SETs its bell,
enters a strike whose tick has not passed or performs it late, or registers a watch, which a satisfied bell answers;
UNWATCH frees the watch. NOTIFY satisfies the wait that holds the watch of its tag, with an acquire, and is
discarded where none does. A message that has not come whole and in its turn does nothing. A scheduled strike is
performed once its tick has come. -/
def Obligations.BellMessagesAndSchedule : Prop := ∀ (s : State),
  (∀ (b : BellId) (v : BitVec 64) (wide : Bool), hubOn s = true → dieUp s (bellDie b.val) = true →
    let w := if wide then v else v &&& 0xFFFFFFFF
    exec (.bellStrikeWindow b wide v) s = .next (sendMsg s 8 (bellDie b.val)
      (dataMsg 0x20 8 (bellDie b.val) 0 (b.val % 512) (natLe 8 w.toNat) []))
    ∧ exec (.bellSetWindow b wide v) s = .next (sendMsg s 8 (bellDie b.val)
      (dataMsg 0x22 8 (bellDie b.val) 0 (b.val % 512) (natLe 8 w.toNat) [])))
  ∧ (∀ (m : D2dMsg) (u : State), takeMsg s m = some u → unitUp s m.dst.val = true →
    let rest := u.watches.filter (fun w => !(w.1 == m.dst.val && w.2.die == m.src.val && w.2.tag == m.tag))
    let holds := fun (x : Queue) => x.watch == some m.tag || x.jobs.any (fun j => j.watch == some m.tag)
    let tell := fun (q : Nat) (x : Queue) =>
      if queueDie q = m.dst.val then
        { x with watch := if x.watch = some m.tag then none else x.watch,
                 notified := x.notified || x.watch == some m.tag,
                 jobs := x.jobs.map (fun j => if j.watch = some m.tag then { j with watch := none, notified := true } else j) }
      else x
    exec (.d2dStrike m) s = .next (strike u (msgBell m) (msgWord m 0))
    ∧ exec (.d2dSetb m) s = .next (setBell u (msgBell m) (msgWord m 0))
    ∧ (now u ≤ msgWord m 8 → exec (.d2dStrikeAt m) s = .next { u with
        scheds := u.scheds ++ [(m.dst.val,
          { bell := msgBell m, add := msgWord m 0, tick := msgWord m 8, src := some m.src.val })] })
    ∧ (msgWord m 8 < now u → exec (.d2dStrikeAt m) s = .next
        (strike (bump u 0x8065 (m.dst.val + 1) 1) (msgBell m) (msgWord m 0)))
    ∧ exec (.d2dWatch m) s = .next (notifyWatches { u with
        watches := u.watches ++ [(m.dst.val,
          { bell := msgBell m, value := msgWord m 0, die := m.src.val, tag := m.tag })] } (msgBell m))
    ∧ exec (.d2dUnwatch m) s = .next { u with watches := rest }
    ∧ ((∃ e ∈ u.queues, queueDie e.1 = m.dst.val ∧ holds e.2 = true) → exec (.d2dNotify m) s = .next
        (acquire (spendTag { u with queues := mmap Queue.init tell u.queues } m.tag) m.dst.val))
    ∧ ((∀ e ∈ u.queues, queueDie e.1 = m.dst.val → holds e.2 = false) → exec (.d2dNotify m) s = .next u))
  ∧ (∀ (m : D2dMsg) (c : Instr), takeMsg s m = none →
    c ∈ [Instr.d2dStrike m, .d2dSetb m, .d2dStrikeAt m, .d2dWatch m, .d2dUnwatch m, .d2dNotify m] → exec c s = .next s)
  ∧ (∀ (d : Die) (k : Nat) (x : Nat × Sched), dieUp s d.val = true → x.2.tick ≤ now s →
    ((s.scheds.filter (fun y => y.1 == d.val))[k]? = some x →
      exec (.scheduledStrike d false k) s = .next (strike { s with scheds := s.scheds.erase x } x.2.bell x.2.add))
    ∧ ((s.remScheds.filter (fun y => y.1 == d.val))[k]? = some x →
      exec (.scheduledStrike d true k) s = .next (strike { s with remScheds := s.remScheds.erase x } x.2.bell x.2.add)))

/-- O16 (05_training_path.md (R113, R114, R119 to R122), 06_command_processors_and_bells.md (R145)). A replay starts on
its block's record, the device changes phase when its work ends, and arrays pass between queues. A REPLAY whose
block holds a record, on a queue that no other replay reissues on, starts with that record's outcomes and issues
nothing yet; without a record it ends with NO_RECORD and the die's bit of 0xA050:02. The step phase changes to the
held one when nothing of the current phase is left, and on entry to phase 1 takes the frozen ranges the entries
name. An array at a tile boundary whose owner has no MATRIX ready, or whose owner's turn is closing, passes to the
next waiting queue, or becomes free; an owner whose quantum has passed while another queue waits is marked to close. -/
def Obligations.ReplayAndPhases : Prop :=
  (∀ (q : QId) (i : BitVec 32) (s : State) (j : Job),
    let e := mget Block.init (s.cp (queueDie q.val)).blocks (trainBlock j.words)
    s.job q.val i = some j → descType j.words = 3 → j.phase = .ready → dieUp s (queueDie q.val) = true →
    (e.record = true → replayOn s e.queue = none →
      exec (.replay q ⟨i, []⟩) s = .next (s.modJob q.val i (fun k =>
        { k with phase := .working, need := 1, nextOff := 0, outcomes := e.outcomes })))
    ∧ (e.record = false →
      exec (.replay q ⟨i, []⟩) s = .next
        (finish (sticky s 0xA050 2 (queueDie q.val)) q.val i 0x17 (trainBlock j.words))))
  ∧ (∀ s : State, s.train.held ≠ 0 → phaseBusy s = false →
    exec .phaseSwitch s = .next (setPhase s s.train.held)
    ∧ (setPhase s s.train.held).train =
      { phase := s.train.held, held := 0,
        ranges := if s.train.held = 1 then frozenRanges s else s.train.ranges })
  ∧ (∀ (a : ArrId) (s : State) (o : Nat), (s.arr a.val).owner = some o → (s.arr a.val).kat = false →
    dieUp s (a.val / 8) = true →
    (atBoundary s a.val = true → matrixReady s o none = false ∨ (s.arr a.val).closing = true →
      exec (.arrayHandover a) s = .next (match nextOwner s a.val o with
        | some w => takeArray s a.val w
        | none => s.setArr a.val { s.arr a.val with owner := none, closing := false }))
    ∧ (dnum s 0x2060 1 ≤ (clock s - (s.arr a.val).since).toNat / 2 ^ 20 → (nextOwner s a.val o).isSome = true →
      exec (.arrayQuantumExpiry a) s = .next (s.setArr a.val { s.arr a.val with closing := true })))

/-- O17 (02_tensor_arrays.md (R30, R44, R46 to R48, R51), 03_number_formats.md (R65), 06_command_processors_and_bells.md
(R132 to R134)). A MATRIX descriptor fills its tile's context over the whole reduction, and the finished tile is
emitted. With its tile open on an array out of test, after every tile issued to that array earlier, no collective
holding the die, no chained kernel before it whose stored rows it still awaits, and every operand range mapped in
the die's tier, a MATRIX descriptor fills its context with every accumulator entry in ascending K and waits for the
emit; a diagonal tile is emitted at once. The poisoned words read count. A finished tile of no slice whose rows all
land, with no digest, is stored row by row, its context closes, and its descriptor ends with the tile's flags. A
word that breaks a rule of the tile is refused with INVALID_OPERATION and the die's bit of 0xA020:05. -/
def Obligations.TileComputedAndEmitted : Prop :=
  (∀ (q : QId) (i : BitVec 32) (s : State) (j : Job) (a c : Nat) (t : TileCtx),
    let d := queueDie q.val
    let seen := (tileReads j.words).foldl (fun u r => carryRead u (addrKey r.1) r.2) s
    let filled := (seen.setArr a { seen.arr a with
        tiles := mput none (seen.arr a).tiles c (some (fillTile s j.words t)) }).modJob q.val i
      (fun k => { k with phase := .working })
    s.job q.val i = some j → descType j.words = 1 → j.phase = .ready →
    (tileRefused j.words = false → usableArrays s d j.words ≠ 0 → (s.ve d).hold = none →
      kernelBefore s q.val i j.words = false → j.array = some a → tileOf s q.val i a = some (c, t) → t.word = dword j.words 5 →
      (s.arr a).kat = false → (∀ e ∈ openTiles (s.arr a), e.2.done = false → t.seq ≤ e.2.seq) →
      (∀ r ∈ tileReads j.words, tierFault s d r.1 r.2 = none) →
      (twDiag (dword j.words 5) = false → exec (.matrix q ⟨i, [], []⟩) s = .next (settleRows filled a))
      ∧ (twDiag (dword j.words 5) = true → exec (.diagonalTile q ⟨i, [], []⟩) s = .next (emitTile filled a c)))
    ∧ (tileRefused j.words = true →
      (twDiag (dword j.words 5) = false → exec (.matrix q ⟨i, [], []⟩) s = .next (finish (sticky s 0xA020 5 d) q.val i 0x11 0))
      ∧ (twDiag (dword j.words 5) = true →
        exec (.diagonalTile q ⟨i, [], []⟩) s = .next (finish (sticky s 0xA020 5 d) q.val i 0x11 0))))
  ∧ (∀ (a : ArrId) (c : Fin 16) (s u : State) (t : TileCtx) (j : Job),
    dieUp s (a.val / 8) = true → mget none (s.arr a.val).tiles c.val = some t → s.job t.queue t.idx = some j →
    t.done = true → isSlice j.words = false → twDigest t.word = false →
    emitRows s (a.val / 8) j.words t (twRows t.word) 0 = (none, u) →
    exec (.tileEmit a ⟨c, []⟩) s = .next (finishOk ((closeTile u a.val c.val).modJob t.queue t.idx (fun k =>
      { k with fp := emitFlags t (rowsOut s (a.val / 8) j.words t), poisoned := !t.poison.isEmpty })) t.queue t.idx))

/-- O18 (02_tensor_arrays.md (R53, R54, R56)). A known-answer test takes an array at a tile boundary when its turn has
come, and returns it, retires it, or marks it. An array in service, out of test, at a tile boundary and due is taken
from its owner for the test; one not due is left. It is due when ARRAY_KAT_INTERVAL beats have passed since its last
test, it is the one in service tested longest ago, and the others' tests lie an even share of the interval back. A
pass returns it and notes the beat in 0x3020; a mismatch whose repeat mismatches too retires it; one whose repeat
passes sets its bit of 0xA020:02 and, with no mismatch within the last 1,024 beats, returns it with the mismatch
noted. -/
def Obligations.ArraySelfTest : Prop := ∀ (a : ArrId) (s : State),
  let x := s.arr a.val
  let ticks := dnum s 0x2020 1 * 2 ^ 20
  let live := onesBelow 64 (inService s)
  let age := fun (k : Nat) => (clock s - (s.arr k).katTurn).toNat
  let due := ticks ≤ age a.val
    ∧ ∀ k ∈ live, k ≠ a.val → (age k < age a.val ∨ (age k = age a.val ∧ a.val < k)) ∧ ticks / live.length ≤ age k
  (loaded s = true → (inService s).testBit a.val = true → dieUp s (a.val / 8) = true → x.kat = false →
    atBoundary s a.val = true →
    (due → exec (.arrayKatStart a) s = .next (s.setArr a.val
      { x with kat := true, owner := none, closing := false, katTurn := clock s }))
    ∧ (¬due → exec (.arrayKatStart a) s = .next s))
  ∧ (x.kat = true →
    (∀ r, exec (.arrayKatDone a true r) s = .next
      (dset (s.setArr a.val { x with kat := false }) 0x3020 (a.val + 1) (beat s).toNat))
    ∧ exec (.arrayKatDone a false false) s = .next (retireArray (s.setArr a.val { x with kat := false }) a.val)
    ∧ (x.lastBad = [] →
      exec (.arrayKatDone a false true) s = .next
        (let t := sticky (s.setArr a.val { x with kat := false }) 0xA020 2 a.val
         dset (t.setArr a.val { t.arr a.val with lastBad := [clock s] }) 0x3020 (a.val + 1) (beat s).toNat)))

/-- O19 (06_command_processors_and_bells.md (R142), 08_isroum_base_fabric.md (R192)). A SPEC copy on a predicted path
fills speculative lines up to the die's limit. A fetched SPEC copy from the die's own stack to its own tier, legal,
unpoisoned and mapped, on the predicted path beyond an unresolved branch of its queue and with no fill yet, is read
into speculative lines: the leading lines of its source, in ascending address, up to the room left under the limit,
each with what the stack holds and the marks of its words. Each line takes a free way of its set, or that of the
set's least recently used clean line; where every way is dirty or speculative it is left out. One off the predicted
path, or whose fill stands, changes nothing. -/
def Obligations.SpeculativeFillRuns : Prop := ∀ (q : QId) (i : BitVec 32) (s : State) (f : Fetched),
  let x := s.queue q.val
  let d := queueDie q.val
  let l := f.words
  let src := (dword l 5).toNat
  let dst := (dword l 6).toNat
  let len := wbits (dword l 7) 47 0
  let key := cellKey d (addrOff src)
  let room := min (dnum s 0x2060 3 * 2048) ((s.tier d).rcMib * 2048 - (s.memRec d).lent.length)
    - ((s.cp d).specs.map (fun g => g.lines.length)).foldl (· + ·) 0
  let lines := (sourceLines src len).take room
  let fresh : SpecFill :=
    { queue := q.val, idx := i, lo := key, hi := key + len, lines := [], ways := [], data := [], marks := [], stale := [] }
  let begun := s.setCp d { s.cp d with specs := (s.cp d).specs ++ [fresh] }
  x.fetched.find? (fun g => g.idx == i) = some f →
  (d ≠ 8 → x.state = .running → descType l = 6 → descSpec l = true →
    len ≠ 0 → src < 2 ^ 56 → addrSlot src = ownSlot s → addrDie src = d → dst < 2 ^ 56 → addrSlot dst = ownSlot s →
    addrDie dst = d → 0x1000000000 ≤ addrOff src → addrOff dst < 0x18000000 → f.poison = none → issueFault s q.val l = none →
    faultIn s d (addrOff src) len = none → (s.cp d).specs.any (fun g => g.queue == q.val && g.idx == i) = false →
    onPredicted s q.val i = true → lines ≠ [] →
    exec (.speculativeFill q ⟨i, []⟩) s = .next
      (lines.foldl (specLine q.val i) (carryRead begun (lines.headD 0 * 512) (512 * lines.length)))
    ∧ ∀ (u : State) (k w : Nat), freeWay u d (specSet u d k) = some w →
      specLine q.val i u k = u.setCp d { u.cp d with specs := (u.cp d).specs.map (fun g =>
        if g.queue = q.val ∧ g.idx = i then
          { g with lines := g.lines ++ [k], ways := g.ways ++ [w], data := g.data ++ readBytes u (k * 512) 512,
                   marks := g.marks ++ ((List.range 64).map (k * 64 + ·)).filter u.poison.contains }
        else g) })
  ∧ (onPredicted s q.val i = false ∨ (s.cp d).specs.any (fun g => g.queue == q.val && g.idx == i) = true →
    exec (.speculativeFill q ⟨i, []⟩) s = .next s)

/-- O20 (06_command_processors_and_bells.md (R137, R152, Table 6.11), 07_memory.md (R171)). A COPY within a die's own
store moves its bytes at once; any other starts its requests; a faulting end ends it. In a canonical state, a ready
COPY whose ends are mapped addresses of the issuing die moves LENGTH bytes: memory is then what storing, at the
destination, what the source held gives, and nothing but the memory, the poison marks, the queue's job, the
speculative lines, the counters and the ghost tracking changes. One from its own store to host memory is written
there in payloads. Any other COPY with mapped ends, and with the host ready where one is host memory, begins: its
pieces are issued. A COPY whose source, or whose destination, faults ends with the fault's status and DETAIL. -/
def Obligations.CopyMovesBytes : Prop := ∀ (q : QId) (i : BitVec 32) (s : State) (j : Job),
  let l := j.words
  let d := queueDie q.val
  let a := wbits (copySrc l) 55 0
  let b := wbits (copyDst l) 55 0
  let begun := useSpecs (s.modJob q.val i (fun k => { k with phase := .working })) q.val i
  s.job q.val i = some j → descType l = 6 → j.phase = .ready →
  ((isHost (copySrc l) || isHost (copyDst l)) = true → hostReady s = true) →
  (endFault s (copySrc l) (copyLen l) = none → endFault s (copyDst l) (copyLen l) = none →
    (Inv s → isHost (copySrc l) = false → isOwnAddr s d a = true → isHost (copyDst l) = false → isOwnAddr s d b = true →
      ∃ t, exec (.copy q ⟨i, []⟩) s = .next t
        ∧ t.mem = (storeBytes s (cellKey d (addrOff b)) (readBytes s (cellKey d (addrOff a)) (copyLen l))
            (fun _ => false)).mem
        ∧ t = { s with mem := t.mem, poison := t.poison, queues := t.queues, cps := t.cps, dict := t.dict, res := t.res })
    ∧ (isHost (copySrc l) = false → isOwnAddr s d a = true → isHost (copyDst l) = true →
      let key := cellKey d (addrOff a)
      exec (.copy q ⟨i, []⟩) s = .next (finishOk (hostWrite
        (carryRead (begun.modJob q.val i (fun k => { k with nextOff := copyLen l })) key (copyLen l)) q.val i
        (fun k => poisoned s (key + k) || (specMarks s q.val i).contains ((key + k) / 8)) (copyLen l + 1) b 0
        (readBytes s key (copyLen l))) q.val i))
    ∧ ((!isHost (copySrc l) && isOwnAddr s d a && (isHost (copyDst l) || isOwnAddr s d b)) = false →
      exec (.copy q ⟨i, []⟩) s = .next (copyPump q.val i 2048 begun)))
  ∧ (∀ x p, endFault s (copySrc l) (copyLen l) = some (x, p) →
    exec (.copy q ⟨i, []⟩) s = .next (finish (faultSticky s d p) q.val i (placeStatus p) (placeDetail x p)))
  ∧ (∀ x p, endFault s (copySrc l) (copyLen l) = none → endFault s (copyDst l) (copyLen l) = some (x, p) →
    exec (.copy q ⟨i, []⟩) s = .next (finish (faultSticky s d p) q.val i (placeStatus p) (placeDetail x p)))

/-- O21 (09_fabric_routing.md (R211, R221, R222, R230, R231)). A PUT, PULL, multicast put, circuit put or SEND with a
sound source and a way to go starts its packets. A ready descriptor of one of the five forms whose source needs no
host or has it, is mapped in the device's own map where it names bytes, and which has its circuit open or a plane it
may take, begins at its queue's plane of the round-robin with every member of its multicast awaited, and issues its
pieces. Without a plane it ends UNREACHABLE, and a circuit put without its circuit ends CIRCUIT_REFUSED, each with
the device's coordinate. -/
def Obligations.PutsAndSendsStart : Prop := ∀ (q : QId) (i : BitVec 32) (s : State) (j : Job) (c : Instr),
  let l := j.words
  let pull := putPull l && !isSend l
  let circ := putCirc l && !isSend l
  let begun := putPump q.val i 2048 (s.modJob q.val i (fun k =>
    { k with phase := .working, plane := queueLocal q.val % 8,
             bitmap := BitVec.ofNat 32 (if putMcast l && !isSend l then mcastAll l else 0) }))
  let me := (s.fab.coord.getD 0).toNat
  s.job q.val i = some j → j.phase = .ready →
  ((c = .put q ⟨i, []⟩ ∧ descType l = 7 ∧ putPull l = false ∧ putMcast l = false ∧ putCirc l = false)
    ∨ (c = .pull q i ∧ descType l = 7 ∧ putPull l = true)
    ∨ (c = .mcastPut q ⟨i, []⟩ ∧ descType l = 7 ∧ putMcast l = true ∧ putPull l = false)
    ∨ (c = .circuitPut q ⟨i, []⟩ ∧ descType l = 7 ∧ putCirc l = true ∧ putPull l = false ∧ putMcast l = false)
    ∨ (c = .send q ⟨i, []⟩ ∧ descType l = 8)) →
  (pull = true ∨ ((isHost (dword l 5) = true → hostReady s = true)
    ∧ (putLen l = 0 ∨ endFault s (dword l 5) (putLen l) = none)
    ∧ (isHost (dword l 5) = true ∨ addrSlot (dword l 5).toNat = ownSlot s))) →
  ((circ = true → (openCircuit s (putCircuit l)).isSome = true) →
    (circ = false → allowedPlanes s (putDst s l) (putMask l) ≠ []) → exec c s = .next begun)
  ∧ (circ = true → openCircuit s (putCircuit l) = none → exec c s = .next (finish s q.val i 0x35 me))
  ∧ (circ = false → allowedPlanes s (putDst s l) (putMask l) = [] → exec c s = .next (finish s q.val i 0x30 me))

/-- O22 (09_fabric_routing.md (R204, R205, R211, R232, Table 9.10)). The FABRIC operations on windows, receive queues
and detours change their one table and end. A ready FABRIC descriptor whose turn it is in its queue registers a
window or a receive queue whose addresses are mapped, with the fields of its body; deregisters a window that no
circuit ending here names, or a receive queue; and replaces the whole detour table by the entries at a mapped
address, marking itself POISONED where they are poisoned. A deregistered window that a circuit names is refused with
WINDOW_REFUSED. -/
def Obligations.FabricTablesWritten : Prop := ∀ (q : QId) (i : BitVec 32) (s : State) (j : Job),
  let l := j.words
  let acc := wbits (dword l 5) 39 32
  let key := cellKey (addrDie (wbits (dword l 6) 55 0)) (addrOff (wbits (dword l 6) 55 0))
  let n := wbits (dword l 7) 6 0
  s.job q.val i = some j → descType l = 17 → j.phase = .ready → fabricBefore s q.val i = false →
  (fabOp l = 4 → regFault s (dword l 6) = none → exec (.windowReg q i) s = .next (finishOk { s with fab := { s.fab with
      windows := mput none s.fab.windows (fabId l) (some
        { base := wbits (dword l 6) 55 0, len := (dword l 7).toNat, put := acc.testBit 0, pull := acc.testBit 1,
          filter := if acc.testBit 2 then some (BitVec.ofNat 18 (wbits (dword l 8) 17 0)) else none }) } } q.val i))
  ∧ (fabOp l = 5 → s.fab.ends.any (fun e => e.2.2.toNat == fabId l) = false → exec (.windowDereg q i) s = .next
      (finishOk { s with fab := { s.fab with windows := mput none s.fab.windows (fabId l) none } } q.val i))
  ∧ (fabOp l = 5 → s.fab.ends.any (fun e => e.2.2.toNat == fabId l) = true → exec (.windowDereg q i) s = .next
      (finish s q.val i 0x31 (fabId l)))
  ∧ (fabOp l = 6 → regFault s (dword l 6) = none → regFault s (dword l 7) = none → exec (.rqReg q i) s = .next
      (finishOk { s with fab := { s.fab with rqs := mput none s.fab.rqs (fabId l) (some
        { base := wbits (dword l 6) 55 0, slotLog2 := wbits (dword l 5) 31 28, slotsLog2 := wbits (dword l 5) 27 24,
          ctrl := wbits (dword l 7) 55 0,
          bell := if (dword l 5).getLsbD 32 then some (wbits (dword l 8) 11 0) else none }) } } q.val i))
  ∧ (fabOp l = 7 → exec (.rqDereg q i) s = .next
      (finishOk { s with fab := { s.fab with rqs := mput none s.fab.rqs (fabId l) none } } q.val i))
  ∧ (fabOp l = 3 → n = 0 → exec (.detourLoad q i) s = .next (finishOk { s with fab := { s.fab with detours := [] } } q.val i))
  ∧ (fabOp l = 3 → n ≠ 0 → addrSlot (wbits (dword l 6) 55 0) = ownSlot s → endFault s (dword l 6) (16 * n) = none →
      rangePoison s key (16 * n) = false →
      exec (.detourLoad q i) s = .next (finishOk { s with fab := { s.fab with
        detours := (List.range n).map (fun k => detourFrom (readBytes s (key + 16 * k) 16)) } } q.val i))

/-- O23 (09_fabric_routing.md (R219 to R221, R232)). A circuit's source reserves its lanes and sends CSETUP; each hop
enters its lanes and sends the setup on; CACK opens it. A ready CIRCUIT_OPEN, in its turn, whose first hop exists on
a plane in service, with fewer than 256 circuits, a new number and free lanes on the port, takes those lanes, notes
the circuit and requests the setup. A ready CIRCUIT_CLOSE of an open circuit marks it closing and sends CTEAR once
no put of it is unacknowledged. At a hop on the way, a setup that is the oldest packet of its stream and whose lanes
are free enters one entry for each lane and leaves by the next port, once that takes it; CTEAR removes the entries
of its input port and lanes and leaves by their port. At its end a setup whose window admits the source is entered
and answered CACK. -/
def Obligations.CircuitsOpenAndClose : Prop :=
  (∀ (q : QId) (i : BitVec 32) (s : State) (j : Job) (port : Nat),
    let l := j.words
    let id := BitVec.ofNat 12 (fabId l)
    let dst := BitVec.ofNat 18 (wbits (dword l 6) 47 30)
    let m := BitVec.ofNat 16 (wbits (dword l 7) 15 0)
    let plane := wbits (dword l 5) 19 16
    let c : Circuit :=
      { id := id, queue := q.val, idx := i, dst := dst, window := BitVec.ofNat 12 (wbits (dword l 6) 11 0), plane := plane,
        lanes := m, isOpen := false, closing := false }
    let taken := takeLanes s port m
    s.job q.val i = some j → descType l = 17 → j.phase = .ready → fabricBefore s q.val i = false →
    (fabOp l = 1 → nextPort s dst plane = some port → dieUp s plane = true → s.fab.circuits.length < 256 →
      s.fab.circuits.any (fun x => x.id == id) = false → lanesFree s port m = true →
      exec (.circuitOpen q i) s = .next (request
        (({ taken with fab := { taken.fab with circuits := taken.fab.circuits ++ [c] } } : State).modJob q.val i
          (fun k => { k with phase := .working, need := 1 })) q.val i plane none false
        { newPacket s 8 dst 0 0x07 with
          id := id, len := 8, data := natLe 8 (c.window.toNat * 2 ^ 48 + m.toNat) }))
    ∧ (∀ o : Circuit, fabOp l = 2 → openCircuit s id = some o → o.closing = false →
      exec (.circuitClose q i) s = .next (tryClose (modCircuit (s.modJob q.val i (fun k =>
        { k with phase := .working, need := 1 })) id
        (fun x => some { x with closing := true, queue := q.val, idx := i })) id)))
  ∧ (∀ (p : Packet) (s u : State) (port : Nat) (inp : Port), fabricLive s = true → s.fab.coord ≠ some p.dst →
    p.inPort = some inp → takeAtPort s p = some u →
    let m := setupLanes p
    let set := bump { takeLanes u port m with fab := { (takeLanes u port m).fab with
        hops := (takeLanes u port m).fab.hops ++ (laneList m).map (fun k =>
          ({ inPort := inp, lane := laneField k, outPort := portField port } : HopEntry)) } }
      0x8090 (p.plane.val + 1) (packetFlits p)
    let torn := fun (e : HopEntry) => bump (dropLanes { u with fab := { u.fab with
        hops := u.fab.hops.filter (fun h =>
          !(h.inPort == inp && (BitVec.ofNat 16 (wbits p.aux 15 0)).getLsbD h.lane.val)) } }
      e.outPort.val (BitVec.ofNat 16 (wbits p.aux 15 0))) 0x8090 (p.plane.val + 1) (packetFlits p)
    (nextPort u p.dst p.plane.val = some port → stepsPast u p.dst port = false → lanesFree u port m = true →
      (laneList m).any (fun k => (hopOf u inp.val k).isSome) = false →
      (∀ v w, portTakes set port { p with inPort := none } = (some v, w) → exec (.fabCsetup p) s = .next (returnFrees p v))
      ∧ (∀ w, portTakes set port { p with inPort := none } = (none, w) → exec (.fabCsetup p) s = .next s))
    ∧ (∀ e r v w, u.fab.hops.filter (fun h => h.inPort == inp && (BitVec.ofNat 16 (wbits p.aux 15 0)).getLsbD h.lane.val)
          = e :: r → (u.port e.outPort.val).state = 2 → portTakes (torn e) e.outPort.val { p with inPort := none } = (some v, w) →
      exec (.fabCtear p) s = .next (returnFrees p v)))
  ∧ (∀ (p : Packet) (s u : State), Accepts s p u →
    ((windowRange u (setupWindow p).toNat 0 0 p.src true).isSome = true →
      exec (.fabCsetup p) s = .next (returnFrees p (reply { u with fab := { u.fab with
        ends := u.fab.ends ++ [(p.src, p.id, setupWindow p)] } } p 0x14 id)))
    ∧ exec (.fabCtear p) s = .next (returnFrees p (reply { u with fab := { u.fab with
        ends := u.fab.ends.filter (fun e => !(e.1 == p.src && e.2.1 == p.id)) } } p 0x14 id))
    ∧ (∀ r, fabReq u p.tag = some r → r.typ = 0x07 → exec (.fabCack p) s = .next (returnFrees p
        (oneDone (modCircuit (endReq u r) r.packet.id (fun c => some { c with isOpen := true })) r.queue r.idx)))
    ∧ (∀ r, fabReq u p.tag = some r → r.typ = 0x08 → exec (.fabCack p) s = .next (returnFrees p
        (oneDone (modCircuit (endReq u r) r.packet.id (fun _ => none)) r.queue r.idx))))

/-- O24 (09_fabric_routing.md (R202, R204 to R206, R214, R217), 07_memory.md (R170)). An accepted request packet reads
or writes this device's stores and is answered. An accepted packet, the oldest whole one of its stream whose reply
has credit, leaves its buffer and acts, and its frees go back: LD reads mapped bytes of the named die and returns
them with their poison, which counts; ST and STM write and answer STA; PUT writes a window that admits its source,
offset and length and answers PUTA with one packet; PULL reads such a window and returns PULLD. A window or receive
queue that does not admit the packet refuses it with ERR and the bit of 0xA090:05; SEND fills the slot of PRODUCED,
advances PRODUCED, strikes the queue's bell and answers SENDA. A request whose reply has no credit stays. -/
def Obligations.FabricRequestsServed : Prop := ∀ (p : Packet) (s u : State),
  let here := cellKey p.dstDie.toNat p.offset.toNat
  let marks := fun (key n : Nat) => (wordsOf key n).map u.poison.contains
  (Accepts s p u →
    (faultIn u p.dstDie.toNat p.offset.toNat p.len.toNat = none →
      exec (.fabLd ⟨p, []⟩) s = .next (returnFrees p (reply (carryRead u here p.len.toNat) p 0x10 (fun r =>
        { r with len := p.len, data := readBytes u here p.len.toNat, px := (marks here p.len.toNat).any (· == true),
                 poison := if (marks here p.len.toNat).any (· == true) then marks here p.len.toNat else [] }))))
    ∧ (faultIn u p.dstDie.toNat p.offset.toNat p.data.length = none →
      exec (.fabSt p) s = .next (returnFrees p (reply (storeBytes u here p.data (packetMark p)) p 0x11 id)))
    ∧ (faultIn u p.dstDie.toNat p.offset.toNat 512 = none →
      exec (.fabStm p) s = .next (returnFrees p
        (reply (storeMasked u here (leNat (p.data.take 64)) (p.data.drop 64) (packetMark p)) p 0x11 id)))
    ∧ (∀ a, p.mcast = false → windowRange u p.id.toNat p.offset.toNat p.data.length p.src true = some a →
      faultIn u (addrDie a) (addrOff a) p.data.length = none →
      exec (.fabPut p) s = .next (returnFrees p
        (reply (ghostTaken (storeBytes u (cellKey (addrDie a) (addrOff a)) p.data (packetMark p))
          p.id.toNat p.offset.toNat p.src) p 0x12 (fun r => { r with aux := ackAux 1 0 }))))
    ∧ (p.mcast = false → windowRange u p.id.toNat p.offset.toNat p.data.length p.src true = none →
      exec (.fabPut p) s = .next (returnFrees p (replyErr (sticky u 0xA090 5 0) p 0x31)))
    ∧ (∀ a, windowRange u p.id.toNat p.offset.toNat p.len.toNat p.src false = some a →
      faultIn u (addrDie a) (addrOff a) p.len.toNat = none →
      let key := cellKey (addrDie a) (addrOff a)
      exec (.fabPull ⟨p, []⟩) s = .next (returnFrees p (reply (carryRead u key p.len.toNat) p 0x09 (fun r =>
        { r with cls := 2, id := BitVec.ofNat 12 (bitsOf (leNat p.data) 59 48),
                 offset := BitVec.ofNat 48 (bitsOf (leNat p.data) 47 0), len := p.len,
                 data := readBytes u key p.len.toNat, px := (marks key p.len.toNat).any (· == true),
                 poison := if (marks key p.len.toNat).any (· == true) then marks key p.len.toNat else [] }))))
    ∧ (∀ r : RecvQ,
      let ctrl := cellKey (addrDie r.ctrl) (addrOff r.ctrl)
      let produced := leNat (readBytes u ctrl 8)
      let a := r.base + produced % 2 ^ r.slotsLog2 * 2 ^ r.slotLog2
      let key := cellKey (addrDie a) (addrOff a)
      let filled := storeBytes (storeBytes (storeBytes u key
          (natLe 8 p.aux.toNat ++ natLe 4 p.data.length ++ natLe 4 p.src.toNat) (fun _ => false))
        (key + 32) p.data (packetMark p)) ctrl (natLe 8 (produced + 1)) (fun _ => false)
      recvOf u p.id.toNat = some r → refusing u = false → p.data.length + 32 ≤ 2 ^ r.slotLog2 →
      faultIn u (addrDie r.ctrl) (addrOff r.ctrl) 16 = none →
      (produced + 2 ^ 64 - leNat (readBytes u (ctrl + 8) 8)) % 2 ^ 64 < 2 ^ r.slotsLog2 →
      faultIn u (addrDie a) (addrOff a) (32 + p.data.length) = none →
      exec (.fabSend p) s = .next (returnFrees p (reply (match r.bell with
        | some b => packageStrike filled 8 b 1
        | none => filled) p 0x13 id))))
  ∧ (fabricLive s = true → s.fab.coord = some p.dst → replyCredit s p = false →
    exec (.fabLd ⟨p, []⟩) s = .next s ∧ exec (.fabSt p) s = .next s ∧ exec (.fabSend p) s = .next s)

/-- O25 (09_fabric_routing.md (R206, R221, R225, R226), 13_resilience.md (R297)). An accepted reply ends the request
that its tag names. An accepted SENDA ends its SEND's packet; unpoisoned PULLD writes the requester's window and
ends the pull's packet; PUTA of a plain put ends its one packet; LDR and STA end the request of a die to another
device; ERR ends the request with the status it carries. SENDA, PULLD, PUTA, CACK, LDR or STA whose tag names no
request changes nothing but the buffer it leaves and the frees that go back. -/
def Obligations.FabricRepliesEndRequests : Prop := ∀ (p : Packet) (s u : State), Accepts s p u →
  (∀ r, fabReq u p.tag = some r →
    (r.typ = 0x05 → exec (.fabSenda p) s = .next (returnFrees p (putOne (endReq u r) r.queue r.idx)))
    ∧ (∀ a, r.typ = 0x06 → r.ghost = false →
      windowRange (endReq u r) p.id.toNat p.offset.toNat p.data.length p.src true = some a →
      faultIn (endReq u r) (addrDie a) (addrOff a) p.data.length = none →
      (List.range p.poison.length).any (packetMark p) = false →
      exec (.fabPulld p) s = .next (returnFrees p (putOne (storeBytes (endReq u r) (cellKey (addrDie a) (addrOff a)) p.data
        (packetMark p)) r.queue r.idx)))
    ∧ (r.ghost = false → r.circuit = none → r.packet.mcast = false → u.fab.reqs.filter (fun x => x.tag == p.tag) = [r] →
      exec (.fabPuta p) s = .next (returnFrees p (putOne (endReq u r) r.queue r.idx)))
    ∧ (wbits p.aux 7 0 ≠ 0x1C → exec (.fabErr p) s = .next (returnFrees p
      (fabFailed u r (BitVec.ofNat 8 (wbits p.aux 7 0)) (wbits p.aux 25 8)))))
  ∧ (∀ r, boardReq u p.tag = some r →
    exec (.fabLdr p) s = .next (returnFrees p (readBack u r p.data (packetMark p)))
    ∧ exec (.fabSta p) s = .next (returnFrees p (writeBackDone u r))
    ∧ (fabReq u p.tag = none → wbits p.aux 7 0 ≠ 0x1C →
      exec (.fabErr p) s = .next (returnFrees p (requestFailed u r (BitVec.ofNat 8 (wbits p.aux 7 0))))))
  ∧ (fabReq u p.tag = none → exec (.fabSenda p) s = .next (returnFrees p u) ∧ exec (.fabPulld p) s = .next (returnFrees p u)
      ∧ exec (.fabPuta p) s = .next (returnFrees p u) ∧ exec (.fabCack p) s = .next (returnFrees p u))
  ∧ (boardReq u p.tag = none → exec (.fabLdr p) s = .next (returnFrees p u) ∧ exec (.fabSta p) s = .next (returnFrees p u))

/-- O26 (06_command_processors_and_bells.md (R150, R151), 13_resilience.md (R295, R296)). A bell frame from another
device is applied to a die in service, entered, or discarded and counted. An accepted frame to a bell of a die in
service strikes it; a strike at a tick is entered in the die's table of 256 while the device is synchronised, the
table has room and the tick has not passed, performed late where the tick has passed, and discarded otherwise. A
frame of an unaccepted epoch from a device that is not fenced is counted and discarded; a packet from a fenced
device is counted, and a request of it answered FENCED. -/
def Obligations.BellFramesApplied : Prop := ∀ (p : Packet) (s u : State),
  let d := bellDie (packetBell p)
  let tick : Word := BitVec.ofNat 64 (leNat p.data)
  let x : Sched := { bell := packetBell p, add := p.aux, tick := tick, src := none }
  let room := decide ((u.remScheds.filter (fun y => y.1 == d)).length < 256)
  fabricLive s = true → s.fab.coord = some p.dst → replyCredit s p = true → takePacket s p = some u →
  (isFenced u p.src = false → epochOk u p = true → dieUp u d = true →
    exec (.fabStrike p) s = .next (returnFrees p (strike u (packetBell p) p.aux))
    ∧ (unsync u = false → room = true → now u ≤ tick →
      exec (.fabStrikeAt p) s = .next (returnFrees p { u with remScheds := u.remScheds ++ [(d, x)] }))
    ∧ (unsync u = false → room = true → tick < now u →
      exec (.fabStrikeAt p) s = .next (returnFrees p (strike (bump u 0x8065 (d + 1) 1) (packetBell p) p.aux)))
    ∧ (unsync u = true ∨ room = false → exec (.fabStrikeAt p) s = .next (returnFrees p (discardFrame u p))))
  ∧ (isFenced u p.src = false → epochOk u p = false → isFencedErr p = false → p.cls = 5 →
      exec (.fabStrike p) s = .next (returnFrees p (discardFrame (bump u 0x80C0 1 1) p)))
  ∧ (isFenced u p.src = true →
      (p.cls = 0 → exec (.fabLd ⟨p, []⟩) s = .next (returnFrees p (replyErr (bump u 0x80C0 1 1) p 0x1C)))
      ∧ (p.cls = 5 → exec (.fabStrike p) s = .next (returnFrees p (bump u 0x80C0 1 1))))

/-- O27 (09_fabric_routing.md (R200, R209, R210, R212, R214, R219, R222)). A packet goes on by its plane's order or its
circuit's entry, crosses to the die that takes it, or is written by a member. The oldest whole packet of a stream of
a port, on a plane in service, that is for another device leaves as soon as its port takes it: in a circuit lane by
the entry of its input port and lane, else by the port of the next dimension of the plane's order; it is counted and
its frees go back, and until then it stays. One whose hop would step past its destination is dropped and counted,
and a request of it is answered UNREACHABLE. One for this device that another die takes crosses the package to that
die. A multicast packet that its member's window admits is written here with the member's bit, and goes on while the
next device of its line is a member, or else is answered PUTA. -/
def Obligations.TransitForwards : Prop := ∀ (p : Packet) (s u : State), fabricLive s = true → dieUp s p.plane.val = true →
  takeAtPort s p = some u →
  let counted := bump u 0x8090 (p.plane.val + 1) (packetFlits p)
  let leaves := fun (port : Nat) =>
    (∀ v w, (u.port port).state = 2 → portTakes counted port { p with inPort := none } = (some v, w) →
      exec (.packetTransit p) s = .next (returnFrees p v))
    ∧ (∀ w, (u.port port).state = 2 → portTakes counted port { p with inPort := none } = (none, w) →
      exec (.packetTransit p) s = .next s)
    ∧ ((u.port port).state ≠ 2 → exec (.packetTransit p) s = .next (returnFrees p counted))
  (p.mcast = false → s.fab.coord ≠ some p.dst →
    (∀ l inp e, p.lane = some l → p.inPort = some inp → hopOf u inp.val l.val = some e → leaves e.outPort.val)
    ∧ (∀ port, p.lane = none → nextPort u p.dst p.plane.val = some port → stepsPast u p.dst port = false → leaves port)
    ∧ (∀ port, p.lane = none → nextPort u p.dst p.plane.val = some port → stepsPast u p.dst port = true → p.cls = 0 →
      exec (.packetTransit p) s = .next (returnFrees p (replyErr
        (sticky (bump u 0x8091 (p.plane.val + 1) 1) 0xA090 1 p.plane.val) p 0x30))))
  ∧ (p.mcast = false → s.fab.coord = some p.dst → p.lane = none → ejectDie u p ≠ p.plane.val →
    (u.pair p.plane.val (ejectDie u p)).cross.wait.any (fun w => w.1 == p.cls.toNat) = false →
    exec (.packetTransit p) s = .next (returnFrees p (crossPacket u p.plane.val (ejectDie u p) { p with inPort := none })))
  ∧ (∀ a : Nat,
    let me := s.fab.coord.getD 0
    let axis := p.mcAxis.toNat
    let dist := fun (c : BitVec 18) =>
      if p.mcDir then coordOn p.src axis - coordOn c axis else coordOn c axis - coordOn p.src axis
    let wrote := storeBytes u (cellKey (addrDie a) (addrOff a)) p.data (packetMark p)
    let members := wbits p.aux 31 0 + 2 ^ (dist me - 1)
    let port := 6 * p.plane.val + 2 * axis + (if p.mcDir then 1 else 0)
    let on := bump wrote 0x8090 (p.plane.val + 1) (packetFlits p)
    p.mcast = true → u.fab.coord = s.fab.coord → isFenced u p.src = false → epochOk u p = true →
    windowRange u p.id.toNat p.offset.toNat p.data.length p.src true = some a →
    faultIn u (addrDie a) (addrOff a) p.data.length = none →
    (∀ v w, (wrote.port port).state = 2 → dist (wrote.port port).peer ≤ p.mcSpan.toNat + 1 →
      portTakes on port { p with aux := ackAux 0 members, inPort := none } = (some v, w) →
      exec (.packetTransit p) s = .next (returnFrees p v))
    ∧ ((wrote.port port).state ≠ 2 ∨ p.mcSpan.toNat + 1 < dist (wrote.port port).peer → replyCredit wrote p = true →
      exec (.packetTransit p) s = .next (returnFrees p (reply wrote p 0x12 (fun r => { r with aux := ackAux 1 members })))))

/-- O28 (08_isroum_base_fabric.md (R184, R186, R191, R193, R194, R197, Table 8.3), 07_memory.md (R170)). A die reads and
writes its own store for another die, and replies end the request. A request that its owner takes, as the oldest
whole message of its class and with credit for the reply, acts: RD of mapped bytes returns them with the poison of
their words, which counts; WR and WRM write and answer WRA; a range that faults is answered ERR. Without credit the
request stays. RDR, WRA and ERR, taken so, end the request that their tag names at their destination, and are
dropped where none has it. A message that is not the oldest whole one does nothing. -/
def Obligations.DieRequestsServed : Prop := ∀ (m : D2dMsg) (s u : State),
  let d := m.dst.val
  let key := cellKey d m.addr.toNat
  (unitUp s d = true → takeMsg s m = some u →
    (hasRoom s d m.src.val 1 = true →
      (faultIn u d m.addr.toNat m.len.toNat = none → exec (.d2dRd ⟨m, []⟩) s = .next
        (sendMsg (carryRead u key m.len.toNat) d m.src.val
          (dataMsg 0x10 d m.src.val m.tag m.addr.toNat (readBytes u key m.len.toNat)
            ((wordsOf key m.len.toNat).map u.poison.contains))))
      ∧ (faultIn u d m.addr.toNat m.data.length = none → exec (.d2dWr m) s = .next
        (sendMsg (storeBytes u key m.data (msgMark m)) d m.src.val (bareMsg 0x11 d m.src.val m.tag 0)))
      ∧ (faultIn u d m.addr.toNat 512 = none → exec (.d2dWrm m) s = .next
        (sendMsg (storeMasked u key (leNat (m.data.take 64)) (m.data.drop 64) (msgMark m)) d m.src.val
          (bareMsg 0x11 d m.src.val m.tag 0)))
      ∧ (∀ o, faultIn u d m.addr.toNat m.len.toNat = some (o, .bad) →
        exec (.d2dRd ⟨m, []⟩) s = .next (sendMsg u d m.src.val (bareMsg 0x12 d m.src.val m.tag 0x19))))
    ∧ (∀ r, findReq u d m.tag = some r →
      exec (.d2dRdr m) s = .next (readBack u r m.data (msgMark m)) ∧ exec (.d2dWra m) s = .next (writeBackDone u r)
      ∧ exec (.d2dErr m) s = .next (requestFailed u r (BitVec.ofNat 8 (bitsOf m.addr.toNat 7 0))))
    ∧ (findReq u d m.tag = none →
      exec (.d2dRdr m) s = .next u ∧ exec (.d2dWra m) s = .next u ∧ exec (.d2dErr m) s = .next u))
  ∧ (hasRoom s d m.src.val 1 = false ∨ takeMsg s m = none →
    exec (.d2dRd ⟨m, []⟩) s = .next s ∧ exec (.d2dWr m) s = .next s ∧ exec (.d2dWrm m) s = .next s)
  ∧ (takeMsg s m = none → exec (.d2dRdr m) s = .next s ∧ exec (.d2dWra m) s = .next s ∧ exec (.d2dErr m) s = .next s)

/-- O29 (08_isroum_base_fabric.md (R197), 09_fabric_routing.md (R215, R221, R225)). A request with no reply ends at its
timeout and not before, and a circuit packet is resent once. A request to a die of the package ends with DIE_LOST 1
ms after it was sent; a fabric request with FABRIC_TIMEOUT, the issuing die's bit of 0xA090:06 set, once
FAB_REQ_TIMEOUT has passed; neither ends before. A circuit packet unacknowledged in its time after its last flit
left is sent again, its time to run from its leaving again, and the second time its put ends with CIRCUIT_BROKEN and
the plane's bit of 0xA090:07. -/
def Obligations.RequestTimeouts : Prop := ∀ (s : State) (tag : BitVec 16),
  (∀ (d : Die9) r, findReq s d.val tag = some r → r.slot = ownSlot s →
    (1000000 ≤ (clock s - r.at_).toNat → exec (.d2dRequestTimeout d tag) s = .next (requestFailed s r 0x1B))
    ∧ ((clock s - r.at_).toNat < 1000000 → exec (.d2dRequestTimeout d tag) s = .next s))
  ∧ (∀ r, fabReq s tag = some r →
    (dnum s 0x9004 1 * 1000 ≤ (clock s - r.at_).toNat →
      exec (.fabReqTimeout tag) s = .next (fabFailed (sticky s 0xA090 6 r.die) r 0x34 0))
    ∧ ((clock s - r.at_).toNat < dnum s 0x9004 1 * 1000 → exec (.fabReqTimeout tag) s = .next s)
    ∧ (∀ t, r.circuit.isSome = true → r.leftAt = some t → dnum s 0x9004 2 * 1000 ≤ (clock s - t).toNat →
      (r.resent = true → exec (.circuitResendExpiry tag) s = .next
        (fabFailed (sticky s 0xA090 7 r.packet.plane.val) r 0x36 0))
      ∧ (r.resent = false → exec (.circuitResendExpiry tag) s = .next
        (sendOn { s with fab := { s.fab with reqs := s.fab.reqs.map (fun (x : Req) =>
          if x == r then { x with resent := true, leftAt := none } else x) } } r.packet.plane.val r.packet))))

/-- O30 (08_isroum_base_fabric.md (R182, R184, R185, R187 to R190, Table 8.4)). A die-to-die flit is accepted in
sequence or sets NAK, and a lane moves to its spare at the agreed number. A flit in sequence whose CRC is good is
accepted: the expected number advances, NAK clears, its body reaches the buffer of its class, and its frees and ACK
are read, which empty the sender's replay buffer and, with NAK, send the rest of it again. One out of sequence sets
NAK; one that fails its CRC sets NAK and its copy is kept; the sixteenth in a row starts a retraining of both
directions, while which nothing arrives. Each is answered by an idle flit. The end of a retraining applies the kept
lanes, sends what is held again and lets traffic resume. A loss of signal, or of a ring's lock, is judged on its
pair or transceiver. Asked by the SWAP it holds, the sender fixes the switch at its next sequence number plus 32 and
answers; once that is acknowledged and that number is next, the lane stands on the spare, the spare leaves the pool,
the map is kept, and a vacate of the λ it left may go on. -/
def Obligations.DieLinkFlitsAndLanes : Prop := ∀ (a b : Die9) (s : State),
  let p := s.pair a.val b.val
  let answered := fun (t : State) =>
    if (pairLanes (t.pair b.val a.val) = 0 || (t.pair b.val a.val).retrain) = true then t else sendIdle t b.val a.val
  (unitUp s b.val = true → p.retrain = false → pairLanes p ≠ 0 → ∀ f : D2dFlit,
    let h := leNat (f.bytes.take 8)
    let seq := BitVec.ofNat 12 (bitsOf h 63 52)
    let kind := bitsOf h 38 36
    let bad := if (!p.nak || seq == p.expect) = true then p.bad ++ [f.bytes] else p.bad
    (crc32 (f.bytes.take 252) ≠ leNat (slice f.bytes 252 4) →
      (kind = 0 → exec (.d2dFlitReceived a b f) s = .next s)
      ∧ (kind ≠ 0 → bad.length < 16 → exec (.d2dFlitReceived a b f) s = .next
        (answered (s.setPair a.val b.val { p with nak := true, bad := bad })))
      ∧ (kind ≠ 0 → 16 ≤ bad.length → ∃ t, exec (.d2dFlitReceived a b f) s = .next t
        ∧ (Inv s → a ≠ b → (t.pair a.val b.val).retrain = true ∧ (t.pair b.val a.val).retrain = true
          ∧ (t.pair a.val b.val).expect = p.expect)))
    ∧ (crc32 (f.bytes.take 252) = leNat (slice f.bytes 252 4) →
      (kind = 0 → exec (.d2dFlitReceived a b f) s = .next (relayAll (pairReadAck s b.val a.val h) b.val))
      ∧ (kind ≠ 0 → seq ≠ p.expect → exec (.d2dFlitReceived a b f) s = .next
        (answered (s.setPair a.val b.val { p with nak := true })))
      ∧ (kind ≠ 0 → seq = p.expect → p.bad = [] → p.charges = [] →
        let s1 := s.setPair a.val b.val
          { p with expect := p.expect + 1, nak := false, bad := [], flits := p.flits + 1, charges := [] }
        let t := relayAll (judgePair (pairReadAck (takeBody s1 a.val b.val kind (bitsOf h 35 34) (slice f.bytes 8 244))
          b.val a.val h) a.val b.val) b.val
        exec (.d2dFlitReceived a b f) s = .next (answered (if b.val < 8 then slicePump t b.val else t)))))
  ∧ (p.retrain = true ∨ pairLanes p = 0 → ∀ f, exec (.d2dFlitReceived a b f) s = .next s)
  ∧ (∀ (h n : Nat), (BitVec.ofNat 12 (bitsOf h 51 40) - p.acked).toNat = n → n ≤ p.replay.length →
    let counts := [bitsOf h 31 24, bitsOf h 23 16, bitsOf h 15 8, bitsOf h 7 0]
    let s1 := s.setPair a.val b.val { p with
      acked := BitVec.ofNat 12 (bitsOf h 51 40), replay := p.replay.drop n, seen := counts.map (BitVec.ofNat 8),
      sent := (List.range 4).map (fun c =>
        natAt p.sent c - natAt ((List.range 4).map (fun k => (natAt counts k + 256 - (p.seen.getD k 0).toNat) % 256)) c) }
    (h.testBit 39 = false → pairReadAck s a.val b.val h = pump s1 a.val b.val)
    ∧ (h.testBit 39 = true → (s1.pair a.val b.val).replay ≠ [] → pairReadAck s a.val b.val h =
      pump (bump (resendAll s1 a.val b.val) 0x8080 (a.val + 1) (s1.pair a.val b.val).replay.length) a.val b.val))
  ∧ (∀ (lane spare : Lam) (t : State), takeCtl s b.val a.val (laneBody 1 lane.val spare.val 0) = some t →
    let x := t.pair a.val b.val
    exec (.d2dSwap a b lane spare) s = .next (sendLaneFlit (t.setPair a.val b.val { x with
        swaps := x.swaps.map (fun w =>
          if w.lane = lane.val ∧ w.spare = spare.val then { w with at_ := some (x.next + 32) } else w) })
      a.val b.val (laneBody 2 lane.val spare.val (x.next + 32).toNat)))
  ∧ (∀ (lane spare : Lam) (k : BitVec 12) (t : State),
    takeCtl s a.val b.val (laneBody 2 lane.val spare.val k.toNat) = some t →
    exec (.d2dSwapAck a b lane spare k) s = .next (t.setPair a.val b.val { t.pair a.val b.val with
      swaps := (t.pair a.val b.val).swaps.map (fun w =>
        if w.lane = lane.val ∧ w.at_ = some k then { w with acked := true } else w) }))
  ∧ (∀ w, p.swaps.find? (fun x => x.acked && x.at_ == some p.next) = some w →
    exec (.d2dLaneSwitch a b) s = .next (pump
      (let moved := sticky (saveLanes (s.setPair a.val b.val
        { p with lanes := { p.lanes with
                   map := p.lanes.map.set w.lane (some (lamField w.spare)),
                   spares := p.lanes.spares.filter (fun k => k.val != w.spare) },
                 swaps := p.swaps.erase w, charges := p.charges.filter (fun c => c.1 != w.lane) }) a.val b.val)
        0xA080 1 b.val
       match p.lanes.map.getD w.lane none with
       | some l => if a.val < 8 then bankSettle moved (bankOf a.val) l.val else moved
       | none => moved) a.val b.val))
  ∧ (p.retrain = true → exec (.d2dRetrainDone a b) s = .next (pairTrained (pairTrained s a.val b.val) b.val a.val)
    ∧ pairTrained s a.val b.val = pump (resendAll (s.setPair a.val b.val { p with
        retrain := false, lanes := (mget none s.flash.laneMaps (9 * a.val + b.val)).getD p.lanes }) a.val b.val) a.val b.val)
  ∧ (∀ l : Lam, hubOn s = true →
    exec (.d2dLossOfSignal a b l) s = .next (lamLost s a.val b.val l.val)
    ∧ exec (.ringLockLost (.pair a b) l) s = .next (lamLost s a.val b.val l.val)
    ∧ (∀ f, exec (.ringLockLost (.fibre f true) l) s = .next (txFault (sticky s 0xA0A0 7 f.val) f.val l.val)
      ∧ exec (.ringLockLost (.fibre f false) l) s = .next (rxLose (sticky s 0xA0A0 7 f.val) f.val l.val)))

/-- O31 (11_collectives.md (R264, R270 to R273, R275, R278, R281)). A COLLECTIVE opens, checks SRC and DST at START_TICK
and shakes hands; a CHS in turn is folded or adopted, one against the neighbour rule aborts. A ready COLLECTIVE of
one of the four operations, with fewer than eight open, an identifier not open and its die free for a reducing one,
opens with its descriptor and the device's epoch. At its START_TICK a sound one starts the first axis, after holding
its die if it reduces, and acts on what already waits in the pending table. A range of SRC, or else of DST, that
faults aborts it with the fault's status and DETAIL. A CHS, the oldest whole packet of its stream, gives its credit
back; for a collective that has not opened or not started, or for a later axis, it waits while the pending table of
64 has room. One that breaks the neighbour rule (an axis out of turn, or a sender that is not the ring predecessor
on that axis) aborts the collective at once, before its start too. One of the axis in turn acts: collecting it is
folded, and sent on collecting, or from rank 0 as the verdict that rank 0 adopts; adopting, the verdict it carries
is taken, sent on before the last rank with the digest that came, and ends the axis here. -/
def Obligations.CollectivesOpenAndShake : Prop :=
  (∀ (q : QId) (i : BitVec 32) (s : State) (j : Job) (op : Nat) (c : Instr),
    let l := j.words
    let d := collDie l
    let opened : Coll :=
      { cid := collId l, queue := q.val, idx := i, words := l, epoch := BitVec.ofNat 16 (dcell s 0xC000 1),
        started := false, ok := true, fail := none, reason := false, axis := 0, lap := 0, data := false, step := 0,
        got := [], lastPkt := clock s, poisoned := false }
    let begun := s.modJob q.val i (fun k => { k with phase := .working, plane := queueLocal q.val % 8 })
    s.job q.val i = some j → descType l = 16 → collOp l = op → j.phase = .ready → s.coll.opens.length < 8 →
    openColl s (collId l) = none →
    ((op = 0 ∨ op = 2) → (s.ve d).hold = none ∧
      s.coll.opens.any (fun e => collDie e.words == d && (collOp e.words == 0 || collOp e.words == 2)) = false) →
    ((c = .reduceScatter q i ∧ op = 0) ∨ (c = .allGather q i ∧ op = 1) ∨ (c = .allReduce q i ∧ op = 2)
      ∨ (c = .broadcast q i ∧ op = 3)) →
    exec c s = .next { begun with coll := { begun.coll with
      opens := s.coll.opens ++ [opened], closed := s.coll.closed.filter (fun x => x != collId l) } })
  ∧ (∀ (q : QId) (i : BitVec 32) (s : State) (c : Coll),
    let l := c.words
    let d := collDie l
    let on := modColl s c.cid (fun x => { x with started := true, lastPkt := clock s })
    let held := if collOp l = 0 ∨ collOp l = 2 then on.setVe d { on.ve d with hold := some c.cid.toNat } else on
    let base := fun (w : Nat) => wbits (dword l w) 55 0 - addrOff (dword l w).toNat
    let src := faultIn s d (addrOff (dword l 6).toNat) (srcBytes s l)
    let dst := faultIn s d (addrOff (dword l 7).toNat) (elemBytes (collFmt l) (collCount l))
    let abort := fun (a : Nat) (p : Place) => abortColl (faultSticky held 8 p) { c with started := true }
      (placeStatus p).toNat (s.fab.coord.getD 0) (placeStatus p) (placeDetail a p)
    s.coll.opens.find? (fun x => x.queue == q.val && x.idx == i) = some c → c.started = false → dword l 13 ≤ now s →
    (src = none → dst = none → exec (.collHandshakeStart q i) s = .next
      (chsRun c.cid (held.coll.pend.length + 8) (beginAxis held c.cid)))
    ∧ (∀ a p, src = some (a, p) → exec (.collHandshakeStart q i) s = .next (abort (base 6 + a) p))
    ∧ (∀ a p, src = none → dst = some (a, p) → exec (.collHandshakeStart q i) s = .next (abort (base 7 + a) p)))
  ∧ (∀ (p : Packet) (s t : State),
    let u := releasePacket t p
    let lap := if p.aux.getLsbD 61 then 1 else 0
    let waits := modColl { u with coll := { u.coll with pend := u.coll.pend ++ [p] } } p.id (fun x => { x with lastPkt := clock u })
    fabricLive s = true → s.fab.coord = some p.dst → pullPacket s p = some t → isFenced t p.src = false →
    (openColl t p.id = none → t.coll.closed.contains p.id = false → u.coll.pend.length < 64 →
      exec (.chs p) s = .next (returnFrees p waits))
    ∧ (∀ c, openColl t p.id = some c → openColl u p.id = some c → c.epoch = p.epoch →
      let r := myRank u c.words c.axis
      let run := fun (v : State) => returnFrees p (chsRun p.id (u.coll.pend.length + 8) v)
      let folded := modColl u c.cid (fun _ => { foldVerdict u c p with lap := 1, lastPkt := clock u })
      (chsWrong u c p = true → exec (.chs p) s = .next (returnFrees p (neighbourAbort u c)))
      ∧ (chsWrong u c p = false → (c.started = false ∨ c.axis < wbits p.aux 63 62) → u.coll.pend.length < 64 →
        exec (.chs p) s = .next (returnFrees p waits))
      ∧ (c.started = true → c.data = false → wbits p.aux 63 62 = c.axis → c.axis < (collAxes c.words).length →
        p.src = ringPrev u c.words c.axis → lap = (if r = 1 then 1 else c.lap) →
        (lap = 0 → r ≠ 0 → exec (.chs p) s = .next (run (sendChs folded c.cid 0 p.data)))
        ∧ (lap = 0 → r = 0 → exec (.chs p) s = .next (run (adoptVerdict (sendChs folded c.cid 1 p.data) c.cid)))
        ∧ (lap = 1 →
          let adopted := modColl u c.cid (fun x =>
            { x with ok := p.aux.getLsbD 60, reason := p.aux.getLsbD 59, lastPkt := clock u,
                     fail := if p.aux.getLsbD 60 then none else some (BitVec.ofNat 18 (wbits p.aux 17 0)) })
          exec (.chs p) s = .next (run (adoptVerdict
            (if r + 1 < lineSize c.words c.axis then sendChs adopted c.cid 1 p.data else adopted) c.cid))))))

/-- O32 (11_collectives.md (R265, R268, R269, R274, Table 11.2)). A CDATA packet of the step is combined, received with
local, or written, and goes on until its journey ends. A CDATA packet, the oldest whole one of its stream, of the
current step of an open collective in its data phase, of an offset that this member awaits and has not had, with no
other packet of the step waiting, gives its credit back: in a reducing step the piece is combined with the local
one, element by element, received operand first, staged in the vector engine with its flags noted, and written to
DST where its journey ends here, else sent on; in a gathering step it is written to DST, and sent on unless its
journey ends. The data phase then runs on. A packet for a later step waits and keeps its credit. -/
def Obligations.CollectiveDataTaken : Prop := ∀ (p : Packet) (s t : State) (c : Coll) (k : Nat) (step : Bool × Nat),
  let timed := modColl t p.id (fun x => { x with lastPkt := clock t })
  let u := returnFrees p (releasePacket timed p)
  let l := c.words
  let f := collFmt l
  let r := myRank u l step.2
  let j := wbits p.aux 60 55
  let off := p.offset.toNat
  let got : Piece := { data := p.data, mark := (List.range p.data.length).map (fun b => packetMark p (b / 8)) }
  let noted := modColl u p.id (fun x => { x with got := x.got ++ [off], lastPkt := clock u })
  let write := fun (t : State) (x : Piece) =>
    modColl (storePiece t (collKey l 7 f off) x) p.id (fun y => { y with poisoned := y.poisoned || x.mark.any (· == true) })
  let own := localPiece noted (collKey l (readWord step) f off) p.data.length
  let both := combinePieces f (collRed l) (collArith l) (p.data.length * 8 / fmtBits f) got own
  let staged := (stageBoth noted (collDie l) f got own).modJob c.queue c.idx
    (fun y => { y with fp := y.fp ||| BitVec.ofNat 8 both.2 })
  let run := collRun p.id (t.coll.early.length + 16)
  fabricLive s = true → s.fab.coord = some p.dst → pullPacket s p = some t → isFenced t p.src = false →
  openColl t p.id = some c → c.epoch = p.epoch → c.data = true → stepOf l p = some k →
  (c.step = k → (collSteps l)[k]? = some step → c.got.length < (offsetsGot t l step).length →
    t.coll.early.find? (fun e => e.id == p.id && stepOf l e == some k) = none →
    (offsetsGot u l step).contains off = true → c.got.contains off = false →
    (step.1 = false → j = r → exec (.cdata p) s = .next (run (write staged both.1)))
    ∧ (step.1 = false → j ≠ r → exec (.cdata p) s = .next (run (sendPiece staged p.id step j off (p.cls == 4) both.1)))
    ∧ (step.1 = true → (r + 1) % lineSize l step.2 = j → exec (.cdata p) s = .next (run (write noted got)))
    ∧ (step.1 = true → (r + 1) % lineSize l step.2 ≠ j →
      exec (.cdata p) s = .next (run (sendPiece (write noted got) p.id step j off (p.cls == 4) got))))
  ∧ (c.step < k → (collSteps l)[c.step]? = some step → c.got.length < (offsetsGot t l step).length →
    t.coll.early.find? (fun e => e.id == p.id && stepOf l e == some c.step) = none →
    exec (.cdata p) s = .next { timed with coll := { timed.coll with early := t.coll.early ++ [p] } })

/-- O33 (11_collectives.md (R265, R276 to R279, R282, Table 11.2, 11 Table 11.5)). A CABORT or a progress timeout ends a
collective and floods its neighbours; shards partition a range. A CABORT, the oldest whole packet of its stream, of
an open collective ends it COLL_ABORTED with the originating status and coordinate, or COLL_UNREACHABLE where the
packet's own source could not reach a member, and goes on to every ring neighbour. A started collective with no
packet for TIMEOUT ends COLL_TIMEOUT, naming the axis, the phase and the awaited predecessor. The shards of a range
of whole groups follow one another from its start to its end. -/
def Obligations.CollectiveAborts : Prop :=
  (∀ (p : Packet) (s t : State) (c : Coll),
    let u := releasePacket t p
    let origin := wbits p.aux 7 0
    let who := BitVec.ofNat 18 (wbits p.aux 25 8)
    fabricLive s = true → s.fab.coord = some p.dst → pullPacket s p = some t → isFenced t p.src = false →
    openColl t p.id = some c → openColl u p.id = some c → c.epoch = p.epoch →
    ((origin = 0x23 ∧ p.src = who) → exec (.cabort p) s = .next
      (returnFrees p (abortColl (sticky u 0xA0B0 3 0) c origin who 0x23 who.toNat)))
    ∧ (¬(origin = 0x23 ∧ p.src = who) → exec (.cabort p) s = .next
      (returnFrees p (abortColl (sticky u 0xA0B0 5 0) c origin who 0x21 (origin * 2 ^ 24 + who.toNat)))))
  ∧ (∀ (cid : BitVec 12) (s : State) (c : Coll),
    let k := if c.data then ((collSteps c.words).getD c.step (true, 0)).2 else c.axis
    let me := s.fab.coord.getD 0
    openColl s cid = some c → c.started = true → collTicks s c.words ≤ (clock s - c.lastPkt).toNat →
    exec (.collProgressTimeout cid) s = .next (abortColl (sticky s 0xA0B0 2 0) c 0x22 me 0x22
      (k * 2 ^ 30 + (if c.data then 2 ^ 29 else 0) + (ringPrev s c.words k).toNat)))
  ∧ (∀ f lo n m j : Nat, 0 < fmtGroup f → 0 < m → fmtGroup f ∣ n →
    (shardOf f lo n m 0).1 = lo ∧ (shardOf f lo n m m).1 = lo + n
    ∧ (shardOf f lo n m j).1 + (shardOf f lo n m j).2 = (shardOf f lo n m (j + 1)).1)

/-- O34 (09_fabric_routing.md (R214, R215, R227), 10_optical_ports.md (R239 to R243), 06_command_processors_and_bells.md
(R150)). A fibre flit in order is taken with its ACK, frees, messages and packet bytes; any other is discarded; old
flits are sent again. On a trained transceiver that runs, each codeword of a flit counts once: the bits that the
decoder corrected in it are charged to their lanes and counted, and so is one that it cannot correct; what it gives
is a codeword that parts from what came in at most 7 symbols. A flit whose codewords and CRC are good, of a kind
that no rule reserves and, where it carries a sequence number, with the number expected, moves EXPECT on, clears
NAK, adds its lane-control messages to those held, is read for its ACK, NAK and frees, and brings its packet bytes
to its port's pool. Any other is discarded: one of kind 2 counts as a frame discarded, one of kind 0 or 4, or a good
one of a reserved kind, is let go, and every other sets NAK. Flits that carry something are answered with an idle
flit. When ACK has stood for 20 µs with flits held, they are sent again and counted. BELL credits not freed after 16
µs are restored. A port without light goes down with its unacknowledged flits discarded. -/
def Obligations.FibreFlitsAndCredits : Prop :=
  (∀ (f : Xcvr) (fl : FibreFlit) (s : State),
    let d := readWords (activeLanes (s.fibre f.val).rxMap) fl
    let s1 := readFec s f.val d
    let x := s1.fibre f.val
    let link := leNat (slice d.bytes 0 8)
    let tag := leNat (slice d.bytes 8 8)
    let body := slice d.bytes 16 240
    let kind := bitsOf link 36 34
    let seq := BitVec.ofNat 13 (bitsOf link 63 51)
    let good := d.words.all (·.2.isSome) && crc32 (slice d.bytes 4 252) == bitsOf link 31 0
    let carries := kind == 1 || kind == 3
    let answer := fun (t : State) => leaveFlit t f.val 0 7 noBytes
    let messages := (List.range 7).filterMap (fun k => readLane (slice body (32 * k) 32))
    let taken := if carries then s1.setFibre f.val { x with expect := x.expect + 1, nak := false } else s1
    let heldIn := if kind = 3 then
        taken.setFibre f.val { taken.fibre f.val with laneIn := (taken.fibre f.val).laneIn ++ messages }
      else taken
    let acked := readAck heldIn f.val (BitVec.ofNat 13 (bitsOf link 50 38)) (link.testBit 37)
    fibreUp s f.val = true →
    (good = true → kind < 5 → (carries = true → seq = x.expect) →
      (portOf s f.val = none → exec (.linkFlitReceived f fl) s = .next (if kind = 0 ∨ kind = 4 then acked else answer acked))
      ∧ (∀ p, portOf s f.val = some p →
        let told := readTag (hear acked p) p tag
        ((kind = 0 ∨ kind = 4) → exec (.linkFlitReceived f fl) s = .next told)
        ∧ (kind = 3 → exec (.linkFlitReceived f fl) s = .next (answer told))
        ∧ ((kind = 1 ∨ kind = 2) →
          exec (.linkFlitReceived f fl) s = .next (answer (takeFlit told p tag seq.toNat body)))))
    ∧ (good = true → 5 ≤ kind → exec (.linkFlitReceived f fl) s = .next s1)
    ∧ ((good = false ∨ (carries = true ∧ seq ≠ x.expect)) →
      let die := min 7 (bitsOf (leNat (slice body 0 32)) 203 192 / 512)
      (kind = 2 → exec (.linkFlitReceived f fl) s = .next (answer (sticky (bump s1 0x8064 (die + 1) 1) 0xA060 4 die)))
      ∧ ((kind = 0 ∨ kind = 4) → exec (.linkFlitReceived f fl) s = .next s1)
      ∧ ((carries = true ∨ 5 ≤ kind) →
        exec (.linkFlitReceived f fl) s = .next (answer (s1.setFibre f.val { x with nak := true }))))
    ∧ (∀ c l, d.words = [(c, l)] →
      ((s.fibre f.val).counted ≤ c →
        (∀ fixed, l = some fixed → s1 = bump (bump (s.setFibre f.val { s.fibre f.val with
            counted := c + 1, charged := fixed.foldl (fun m k => mput 0 m k (mget 0 m k + 1)) (s.fibre f.val).charged })
          0x80A0 (f.val + 1) fixed.length) 0x80A1 (f.val + 1) 0)
        ∧ (l = none → s1 = bump (bump (s.setFibre f.val { s.fibre f.val with counted := c + 1 })
          0x80A0 (f.val + 1) 0) 0x80A1 (f.val + 1) 1))
      ∧ (c < (s.fibre f.val).counted →
        s1 = bump (bump (s.setFibre f.val (s.fibre f.val)) 0x80A0 (f.val + 1) 0) 0x80A1 (f.val + 1) 0))
    ∧ (∀ r c, decodeSymbols r = some c →
      isCodeword c = true ∧ ((List.range 272).filter (fun k => r.getD k 0 != c.getD k 0)).length ≤ 7)
    ∧ ((s.fibre f.val).replay ≠ [] → 20000 ≤ (clock s - (s.fibre f.val).ackAt).toNat →
      exec (.linkReplayTimeout f) s = .next (resendHeld (s.setFibre f.val { s.fibre f.val with ackAt := clock s }) f.val)))
  ∧ (∀ (f : Nat) (l : List Byte) (s : State), (s.fibre f).replay = [l] →
    resendHeld s f = bump (resendFibre s f l) 0x80A2 (f + 1) 1)
  ∧ (∀ (port : Port) (s : State),
    let x := s.port port.val
    let old := x.bells.takeWhile (fun t => decide (16000 ≤ (clock s - t).toNat))
    let f := fibreOf s port.val
    let y := s.fibre f
    hubOn s = true →
    (old ≠ [] → exec (.bellCreditRestore port) s = .next (slicePump (drainPort (bump (s.setPort port.val
      (freeN 5 old.length { x with bells := x.bells.drop old.length })) 0x8093 (port.val / 6 + 1) old.length) port.val)
      (port.val / 6)))
    ∧ exec (.portLossOfSignal port) s = .next (portDown (s.setFibre f
      { stopFibre y 0 with acked := y.nextSeq - 1, replay := [] }) port.val))

/-- O35 (09_fabric_routing.md (R201, R213, R227, R228), 10_optical_ports.md (R235, R236, R244, R251, Table 10.8)).
Training starts, ends with its maps, numbers and port, or fails; a port map is refused or put in force. In a
canonical state, a transceiver of a released device whose plane is in service trains: it and its port stand in
training. When the steps of Table 10.8 have taken their time, a transceiver whose loop is at most 8,000 ns, and
whose port, if it serves one, spans fewer than three dark devices to a peer that fits with the same PLANE_ORDER, is
up: its maps are the initial ones of the λ that passed and are not retired, its numbers start again, its CAL_SCHED
has left with number 0, the device's coordinate is the one written, and the port is up as its peer's books say if
both directions have sixteen lanes. The collective packets that wait for a plane are then tried again. A longer loop
sets 0xA0A0:0B, and with an unfit peer or three dark devices spanned the transceiver and its port are down. A
training that has not finished in 100 ms starts again and is counted; the third in a row sets FIBRE_DOWN. While the
device is dark its edge joins positions 0 and 1, 2 and 3, 4 and 5, and position 6 is dark. A port map that is not
legal, or moves a port with a circuit, is refused; a legal one is in force, and the ports it changes go down. -/
def Obligations.TrainingAndPortMaps : Prop :=
  (∀ (f : Xcvr) (s : State), Inv s →
    (canTrain s f.val = true → ∃ t, exec (.trainingStart f) s = .next t ∧ (t.fibre f.val).training = 1
      ∧ (t.fibre f.val).trainAt = clock s ∧ (t.fibre f.val).txChange = none ∧ (t.fibre f.val).rxChange = none
      ∧ (t.fibre f.val).wants = []
      ∧ (∀ p, portOf s f.val = some p → (t.port p).state = 1)
      ∧ (∀ g, g ≠ f.val → t.fibre g = s.fibre g)
      ∧ t = { s with fibres := t.fibres, fab := { s.fab with ports := t.fab.ports, held := t.fab.held } })
    ∧ (hubOn s = true → (s.fibre f.val).training = 1 → 100000000 ≤ (clock s - (s.fibre f.val).trainAt).toNat →
      let x := s.fibre f.val
      let t := s.setFibre f.val { x with fails := x.fails + 1, trainAt := clock s }
      (x.fails + 1 < 3 → exec (.trainingTimeout f) s = .next t)
      ∧ (3 ≤ x.fails + 1 → portOf s f.val = none → exec (.trainingTimeout f) s = .next (sticky t 0xA0A0 3 f.val))
      ∧ (∀ p, 3 ≤ x.fails + 1 → portOf s f.val = some p →
        exec (.trainingTimeout f) s = .next (sticky (sticky t 0xA0A0 3 f.val) 0xA090 2 p))))
  ∧ (∀ (f : Xcvr) (r : TrainResult) (s : State), Inv s → canTrain s f.val = true → (s.fibre f.val).training = 1 →
    (if (s.fibre f.val).everUp then 6000000 else 24000000) ≤ (clock s - (s.fibre f.val).trainAt).toNat →
    let passed := fun (k : Nat) =>
      decide (1000 ≤ r.rxMargins.getD k 0) && f32Le (r.rxBers.getD k 0).toNat (dnum s 0x20A0 2)
    let txm := initialMap (fun k => r.txPass.getLsbD k && !lamDead s f.val k true)
    let rxm := initialMap (fun k => passed k && !lamDead s f.val k false)
    let fits := fun (p : Nat) => r.spans ≠ 3 ∧ r.peerOrder = byteAt (planeOrders s) (p / 6) ∧
      ∃ me, writtenCoord s = some me ∧ peerOk me r.peer (p % 6) = true
    (8000 < r.loopNs.toNat → exec (.trainingDone f r) s = .next
      (notUp (sticky (dset s 0x40A6 (f.val + 1) 8000) 0xA0A0 11 f.val) f.val))
    ∧ (r.loopNs.toNat ≤ 8000 → (∀ p, portOf s f.val = some p → fits p) → ∃ t,
      exec (.trainingDone f r) s = .next (match portOf s f.val with | some _ => flushColl t | none => t)
      ∧ (t.fibre f.val).txMap = txm ∧ (t.fibre f.val).rxMap = rxm
      ∧ (t.fibre f.val).nextSeq = 1 ∧ (t.fibre f.val).acked = 8191 ∧ (t.fibre f.val).expect = 0
      ∧ (t.fibre f.val).txCw = 0 ∧ (t.fibre f.val).rxCw = 0 ∧ (t.fibre f.val).origin = now s
      ∧ (t.fibre f.val).rxOrigin = r.origin ∧ (t.fibre f.val).far = r.far.val % 16 ∧ (t.fibre f.val).fails = 0
      ∧ (∀ g, g ≠ f.val → t.fibre g = s.fibre g)
      ∧ (16 ≤ activeLanes txm → 16 ≤ activeLanes rxm → dnum s 0x20A0 1 ≤ 16 → (t.fibre f.val).training = 2)
      ∧ (∀ p, portOf s f.val = some p → t.fab.coord = writtenCoord s
        ∧ (16 ≤ activeLanes txm → 16 ≤ activeLanes rxm → dnum s 0x20A0 1 ≤ 16 →
          (t.port p).state = 2 ∧ (t.port p).peer = r.peer ∧ (t.port p).mins = classMin s)))
    ∧ (r.loopNs.toNat ≤ 8000 → ∀ p, portOf s f.val = some p → ¬fits p → ∃ t, exec (.trainingDone f r) s = .next t
      ∧ (t.fibre f.val).training = 0 ∧ (t.port p).state = 0 ∧ t.fab.coord = writtenCoord s
      ∧ (∀ g, g ≠ f.val → t.fibre g = s.fibre g)))
  ∧ (∀ (s : State) (p : Nat), s.fab.released = false →
    (p < 6 → ∃ q, bypassTo s p = some q ∧ bypassTo s q = some p ∧ q / 2 = p / 2 ∧ q ≠ p) ∧ (6 ≤ p → bypassTo s p = none))
  ∧ (∀ s : State,
    let bad := (List.range 8).any (fun n => !portMapLegal (writtenMap s n)) || (mapChanges s).any (circuitOn s)
    let t := portMapApply s
    (bad = true → t = sticky s 0xA0A0 9 0)
    ∧ (Inv s → bad = false → (∀ n, n < 8 → t.portMap n = writtenMap s n) ∧ (∀ p, p ∈ mapChanges s → (t.port p).state = 0)
      ∧ t = { s with fibres := t.fibres, portMaps := t.portMaps,
                     fab := { s.fab with ports := t.fab.ports, held := t.fab.held } }))

/-- O36 (10_optical_ports.md (R246 to R250, R252, Tables 10.5, 10.6)). Each lane-control message has its effect, and a
map switches at its codeword. On a trained transceiver that runs, the oldest lane-control message that it holds is
taken: CHANGE_REQ is answered with the tick agreed, at or after the one asked for, or one CHANGE_LEAD after the
changes still held. CHANGE_ACK fixes the tick and the first codeword at or after it, and sends COMMIT. COMMIT is
scheduled, or applied where its codeword has passed. LANE_FAULT proposes a change for each λ marked 18 that is not
out already. LOST is scheduled, or applied, and drops a later change, which is wished for again. CAL_SCHED sets the
far origin. A message that is not the oldest held does nothing. A λ that the receiver loses is vacated in a map of
its own choice, built on the map it will hold then and sent as LOST for 4,096 codewords ahead; of a free λ it asks
the transmitter. An error ratio and its margin are kept, and a ratio above the limit asks for the λ to be taken out.
A pending change of a direction is in force at its codeword and not before: its lanes are where it puts them. -/
def Obligations.LaneChangesAgreed : Prop := ∀ (f : Xcvr) (s : State), fibreUp s f.val = true →
  (∀ (m : LaneMsg) (rest : List LaneMsg), Inv s → (s.fibre f.val).laneIn = m :: rest →
    let x := { s.fibre f.val with laneIn := rest }
    let u := s.setFibre f.val x
    (m.op = 1 →
      (heldTick x = none → exec (.changeReq f m) s = .next (sendLane u f.val (laneMsg 0x02 m.reason.toNat m.tick 0 m.map)))
      ∧ (∀ h, heldTick x = some h →
        let t := tickUp (h + BitVec.ofNat 64 (changeLead s))
        exec (.changeReq f m) s = .next (sendLane u f.val
          (laneMsg 0x02 m.reason.toNat (if m.tick ≤ t then t else m.tick) 0 m.map))))
    ∧ (m.op = 2 → ∀ c, x.txChange = some c → c.committed = false →
      let t := if x.exchanged && decide (c.tick ≤ m.tick) then m.tick else c.tick
      let cw := BitVec.ofNat 64 (firstCodeword s x t)
      exec (.changeAck f m) s = .next (sendLane (s.setFibre f.val
        { x with txChange := some { c with tick := t, cw := cw, committed := true } }) f.val
          (laneMsg 0x03 c.reason.toNat t cw c.map)))
    ∧ (m.op = 3 →
      let c : Change :=
        { want := none, reason := m.reason, tick := m.tick, cw := m.cw, map := m.map, committed := true, isLost := false }
      (rxIndex s x < m.cw.toNat → exec (.commit f m) s = .next (s.setFibre f.val { x with rxChange := some c }))
      ∧ (m.cw.toNat ≤ rxIndex s x → exec (.commit f m) s = .next (applyRx u f.val c)))
    ∧ (m.op = 4 → exec (.laneFault f m) s = .next
      (((lamsIn m.map 18).filter (fun k => decide (codeAt x.txMap k ≤ 17))).foldl
        (fun t k => propose t f.val { lam := k, code := 19, reason := 2, tick := none, lead := none }) u))
    ∧ (m.op = 5 →
      let c : Change :=
        { want := none, reason := m.reason, tick := m.tick, cw := m.cw, map := m.map, committed := true, isLost := true }
      (∀ d, x.txChange = some d → (d.committed = false ∨ m.cw < d.cw) →
        let y := { x with txChange := none, wants := d.want.toList.map (fun w => { w with tick := none }) ++ x.wants }
        (txIndex s x < m.cw.toNat → exec (.lost f m) s = .next (s.setFibre f.val { y with txLost := y.txLost ++ [c] }))
        ∧ (m.cw.toNat ≤ txIndex s x → exec (.lost f m) s = .next (applyTx (s.setFibre f.val y) f.val c)))
      ∧ ((∀ d, x.txChange = some d → d.committed = true ∧ d.cw ≤ m.cw) →
        (txIndex s x < m.cw.toNat → exec (.lost f m) s = .next (s.setFibre f.val { x with txLost := x.txLost ++ [c] }))
        ∧ (m.cw.toNat ≤ txIndex s x → exec (.lost f m) s = .next (applyTx u f.val c))))
    ∧ (m.op = 6 → exec (.calSched f m) s = .next (s.setFibre f.val { x with rxOrigin := m.tick }))
    ∧ (∀ m2 : LaneMsg, m2 ≠ m → exec (.changeReq f m2) s = .next s ∧ exec (.changeAck f m2) s = .next s
      ∧ exec (.commit f m2) s = .next s ∧ exec (.laneFault f m2) s = .next s ∧ exec (.lost f m2) s = .next s
      ∧ exec (.calSched f m2) s = .next s))
  ∧ (let x := s.fibre f.val
    (∀ l : Lam,
      let cw := BitVec.ofNat 64 (rxIndex s x + 4096)
      let base := rxPlanned x cw
      let v := vacate x.rxCal base l.val 19
      let lost : Change :=
        { want := none, reason := 2, tick := now s, cw := cw, map := v, committed := true, isLost := true }
      (codeAt base l.val < 16 → exec (.laneSignalLoss f l) s = .next (sendLane (s.setFibre f.val
        { x with rxChange := x.rxChange.filter (fun d => decide (d.cw ≤ cw)), rxLost := x.rxLost ++ [lost] }) f.val
          (laneMsg 0x05 2 (now s) cw v)))
      ∧ (codeAt base l.val = 16 → exec (.laneSignalLoss f l) s = .next
        (sendLane s f.val (laneMsg 0x04 2 (now s) 0 (setCode x.rxMap l.val 18))))
      ∧ (16 < codeAt base l.val → exec (.laneSignalLoss f l) s = .next s))
    ∧ (∀ cw : Word, (x.rxLost = [] → x.rxChange = none → rxPlanned x cw = x.rxMap)
      ∧ (∀ l, x.rxLost.getLast? = some l → rxPlanned x cw = l.map))
    ∧ (∀ (l : Lam) (ber : BitVec 32) (margin : Int),
      let t := s.setFibre f.val
        { x with bers := mput noBer x.bers l.val ber.toNat, margins := mput noMargin x.margins l.val margin }
      (f32Le ber.toNat (dnum s 0x20A0 2) = true → exec (.laneBerCheck f l ⟨ber, margin⟩) s = .next t)
      ∧ (f32Le ber.toNat (dnum s 0x20A0 2) = false → codeAt x.rxMap l.val ≤ 16 → Inv s →
        exec (.laneBerCheck f l ⟨ber, margin⟩) s = .next
          (sendLane t f.val (laneMsg 0x04 2 (now s) 0 (setCode x.rxMap l.val 18)))))
    ∧ (∀ c, x.txChange = some c → c.committed = true → (∀ l, x.txLost.head? = some l → c.cw ≤ l.cw) →
      c.isLost = false →
      (c.cw.toNat ≤ txIndex s x →
        exec (.laneMapApply f true) s = .next (applyTx (s.setFibre f.val { x with txChange := none }) f.val c))
      ∧ (txIndex s x < c.cw.toNat → exec (.laneMapApply f true) s = .next s))
    ∧ (∀ c, x.rxChange = some c → c.committed = true → (∀ l, x.rxLost.head? = some l → c.cw ≤ l.cw) →
      c.isLost = false →
      (c.cw.toNat ≤ rxIndex s x →
        exec (.laneMapApply f false) s = .next (applyRx (s.setFibre f.val { x with rxChange := none }) f.val c))
      ∧ (rxIndex s x < c.cw.toNat → exec (.laneMapApply f false) s = .next s))
    ∧ (∀ l rest, l.isLost = true →
      (x.txLost = l :: rest → x.txChange = none → l.cw.toNat ≤ txIndex s x →
        exec (.laneMapApply f true) s = .next (applyTx (s.setFibre f.val { x with txLost := rest }) f.val l))
      ∧ (x.rxLost = l :: rest → x.rxChange = none → l.cw.toNat ≤ rxIndex s x →
        exec (.laneMapApply f false) s = .next (applyRx (s.setFibre f.val { x with rxLost := rest }) f.val l))))
  ∧ (Inv s → ∀ c : Change, (∀ k, k < 18 →
      (let old := codeAt (s.fibre f.val).txMap k
       let new := codeAt c.map k
       (old < 16 ∨ new < 16 ∨ 17 < new → codeAt ((applyTx s f.val c).fibre f.val).txMap k = new)
       ∧ (16 ≤ old → (new = 16 ∨ new = 17) → codeAt ((applyTx s f.val c).fibre f.val).txMap k = old))
      ∧ (codeAt (s.fibre f.val).rxMap k < 16 → codeAt ((applyRx s f.val c).fibre f.val).rxMap k = codeAt c.map k))
    ∧ ((applyTx s f.val c).fibre f.val).rxMap = (s.fibre f.val).rxMap
    ∧ ((applyRx s f.val c).fibre f.val).txMap = (s.fibre f.val).txMap)

/-- O37 (10_optical_ports.md (R252, R253, R255, R257, R260, Table 10.9)). A window's λ is vacated before it, calibrated
in it at both ends and freed at its end; a paused rotation drops a lane. On a trained transceiver that runs and has
exchanged tempo, with no pause: with no change pending an active λ of the next window is proposed to leave by the
window's start, no sooner than CHANGE_LEAD before it. At the tick of a window of either direction, not before it and
not twice, with no change pending, a λ that is free, left, or taken out with a working source is calibrating; a
window with a change pending, or with a λ still active or retired, passes and the rotation goes on. Near the
window's end a λ that passes its verify is free, its failures forgotten and its last calibration noted, and the
receiver keeps its measurements. In a pause with no change pending, the active λ past CAL_MAX_GAP longest without
calibration has its lane dropped. With FF_ENABLE the power of a die in service makes, every 10 µs, one step of its
tile's rings' model, whose units and step are the model's own choice (log 81). -/
def Obligations.CalibrationRuns : Prop := ∀ (f : Xcvr) (s : State),
  let x := s.fibre f.val
  let idle := x.txChange = none ∧ x.txLost = []
  fibreUp s f.val = true →
  (let k := nextCal x.txCal
    let past := match windowNow s f.val x true with | some w => w + 1 | none => 0
    let t := windowTick f.val x true (max x.txCal.window past)
    idle → x.exchanged = true → calPaused x.txMap = false → codeAt x.txMap k < 16 →
    (t ≤ (now s).toNat + changeLead s → exec (.calChangePropose f) s = .next (propose s f.val
      { lam := k, code := 17, reason := 0, tick := some (BitVec.ofNat 64 t), lead := none }))
    ∧ ((now s).toNat + changeLead s < t → exec (.calChangePropose f) s = .next s))
  ∧ (∀ (tx : Bool) (w : Nat), x.exchanged = true → calPaused (dirMap x tx) = false → (dirCal x tx).cal = none →
    windowNow s f.val x tx = some w → (dirCal x tx).window ≤ w →
    let r := dirCal x tx
    let k := nextCal r
    let c := codeAt (dirMap x tx) k
    let q := { r with window := w + 1 }
    (dirIdle x tx = true → (c = 16 ∨ c = 17 ∨ (c = 18 ∧ (tx = true → sourceReady s f.val k = true))) →
      exec (.calWindowStart ⟨f, tx⟩) s = .next
        (s.setFibre f.val (setDir x tx (setCode (dirMap x tx) k 17) { q with cal := some (lamField k) })))
    ∧ ((dirIdle x tx = false ∨ c < 16 ∨ c = 19) → exec (.calWindowStart ⟨f, tx⟩) s = .next
      (s.setFibre f.val (setDir x tx (dirMap x tx) (if r.retry.isSome then q
        else { q with done := r.done + 1, rounds := if (r.done + 1) % 18 = 0 then r.rounds + 1 else r.rounds })))))
  ∧ (∀ tx : Bool, (∀ w, windowNow s f.val x tx = some w → w < (dirCal x tx).window) →
    exec (.calWindowStart ⟨f, tx⟩) s = .next s)
  ∧ (∀ (tx : Bool) (v : VerifyResult) (l : Lam), Inv s → (dirCal x tx).cal = some l → verifyOk s v = true →
    windowTick f.val x tx ((dirCal x tx).window - 1) + 1900000 ≤ (now s).toNat →
    ∃ t, exec (.calWindowEnd ⟨f, tx⟩ v) s = .next t
      ∧ dirMap (t.fibre f.val) tx = setCode (dirMap x tx) l.val 16
      ∧ dirMap (t.fibre f.val) (!tx) = dirMap x (!tx)
      ∧ (dirCal (t.fibre f.val) tx).cal = none ∧ (dirCal (t.fibre f.val) tx).retry = none
      ∧ (dirCal (t.fibre f.val) tx).window = (dirCal x tx).window
      ∧ (dirCal (t.fibre f.val) tx).badRuns = mput 0 (dirCal x tx).badRuns l.val 0
      ∧ (dirCal (t.fibre f.val) tx).lastCal = mput 0 (dirCal x tx).lastCal l.val (clock s)
      ∧ (tx = false → (t.fibre f.val).bers = mput noBer x.bers l.val v.ber.toNat
        ∧ (t.fibre f.val).margins = mput noMargin x.margins l.val v.marginMdb
        ∧ (t.fibre f.val).reserve = mput noReserve x.reserve l.val v.reserveUw)
      ∧ (∀ g, g ≠ f.val → t.fibre g = s.fibre g))
  ∧ (∀ l, idle → calPaused x.txMap = true → codeAt x.txMap l < 16 → l < 18 →
    dnum s 0x20A0 4 * second ≤ (clock s - mget 0 x.txCal.lastCal l).toNat →
    (∀ j, j < 18 → j ≠ l → codeAt x.txMap j < 16 → mget 0 x.txCal.lastCal l < mget 0 x.txCal.lastCal j) →
    exec (.calMaxGapExpiry f) s = .next (sticky (propose (s.setFibre f.val
      { x with txCal := { x.txCal with retry := some (lamField l) } }) f.val
        { lam := l, code := 17, reason := 0, tick := none, lead := none }) 0xA0A0 10 f.val))
  ∧ (∀ (d : Die) (mw : Nat), dieUp s d.val = true → dnum s 0x20A0 5 = 1 → checkDue s (ckRing d.val) 10000 = true →
    let r := (mget none s.rings d.val).getD (ringInit d.val)
    let goal : Int := r.gain * mw
    let rise := r.rise + (goal - r.rise) * 10000 / max 10000 r.tau
    let next : RingModel := { r with rise := rise, mw := mw, heat := 0 - rise * 8 / 25 }
    exec (.ringFeedForward d mw) s = .next { ran s (ckRing d.val) (clock s) with rings := mput none s.rings d.val (some next) })

/-- O38 (10_optical_ports.md (R254)). A λ that fails its verify is calibrated again in the next window, and after three
failures in a row is retired. In a canonical state, at the end of the window of a calibrating λ in state 17 of
either direction of a running transceiver, whose verify fails: on the first and second failure in a row its map is
unchanged, so it stays in state 17, it is the λ of the next window, and the rotation stands where it stood or one on
where the window was the rotation's own; the rotation's λ follows once the λ passes. On the third failure it takes
state 19 and the transceiver's bit in 0xA0A0:08 is set. -/
def Obligations.LambdaFailsVerify : Prop := ∀ (f : Xcvr) (tx : Bool) (r : VerifyResult) (s : State) (l : Lam),
  let x := s.fibre f.val
  let y := dirCal x tx
  let n := mget 0 y.badRuns l.val
  Inv s → fibreUp s f.val = true → y.cal = some l → codeAt (dirMap x tx) l.val = 17 →
  windowTick f.val x tx (y.window - 1) + 1900000 ≤ (now s).toNat → verifyOk s r = false →
  ∃ t, exec (.calWindowEnd ⟨f, tx⟩ r) s = .next t
    ∧ (dirCal (t.fibre f.val) tx).done = (if y.retry.isSome then y.done else y.done + 1)
    ∧ (n + 1 < 3 → codeAt (dirMap (t.fibre f.val) tx) l.val = 17 ∧ nextCal (dirCal (t.fibre f.val) tx) = l.val
      ∧ mget 0 (dirCal (t.fibre f.val) tx).badRuns l.val = n + 1
      ∧ (∀ v u, verifyOk u v = true → Inv u → fibreUp u f.val = true →
          dirCal (u.fibre f.val) tx = { dirCal (t.fibre f.val) tx with cal := some l } →
          windowTick f.val (u.fibre f.val) tx (y.window - 1) + 1900000 ≤ (now u).toNat →
          ∃ w, exec (.calWindowEnd ⟨f, tx⟩ v) u = .next w ∧ (dirCal (w.fibre f.val) tx).retry = none
            ∧ nextCal (dirCal (w.fibre f.val) tx) = (dirCal (t.fibre f.val) tx).done % 18))
    ∧ (3 ≤ n + 1 → codeAt (dirMap (t.fibre f.val) tx) l.val = 19 ∧ dbit t 0xA0A0 8 f.val = true)

/-- O39 (10_optical_ports.md (R258 to R260)). Sources are judged by power; a vacate moves lanes and lights the spare; a
spare that locks takes over, one that does not in 500 ms loses the λ. On a bank that runs: once in each beat each of
its eighteen sources is judged in turn, by the mean of its last sixteen readings against its commissioning power:
the ratio is entered, a drop that reaches 1.5 dB noted and one of 3 dB vacates its λ. An abrupt loss on a λ that
runs on its primary source marks it vacating, powers its spare, moves the places of the λ on every transmitter of
the half that does not carry a lane on it, and on the die pairs. A spare that locks is noted, and the bank settles;
a spare that has not locked 500 ms after it was powered loses the λ. A vacate under way goes on once no trained
transmitter of the half carries a lane on the λ, or will by its pending change, and no die pair of it is still
moving one off it: with a locked spare the λ runs on it, else its spare warms. -/
def Obligations.LaserSourcesJudged : Prop := ∀ (b : Fin 2) (l : Lam) (s : State), bankOn s b.val = true →
  let src := mget 0 (s.bank b.val).source l.val
  (∀ mdbm : List Int, mget none s.power.checks (ckLaser b.val) ≠ some (beat s) →
    exec (.laserPowerCheck b mdbm) s = .next
      ((List.range 18).foldl (fun t k => judgeSource t b.val k (mdbm.getD k 0)) (ran s (ckLaser b.val) (beat s))))
  ∧ (∀ mdbm : Int,
    let taps := (mdbm :: mget [] (s.bank b.val).taps l.val).take 16
    let sum := taps.foldl (· + ·) 0 - (taps.length : Int) * bankPower s b.val l.val
    let was := f32Milli (dnum s (0x40A4 + b.val) (l.val + 1))
    let read := s.setBank b.val { s.bank b.val with taps := mput [] (s.bank b.val).taps l.val taps }
    let kept := dset read (0x40A4 + b.val) (l.val + 1) (ratF32 sum (1000 * taps.length))
    Inv s →
    (-1500 * (taps.length : Int) < sum → judgeSource s b.val l.val mdbm = kept)
    ∧ (-3000 * (taps.length : Int) < sum → sum ≤ -1500 * (taps.length : Int) → judgeSource s b.val l.val mdbm =
      (if -1500 < was then sticky kept 0xA0A0 4 (laserBit b.val l.val) else kept))
    ∧ (sum ≤ -3000 * (taps.length : Int) → src = 0 → -1500 < was → judgeSource s b.val l.val mdbm =
      vacateLam (sticky kept 0xA0A0 4 (laserBit b.val l.val)) b.val l.val))
  ∧ (src = 0 → exec (.laserAbruptLoss b l) s = .next
    (let seen := sticky s 0xA0A0 5 (laserBit b.val l.val)
     let x := seen.bank b.val
     let marked := setSource (seen.setBank b.val { x with warmAt := mput 0 x.warmAt l.val (clock seen) }) b.val l.val 2
     let moved := (halfFibres b.val).foldl
      (fun t f => if codeAt (t.fibre f).txMap l.val < 16 then t else fibreVacate t f l.val) marked
     bankSettle (pairsVacate moved b.val l.val) b.val l.val))
  ∧ (src = 1 → exec (.laserAbruptLoss b l) s = .next
    (let marked := laserLost (sticky s 0xA0A0 5 (laserBit b.val l.val)) b.val l.val
     let moved := (halfFibres b.val).foldl
      (fun t f => if codeAt (t.fibre f).txMap l.val < 16 then t else fibreVacate t f l.val) marked
     bankSettle (pairsVacate moved b.val l.val) b.val l.val))
  ∧ ((src = 2 ∨ src = 3) →
    exec (.spareSourceLocked b l) s = .next (bankSettle (s.setBank b.val
      { s.bank b.val with locked := mput false (s.bank b.val).locked l.val true }) b.val l.val)
    ∧ (mget false (s.bank b.val).locked l.val = false →
      500000000 ≤ (clock s - mget 0 (s.bank b.val).warmAt l.val).toNat →
      exec (.spareSourceLockTimeout b l) s = .next (laserLost s b.val l.val)))
  ∧ (Inv s → (src = 2 ∨ src = 3) →
    (∀ f, f ∈ halfFibres b.val → (s.fibre f).training = 2 → fibreUses (s.fibre f) l.val = false) →
    (∀ e, e ∈ halfPairs b.val → pairMoving s e.1 e.2 l.val = false) →
    mget 0 ((bankSettle s b.val l.val).bank b.val).source l.val =
      (if mget false (s.bank b.val).locked l.val then 1 else 3))

/-- O40 (12_tempo.md (R284 to R289, Tables 12.1, 12.2)). Tempo flits are sent and heard, samples from the parent are
taken, and each beat sets the increment. While the hub runs, an up port sends its tempo flit, once in each period of
65,536 ticks from its plane's first slot on; a flit that fails is counted and nothing else; a good one below depth
62 is heard, kept for the echo, and from the parent's direction in class 0 with an echo yields the sample θ = (t2 −
t1) − (t4 − t3), δ = (t2 − t1) + (t4 − t3). A sample within 1,024 units of the median is accepted, one farther
counted as rejected. Once in each beat, where it has samples, the increment removes the median θ over the next beat,
kept within 200 ppm of 20/7 ns. Each edge of the reference adds the increment to tempo. -/
def Obligations.TempoExchangeAndServo : Prop := ∀ s : State, hubOn s = true →
  let t := s.tempo
  (∀ port : Port, (s.port port.val).state = 2 →
    (∀ n, flitPeriod s (port.val / 6) = some n → mget none t.sent port.val ≠ some n →
      exec (.tempoFlitSend port) s = .next
        (leaveFlit { s with tempo := { t with sent := mput none t.sent port.val (some n) } } (fibreOf s port.val) 4 7
          { sop := false, eop := false, bytes := tempoBody s port.val }))
    ∧ (∀ f : TempoFlit, f.ok = false → exec (.tempoFlit port f) s = .next (bump s 0x8094 1 1))
    ∧ (∀ f : TempoFlit, f.ok = true → 62 ≤ f.depth.toNat → exec (.tempoFlit port f) s = .next (hear s port.val))
    ∧ (∀ f : TempoFlit, f.ok = true → f.depth.toNat < 62 →
      let heard := hear s port.val
      let d := port.val % 6
      let arrival := tempo256 s - f.age
      let v : Heard := { sync := f.sync, priority := f.priority, root := f.root, depth := f.depth }
      let e : Echo :=
        { txTick := f.txTick, txFrac := f.txFrac, rxTick := BitVec.ofNat 64 (arrival / 256),
          rxFrac := BitVec.ofNat 8 arrival }
      let noted : Tempo := { t with heard := mput none t.heard d (some v), echoes := mput none t.echoes port.val (some e) }
      let kept : State := { heard with tempo := noted }
      let t1 : Int := f.txTick.toNat * 256 + f.txFrac.toNat
      let t2 : Int := arrival
      let t3 : Int := f.echoTx.toNat * 256 + f.echoTxFrac.toNat
      let t4 : Int := f.echoRx.toNat * 256 + f.echoRxFrac.toNat
      ((t.parent = some (dirField d) ∧ f.sync = 0 ∧ f.echoTx ≠ 0) → exec (.tempoFlit port f) s = .next
        (takeSample kept ((t2 - t1) - (t4 - t3)) ((t2 - t1) + (t4 - t3))))
      ∧ (¬(t.parent = some (dirField d) ∧ f.sync = 0 ∧ f.echoTx ≠ 0) → exec (.tempoFlit port f) s = .next kept)))
  ∧ (∀ (th de m : Int), t.median = some m →
    ((de - m).natAbs ≤ 1024 → takeSample s th de = acceptSamples s [(th, de)] th)
    ∧ (1024 < (de - m).natAbs → takeSample s th de = bump s 0x8094 2 1))
  ∧ (∀ th, beat s ≠ t.servoAt → median (t.beatOf.map (·.1)) = some th →
    let raw : Int := (t.incr.toNat : Int) - (t.incr.toNat : Int) * th / 2 ^ 29
    let inc : Int := max (incrNominal - incrSpan) (min (incrNominal + incrSpan) raw)
    ∃ u, exec .tempoServo s = .next u ∧ u.tempo.incr = BitVec.ofNat 64 inc.toNat ∧ u.tempo.beatOf = []
      ∧ u.tempo.servoAt = beat s
      ∧ u.tempo.median = median (t.beatOf.map (·.2)) ∧ u.tempo.ticks = t.ticks
      ∧ (t.state = 2 → t.isRoot = false → 512000 < th.natAbs → u.tempo.state = 1 ∧ u.tempo.waiting = true)
      ∧ (th.natAbs ≤ 512000 → u.tempo.state = t.state)
      ∧ u = { s with tempo := u.tempo, dict := u.dict })
  ∧ (beat s ≠ t.servoAt → median (t.beatOf.map (·.1)) = none →
    exec .tempoServo s = .next { s with tempo := { t with servoAt := beat s, median := none } })
  ∧ (t.ticks.toNat * 2 ^ 32 + t.frac.toNat + t.incr.toNat < 2 ^ 96 →
    tempoFine (referenceEdge s) = tempoFine s + t.incr.toNat)

/-- O41 (12_tempo.md (R286, R287, R291, Table 12.1)). The parent is chosen by the best vector heard; a root is taken
after ROOT_WAIT; a lost parent leads to another or to HOLDOVER, then FREE. While the hub runs: a device that is no
root keeps its parent, once in each beat its vector read again, unless a better class 0 vector below depth 62 is
heard, which it takes; one without parent takes the best admissible one at once. After ROOT_WAIT, its own vector at
class 1 and depth 0 better than all it hears, a device with a coordinate and priority takes the root LOCKED with no
step. A parent without a sample for TEMPO_LOSS_BEATS is lost: another admissible one is taken, or LOCKED goes to
HOLDOVER and its bit is set, and LOCKING to FREE. HOLDOVER ends after HOLDOVER_BEATS in FREE at the nominal
increment with its bit set. -/
def Obligations.TempoTreeKept : Prop := ∀ s : State, hubOn s = true →
  let t := s.tempo
  (t.isRoot = false →
    let now_ : State := { s with tempo := { t with selectAt := beat s } }
    (∀ d v, t.parent = some d → beat s ≠ t.selectAt → heardOn now_ d.val = some v → v.sync = 0 →
      (∀ e u, bestLink now_ (fun x => decide (x.depth < 62)) = some (e, u) →
        exec .tempoParentSelect s = .next (if better u v then takeParent now_ e u else takeParent now_ d.val v)))
    ∧ (∀ e u, t.parent = none → bestLink now_ (admissible now_) = some (e, u) →
      exec .tempoParentSelect s = .next (takeParent now_ e u))
    ∧ (∀ d, t.parent = some d → beats (dnum s 0x9021 3) ≤ since s t.sampleAt →
      let alone : Tempo :=
        { t with parent := none, lastDepth := t.depth, lastRoot := t.root, heard := mput none t.heard d.val none,
                 beatOf := [], held := [], median := none }
      let gone : State := { s with tempo := alone }
      (∀ e u, bestLink gone (admissible gone) = some (e, u) → exec .tempoParentLost s = .next (takeParent gone e u))
      ∧ (bestLink gone (admissible gone) = none → t.state = 2 → exec .tempoParentLost s = .next
        (sticky { gone with tempo := { gone.tempo with state := 3, holdAt := clock s } } 0xA090 9 0))
      ∧ (bestLink gone (admissible gone) = none → t.state = 1 → exec .tempoParentLost s = .next
        { gone with tempo := { gone.tempo with state := 0, incr := BitVec.ofNat 64 incrNominal, root := none, depth := 0 } })))
  ∧ (∀ c start, s.fab.coord = some c → (t.state = 0 ∨ t.state = 3) → t.isRoot = false → tempoPriority s ≠ 0 →
    (if t.state = 3 then some t.holdAt else t.firstUp) = some start → beats (dnum s 0x9021 2) ≤ since s start →
    (∀ d v, d < 6 → heardOn s d = some v → better { sync := 1, priority := tempoPriority s, root := c, depth := 0 } v = true) →
    exec .tempoRootSelect s = .next { s with tempo :=
      { t with isRoot := true, state := 2, root := some c, rootPrio := tempoPriority s, depth := 0, parent := none,
               beatOf := [], held := [], median := none } })
  ∧ (t.state = 3 → beats (dnum s 0x9021 4) ≤ since s t.holdAt → exec .holdoverExpired s = .next
    (sticky { s with tempo := { t with state := 0, incr := BitVec.ofNat 64 incrNominal, root := none, depth := 0 } }
      0xA090 10 0))

/-- O42 (03_number_formats.md (R66 to R74, R76 to R82), 04_vector_engine.md (R88, R89, R91, R93, R94), 04 Tables 4.3,
4.4). An element-wise instruction that issues writes its operation's result to the unmasked elements of VD. When a
context's next word issues and is one of the element-wise opcodes, before the last index a program may hold, its
command, after handling what its reads find in error, writes to each unmasked element of VD the result of the
operation on the elements of VA, VB and VC it reads, raises the flags of those elements, carries poison, counts the
cycles of its rate, and goes on to the next index. Everything else of the state is as before. -/
def Obligations.VeElementsComputed : Prop :=
  ∀ (d : Die) (x : VeCtx) (s u : State) (w : Word) (r : VeRun) (c : Instr) (op cost n : Nat)
    (f : VeWord → Nat → Nat → Nat → Res),
  let v := veDecode w
  let k := v.mask.toNat
  let src := fun (m : Nat) (reg : BitVec 6) => r.elems v.sf (if m ≤ n then reg.toNat else v.va.toNat)
  let poison := r.vecPoison v.sf v.va.toNat || (2 ≤ n && r.vecPoison v.sf v.vb.toNat)
    || (3 ≤ n && r.vecPoison v.sf v.vc.toNat) || r.maskPoison k
  let out := vlanes (r.on k) (f v) 0 (src 1 v.va) (src 2 v.vb) (src 3 v.vc)
  let done := (r.putElems v.df v.vd.toNat out.1 poison).raise out.2
  (c, op, cost, n, f) ∈
    ([ (.fadd d x, 0x10, 1, 2, fun v a b _ => wide2 addF v a b), (.fsub d x, 0x11, 1, 2, fun v a b _ => wide2 subF v a b),
      (.fmul d x, 0x12, 1, 2, fun v a b _ => wide2 mulF v a b), (.fma d x, 0x13, 1, 3, fun v a b c => fmaF 9 v.ctl a b c),
      (.fdiv d x, 0x14, 4, 2, fun v a b _ => divF 9 v.ctl a b), (.fsqrt d x, 0x15, 4, 1, fun v a _ _ => sqrtF 9 v.ctl a),
      (.fmax d x, 0x16, 1, 2, fun v a b _ => extremeF v.sf v.ctl true false a b),
      (.fmin d x, 0x17, 1, 2, fun v a b _ => extremeF v.sf v.ctl false false a b),
      (.fmaxm d x, 0x18, 1, 2, fun v a b _ => extremeF v.sf v.ctl true true a b),
      (.fminm d x, 0x19, 1, 2, fun v a b _ => extremeF v.sf v.ctl false true a b),
      (.fabs d x, 0x1A, 1, 1, fun v a _ _ => (magOf v.sf a, 0)),
      (.fneg d x, 0x1B, 1, 1, fun v a _ _ => ((ffmt v.sf).signed (!signOf v.sf a) (magOf v.sf a), 0)),
      (.fcpsgn d x, 0x1C, 1, 2, fun v a b _ => ((ffmt v.sf).signed (signOf v.sf b) (magOf v.sf a), 0)),
      (.fscaleb d x, 0x1D, 1, 2, fun v a b _ => scalebF 9 v.ctl a (toSigned 32 b)),
      (.flogb d x, 0x1E, 1, 1, fun v a _ _ => logbF 9 v.ctl a), (.frint d x, 0x1F, 1, 1, fun v a _ _ => rintF 9 v.ctl a),
      (.iadd d x, 0x20, 1, 2, fun v a b _ => binInt v.sf v.ctl (· + ·) a b),
      (.isub d x, 0x21, 1, 2, fun v a b _ => binInt v.sf v.ctl (· - ·) a b),
      (.imul d x, 0x22, 1, 2, fun v a b _ => binInt v.sf v.ctl (· * ·) a b),
      (.imad d x, 0x23, 1, 3, fun v a b c => fitInt v.sf v.ctl.sat (intOf v.sf a * intOf v.sf b + intOf v.sf c)),
      (.idiv d x, 0x24, 4, 2, fun v a b _ => divInt v.sf v.ctl a b),
      (.ishl d x, 0x25, 1, 1, fun v a _ _ => fitInt v.sf v.ctl.sat (intOf v.sf a * 2 ^ v.imm.toNat)),
      (.ishr d x, 0x26, 1, 1, fun v a _ _ => (if Config.shiftArithmetic (veEncode v) then
        ofSigned (intWidth v.sf) (intOf v.sf a / 2 ^ v.imm.toNat) else a / 2 ^ v.imm.toNat, 0)),
      (.ineg d x, 0x27, 1, 1, fun v a _ _ => fitInt v.sf v.ctl.sat (-intOf v.sf a)),
      (.iand d x, 0x28, 1, 2, fun _ a b _ => (a &&& b, 0)), (.ior d x, 0x29, 1, 2, fun _ a b _ => (a ||| b, 0)),
      (.ixor d x, 0x2A, 1, 2, fun _ a b _ => (a ^^^ b, 0)),
      (.imax d x, 0x2B, 1, 2, fun v a b _ => (if intOf v.sf a < intOf v.sf b then b else a, 0)),
      (.imin d x, 0x2C, 1, 2, fun v a b _ => (if intOf v.sf b < intOf v.sf a then b else a, 0)),
      (.cvt d x, 0x38, 1, 1, fun v a _ _ => convert v.sf v.df v.ctl (lsbExp v) a),
      (.fexp d x, 0x40, 2, 1, fun v a _ _ => approxF .exp v.ctl a), (.fexp2 d x, 0x41, 2, 1, fun v a _ _ => approxF .exp2 v.ctl a),
      (.flog d x, 0x42, 2, 1, fun v a _ _ => approxF .log v.ctl a), (.flog2 d x, 0x43, 2, 1, fun v a _ _ => approxF .log2 v.ctl a),
      (.frcp d x, 0x44, 2, 1, fun v a _ _ => approxF .rcp v.ctl a), (.frsq d x, 0x45, 2, 1, fun v a _ _ => approxF .rsq v.ctl a),
      (.ftanh d x, 0x46, 2, 1, fun v a _ _ => approxF .tanh v.ctl a), (.fsigm d x, 0x47, 2, 1, fun v a _ _ => approxF .sigm v.ctl a),
      (.ferf d x, 0x48, 2, 1, fun v a _ _ => approxF .erf v.ctl a) ]
      : List (Instr × Nat × Nat × Nat × (VeWord → Nat → Nat → Nat → Res))) →
  Issues s d x w u r → v.op.toNat = op → r.pc + 1 < progLimit x.upd →
  exec c s = .next (setVeRun (countCycles u d.val x.upd cost) d.val x.upd
    { done with pc := r.pc + 1, cycles := r.cycles + cost, lines := [] })

/-- O43 (03_number_formats.md (R66, R69, R71, R73, R74), 04_vector_engine.md (R87, R89, R91, R92, R94, R95, R395), 04
Table 4.3). Permutes, compares, selects, block formats, reductions and scalar instructions write their one result.
When a context's next word issues and is one of these opcodes, before the last index a program may hold, its command
puts the result in the vector, mask or scalar register the word names (NOP writes none, PUB notes a branch input),
counts one cycle and goes on to the next index; everything else of the state is as before. -/
def Obligations.VeRegistersWritten : Prop :=
  ∀ (d : Die) (x : VeCtx) (s u : State) (w : Word) (r : VeRun) (c : Instr) (op : Nat) (f : VeWord → VeRun → VeRun),
  let v := veDecode w
  let pairs := fun (v : VeWord) (r : VeRun) => ((r.elems v.sf v.va.toNat).zip (r.elems v.sf v.vb.toNat)).zipIdx
  let both := fun (v : VeWord) (r : VeRun) => r.vecPoison v.sf v.va.toNat || r.vecPoison v.sf v.vb.toNat
  let compare := fun (o : VeWord → Nat → Nat → Option Int × Nat) (v : VeWord) (r : VeRun) =>
    let k := v.mask.toNat
    let out := (pairs v r).map (fun e =>
      if r.on k e.2 then (some (predHolds (Config.cmpPred v.imm.toNat) (o v e.1.1 e.1.2).1), (o v e.1.1 e.1.2).2)
      else (none, 0))
    (r.putMask v.md (out.map (·.1)) (both v r || r.maskPoison k)).raise (out.foldl (fun a e => a ||| e.2) 0)
  let reduce := fun (k : RedOp) (onto : Bool) (v : VeWord) (r : VeRun) =>
    let res := reduceRow k v.sf v.ctl (if onto then some ((r.scalar v.sd).toNat % 2 ^ fmtBits v.sf) else none)
      ((r.elems v.sf v.va.toNat).zipIdx.map (fun e => if r.on v.mask.toNat e.2 then e.1 else redIdentity k v.sf))
    (r.putScalar v.sd (BitVec.ofNat 64 res.1)
      (r.vecPoison v.sf v.va.toNat || r.maskPoison v.mask.toNat || (onto && r.scalarPoison v.sd))).raise res.2
  let scal := fun (fop : Nat → Arith → Nat → Nat → Res) (iop : Int → Int → Int) (v : VeWord) (r : VeRun) =>
    let a := (r.scalar v.va.toNat).toNat % 2 ^ fmtBits v.sf
    let b := (r.scalar v.vb.toNat).toNat % 2 ^ fmtBits v.sf
    let res := if isFloat v.sf then fop v.sf v.ctl a b else binInt v.sf v.ctl iop a b
    (r.putScalar v.sd (BitVec.ofNat 64 res.1) (r.scalarPoison v.va.toNat || r.scalarPoison v.vb.toNat)).raise res.2
  (c, op, f) ∈
    ([ (.veNop d x, 0x00, fun _ r => r),
      (.vbcast d x, 0x07, fun v r => writeLanes r v (fun _ => (r.scalar v.vc.toNat).toNat) (r.scalarPoison v.vc.toNat)),
      (.fcmp d x, 0x30, compare (fun v a b => compareF v.sf v.ctl ((Config.cmpPred v.imm.toNat).testBit 4) a b)),
      (.icmp d x, 0x31, compare (fun v a b => (some (intOf v.sf a - intOf v.sf b), 0))),
      (.sel d x, 0x32, fun v r => r.putElems v.df v.vd.toNat
        ((pairs v r).map (fun e => some (if r.on v.mask.toNat e.2 then e.1.1 else e.1.2)))
        (both v r || r.maskPoison v.mask.toNat)),
      (.mxexp d x, 0x39, fun v r =>
        let out := (r.elems v.sf v.va.toNat).zipIdx.map (fun e =>
          if r.on v.mask.toNat e.2 then
            (some (mxExpand v.sf v.df v.ctl ((r.elems 5 v.vb.toNat).getD (e.2 / 32) 0) e.1).1,
              (mxExpand v.sf v.df v.ctl ((r.elems 5 v.vb.toNat).getD (e.2 / 32) 0) e.1).2)
          else (none, 0))
        (r.putElems v.df v.vd.toNat (out.map (·.1))
          (r.vecPoison v.sf v.va.toNat || r.vecPoison 5 v.vb.toNat || r.maskPoison v.mask.toNat)).raise
          (out.foldl (fun a e => a ||| e.2) 0)),
      (.mxpack d x, 0x3A, fun v r =>
        let xs := r.elems 9 v.va.toNat
        let scales := (List.range 64).map (fun j => mxScale v.df (slice xs (32 * j) 32))
        let zero := fun (j : Nat) => (slice xs (32 * j) 32).all (fun y => magOf 9 y == 0)
        let out := xs.zipIdx.map (fun e =>
          let sc := scales.getD (e.2 / 32) (0, false)
          let y := if sc.2 || ((List.range 64).map zero).getD (e.2 / 32) false then (0, 0) else mxPack v.df v.ctl sc.1 e.1
          if r.on v.mask.toNat e.2 then (some y.1, y.2) else (none, 0))
        let bad := r.vecPoison 9 v.va.toNat || r.maskPoison v.mask.toNat
        ((r.putElems v.df v.vd.toNat (out.map (·.1)) bad).putElems 5 (v.vd.toNat + 1)
          (scales.map (fun sc => some sc.1) ++ List.replicate 1984 (some 0)) bad).raise
          (out.foldl (fun a e => a ||| e.2) (if scales.any Prod.snd then flInvalid else 0))),
      (.rsum d x, 0x50, reduce .sum false), (.rmax d x, 0x51, reduce .max false), (.rmin d x, 0x52, reduce .min false),
      (.rsumc d x, 0x53, reduce .sum true), (.rmaxc d x, 0x54, reduce .max true), (.rminc d x, 0x55, reduce .min true),
      (.vperm d x, 0x60, fun v r => writeLanes r v (fun i => (r.elems v.sf v.va.toNat).getD
        (Config.permIndex w i ((r.elems v.sf v.vb.toNat).getD i 0) % 2048) 0) (both v r)),
      (.vrev d x, 0x61, fun v r => writeLanes r v (fun i => (r.elems v.sf v.va.toNat).reverse.getD i 0)
        (r.vecPoison v.sf v.va.toNat)),
      (.vshl d x, 0x62, fun v r => writeLanes r v (fun i =>
        if 0 ≤ (i : Int) - Config.shiftDistance w ∧ (i : Int) - Config.shiftDistance w < 2048 then
          (r.elems v.sf v.va.toNat).getD ((i : Int) - Config.shiftDistance w).toNat 0
        else Config.shiftFill w i) (r.vecPoison v.sf v.va.toNat)),
      (.smov d x, 0x70, fun v r => r.putScalar v.sd (r.scalar v.va.toNat) (r.scalarPoison v.va.toNat)),
      (.sadd d x, 0x71, scal addF (· + ·)), (.smul d x, 0x72, scal mulF (· * ·)),
      (.sget d x, 0x73, fun v r => r.putScalar v.sd
        (BitVec.ofNat 64 ((r.elems v.sf v.va.toNat).getD (Config.getIndex w % 2048) 0)) (r.vecPoison v.sf v.va.toNat)),
      (.pub d x, 0x77, fun v r => { r with pubs := (Config.pubInput w % 4, r.scalar v.va.toNat) :: r.pubs }) ]
      : List (Instr × Nat × (VeWord → VeRun → VeRun))) →
  Issues s d x w u r → v.op.toNat = op → r.pc + 1 < progLimit x.upd →
  exec c s = .next (setVeRun (countCycles u d.val x.upd 1) d.val x.upd
    { f v r with pc := r.pc + 1, cycles := r.cycles + 1, lines := [] })

/-- O44 (04_vector_engine.md (R90, R91, R94), 08_isroum_base_fabric.md (R191, R193)). A load writes the unmasked
elements of its bytes to VD and uses the region's lines; a store writes the bytes of unmasked elements, or nothing
where one faults. When a context's next word is a load whose bytes are there, the unmasked elements of VD take them,
poisoned by any poisoned word, address or mask; each line of another die that the region held becomes the latest
used and counts as a hit. When it is a store of which no piece faults and whose merged bytes are there, the bytes of
its unmasked elements are written piece by piece in ascending order, with the register's poison, and a word of which
a byte was merged keeps its marking; of masked elements none. An address that faults ends the program with the
fault's status and DETAIL, and stores nothing; in the update context it ends the request. The half forms move the
elements, at the offsets, that the word gives: free values of the model (log 24). -/
def Obligations.VeMemoryMoved : Prop :=
  ∀ (d : Die) (x : VeCtx) (s u : State) (w : Word) (r : VeRun),
  let upd := x.upd
  let v := veDecode w
  let k := v.mask.toNat
  let go := fun (t : State) (y : VeRun) => setVeRun (countCycles t d.val upd 1) d.val upd
    { y with pc := r.pc + 1, cycles := r.cycles + 1, lines := [] }
  let fault := fun (a : Nat) (q : Place) => faultVe u d.val upd r a q
  let one := fmtBytes v.df 1
  let half := fun (i : Nat) => (memAddr r v + Config.halfOffset w i) % 2 ^ 56
  Issues s d x w u r → r.pc + 1 < progLimit upd →
  (∀ (strided : Bool) (load store : Instr),
    let ps := (memPieces strided r v).1
    let n := (memPieces strided r v).2
    let len := fmtBytes v.df n
    let on := fun (first i : Nat) => decide (i < n) && r.on k (first + i)
    let merging := (ps.filter (fun q => !(mergedBytes v.df n (on q.2)).isEmpty)).map (fun q => (q.1, len))
    let pz := r.vecPoison v.df v.va.toNat || addrPoison strided r v || r.maskPoison k
    ((strided = false ∧ load = .vld d x ∧ store = .vst d x) ∨ (strided = true ∧ load = .vlds d x ∧ store = .vsts d x)) →
    (v.op.toNat = (if strided then 5 else 1) →
      (∀ data poison, veGetAll u d.val upd (ps.map (fun q => (q.1, len))) = .bytes data poison →
        exec load s = .next (go (veTouch u d.val upd (ps.map (fun q => (q.1, len)))) (r.putElems v.df v.vd.toNat
          ((ps.zipIdx.flatMap (fun q => unpackElems v.df n (slice data (q.2 * len) len))).zipIdx.map
            (fun e => if r.on k e.2 then some e.1 else none)) (poison || addrPoison strided r v || r.maskPoison k))))
      ∧ (∀ a q, veGetAll u d.val upd (ps.map (fun q => (q.1, len))) = .bad a q → exec load s = .next (fault a q)))
    ∧ (v.op.toNat = (if strided then 6 else 2) →
      (∀ data poison, ps.findSome? (fun q => slotFault u q.1 len) = none →
        veGetAll u d.val upd merging = .bytes data poison →
        exec store s = .next (go (ps.foldl (fun t q =>
          let old := match veGet t d.val upd q.1 len with
            | .bytes b _ => b
            | _ => []
          let kept := keptMarks t d.val upd q.1 (mergedBytes v.df n (on q.2))
          (byteRuns 0 (storeMerge v.df (slice (r.elems v.df v.va.toNat) q.2 n) (on q.2) old) none).foldl
            (fun t run => vePutMarked t d.val (writerTag r upd) (r.queue, r.idx) (q.1 + run.1) run.2
              (fun place => pz || kept.contains place)) t) (veTouch u d.val upd merging))
          { r with poison := r.poison || pz }))
      ∧ (∀ a q, ps.findSome? (fun q => slotFault u q.1 len) = some (a, q) → exec store s = .next (fault a q))))
  ∧ (v.op.toNat = 3 →
    let es := (List.range 2048).filter (Config.halfMoves w)
    exec (.vldh d x) s = .next (match veGetAll u d.val upd (es.map (fun i => (half i, one))) with
      | .bytes data poison => go (veTouch u d.val upd (es.map (fun i => (half i, one))))
          (r.putElems v.df v.vd.toNat ((List.range 2048).map (fun i =>
          if es.contains i && r.on k i then some (unpackElem v.df (slice data (es.idxOf i * one) one) 0) else none))
          (poison || addrPoison false r v || r.maskPoison k))
      | .wait t => t
      | .bad a q => fault a q))
  ∧ (v.op.toNat = 4 →
    let es := (List.range 2048).filter (fun i => Config.halfMoves w i && r.on k i)
    let pz := r.vecPoison v.df v.va.toNat || addrPoison false r v || r.maskPoison k
    exec (.vsth d x) s = .next (match es.findSome? (fun i => slotFault u (half i) one) with
      | none => go (es.foldl (fun t i => vePut t d.val (writerTag r upd) (r.queue, r.idx) (half i)
          (packElems v.df [(r.elems v.df v.va.toNat).getD i 0]) pz) u) { r with poison := r.poison || pz }
      | some (a, q) => fault a q))

/-- O45 (04_vector_engine.md (R87, R88, R91, R94), 06_command_processors_and_bells.md (R135)). A VE descriptor starts
its program; a program branches, ends, is refused, or passes its limit. In a canonical state, scalars too, a ready
VE descriptor on a die in service whose vector engine is idle starts the program at PROG_ADDR: its arguments stand
in S0 to S7, and every other register reads 0 until written. BR goes to the index its word names, BRZ too where its
scalar is 0, and LOOP at the passes its word makes it (target and passes are free values of the model, log 24); an
index past the last a program may hold ends it refused; BRZ on a poisoned scalar ends the program POISONED. END ends
the program OK, or POISONED where anything in it was. A refused word ends it with its index, whichever command meets
it. A program past VE_PROGRAM_LIMIT, at its END too, ends with its bit set. -/
def Obligations.VeProgramsRun : Prop :=
  (∀ (q : QId) (i : BitVec 32) (s : State) (j : Job),
    let d := queueDie q.val
    s.job q.val i = some j → descType j.words = 2 → j.phase = .ready → (veRun s d false).active = false →
    (s.ve d).hold = none → dieUp s d = true → Inv s → mwf 0 0 (veRun s d false).s = true →
    ∃ t, exec (.veDescriptor q i) s = .next t
      ∧ t = { s with ves := t.ves, queues := t.queues }
      ∧ (veRun t d false).active = true ∧ (veRun t d false).pc = 0 ∧ (veRun t d false).cycles = 0
      ∧ (veRun t d false).prog = wbits (dword j.words 5) 55 0 ∧ (veRun t d false).poison = false
      ∧ (veRun t d false).queue = q.val ∧ (veRun t d false).idx = i
      ∧ (∀ n, n < 8 → (veRun t d false).scalar n = dword j.words (6 + n))
      ∧ (∀ n, 8 ≤ n → (veRun t d false).scalar n = 0)
      ∧ (∀ n, (veRun t d false).reg n = VReg.zero)
      ∧ (∀ k e, 0 < k → (veRun t d false).on k e = false)
      ∧ veRun t d true = veRun s d true)
  ∧ (∀ (d : Die) (x : VeCtx) (s u : State) (w : Word) (r : VeRun),
    let upd := x.upd
    let v := veDecode w
    let n := mget 0 r.loops r.pc
    let goal := Config.branchTarget w r.pc
    let go := fun (y : VeRun) (to_ : Nat) =>
      let z := { y with pc := to_, cycles := r.cycles + 1, lines := [] }
      let t := setVeRun (countCycles u d.val upd 1) d.val upd z
      if progLimit upd ≤ to_ then refuseVe t d.val upd z to_ else t
    let ends := fun (y : VeRun) =>
      let t := countCycles u d.val upd 1
      let z := { y with cycles := r.cycles + 1 }
      if upd then setVeRun t d.val true { z with active := false, lines := [] }
      else if dnum t 0x2040 1 < z.cycles then endMain (sticky t 0xA040 3 d.val) d.val z 0x14 0
      else endMain t d.val z (if z.poison then 1 else 0) 0
    Issues s d x w u r →
      (v.op.toNat = 0x75 → exec (.br d x) s = .next (go r goal))
      ∧ (v.op.toNat = 0x76 → r.scalarPoison v.va.toNat = false → exec (.brz d x) s = .next
        (go r (if r.scalar v.va.toNat = 0 then goal else r.pc + 1)))
      ∧ (v.op.toNat = 0x76 → r.scalarPoison v.va.toNat = true → exec (.brz d x) s = .next (ends { r with poison := true }))
      ∧ (v.op.toNat = 0x74 → exec (.loop d x) s = .next
        (if Config.loopTaken w n then go { r with loops := mput 0 r.loops r.pc (n + 1) } goal
          else go { r with loops := mput 0 r.loops r.pc 0 } (r.pc + 1)))
      ∧ (v.op.toNat = 0x78 → exec (.veEnd d x) s = .next (ends r)))
  ∧ (∀ (d : Die) (x : VeCtx) (s t : State) (w : Word) (p : Bool),
    let r := if p then { veRun t d.val x.upd with poison := true } else veRun t d.val x.upd
    veFetch (readErrs s x.words) d.val x.upd = .word t w p → veRefused x.upd (veDecode w) = true →
      exec (.veEnd d x) s = .next (refuseVe t d.val x.upd r r.pc)
      ∧ exec (.veNop d x) s = .next (refuseVe t d.val x.upd r r.pc)
      ∧ exec (.fadd d x) s = .next (refuseVe t d.val x.upd r r.pc))
  ∧ (∀ (d : Die) (s : State),
    let r := veRun s d.val false
    r.active = true → dnum s 0x2040 1 < r.cycles →
    exec (.veProgramLimitExceeded d) s = .next (endMain (sticky s 0xA040 3 d.val) d.val r 0x14 0))

/-- O46 (04_vector_engine.md (R91, R94, R96 to R99, Tables 4.6, 4.7)). A fixed kernel computes its rows from its
parameter block, alone or in blocks of 128 after the tiles they need. When the word of an unchained program in the
main context is a kernel, with no instruction before it, its parameter block named by S0 to S7 at a multiple of 64
in the die's own tier and not refused, and only its last row is left, with its operands there and no fault in what
it writes: the row's results are stored, its cycles and flags are counted, and the program ends. A chained kernel's
word is judged, and CHAINED_BLOCK_START runs the row so once the rows before it have been emitted. A block that is
refused ends the program with index 0. -/
def Obligations.KernelRowsRun : Prop :=
  ∀ (d : Die) (errs : List ReadErr) (regs : List RegErr) (s u : State) (w : Word) (r : VeRun) (k : Kernel) (c : Instr),
  let s0 := readErrs s errs
  let chained := kernelChained s0 d.val
  let t := (fileErrs d.val regs u).1
  let v := veDecode w
  let a := memAddr r v
  let n := leNat (readBytes t (addrKey a) 64)
  let b := if chained then { kBlock n with xFmt := 9 } else kBlock n
  let pz := (fileErrs d.val regs u).2 || rangePoison t (addrKey a) 64 || r.scalarPoison v.vc.toNat
  let r' := { r with poison := r.poison || pz }
  let t0 := veTouch t d.val false [(a, 64)]
  let row := ((t.job r.queue r.idx).map Job.nextOff).getD 0
  let res := kPut k b (veTouch t0 d.val false (kReads k b row)) d.val (writerTag r' false) (r.queue, r.idx) row pz
    (kRow k b t0 d.val row)
  let m := kCycles k b
  let counted := (countCycles res.1 d.val false m).modJob r.queue r.idx (fun j => { j with nextOff := row + 1 })
  let ended := endOk (countCycles counted d.val false 0) d.val
    ({ r' with cycles := r.cycles + m, lines := [], poison := r'.poison || res.2.2 }.raise res.2.1)
  ((k = .normF ∧ c = .knormf ⟨d, errs, regs⟩) ∨ (k = .normB ∧ c = .knormb ⟨d, errs, regs⟩) ∨
    (k = .smaxF ∧ c = .ksmaxf ⟨d, errs, regs⟩) ∨ (k = .smaxB ∧ c = .ksmaxb ⟨d, errs, regs⟩)) →
  Issues s d { upd := false, words := errs, regs := [] } w u r → v.op.toNat = k.op →
  r.pc = 0 → v.vc.toNat ≤ 7 → a % 64 = 0 → tierFault t d.val a 64 = none →
  (kRefused k n = true → exec c s = .next (refuseVe u d.val false r 0))
  ∧ (kRefused k n = false → b.rows = row + 1 →
    (∀ data q, veGetAll t0 d.val false (kReads k b row) = .bytes data q →
      (kWrites k b row).findSome? (fun e => slotFault t0 e.1 e.2) = none →
      (chained = false → exec c s = .next ended)
      ∧ (chained = true → rowsEmitted s0 r.queue r.idx = true →
        exec c s = .next (setVeRun t0 d.val false r') ∧ exec (.chainedBlockStart ⟨d, errs, regs⟩) s = .next ended)))

/-- O47 (04_vector_engine.md (R100 to R103, Tables 4.8, 4.9), 05_training_path.md (R116, R117, R119),
08_isroum_base_fabric.md (R195)). An update request starts at its bell, applies its algorithm block by block, and
ends. The next request of a lane whose bell has reached its value starts, where its slice is whole, its block is not
refused and no range it writes is frozen; a poisoned slice ends it POISONED, unapplied, and a refused block or a
frozen range with UPDATE_FAULT. A running request under a fixed algorithm applies it to each of its 32 blocks whose
operands are there: its last block ends the command, and an earlier one goes on as the command does from the next. A
user program is started on a block's operands, on the last of which the slice is freed, and its results are stored
once it has ended. A wait past BELL_TIMEOUT ends the request with its bell. -/
def Obligations.UpdatesApplied : Prop :=
  (∀ (d : Die) (errs : List ReadErr) (s : State) (u : UpdReq) (rest : List UpdReq),
    let s0 := readErrs s errs
    let t := acquire s0 d.val
    s0.lane d.val = u :: rest → u.running = false → (s0.ve d.val).hold = none → dieUp s0 d.val = true →
    updValue u ≤ s0.bell (updBell u) →
      (u.poisoned = true → exec (.updateRequestStart ⟨d, errs⟩) s = .next
        (finish (sticky (freeSlice (nextUpdate t d.val rest) d.val) 0xA040 5 d.val) u.queue u.idx 0x01 0))
      ∧ (∀ data pz, u.poisoned = false → updParam t d.val u = .bytes data pz →
        let n := leNat data
        let t2 := veTouch t d.val true [(updParamAddr u, 128)]
        let frozen := (updTensors u (uBlock n) (List.range (min 128 u.rows))).any (meetsFrozen t2)
        (uRefused n = true → exec (.updateRequestStart ⟨d, errs⟩) s = .next
          (failUpdate (sticky t2 0xA040 2 d.val) d.val 0 false))
        ∧ (uRefused n = false → frozen = true → exec (.updateRequestStart ⟨d, errs⟩) s = .next
          (failUpdate (sticky t2 0xA050 3 d.val) d.val 0 false))
        ∧ (uRefused n = false → frozen = false → exec (.updateRequestStart ⟨d, errs⟩) s = .next
          (t2.setLane d.val ({ u with running := true, block := 0, loaded := false } :: rest)))))
  ∧ (∀ (d : Die) (s : State) (u : UpdReq) (rest : List UpdReq), s.lane d.val = u :: rest → u.running = false →
    s.bell (updBell u) < updValue u → dnum s 0x2060 2 * 1024 ≤ (clock s - u.at_).toNat →
      exec (.updateWaitTimeout d) s = .next (finish (sticky (freeSlice (nextUpdate s d.val rest) d.val) 0xA060 2 d.val)
        u.queue u.idx 0x1A (updBell u)))
  ∧ (∀ (d : Die) (errs : List ReadErr) (regs : List RegErr) (s : State) (u : UpdReq) (rest : List UpdReq)
      (data rd : List Byte) (pz q : Bool) (c again : Instr) (algo : Nat),
    let s0 := readErrs s errs
    let t := (fileErrs d.val regs s0).1
    let spoiled := (fileErrs d.val regs s0).2
    let t2 := veTouch t d.val true [(updParamAddr u, 128)]
    let b := uBlock (leNat data)
    let x := updData t2 d.val u b
    let out := updCompute b x
    let bad := (spoiled || pz) || x.pg || x.pw || x.pm || x.pv
    let after := updPut (veTouch t2 d.val true (updReads u b)) d.val u b (out.map (List.map UElem.w))
      (out.map (List.map UElem.m)) (out.map (List.map UElem.v)) bad bad bad
      (out.foldl (fun f row => row.foldl (fun f e => f ||| e.fp) f) x.fp) (updCycles b)
    t.lane d.val = u :: rest → u.running = true → (t.ve d.val).hold = none → dieUp t d.val = true → u.block < 32 →
    updParam t d.val u = .bytes data pz → veGetAll t2 d.val true (updReads u b) = .bytes rd q →
    (updWrites u b).findSome? (fun e => slotFault t2 e.1 e.2) = none →
    ((c = .updateSgd ⟨d, errs, regs⟩ ∧ again = .updateSgd ⟨d, [], []⟩ ∧ algo = 0)
      ∨ (c = .updateSgdMomentum ⟨d, errs, regs⟩ ∧ again = .updateSgdMomentum ⟨d, [], []⟩ ∧ algo = 1)
      ∨ (c = .updateAdamw ⟨d, errs, regs⟩ ∧ again = .updateAdamw ⟨d, [], []⟩ ∧ algo = 2)) → b.algo = algo →
    (u.block = 31 → exec c s = .next after)
    ∧ (u.block < 31 → exec c s = .next (updBlocks d.val algo spoiled (31 - u.block) after))
    ∧ (u.block < 31 → spoiled = false → exec c s = exec again after))
  ∧ (∀ (d : Die) (errs : List ReadErr) (s : State) (u : UpdReq) (rest : List UpdReq) (data rd : List Byte) (pz q : Bool),
    let t := readErrs s errs
    let t2 := veTouch t d.val true [(updParamAddr u, 128)]
    let b := uBlock (leNat data)
    let r := veRun t2 d.val true
    let x := updData t2 d.val u b
    t.lane d.val = u :: rest → u.running = true → (t.ve d.val).hold = none → dieUp t d.val = true → u.block < 32 →
    updParam t d.val u = .bytes data pz → veGetAll t2 d.val true (updReads u b) = .bytes rd q →
    (updWrites u b).findSome? (fun e => slotFault t2 e.1 e.2) = none → b.algo = 3 → r.active = false →
      (u.loaded = true → exec (.updateUserProgram ⟨d, errs⟩) s = .next (updPut t2 d.val u b (updUnreg u r 49) (updUnreg u r 50)
        (updUnreg u r 51) (pz || r.vecPoison 9 49) (pz || r.vecPoison 9 50) (pz || r.vecPoison 9 51) r.fp.toNat 0))
      ∧ (u.loaded = false →
        let clean : VeRun :=
          { r with active := true, queue := u.queue, idx := u.idx, prog := b.prog, pc := 0, cycles := 0, fp := BitVec.ofNat 8 x.fp,
                   poison := false, vw := [], sw := [], mw := [], loops := [], pubs := [], lines := [] }
        let ready := setVeRun (veTouch t2 d.val true (updReads u b)) d.val true
          (updReg (updReg (updReg (updReg clean 48 x.g (pz || x.pg)) 49 x.w (pz || x.pw)) 50 x.m (pz || x.pm)) 51 x.v
            (pz || x.pv))
        (u.block < 31 → exec (.updateUserProgram ⟨d, errs⟩) s = .next
          (ready.setLane d.val ({ u with loaded := true, freed := false } :: rest)))
        ∧ (u.block = 31 → exec (.updateUserProgram ⟨d, errs⟩) s = .next
          ((freeSlice ready d.val).setLane d.val ({ u with loaded := true, freed := true } :: rest)))))

/-- O48 (14_host_interface.md (R319, R320, Table 14.2)). BAR0 reads its map and faults elsewhere; BAR2 writes and reads
the store of a die, or faults. A mapped offset of BAR0 reads its word and a write through this row leaves it; a
reserved offset reads 0, a write there is dropped, and either sets 0xA0D0:04. A BAR2 write whose range is in a
store, of the hub or, from boot complete on, of a die, puts the bytes there unmarked, and a read of the same range
then returns them, its words that carry poison counted; of any other range a write is dropped and a read is refused,
and 0xA0D0:04 is set, with 0xA070:07 for a hole. Nothing else changes but what the access's reads find in error. -/
def Obligations.BarAccessesServed : Prop :=
  (∀ (off : BitVec 24) (s : State),
    let base := off.toNat / 8 * 8
    hubOn s = true →
    (bar0Mapped base = true → exec (.bar0ReservedAccess off true) s = .next s
      ∧ exec (.bar0ReservedAccess off false) s = .next (emit s (.bar0 (BitVec.ofNat 64 (bar0Word s base)))))
    ∧ (bar0Mapped base = false → exec (.bar0ReservedAccess off true) s = .next (sticky s 0xA0D0 4 0)
      ∧ exec (.bar0ReservedAccess off false) s = .next (emit (sticky s 0xA0D0 4 0) (.bar0 0))))
  ∧ (∀ (off : BitVec 41) (l : List Byte) (n : Nat) (errs : List ReadErr) (s : State),
    let die := off.toNat / 2 ^ 37
    let o := off.toNat % 2 ^ 37
    let u := readErrs s errs
    let stored := storeBytes u (cellKey die o) l (fun _ => false)
    let early := (die < 8 ∧ u.boot.complete = false)
    let hole := fun (p : Option (Nat × Place)) => match p with | some (_, .hole d) => sticky u 0xA070 7 d | _ => u
    hubOn s = true → hubOn u = true →
    (faultIn u die o l.length = none → ¬early → Memory.wf u.mem = true →
      exec (.bar2Access off n ⟨some l, errs⟩) s = .next stored
      ∧ exec (.bar2Access off l.length ⟨none, []⟩) stored =
        .next (emit (carryRead stored (cellKey die o) l.length) (.bar2 (some l))))
    ∧ (∀ p, faultIn u die o l.length = p → (p ≠ none ∨ early) →
      exec (.bar2Access off n ⟨some l, errs⟩) s = .next (sticky (hole p) 0xA0D0 4 0)
      ∧ exec (.bar2Access off l.length ⟨none, errs⟩) s = .next (emit (sticky (hole p) 0xA0D0 4 0) (.bar2 none))))

/-- O49 (14_host_interface.md (R317, R322, R323, R326, R327, Table 14.5), 17_boot_security_reset.md (R369)). Vectors
open, the function's state changes, host reads complete or fail, and the link goes down, trains and resets the
function. Unmasking a vector delivers its pending raise once. With no issued descriptor, a change of bus mastering,
power state, mask or link takes effect and then delivers the one raise that waits, if the function can; a write that
bus mastering had held goes out when it is on again. A training below x16 or 64 GT/s sets 0xA0D0:02, and one after
the first is counted. The bytes of the one outstanding read are counted and kept; when they are whole a fetched
descriptor is kept with its marking; a completion with UR or CA or a timeout ends a copy with HOST_READ_ERROR and
its address. Link loss sets 0xA0D0:01, fails what needs the host, and stops a queue with a ring in host memory. A
function-level reset disables every queue, keeps an issued descriptor with its completion ring, and resets the
function; PERST_N does so too, with the link down. -/
def Obligations.HostFunction : Prop :=
  (∀ (v : Fin 2048) (s : State),
    let h := s.host
    let e := mget MsixEntry.init h.msix v.val
    let open_ := mput MsixEntry.init h.msix v.val { e with masked := false }
    hubOn s = true →
    (hostReady s = true → h.msixEnable = true → h.fnMask = false → mget false h.pba v.val = true →
      exec (.msixUnmask (some v)) s = .next (bump (emit
        { s with host := { h with msix := open_, pba := mput false h.pba v.val false } } (.msix v.val e.addr e.data)) 0x80D0 4 1))
    ∧ (mget false h.pba v.val = false → exec (.msixUnmask (some v)) s = .next { s with host := { h with msix := open_ } }))
  ∧ (∀ (s : State) (v : Nat) (on : Bool) (width rate : Byte),
    let h := s.host
    let resumed := fun (t : State) =>
      let e := mget MsixEntry.init t.host.msix v
      if vectorOpen t v then bump (emit { t with host := { t.host with pba := [] } } (.msix v e.addr e.data)) 0x80D0 4 1 else t
    let trained : State := if h.width = 0 then s else bump s 0x80D0 3 1
    let up : State := { trained with host := { h with linkUp := true, width := width, rate := rate, perst := false } }
    hubOn s = true → s.queues.all (fun e => e.2.jobs.isEmpty) = true →
    (∀ w, h.pba = [] → h.held = [w] → h.linkUp = true → h.d3hot = false → exec (.busMasterEnable true) s = .next
      (postHost { s with host := { h with busMaster := true, held := [] } } w.addr w.data w.ep w.relaxed))
    ∧ (h.held = [] → h.pba = [(v, true)] →
      exec (.busMasterEnable on) s = .next (resumed { s with host := { h with busMaster := on } })
      ∧ exec (.powerStateChange on) s = .next (resumed { s with host := { h with d3hot := on } })
      ∧ exec (.msixUnmask none) s = .next (resumed { s with host := { h with fnMask := false, msixEnable := true } })
      ∧ (16 ≤ width.toNat → 6 ≤ rate.toNat → exec (.hostLinkTrained width rate) s = .next (resumed up)))
    ∧ (h.held = [] → h.pba = [] → width.toNat < 16 ∨ rate.toNat < 6 →
      exec (.hostLinkTrained width rate) s = .next (sticky up 0xA0D0 2 0)))
  ∧ (∀ (s : State) (r : HostRead) (ep : Bool) (data : List Byte) (c : Instr),
    let h := s.host
    let done : State := { s with host := { h with reads := [] } }
    h.reads = [r] →
    (∀ q i, r.use = .fetch q i → r.got = [] → r.marks = [] → r.len = 128 → data.length = 128 →
      (s.queue q).fetched.any (fun f => f.idx == i) = false →
      exec (.hostReadCompletion r.tag .sc ep data) s = .next (takeDescriptor (bump done 0x80D0 1 128) q
        { idx := i, words := wordsFrom 16 data, poison := if ep then some 0 else none }))
    ∧ ((∀ q i off, r.use ≠ .copy q i off) → r.got.length + data.length < r.len →
      exec (.hostReadCompletion r.tag .sc ep data) s = .next (bump { s with host := { h with reads :=
        [{ r with got := r.got ++ data, marks := r.marks ++ List.replicate data.length ep }] } } 0x80D0 1 data.length))
    ∧ ((c = .hostReadCompletion r.tag .ur ep data ∨ c = .hostReadCompletion r.tag .ca ep data ∨ c = .hostReadTimeout r.tag) →
      ∀ q i off, r.use = .copy q i off →
        exec c s = .next (failJob (sticky done 0xA0D0 3 0) q i 0x40 (bitsOf r.addr 43 12)))
    ∧ (∀ tag, tag ≠ r.tag → exec (.hostReadTimeout tag) s = .next s ∧ exec (.hostReadCompletion tag .sc ep data) s = .next s))
  ∧ (∀ (s : State) (q : Nat) (x : Queue),
    let down := sticky { s with host := { s.host with linkUp := false, held := [] } } 0xA0D0 1 0
    let failed := failHostJobs down q
    let y := failed.queue q
    hubOn s = true → s.host.linkUp = true → s.host.reads = [] → s.queues = [(q, x)] → failed.host.reads = [] →
    exec .hostLinkDown s = .next
      (if y.ringBase.getLsbD 63 || y.cqBase.getLsbD 63 then stopQueue failed q y.head else failed))
  ∧ (∀ (s : State),
    let h := s.host
    let reset : HostIf := { HostIf.init with
      width := h.width, rate := h.rate, nextTag := h.nextTag, mbxStatus := h.mbxStatus, mbxDone := h.mbxDone,
      reqLen := h.reqLen, reqBuf := h.reqBuf, rspBuf := h.rspBuf }
    hubOn s = true → Inv s → s.queues.all (fun e => e.2.jobs.isEmpty) = true →
    (∃ t, exec .functionLevelReset s = .next t ∧ (∀ q, t.queue q = Queue.init)
      ∧ t.host = { reset with linkUp := h.linkUp, perst := h.perst })
    ∧ (h.reads = [] → ∃ t, exec .perstN s = .next t ∧ (∀ q, t.queue q = Queue.init)
      ∧ t.host = { reset with linkUp := false, perst := true }))
  ∧ (∀ (s : State) (q : Nat) (x : Queue) (j : Job), hubOn s = true → s.queues = [(q, x)] → x.jobs = [j] → j.cqOld = none →
    usesHost j.words = false → x.watch = none →
    ∃ t, exec .functionLevelReset s = .next t
      ∧ t.queue q = { Queue.init with jobs := [{ j with cqOld := some (x.cqBase, x.cqLog2, x.cqTail) }] })

/-- O50 (16_power_and_thermal.md (R352, R353, R356 to R359, Tables 16.4, 16.5, 16.10), 18_electrical_and_mechanical.md
(R390)). Input stops, domain faults and latches switch off; the power and current caps and the stretch stages move
by their rules. A stop of a good input turns every domain off, records its cause, and leaves flash, fuses and the
waiting commands only. A faulting domain sets its bit and goes off: domains 24 to 26 and 28 fail the module, others
retire the stacks of Table 16.4. An open latch faults its bank's LASER domain. An input outside 46 to 56 V sets
0xA010:0C. Every 100 µs the power cap falls by 4 steps over 2,600 W or 50 A, by 1 over the limit, not below 16, and
rises by 1 after the hold below 97% of it, and the energy of the interval is added with what was left over; every
100 µs the current cap falls by 1 above 95% of the path limit and rises by 1 after ten checks below 90%. A droop
raises the stretch level, is counted and accounts the time lost; a release lowers it one level. -/
def Obligations.PowerStopsAndCaps : Prop :=
  (∀ (s : State) (c : Instr) (cause : Byte),
    ((c = .undervoltageStop ∧ cause = 1) ∨ (c = .overvoltageStop ∧ cause = 2) ∨ (c = .inputOvercurrentStop ∧ cause = 3)) →
    s.stage.inputGood = true →
    ∃ t, exec c s = .next t ∧ t.stage = { s.stage with domains := 0, inputGood := false, lastStop := cause }
      ∧ t = { State.reset with pending := s.pending, free := t.free, out := s.out, stage := t.stage, fuses := s.fuses, flash := t.flash }
      ∧ (s.mgmt.store = none → s.boot.update ≠ 2 → t.flash = s.flash))
  ∧ (∀ (s : State) (d : Fin 30),
    let s1 := if loaded s then sticky s 0xA010 13 d.val else s
    domainOn s d.val = true →
    (d.val ∈ [24, 25, 26, 28] → ∃ t, exec (.domainFault d) s = .next t
      ∧ t.stage = { s.stage with domains := 0, lastStop := 4, moduleFailed := true } ∧ t.mem = [] ∧ t.queues = [])
    ∧ (d.val ∉ [24, 25, 26, 28] →
      let retired := if d.val < 24 then [d.val % 8] else if d.val = 27 ∨ d.val = 29 then [2, 3, 6, 7] else []
      let u := retired.foldl retireStack s1
      ∃ t, exec (.domainFault d) s = .next t ∧ t = { u with stage := { u.stage with domains := t.stage.domains } }
        ∧ ∀ k, t.stage.domains.getLsbD k = (u.stage.domains.getLsbD k && k != d.val && !(d.val == 27 && k == 29))))
  ∧ (∀ (s : State) (b : Fin 2),
    let s' : State := { s with stage := { s.stage with latch := s.stage.latch &&& ~~~(BitVec.ofNat 2 (2 ^ b.val)) } }
    (domainOn s (28 + b.val) = false → exec (.laserLatchOpen b) s = .next s')
    ∧ (∀ d : Fin 30, d.val = 28 + b.val → domainOn s d.val = true →
      ∃ t, exec (.laserLatchOpen b) s = .next t ∧ exec (.domainFault d) s' = .next t ∧ domainOn t d.val = false))
  ∧ (∀ (s : State) (mv : Nat), loaded s = true →
    exec (.inputOutOfRange mv) s = .next (if 46000 ≤ mv ∧ mv ≤ 56000 then dset s 0x6000 1 (ratF32 mv 1000)
      else sticky (dset s 0x6000 1 (ratF32 mv 1000)) 0xA010 12 0))
  ∧ (∀ (s : State) (meanW ms ma : Nat),
    let r := ran s ckPower (clock s)
    let e := s.power.energy + ms
    let p : Power := { r.power with energy := e % 10 }
    let limit := dnum s 0x6001 1
    let put := fun (x : Power) =>
      ({ bump (dset r 0x6000 3 (ratF32 meanW 1)) 0x6000 5 (e / 10) with power := x } : State)
    let fall := fun (n : Nat) =>
      let t := put { p with cap := max 16 (p.cap - n), okAt := none }
      if 16 < s.power.cap then sticky t 0xA010 11 0 else t
    loaded s = true → Inv s → checkDue s ckPower 100000 = true →
    ((2600 < ms ∨ 50000 < ma) → exec (.powerCapCheck meanW ms ma) s = .next (fall 4))
    ∧ (ms ≤ 2600 → ma ≤ 50000 →
      (limit < meanW → exec (.powerCapCheck meanW ms ma) s = .next (fall 1))
      ∧ (meanW ≤ limit → limit * 97 ≤ meanW * 100 → exec (.powerCapCheck meanW ms ma) s = .next (put { p with okAt := none }))
      ∧ (meanW ≤ limit → meanW * 100 < limit * 97 →
        (p.okAt = none → exec (.powerCapCheck meanW ms ma) s = .next (put { p with okAt := some (clock s) }))
        ∧ (∀ x, p.okAt = some x → (clock s - x).toNat < dnum s 0x6001 2 * 1000000 →
          exec (.powerCapCheck meanW ms ma) s = .next (put p))
        ∧ (∀ x, p.okAt = some x → dnum s 0x6001 2 * 1000000 ≤ (clock s - x).toNat →
          exec (.powerCapCheck meanW ms ma) s = .next (put { p with cap := min 64 (p.cap + 1), okAt := some (clock s) })))))
  ∧ (∀ (s : State) (d : Die) (ma : Nat),
    let t := s.therm d.val
    let r := ran s (ckCurrent d.val) (clock s)
    let limit := pathLimitMa s d.val
    dieUp s d.val = true → checkDue s (ckCurrent d.val) 100000 = true →
    (limit * 95 < ma * 100 → exec (.currentCapCheck d ma) s = .next
      (r.setTherm d.val { t with capCur := max 16 (t.capCur - 1), upCur := 0 }))
    ∧ (limit * 90 ≤ ma * 100 → ma * 100 ≤ limit * 95 → exec (.currentCapCheck d ma) s = .next
      (r.setTherm d.val { t with upCur := 0 }))
    ∧ (ma * 100 < limit * 90 → t.upCur < 9 → exec (.currentCapCheck d ma) s = .next
      (r.setTherm d.val { t with upCur := t.upCur + 1 }))
    ∧ (ma * 100 < limit * 90 → 9 ≤ t.upCur → exec (.currentCapCheck d ma) s = .next
      (r.setTherm d.val { t with capCur := min 64 (t.capCur + 1), upCur := 0 })))
  ∧ (∀ (s : State) (d : Die9) (mv : Nat) (ps : Int) (l : Nat),
    let x := mget Stretch.init s.stretch d.val
    let lost := (dcell s 0x6051 (d.val + 1) + (if x.level = 1 then (clock s - x.since).toNat / 9
      else if x.level = 2 then (clock s - x.since).toNat / 5 else 0)) % 2 ^ 64
    unitUp s d.val = true → Inv s → mwf Stretch.init 0 s.stretch = true →
    (l = (if mv < 755 then 2 else if mv < 775 ∨ ps < 8 then 1 else 0) →
      (x.level < l → ∃ t, exec (.droopDetected d mv ps) s = .next t ∧ t = { s with dict := t.dict, stretch := t.stretch }
        ∧ mget Stretch.init t.stretch d.val = { level := l, since := clock s } ∧ dcell t 0x6051 (d.val + 1) = lost
        ∧ dcell t 0x6050 (d.val + 1) = (dcell s 0x6050 (d.val + 1) + 1) % 2 ^ 64)
      ∧ (l ≤ x.level → exec (.droopDetected d mv ps) s = .next s))
    ∧ (((x.level = 2 ∧ 765 < mv ∧ l = 1) ∨ (x.level = 1 ∧ 785 < mv ∧ 8 ≤ ps ∧ l = 0)) →
      ∃ t, exec (.stretchRelease d mv ps) s = .next t ∧ t = { s with dict := t.dict, stretch := t.stretch }
        ∧ mget Stretch.init t.stretch d.val = { level := l, since := clock s } ∧ dcell t 0x6051 (d.val + 1) = lost
        ∧ (l = 1 → dcell t 0x6050 (d.val + 1) = (dcell s 0x6050 (d.val + 1) + 1) % 2 ^ 64)))

/-- O51 (16_power_and_thermal.md (R360 to R364), 01_package_and_stacks.md (R20 to R23)). The thermal model follows power
and inlet, sensors are cross-checked, and the thermal cap, the retirement and the path limits follow. In service,
every 10 µs an update filters the power with tau, starting at it, and puts T_model at the higher inlet plus R_j
times it; the governing temperature is the highest trusted reading or, with a suspect, the largest of what is
trusted. Once in a beat a refinement moves a coefficient an eighth of the way, within a quarter of its factory
value, or only clears the throttling mark. Every millisecond, where the outer sensors agree, a reading outside their
bounds eight times in a row is marked suspect, and good readings count none. At T_CRIT the cap falls to 16 steps at
once, and every 100 µs above T_HOT by one, and it rises by one a millisecond 3 K below; still critical after 10 ms
the stack is retired. A survey, once in its interval, records margins, takes a path's cap from its group limits, and
maps out a starved quadrant. -/
def Obligations.ThermalRules : Prop :=
  (∀ (s : State) (d : Die) (mw : Nat) (a b : Int),
    let x := s.therm d.val
    let p : Int := (mw : Int) * 1000
    dieUp s d.val = true → Inv s → checkDue s (ckModel d.val) 10000 = true →
    ∃ t, exec (.thermalModelUpdate d mw a b) s = .next t
      ∧ t = { ran s (ckModel d.val) (clock s) with dict := t.dict, therms := t.therms }
      ∧ (t.therm d.val).started = true
      ∧ (t.therm d.val).pf = (if x.started then x.pf + (p - x.pf) * 10000 / (x.tau : Int) else p)
      ∧ (t.therm d.val).tModel = max a b + (x.rj : Int) * (t.therm d.val).pf / 1000000000
      ∧ (anySuspect s d.val = false → (t.therm d.val).tGov = x.cdMax.getD (t.therm d.val).tModel)
      ∧ (∀ h l, anySuspect s d.val = true → x.cdMax = some h → x.low = some l →
        (t.therm d.val).tGov = max h (max l (t.therm d.val).tModel))
      ∧ (∀ e, e ≠ d.val → t.therm e = s.therm e))
  ∧ (∀ (s : State) (d : Die) (fitR fitTau : Nat),
    let x := s.therm d.val
    let r := refine x.rj fitR 136000
    let k := refine x.tau fitTau 250000
    let run := ran s (ckRefine d.val) (beat s)
    dieUp s d.val = true → mget none s.power.checks (ckRefine d.val) ≠ some (beat s) →
    ((x.throttled = true ∨ anySuspect s d.val = true) →
      exec (.modelRefine d fitR fitTau) s = .next (run.setTherm d.val { x with throttled := false }))
    ∧ (x.throttled = false → anySuspect s d.val = false →
      exec (.modelRefine d fitR fitTau) s = .next (run.setTherm d.val { x with rj := r, tau := k }))
    ∧ 102000 ≤ r ∧ r ≤ 170000 ∧ 187500 ≤ k ∧ k ≤ 312500
    ∧ (102000 ≤ x.rj → x.rj ≤ 170000 → 102000 ≤ fitR → fitR ≤ 170000 → (r : Int) = x.rj + ((fitR : Int) - x.rj) / 8))
  ∧ (∀ (s : State) (d : Die) (r : SensorReading) (lo hi : Int),
    let x := s.therm d.val
    dieUp s d.val = true → Inv s → mwf 0 0 x.fails = true → checkDue s (ckSensor d.val) 1000000 = true →
    r.base.length = 16 → r.tier.length = 16 → r.cd.length = 32 →
    (∀ k < 16, offMedian r.base k = false ∧ offMedian r.tier k = false) →
    dcell s 0x6024 (d.val + 1) = 0 → dcell s 0x6023 (d.val + 1) = 0 →
    lo = (highest r.base).getD 0 - 2000 → hi = (highest r.tier).getD 0 + 110 * (r.mw : Int) / 1000 + 3000 →
    ((∀ k < 32, lo ≤ r.cd.getD k 0 ∧ r.cd.getD k 0 ≤ hi) →
      ∃ t, exec (.sensorCrossCheck d r) s = .next t
        ∧ t = { ran s (ckSensor d.val) (clock s) with therms := t.therms }
        ∧ (t.therm d.val).cdMax = highest r.cd ∧ (t.therm d.val).low = some lo
        ∧ (t.therm d.val).tGov = (highest r.cd).getD 0 ∧ ∀ k < 64, mget 0 (t.therm d.val).fails k = 0)
    ∧ (∀ k < 32, (r.cd.getD k 0 < lo ∨ hi < r.cd.getD k 0) →
      ∃ t, exec (.sensorCrossCheck d r) s = .next t
        ∧ (mget 0 x.fails (32 + k) < 7 → mget 0 (t.therm d.val).fails (32 + k) = mget 0 x.fails (32 + k) + 1)
        ∧ (7 ≤ mget 0 x.fails (32 + k) → dbit t 0x6023 (d.val + 1) k = true)))
  ∧ (∀ (s : State) (d : Die),
    let n := d.val
    let x := s.therm n
    let hot := f32Milli (dnum s 0x6026 1)
    let set := fun (y : Therm) => (ran s (ckThermal n) (clock s)).setTherm n y
    let due := checkDue s (ckThermal n) 100000 = true
    dieUp s n = true →
    let fell := fun (u : State) => if 16 < x.capTh then sticky u 0xA010 8 n else u
    (110000 ≤ x.tGov →
      let y := s.setTherm n { x with capTh := 16, critAt := some (x.critAt.getD (clock s)), coolAt := none, throttled := true }
      exec (.thermalCapCheck d) s = .next (fell (if x.critAt = none then sticky y 0xA010 10 n else y)))
    ∧ (due → hot < x.tGov → x.tGov < 110000 → exec (.thermalCapCheck d) s = .next (fell (set
      { x with capTh := max 16 (x.capTh - 1), critAt := none, coolAt := none, throttled := true })))
    ∧ (due → hot - 3000 ≤ x.tGov → x.tGov ≤ hot → x.tGov < 110000 → exec (.thermalCapCheck d) s = .next
      (set { x with coolAt := none, critAt := none }))
    ∧ (due → x.tGov < hot - 3000 → x.tGov < 110000 →
      (x.coolAt = none → exec (.thermalCapCheck d) s = .next (set { x with coolAt := some (clock s), critAt := none }))
      ∧ (∀ a, x.coolAt = some a → (clock s - a).toNat < 1000000 →
        exec (.thermalCapCheck d) s = .next (set { x with critAt := none }))
      ∧ (∀ a, x.coolAt = some a → 1000000 ≤ (clock s - a).toNat → exec (.thermalCapCheck d) s = .next
        (set { x with capTh := min 64 (x.capTh + 1), coolAt := some (clock s), critAt := none })))
    ∧ (∀ a, x.critAt = some a → 110000 ≤ x.tGov → 10000000 ≤ (clock s - a).toNat →
      exec (.thermalCritTimeout d) s = .next (retireStack s n)))
  ∧ (∀ (s : State) (d : Fin 30) (r : SurveyReading),
    let n := d.val
    let sum := (groupLimits n r.ratios).foldl (· + ·) 0
    let r0 := ran s (ckSurvey n) (clock s)
    let noted := dset (dset r0 0x6040 (n + 1) (ratF32 (r.railMv * 1000 - f32Milli (dnum s 0x6042 (n + 1))) 1000)) 0x6041 (n + 1)
      (ratF32 r.slackPs 1)
    loaded s = true → domainOn s n = true → checkDue s (ckSurvey n) (beats (dnum s 0x6043 2)) = true →
    (26 ≤ n → exec (.marginSurvey d r) s = .next noted)
    ∧ (n < 26 → sum ≤ pathFull n)
    ∧ (16 ≤ n → n < 26 →
      let u : State := { noted with power := { r0.power with lost := mput 0 s.power.lost n (pathFull n - sum) } }
      exec (.marginSurvey d r) s = .next (if mget 0 s.power.lost n < pathFull n - sum then sticky u 0xA010 4 (min n 24) else u))
    ∧ (n < 8 → Inv s → mwf 0 0 s.power.lost = true → ∃ t, exec (.marginSurvey d r) s = .next t
      ∧ mget 0 t.power.lost n = pathFull n - sum ∧ (t.therm n).capPath = max 16 (64 * sum / pathFull n)
      ∧ dcell t 0x3013 (n + 1) = 64 * sum / pathFull n * 21875)
    ∧ (8 ≤ n → n < 16 → ∃ t, exec (.marginSurvey d r) s = .next t
      ∧ ∀ q < 4, (slice (groupLimits n r.ratios) (4 * q) 4).foldl (· + ·) 0 < 5000 * 32 →
        (s.tier (n - 8)).quads.contains q = true → (t.tier (n - 8)).out.getLsbD q = true))

/-- O52 (R387). Each coolant comparison counts a rise above 20 K; ten in a row set 0xA010:0E, which changes no cap. A
comparison runs once a second, and a command that comes earlier changes nothing. It puts COOLANT_RISE to the outlet
mean less the inlet mean. With the tenth of consecutive comparisons with a rise above 20 K, those counted before
among them, the bit of 0xA010:0E is set, once in a run of them (a cleared bit is not set again by the same
condition, R348); a comparison without one starts the count again and sets nothing. No comparison changes a cap, the
power manager's cap, or anything of the thermal managers. -/
def Obligations.CoolantRiseJudged : Prop :=
  (∀ (s : State) (a b c d : Int), loaded s = true → Inv s → checkDue s ckCoolant 1000000000 = true →
    ∃ t, exec (.coolantCheck a b c d) s = .next t ∧ loaded t = true ∧ t.therms = s.therms
      ∧ t.power = { (ran s ckCoolant (clock s)).power with hotRuns := t.power.hotRuns }
      ∧ (∀ e, clockSteps t e = clockSteps s e)
      ∧ mget dictAbsent t.dict (dkey 0x6029 1) = ratF32 (c + d - a - b) 2000
      ∧ (∀ k v, (k, v) ∈ [(1, a), (2, b), (3, c), (4, d)] → mget dictAbsent t.dict (dkey 0x6025 k) = ratF32 v 1000)
      ∧ (c + d - a - b ≤ 40000 → t.power.hotRuns = 0 ∧ dbit t 0xA010 14 0 = dbit s 0xA010 14 0)
      ∧ (40000 < c + d - a - b → s.power.hotRuns ≠ 9 → dbit t 0xA010 14 0 = dbit s 0xA010 14 0))
  ∧ (∀ (s : State) (a b c d : Int), checkDue s ckCoolant 1000000000 = false → exec (.coolantCheck a b c d) s = .next s)
  ∧ (∀ (before after : Nat → State) (a b c d : Nat → Int) (m : Nat), m + (before 0).power.hotRuns = 9 →
    (∀ k ≤ m, loaded (before k) = true ∧ Inv (before k) ∧ checkDue (before k) ckCoolant 1000000000 = true
      ∧ 40000 < c k + d k - a k - b k ∧ exec (.coolantCheck (a k) (b k) (c k) (d k)) (before k) = .next (after k)) →
    (∀ k < m, (before (k + 1)).power.hotRuns = (after k).power.hotRuns) →
    dbit (after m) 0xA010 14 0 = true)

/-- O53 (17_boot_security_reset.md (R367 to R371, R374 to R377, Tables 17.1, 17.3, 17.6, 17.7), 01_package_and_stacks.md
(R26), 07_memory.md (R156, R176)). Power-on and resets run the boot ROM: clocks, image, firmware; boot complete,
firmware update and the recovery loader follow. A reset that RESET_CMD asked for takes effect 10 ms after its reply,
and not before. Power-on, a module reset and one that RESET_CMD asked for clear all but flash, fuses and stage; a
hub reset and a watchdog expiry keep HBM, its marks and the stacks' state. Without both clock vias or the PLL the
hub is dead with its bit set and the loader in state 5; so is one whose twin control groups are both exhausted. An
image that fails its first check leaves the loader in state 2 with its reason, after events 1 and 3. A good image
starts the firmware with its dictionary loaded, unless a laser bank A is missing, as a recovery load does, which
writes the image. A die in service that RESET_CMD names is lost, its copies of the memory record are checked, and it
starts again. Boot complete logs events 7 and 8 and sets 0xA030:0B under DEBUG_ENABLE. A flash write ends with the
new image measured, or torn. The loader reports its state, and a pushed image's reason; one that passes and cannot
be read back leaves the loader waiting with reason 7. -/
def Obligations.StartsAndResets : Prop :=
  (∀ (s base : State) (env : BootEnv) (c : Instr),
    let hbm := fun (k : Nat) => decide (k / 2 ^ 48 < 8) && decide (0x1000000000 ≤ k % 2 ^ 48)
    let off : State := { State.reset with
      pending := s.pending, free := base.free, out := s.out, fuses := s.fuses, flash := base.flash, stage := base.stage }
    let kept : State := { off with
      stackMask := s.stackMask, mem := s.mem.filter (fun e => hbm e.1), poison := s.poison.filter (fun w => hbm (8 * w)),
      tiers := s.tiers, hbms := s.hbms, boot := { Boot.init with watchdog := c == .watchdogExpiry env } }
    let on : BitVec 30 := (if c = .resetCmdHub env ∨ c = .watchdogExpiry env then s.stage.domains else 0) ||| 0x7000000
    let img := base.flash.image
    let why := imageReason s.fuses img base.flash.factory
    (c = .inputGood env ∧ s.stage.inputGood = false ∧ base = off ∧ base.stage = { s.stage with domains := 0, inputGood := true, resetCause := 0 }
      ∨ c = .moduleResetN env ∧ s.stage.inputGood = true ∧ base = off ∧ base.stage = { s.stage with domains := 0, resetCause := 1 }
      ∨ c = .resetCmdModule env ∧ asked s .module = true ∧ base = off ∧ base.stage = { s.stage with domains := 0, resetCause := 1 }
      ∨ c = .resetCmdHub env ∧ asked s .hub = true ∧ base = kept ∧ base.stage = { s.stage with resetCause := 2 }
      ∨ c = .watchdogExpiry env ∧ loaded s = true ∧ base = kept ∧ base.stage = { s.stage with resetCause := 3 }) →
    s.mgmt.store = none → s.boot.update ≠ 2 → base.flash = s.flash → base.free = s.free →
    env.noGood.getLsbD 24 = false → env.noGood.getLsbD 25 = false → env.noGood.getLsbD 26 = false →
    let twins := s.flash.bumpDead.any (fun g => match g with
      | .hubCtl k t => s.flash.bumpDead.contains (.hubCtl k (!t))
      | _ => false)
    (env.viaLost = 3 ∨ env.pllLocked = false → ∃ t, exec c s = .next t
      ∧ t = { base with
        stage := { base.stage with straps := env.straps, moduleFailed := true, domains := on },
        boot := { base.boot with dead := true, rom := 5 }, dict := [(dkey 0xA010 7, 1)] })
    ∧ (env.viaLost ≠ 3 → env.pllLocked = true → twins = true → ∃ t, exec c s = .next t ∧ t = { base with
        stage := { base.stage with straps := env.straps, moduleFailed := true, domains := on },
        boot := { base.boot with dead := true, rom := 5 } })
    ∧ (env.viaLost ≠ 3 → env.pllLocked = true → twins = false → env.flashOk = true → img = s.flash.image → s.flash.imageTorn = false →
      (why ≠ 0 → ∃ t, exec c s = .next t ∧ t.mem = base.mem ∧ t.boot.firmware = false ∧ t.boot.rom = 2 ∧ t.boot.reason = why
        ∧ t.boot.log.map LogEntry.typ = [1, 3] ∧ t.stage.domains = on)
      ∧ (why = 0 → env.noGood.getLsbD 28 = false → env.bankOk.getLsbD 0 = true → s.stage.latch.getLsbD 0 = true →
        ∃ t, exec c s = .next t ∧ t.boot.firmware = true ∧ t.boot.loaded = true ∧ t.boot.complete = false)))
  ∧ (∀ (s : State) (env : BootEnv) (d : Die),
    let bit : Byte := BitVec.ofNat 8 (2 ^ d.val)
    let s1 : State := { s with boot := { s.boot with reset := none }, stage := { s.stage with resetCause := 5 } }
    let kept := (recordStart s1 env [d.val]).1
    let s2 := (recordStart s1 env [d.val]).2
    let gone := dieGone { s2 with dieReset := s2.dieReset ||| bit } d.val false
    let back : State := { gone with dieReset := gone.dieReset &&& ~~~bit }
    hubOn s = true → s.boot.reset = some (.die bit) → 10000000 ≤ (clock s - s.boot.resetAt).toNat →
    s.stackMask.getLsbD d.val = true → env.laneFail = [] →
    (stackBad env d.val = true → exec (.resetCmdDie env) s = .next (retireStack back d.val))
    ∧ (stackBad env d.val = false → exec (.resetCmdDie env) s = .next (ghostAllDirty (startStack env (!kept)
        (startPairs back (fun e => e.1 == d.val || e.2 == d.val)) d.val) d.val)))
  ∧ (∀ (s : State) (env : BootEnv), (clock s - s.boot.resetAt).toNat < 10000000 →
    exec (.resetCmdModule env) s = .next s ∧ exec (.resetCmdHub env) s = .next s ∧ exec (.resetCmdDie env) s = .next s)
  ∧ (∀ (s : State), loaded s = true → s.boot.complete = false → s.boot.log.length < 255 →
    let e7 : LogEntry := { typ := 7, tick := now s, digest := sha512 (natLe 1 (dcell s 0x7004 1)) }
    let e8 : LogEntry := { typ := 8, tick := now s, digest := sha512 [] }
    let t : State := { s with boot := { s.boot with
      complete := true, log := s.boot.log ++ [e7, e8], running := sha512 (sha512 (s.boot.running ++ e7.digest) ++ e8.digest) } }
    exec .bootComplete s = .next (if dcell s 0x7004 1 = 1 then sticky t 0xA030 11 0 else t))
  ∧ (∀ (s : State), loaded s = true → s.boot.update = 2 →
    (s.boot.log.length < 256 → ∃ t, exec (.fwUpdateFlashDone true) s = .next t ∧ t.flash.image = s.boot.pendingImg
      ∧ t.flash.imageTorn = false ∧ t.boot.update = 3
      ∧ t.boot.log = s.boot.log ++ [{ typ := 10, tick := now s, digest := sha512 (s.boot.pendingImg.take 192) }])
    ∧ ∃ t, exec (.fwUpdateFlashDone false) s = .next t ∧ t.flash.imageTorn = true ∧ t.boot.update = 4 ∧ t.boot.reason = 7
      ∧ t.boot.log = s.boot.log)
  ∧ (∀ (s : State) (env : BootEnv) (len : BitVec 32),
    let img := readBytes s (cellKey 8 0) (min len.toNat 8388608)
    let why := imageReason s.fuses img false
    romRuns s = true → s.boot.rom = 2 →
    (why ≠ 0 → ∃ t, exec (.recoveryLoad len env) s = .next t ∧ t.boot = { s.boot with reason := why }
      ∧ t.flash = s.flash ∧ t.host.mbxDone = true ∧ t.host.mbxStatus = 0 ∧ t.host.rspBuf.drop 16 = [2, why])
    ∧ (env.flashOk = false → ∃ t, exec (.recoveryLoad len env) s = .next t
      ∧ if why = 0 then t.boot.rom = 2 ∧ t.boot.reason = 7 ∧ t.flash.imageTorn = true else t.flash = s.flash)
    ∧ (env.flashOk = true → env.noGood.getLsbD 28 = false → env.bankOk.getLsbD 0 = true → s.stage.latch.getLsbD 0 = true →
      ∃ t, exec (.recoveryLoad len env) s = .next t
        ∧ if why = 0 then t.flash.image = img ∧ t.boot.firmware = true ∧ t.boot.loaded = true else t.flash = s.flash))
  ∧ (∀ (s : State), romRuns s = true → s.host.mbxBusy = false → Inv s →
    ∃ t, exec .romStatus s = .next t ∧ t.host.mbxDone = true ∧ t.host.mbxStatus = 0
      ∧ t.host.rspBuf.drop 16 = [s.boot.rom, s.boot.reason] ++ natLe 2 s.fuses.romVersion.toNat)

/-- O54 (01_package_and_stacks.md (R14 to R20, R26, R27, Tables 1.2, 1.3)). A failed bump takes its spare, an exhausted
group acts as Table 1.2 says, a swap ends, and a lost clock via switches or retires. A failure in a live group
brings its spare in, begins the swap and sets the die's bit; a second one exhausts the group: a tier group retires
its port, whose swaps end, and with the partner gone maps the quadrant out; a group of a pseudo-channel, at once for
one with no spare, triggers its retirement; the twin control group of the hub fails the module; an exhausted group's
failures do nothing. A swap that is not behind another of its quadrant ends with the port resumed or the group
exhausted. A first loss of a clock via switches the die to its twin and sets its bit; a second retires the stack, or
fails the module. A retired stack leaves service with its die in reset and its three domains off. -/
def Obligations.BumpsAndClocksRepaired : Prop :=
  (∀ (s : State) (g : BumpGroup), hubOn s = true → groupLive s g = true →
    let used := s.flash.bumpSpared.contains g || spareless g
    (used = false → exec (.bumpFailed g) s = .next (sticky
      { s with flash := { s.flash with bumpSpared := s.flash.bumpSpared ++ [g] }, swaps := s.swaps ++ [g] } 0xA010 1 (groupDie g)))
    ∧ (used = true → s.flash.bumpDead.contains g = true → exec (.bumpFailed g) s = .next s)
    ∧ (used = true → s.flash.bumpDead.contains g = false →
      (∀ d p, groupPort g = some (d, p) → d < 8 → p < 8 → (s.tier d).ports.getLsbD p = true →
        ∃ t, exec (.bumpFailed g) s = .next t ∧ (t.tier d).ports.getLsbD p = false
          ∧ t.flash = { s.flash with bumpDead := s.flash.bumpDead ++ [g] } ∧ t.mem = s.mem ∧ t.queues = s.queues
          ∧ (∀ h, groupPort h = some (d, p) → t.swaps.contains h = false)
          ∧ ((s.tier d).ports.getLsbD (p / 2 * 2 + 1 - p % 2) = false → (s.tier d).quads.contains (p / 2) = true →
            (t.tier d).out.getLsbD (p / 2) = true))
      ∧ (∀ d pc, groupPc g = some (d, pc) → exec (.bumpFailed g) s = .next (triggerRetire { s with
          flash := { s.flash with bumpDead := s.flash.bumpDead ++ [g] }, swaps := s.swaps.filter (· != g) } d pc))
      ∧ (∀ k twin, g = .hubCtl k twin → s.flash.bumpDead.contains (.hubCtl k (!twin)) = true →
        ∃ t, exec (.bumpFailed g) s = .next t ∧ hubOn t = false ∧ t.stage.moduleFailed = true)
      ∧ (∀ k twin, g = .hubCtl k twin → s.flash.bumpDead.contains (.hubCtl k (!twin)) = false →
        exec (.bumpFailed g) s = .next { s with
          flash := { s.flash with bumpDead := s.flash.bumpDead ++ [g] }, swaps := s.swaps.filter (· != g) })))
  ∧ (∀ (s : State) (g : BumpGroup), hubOn s = true → s.swaps.contains g = true →
    ((swapsAhead g s.swaps).any (sameQuad g) = true → ∀ pass, exec (.spareSwapEnd g pass) s = .next s)
    ∧ ((swapsAhead g s.swaps).any (sameQuad g) = false →
      exec (.spareSwapEnd g true) s = .next { s with swaps := s.swaps.erase g }
      ∧ (groupLive s g = true → s.flash.bumpSpared.contains g = true →
        exec (.spareSwapEnd g false) s = exec (.bumpFailed g) s)))
  ∧ (∀ (s : State) (d : Die), hubOn s = true →
    (s.stackMask.getLsbD d.val = true →
      (dcell s 0x3014 (d.val + 1) = 0 →
        exec (.clockViaLoss (.cd d) false) s = .next (sticky (dset s 0x3014 (d.val + 1) 1) 0xA010 5 d.val))
      ∧ (dcell s 0x3014 (d.val + 1) ≠ 0 → ∀ twin,
        exec (.clockViaLoss (.cd d) twin) s = .next (retireStack (dset s 0x3014 (d.val + 1) 2) d.val))
      ∧ ((s.tier d.val).clkTwin = false → exec (.clockViaLoss (.tier d) false) s = .next
        (sticky (s.setTier d.val { s.tier d.val with clkTwin := true }) 0xA010 5 d.val))
      ∧ ((s.tier d.val).clkTwin = true → ∀ twin, exec (.clockViaLoss (.tier d) twin) s = .next (retireStack s d.val)))
    ∧ (dcell s 0x3014 9 = 0 → exec (.clockViaLoss .hub false) s = .next (sticky (dset s 0x3014 9 1) 0xA010 5 8))
    ∧ (∀ twin, dcell s 0x3014 9 ≠ 0 ∨ twin = true → ∃ t, exec (.clockViaLoss .hub twin) s = .next t ∧ hubOn t = false
      ∧ t.stage.moduleFailed = true ∧ t.boot.rom = 5))
  ∧ (∀ (s : State) (n : Nat), n < 8 → s.stackMask.getLsbD n = true →
    let t := retireStack s n
    t.stackMask = s.stackMask &&& ~~~(BitVec.ofNat 8 (2 ^ n)) ∧ dieUp t n = false ∧ t.dieReset.getLsbD n = true
      ∧ domainOn t n = false ∧ domainOn t (8 + n) = false ∧ domainOn t (16 + n) = false)

/-- O55 (07_memory.md (R160, R161, R164, R168 to R175, R178, Table 7.4)). Scrub findings are counted, marked and
charged, and a pseudo-channel's retirement runs from record to last cursor. A scrub of a line or row counts the
words that carry poison. A word of HBM that either layer corrected is counted for that layer and charged to the
pseudo-channel that served it, and the one that reaches the limit within 1,024 beats triggers its retirement; an
uncorrectable one is marked, sets the bit and is charged to its row. In a tier a corrected word is counted and
judged for a spare; an uncorrectable word is marked, sets the bit, and its row takes one of the bank's 48 spares,
entered in the memory record. A durable record begins the notice; its end removes the last GiB; cursor 0 zeroes that
GiB and no other byte; each batch is counted, what its rows' reads find handled, and its cursor flips it; the last
cursor completes the retirement: the pseudo-channel is out, and its list entry durable. -/
def Obligations.ScrubFindingsAndRetirement : Prop :=
  (∀ (s : State) (d : Die) (line : Nat) (w : WordFind),
    let key := cellKey d.val w.off
    let s0 := carryRead s (cellKey d.val (0x1000000000 + line * 256)) 256
    let at_ := servedBy s0 d.val line
    let count := fun (t : State) (e : Nat) => bump t e (d.val + 1) 1
    let charge := fun (t : State) =>
      let h := t.hbm d.val
      let ticks := h.ceTicks.filter (fun e => recent t e.2) ++ [(at_.1, clock t)]
      let v := t.setHbm d.val { h with ceTicks := ticks }
      if (ticks.filter (fun e => e.1 == at_.1)).length = dnum t 0x5013 1 then triggerRetire v d.val at_.1 else v
    dieUp s d.val = true → line / gibLines < hbmGib s d.val → 0x1000000000 ≤ w.off → (w.off - 0x1000000000) / 256 = line →
    exec (.hbmScrub d line []) s = .next s0
    ∧ (w.err = .onDie → exec (.hbmScrub d line [w]) s = .next (charge (count s0 0x8070)))
    ∧ (∀ b, w.err = .secded b false → exec (.hbmScrub d line [w]) s = .next (charge (count s0 0x8071)))
    ∧ (∀ b, w.err = .secded b true →
      exec (.hbmScrub d line [w]) s = .next (charge (count (charge (count s0 0x8070)) 0x8071)))
    ∧ (w.err = .failed → poisoned s0 key = true → exec (.hbmScrub d line [w]) s = .next s0)
    ∧ (w.err = .failed → poisoned s0 key = false → ∃ t, exec (.hbmScrub d line [w]) s = .next t ∧ poisoned t key = true
      ∧ t = chargeUncorrectable (sticky (markWord s0 (key / 8) true) 0xA070 1 d.val) d.val at_.1 at_.2))
  ∧ (∀ (s : State) (d : Die) (row : Nat) (w : WordFind),
    let key := cellKey d.val w.off
    let s0 := carryRead s (cellKey d.val (row * 512)) 512
    let k := tierRow s d.val (row * 512)
    let b := rowBank k
    let m := s.memRec d.val
    dieUp s d.val = true → row * 512 < tierMap s d.val → (s.tier d.val).out.getLsbD (quadOf s d.val (row * 512)) = false →
    m.holes.contains k = false → w.off / 512 = row → w.off < 0x18000000 →
    exec (.tierScrub d row []) s = .next s0
    ∧ (∀ p both, w.err = .secded p both → exec (.tierScrub d row [w]) s = .next
      (tierCorrected (bump s0 0x8072 (d.val + 1) 1) d.val k (w.off % 512 / 8) p.val))
    ∧ (w.err = .failed → w.off < tierTop s d.val →
      (poisoned s0 key = true → exec (.tierScrub d row [w]) s = .next s0)
      ∧ (poisoned s0 key = false → mget 0 m.rowSpares b < 48 → ∃ t, exec (.tierScrub d row [w]) s = .next t
        ∧ poisoned t key = true ∧ t.mem = s.mem
        ∧ t.memRec d.val = { m with rowSpares := mput 0 m.rowSpares b (mget 0 m.rowSpares b + 1), spared := insertNat k m.spared }
        ∧ max t.flash.memA.seq t.flash.memB.seq = max s.flash.memA.seq s.flash.memB.seq + 1)))
  ∧ (∀ (s : State) (d : Die),
    let n := d.val
    let h := s.hbm n
    let m := s.memRec n
    let lo := cellKey n (0x1000000000 + h.gib * 1073741824)
    dieUp s n = true →
    (h.phase = 1 → ∃ t, exec (.pcRecordDurable d) s = .next t ∧ t.hbm n = { h with phase := 2, noticeAt := clock s }
      ∧ t.memRec n = { m with active := some ⟨h.pc, h.gib⟩, cursor := none }
      ∧ max t.flash.memA.seq t.flash.memB.seq = max s.flash.memA.seq s.flash.memB.seq + 1)
    ∧ (h.phase = 2 → h.removed = none → dnum s 0x5013 2 * 2 ^ 20 ≤ (clock s - h.noticeAt).toNat →
      ∃ t, exec (.pcNoticeEnd d) s = .next t
        ∧ t.hbm n = { h with phase := 3, removed := some h.gib, batch := 0, cursor := 0 }
        ∧ hbmGib t n = hbmGib s n - 1 ∧ t.mem = s.mem)
    ∧ (h.phase = 3 → m.cursor = none → Inv s → mwf MemRec.init 0 s.flash.mem = true →
      ∃ t, exec (.pcCursorDurable d) s = .next t ∧ (t.memRec n).cursor = some 0
        ∧ ∀ k, readByte t k = if lo ≤ k ∧ k < lo + 1073741824 then 0 else readByte s k)
    ∧ (∀ c, h.phase = 3 → m.cursor = some c → h.batch < batches s n →
      let copied := fun (t : State) => bump (t.setHbm n { t.hbm n with batch := h.batch + 1 }) 0x8074 (n + 1)
        (min 524288 (movedRows s n - h.batch * 524288) * 256)
      exec (.pcBatchCopied ⟨d, []⟩) s = .next (copied s)
      ∧ ∀ w k, 0x1000000000 ≤ w.off → movedRank s n ((w.off - 0x1000000000) / 256) = some k → k / 524288 = h.batch →
        exec (.pcBatchCopied ⟨d, [w]⟩) s = .next (copied (wordFind s n w)))
    ∧ (∀ c, h.phase = 3 → m.cursor = some c → c < h.batch → h.waiting = [] → c + 1 < batches s n →
      ∃ t, exec (.pcCursorDurable d) s = .next t ∧ t.hbm n = { h with cursor := c + 1 } ∧ (t.memRec n).cursor = some (c + 1))
    ∧ (∀ c, h.phase = 3 → m.cursor = some c → c < h.batch → h.waiting = [] → batches s n ≤ c + 1 → h.pc < 64 →
      ∃ t, exec (.pcCursorDurable d) s = .next t ∧ (t.hbm n).phase = 0 ∧ (t.hbm n).retired.getLsbD h.pc = true
        ∧ (t.hbm n).list = h.list ++ [⟨h.pc, h.gib⟩] ∧ (t.hbm n).removed = none
        ∧ (t.memRec n).list = m.list ++ [⟨h.pc, h.gib⟩] ∧ (t.memRec n).active = none))

/-- O56 (13_resilience.md (R299, R310, R312 to R315, Tables 13.6, 13.8, 13.9)). Silence suspects a neighbour, digests
are compared in pairs, and the health state and requalification move by score and dwell. Silence of DETECT_BEATS on
every plane enters the neighbour last heard and sets its bit; earlier nothing happens. A follower's record with no
pair waits; an equal pair is counted, and the last one passes the join; an unequal pair ends it with result 3, the
pair and the bit. Evaluation, once in each beat, enters the score; FAILING stays, a score below the fail level
enters it with its bit, HEALTHY falls to DEGRADED, and a better state needs its dwell, from PROBATION the surveys
too. The debt falls by 1 each time 1,024 beats have passed since it last fell. A verdict ends the run: what its
phases find is handled, an array that fails is retired, the debt is what was found, tiers it reached are zero, HBM
too if destructive; all phases passed with a score of 500 enter PROBATION, else the phase of failure is entered. -/
def Obligations.ResilienceAndHealth : Prop :=
  (∀ (s : State) (d : Fin 6),
    (lastHeard s d.val = none → exec (.neighbourSuspected d) s = .next s)
    ∧ ∀ p, lastHeard s d.val = some p →
      ((clock s - (s.port p).heard).toNat < beats (dnum s 0xC003 1) → exec (.neighbourSuspected d) s = .next s)
      ∧ (loaded s = true → Inv s → beats (dnum s 0xC003 1) ≤ (clock s - (s.port p).heard).toNat →
        dcell s 0xC003 (d.val + 2) = 0 → dcell s 0xA0C0 2 < dictAbsent →
        ∃ t, exec (.neighbourSuspected d) s = .next t ∧ dcell t 0xC003 (d.val + 2) = 2 ^ 31 + (s.port p).peer.toNat
          ∧ dbit t 0xA0C0 2 d.val = true
          ∧ (dbit s 0xA0C0 2 d.val = true → t = raiseError (dset s 0xC003 (d.val + 2) (2 ^ 31 + (s.port p).peer.toNat)))))
  ∧ (∀ (s : State) (q : Nat) (i : BitVec 32) (g : Word) (more : List Byte),
    let bytes := natLe 2 q ++ [0, 0] ++ natLe 4 i.toNat ++ natLe 8 g.toNat ++ more
    let x : Shadow := { queue := q, idx := i, digest := g, poisoned := false }
    let r := s.res
    let same := fun (y : Shadow) => y.queue == q && y.idx == i
    let n := dcell s 0xC031 2 + 1
    q < 65536 → loaded s = true → Inv s → dcell s 0xC030 1 = 2 → dcell s 0xC031 1 = 1 → r.theirs.find? same = none →
    (r.ours.find? same = none → r.theirs.length < 4095 → r.ours.length < 4096 →
      exec (.shadowRecord bytes) s = .next { s with res := { r with theirs := r.theirs ++ [x] } })
    ∧ (∀ b, r.ours.find? same = some b → b.poisoned = false → n < dictAbsent →
      (b.digest = g → ∃ t, exec (.shadowRecord bytes) s = .next t ∧ dcell t 0xC031 2 = n ∧ t.res.ours = r.ours.erase b
        ∧ t.res.theirs = r.theirs
        ∧ (dnum s 0xC030 4 ≤ n → t.res.passedOk = true ∧ dcell t 0xC031 1 = 2) ∧ (n < dnum s 0xC030 4 → dcell t 0xC031 1 = 1))
      ∧ (b.digest ≠ g → dcell s 0xA0C0 7 < dictAbsent → ∃ t, exec (.shadowRecord bytes) s = .next t ∧ dcell t 0xC031 1 = 3
        ∧ dcell t 0xC031 3 = q * 2 ^ 48 + i.toNat ∧ dbit t 0xA0C0 7 0 = true)))
  ∧ (∀ (s : State),
    let score := healthScore s
    let st := healthState s
    let up := dnum s 0x30C1 1 ≤ score
    let h := s.health
    let held := dnum s 0x30C1 4 ≤ (beat s - (if h.beatIn < h.failBeat then h.failBeat else h.beatIn)).toNat
    loaded s = true → Inv s → beat s ≠ h.judgedAt →
    ∃ t, exec .healthEvaluation s = .next t ∧ t.health.judgedAt = beat s ∧ dcell t 0x30C0 1 = score ∧ score ≤ 1000
      ∧ (st = 3 → healthState t = 3)
      ∧ (st ≠ 3 → score < dnum s 0x30C1 3 → healthState t = 3 ∧ (dcell s 0xA0C0 8 < dictAbsent → dbit t 0xA0C0 8 0 = true))
      ∧ (st ≠ 3 → dnum s 0x30C1 3 ≤ score →
        (st = 1 → (score < dnum s 0x30C1 2 → healthState t = 2) ∧ (dnum s 0x30C1 2 ≤ score → healthState t = 1))
        ∧ (st = 2 → (up → held → healthState t = 1) ∧ (¬(up ∧ held) → healthState t = 2))
        ∧ (st = 0 → (up → held → dcell s 0x6043 1 = 1 → opticalDone s = true → healthState t = 1)
          ∧ (¬(up ∧ held ∧ dcell s 0x6043 1 = 1 ∧ opticalDone s = true) → healthState t = 0))))
  ∧ (∀ (s : State), beat s = s.health.judgedAt → exec .healthEvaluation s = .next s)
  ∧ (∀ (s : State),
    let h := s.health
    hubOn s = true →
    (beats 1024 ≤ (clock s - h.decayAt).toNat → exec .eventDebtDecay s = .next
      { s with health := { h with debt := h.debt - 1, decayAt := h.decayAt + BitVec.ofNat 64 (beats 1024) } })
    ∧ ((clock s - h.decayAt).toNat < beats 1024 → exec .eventDebtDecay s = .next s))
  ∧ (∀ (s : State) (e : RequalEnv),
    let past := fun (k : Nat) => match e.failed with
      | some f => decide (k < f.val)
      | none => true
    let u := requalFinds e past s
    loaded s = true → s.health.running = true → Inv s →
    ∃ t, exec (.requalVerdict e) s = .next t ∧ t.health.running = false ∧ t.health.debt = min 1000 u.health.found
      ∧ (past 2 = true → ∀ d o, dieUp s d = true → o < 0x18000000 → readByte t (cellKey d o) = 0)
      ∧ (past 3 = true → s.health.destroy = true → ∀ d o, dieUp s d = true → 0x1000000000 ≤ o → o < 0x2000000000 →
        readByte t (cellKey d o) = 0)
      ∧ (∀ a : Fin 64, (inService s).testBit a.val = true → e.katFail.getLsbD a.val = true →
        (inService t).testBit a.val = false)
      ∧ (∀ x, e.failed = some x → dcell t 0x30C2 2 = 3 ∧ dcell t 0x30C2 5 = x.val + 1 ∧ healthState t = healthState u)
      ∧ (e.failed = none → (500 ≤ dcell t 0x30C0 1 ∧ dcell t 0x30C2 2 = 2 ∧ healthState t = 0)
        ∨ (dcell t 0x30C0 1 < 500 ∧ dcell t 0x30C2 2 = 3 ∧ dcell t 0x30C2 5 = 9 ∧ healthState t = healthState u)))

/-- O57 (13_resilience.md (R302 to R307, Tables 13.1 to 13.3)). A ghost's owner marks, sends, commits and is answered;
its host judges HELLO and COMMIT, and applies the journal. Each beat is judged once for a mark. A due mark of a
paired engine closes the open epoch, numbered past the last and at least the beat, or is counted as skipped while
one is unacknowledged. Each block of the closing set is sent once, counted and checked; the last one followed by
every acknowledgement sends COMMIT. An ACK of epoch 0 pairs; one of the epoch that waits ends it and is counted; a
REFUSE stops an unpaired engine with its bit, or has the epoch sent again. A host refuses a HELLO of its own failure
domain and accepts a good one with every stack EMPTY. A COMMIT that matches what came in makes the stacks STABLE, or
APPLYING where it came in the journal; one that does not is refused. The copied journal makes them STABLE. -/
def Obligations.GhostEpochsKept : Prop :=
  (∀ (s : State),
    let r := s.res
    let due := (r.mode = 1 ∧ (beat s % BitVec.ofNat 64 (dnum s 0xC020 6) = 0 ∨ r.stepped = true))
      ∨ (r.mode = 2 ∧ r.bellNext ≤ s.bell (dcell s 0xC020 7))
    let next := if r.mode = 2 then r.bellNext + BitVec.ofNat 64 (dnum s 0xC020 9) else r.bellNext
    (beat s = r.markAt → exec .ghostMark s = .next s)
    ∧ (loaded s = true → r.paired = true → r.owner ≠ 4 → beat s ≠ r.markAt →
    (¬due → exec .ghostMark s = .next { s with res := { r with markAt := beat s } })
    ∧ (due → r.owner ∈ [1, 2, 3] → exec .ghostMark s = .next
      (bump { s with res := { r with markAt := beat s, stepped := false, bellNext := next } } 0x80C0 3 1))
    ∧ (due → r.owner = 0 → r.openSet ≠ [] → ∃ t, exec .ghostMark s = .next t
      ∧ t.res.closing = r.openSet ∧ t.res.openSet = [] ∧ t.res.unacked = [] ∧ t.res.staged = [] ∧ t.res.blocks = 0
      ∧ t.res.bellNext = next ∧ t.res.stepped = false ∧ t.res.markAt = beat s
      ∧ t.res.epoch = (if r.epoch + 1 ≤ beat s then beat s else r.epoch + 1)
      ∧ t.res.owner = (if dcell s 0xC023 1 = 0 then 1 else 2) ∧ t.mem = s.mem)))
  ∧ (∀ (s : State) (i : Nat) (rest : List Nat),
    let r := s.res
    r.closing = i :: rest → ghostOpen s = true → (r.owner = 1 ∨ r.owner = 2) → (allowedPlanes s (ghostPartner s) 0) ≠ [] →
    ∃ t, exec .ghostBlockSend s = .next t ∧ t.res.closing = rest ∧ t.res.unacked = r.unacked ++ [i]
      ∧ t.res.blocks = r.blocks + 1 ∧ t.res.crc = BitVec.ofNat 64 ((blockData s i).1.foldl crc64Byte r.crc.toNat)
      ∧ t.res.owner = r.owner ∧ t.res.epoch = r.epoch ∧ t.mem = s.mem)
  ∧ (∀ (s : State),
    let r := s.res
    let c := { ghostRecord s 2 r.epoch with blocks := BitVec.ofNat 64 r.blocks, crc := r.crc ^^^ 0xFFFFFFFFFFFFFFFF }
    r.closing = [] → ghostOpen s = true → (r.owner = 1 ∨ r.owner = 2) →
    (r.puts = 0 → exec .ghostBlockSend s = .next
      (ghostPut { s with res := { r with owner := 3 } } 0 (dcell s 0xC020 3) 0 (recordOf c) [] 0))
    ∧ (r.puts ≠ 0 → exec .ghostBlockSend s = .next s))
  ∧ (∀ (s : State) (g : GhostRec),
    let r := s.res
    loaded s = true → r.mode ≠ 0 → r.owner ≠ 4 →
    (g.kind = 3 →
      (r.paired = false → g.epoch = 0 → exec (.ghostAck g) s = .next { s with res := { r with paired := true } })
      ∧ (r.paired = true → r.owner = 3 → g.epoch = r.epoch → exec (.ghostAck g) s = .next (bump (dset
        { s with res := { r with owner := 0, closing := [], unacked := [], staged := [] } } 0xC023 1 r.epoch.toNat) 0x80C0 5 1))
      ∧ (r.paired = true → g.epoch ≠ r.epoch → exec (.ghostAck g) s = .next s))
    ∧ (g.kind = 4 →
      (r.paired = false → exec (.ghostRefuse g) s = .next (sticky { s with res := { r with owner := 4 } } 0xA0C0 3 0))
      ∧ (r.paired = true → r.owner = 3 → exec (.ghostRefuse g) s = .next { s with res := { r with
        closing := r.unacked.foldl (fun l x => insertNat x l) r.closing, unacked := [], blocks := 0, jcount := [],
        crc := BitVec.allOnes 64, owner := 2 } })))
  ∧ (∀ (s : State) (g : GhostRec), loaded s = true → dnum s 0xC028 1 ≠ 0xFFFFFFFF →
    ((g.domain.toNat = 0 ∨ dcell s 0xC000 3 = 0 ∨ g.domain.toNat = dcell s 0xC000 3) → exec (.ghostHello g) s = .next
      (hostAnswer s { ghostRecord s 4 0 with reason := 1 }))
    ∧ (helloReason s g = none → exec (.ghostHello g) s = .next (hostAnswer
      (dset { s with res := { s.res with hostState := [], hostNew := 0, rx := [] } } 0xC029 9 0) (ghostRecord s 3 0))))
  ∧ (∀ (s : State) (g : GhostRec),
    let rx := s.res.rx
    let good := g.blocks.toNat = rx.length ∧ g.crc.toNat = crc64 (rx.flatMap (fun x => readBytes s (hostKey s x.1 x.2) 65536))
    let st := fun (t : State) (n : Nat) => mget 0 t.res.hostState n
    loaded s = true → g.kind = 2 → dnum s 0xC028 1 ≠ 0xFFFFFFFF → mwf 0 0 s.res.hostState = true →
    (good → rx.filter (inJournal s) = [] → ∃ t, exec (.ghostCommit g) s = .next t ∧ t.res.rx = []
      ∧ (∀ n < 8, st t n = if st s n = 0 ∨ st s n = 6 then st s n else 2))
    ∧ (good → rx.filter (inJournal s) ≠ [] → ∃ t, exec (.ghostCommit g) s = .next t
      ∧ t = { s with res := { s.res with hostNew := g.epoch, hostState := t.res.hostState } }
      ∧ ∀ x ∈ rx.filter (inJournal s), st t x.1 = 5)
    ∧ (¬good → exec (.ghostCommit g) s = .next (hostAnswer (hostDiscard s) (ghostRecord (hostDiscard s) 4 g.epoch)))
    ∧ ((∃ n < 8, st s n = 5) → ∃ t, exec .ghostApplyDone s = .next t ∧ t.res.rx = []
      ∧ (∀ n < 8, st t n = if st s n = 0 ∨ st s n = 6 then st s n else 2)
      ∧ t.mem = ((rx.filter (inJournal s)).foldl applyEntry s).mem))

/-- O58 (14_host_interface.md (R324, R325), 15_management_dictionary.md (R329, R331 to R339, R342, R346, R349)). A
request is answered in its turn, repeats repeat their reply, and the drop, the nonces and the journal follow their
rules. A sound unsigned request that arrives is answered: NONCE with a fresh nonce kept for its source, READ with
what the entry reads, DESCRIBE with its description, an unknown index with 1, an unknown sub with 2, a bad form with
13; a request whose reply is held gets it again, marked, with no second effect. A mailbox answer sets DONE, its
status and the response, and raises MGMT_VECTOR. GO while busy gives status 2, with a bad length 1. Nonces past
their lifetime go. A lost beacon falls back and sets the bit, a beacon returns, a collision is counted and set, the
sixteenth drops the frame. A solicitation of the own address and an echo from a known source are answered, other
echoes and bad frames counted. A flush moves up to 64 entries to flash. -/
def Obligations.BdpServed : Prop :=
  (∀ (s t : State) (m : BdpMsg), Inv s → Arrives s m t →
    (∀ c, s.mgmt.cache.find? (fun c => c.src == m.src && c.seq == msgSeq m && c.req == m.bytes) = some c →
      exec (.bdpRead m) s = .next (sendReply t m.src (c.reply.set 10 (byteAt c.reply 10 ||| 4)) (byteAt c.reply 11).toNat))
    ∧ (Fresh s m →
      (formOk m = false → exec (.bdpRead m) s = .next (answer t m 13 false [])
        ∧ exec (.bdpNonce m) s = .next (answer t m 13 false []) ∧ exec (.bdpDescribe m) s = .next (answer t m 13 false []))
      ∧ (formOk m = true → msgSigned m = false →
        (msgOp m = 4 → exec (.bdpNonce m) s = .next (answer (issueNonce t m.src).2 m 0 false
          (natLe 16 (Config.nonce s.mgmt.draws).toNat ++ natLe 4 (dnum s 0x20E0 8))))
        ∧ (msgOp m = 1 ∨ msgOp m = 3 → ∀ c, (c = .bdpRead m ∨ c = .bdpDescribe m) →
          (indexKnown (msgIndex m) = false → exec c s = .next (answer t m 1 false []))
          ∧ (indexKnown (msgIndex m) = true → msgSub m ≠ 0 → entryOf (msgIndex m) (msgSub m) = none →
            exec c s = .next (answer t m 2 false []))
          ∧ (∀ e, indexKnown (msgIndex m) = true → msgSub m ≠ 0 → entryOf (msgIndex m) (msgSub m) = some e → e.sub ≠ 0 →
            (msgOp m = 1 → exec c s = .next
              (answer (readEntry t e (msgSub m)).2 m 0 false (readBody m e (readEntry t e (msgSub m)).1)))
            ∧ (msgOp m = 3 → exec c s = .next (answer t m 0 false (describeBytes e (msgSub m) []))))
          ∧ (indexKnown (msgIndex m) = true → msgSub m = 0 → msgOp m = 1 → exec c s = .next
            (answer t m 0 false (readBody m (subZero (msgIndex m)) (natLe 1 (highestSub (msgIndex m)))))))))
    ∧ (4 ≤ (s.mgmt.nonces.filter (fun n => n.src == m.src)).length ∨
      (issueNonce t m.src).2.mgmt.nonces = s.mgmt.nonces ++ [{ src := m.src, value := Config.nonce s.mgmt.draws, at_ := clock s }]))
  ∧ (∀ (t : State) (m : BdpMsg) (result : Nat) (held : Bool) (body : List Byte), m.src = .mailbox →
    let b := if result = 0 then body else []
    let u := answer t m result held body
    u.host.mbxDone = true ∧ u.host.mbxBusy = false ∧ u.host.mbxStatus = (if result = 0 then 0 else 3)
      ∧ u.host.rspBuf = bdpHeader (msgOp m) (msgSeq m) b.length (2 + bitAt held 3) result ++ b
      ∧ (vectorOpen t t.host.mgmtVector.toNat = true → ∃ a d, Output.msix t.host.mgmtVector.toNat a d ∈ u.out)
      ∧ (vectorOpen t t.host.mgmtVector.toNat = false → mget false u.host.pba t.host.mgmtVector.toNat = true))
  ∧ (∀ (s : State) (n : BitVec 16), domainOn s 24 = true →
    (s.host.mbxBusy = true → exec (.mbxGo n) s = .next { s with host := { s.host with mbxStatus := 2 } })
    ∧ (loaded s = true → romRuns s = false → s.host.mbxBusy = false → (n = 0 ∨ 4096 < n.toNat) →
      ∃ t, exec (.mbxGo n) s = .next t ∧ t.host.mbxDone = true ∧ t.host.mbxStatus = 1 ∧ t.host.rspBuf = [])
    ∧ (∀ m, m.src = .mailbox → m.bytes = reqBytes s n.toNat → n.toNat ≤ 4096 → isBdp m = true → loaded s = true →
      romRuns s = false → s.host.mbxBusy = false → s.mgmt.store = none → exec (.mbxGo n) s = .next
        (takeTurn { s with host := { s.host with reqLen := n, mbxBusy := true } } (m, []))))
  ∧ (∀ (s : State), ∃ t, exec .nonceExpired s = .next t
    ∧ t = { s with mgmt := { s.mgmt with nonces := t.mgmt.nonces } }
    ∧ ∀ n, n ∈ t.mgmt.nonces ↔ n ∈ s.mgmt.nonces ∧ (clock s - n.at_).toNat < dnum s 0x20E0 8 * 1000000)
  ∧ (∀ (s : State) (n : Nat), loaded s = true →
    exec .plcaBeacon s = .next { s with mgmt := { s.mgmt with fallback := false } }
    ∧ (dnum s 0x20E0 1 ≠ 255 → s.mgmt.fallback = false →
      (dnum s 0x20E0 1 ≠ 0 → exec .plcaBeaconLoss s = .next (sticky { s with mgmt := { s.mgmt with fallback := true } } 0xA030 5 0))
      ∧ (n < 16 → exec (.plcaCollision n) s = .next (sticky (bump s 0x80E0 8 1) 0xA030 5 0))
      ∧ (16 ≤ n → ∃ t, exec (.plcaCollision n) s = .next t ∧ t.mgmt.txq = s.mgmt.txq - 1 ∧ t.host = (sticky (bump s 0x80E0 8 1) 0xA030 5 0).host)))
  ∧ (∀ (s : State) (a : BitVec 128), loaded s = true → s.mgmt.dadBad = false →
    (sourceKnown s (.udp a) = true → exec (.echoRequest a) s = .next (sendFrame (bump s 0x80E0 1 1) (.frame (129 :: addrBytes a))).2)
    ∧ (sourceKnown s (.udp a) = false → exec (.echoRequest a) s = .next (bump (bump s 0x80E0 1 1) 0x80E0 3 1))
    ∧ (a = linkLocal s → exec (.neighborSolicitation a) s = .next (sendFrame s (.frame (136 :: addrBytes a))).2)
    ∧ (a ≠ linkLocal s → exec (.neighborSolicitation a) s = .next s)
    ∧ exec (.badFrame true) s = .next (bump s 0x80E0 2 1) ∧ exec (.badFrame false) s = .next (bump (bump s 0x80E0 1 1) 0x80E0 2 1))
  ∧ (∀ (s : State), hubOn s = true → mwf JEntry.blank 0 s.flash.journal = true → ∃ t, exec .journalFlush s = .next t
    ∧ t.mgmt.jwait = s.mgmt.jwait.drop 64 ∧ t.flash.journalCnt = s.flash.journalCnt + min 64 s.mgmt.jwait.length
    ∧ ∀ k < min 64 s.mgmt.jwait.length, mget JEntry.blank t.flash.journal ((s.flash.journalCnt + k) % 4096)
      = s.mgmt.jwait.getD k JEntry.blank)

/-- O59 (15_management_dictionary.md (R331, R333, R335, R340, R345, R346), 07_memory.md (R159), 09_fabric_routing.md
(R201, R229), 10_optical_ports.md (R235), 13_resilience.md (R295 to R297, R303, R309, R311, R315),
17_boot_security_reset.md (R373, R375)). An accepted write of an entry takes its effect and is answered OK; a
persistent one is stored first and answered when it is durable. A write that arrives and passes its checks, by
whichever row sends it, takes its entry's effect once and is answered OK, with its signature's nonce consumed; one
of a persistent entry waits for the store. The effects: FABRIC_EPOCH takes the value and aborts collectives; a fence
entry stands and FENCE_SELF fences; GHOST_MODE and ADMIT take theirs; a rollback clears the sets; a requalification
runs; the quote answers the challenge; an image is checked, and a write of it begun; FUSED_SVN rises; DARK_RELEASE
releases; a port map is applied; a region size is held. A durable image holds the record, takes the effect and
answers; a first bad read-back has it written again, a second ends the write with 12 and its bit. -/
def Obligations.DictionaryWritesTakeEffect : Prop :=
  (∀ (s t u : State) (c : Instr) (w : WriteCtx) (idx sub : Nat) (v : List Byte) (circuits : List HopEntry) (e : Entry)
      (v8 : Byte) (v16 : BitVec 16) (v32 : BitVec 32) (k : Fin 64) (d : Die) (n : Fin 4),
    let m := writeOf w idx sub v
    ((c, idx, sub, v, circuits) ∈
      [(Instr.bdpWrite m, idx, sub, v, []), (.fwUpdateCmdUpdate w, 0x7005, 1, [1], []), (.fwUpdateCmdSvn w, 0x7005, 1, [2], []),
       (.attestChallenge v w, 0x7002, 1, v, []), (.endpointCoordWrite v32 w, 0x9000, 1, natLe 4 v32.toNat, []),
       (.darkRelease v8 w circuits, 0x9001, 2, [v8], circuits), (.portMapApply v8 w, 0x40A0, 9, [v8], []),
       (.fabricEpochWrite v16 w, 0xC000, 1, natLe 2 v16.toNat, []),
       (.fenceEntryWrite k v32 w, 0xC001, k.val + 1, natLe 4 v32.toNat, []), (.fenceSelfWrite v8 w, 0xC000, 2, [v8], []),
       (.ghostModeWrite v8 w, 0xC020, 1, [v8], []), (.ghostRollback v8 w, 0xC020, 12, [v8], []),
       (.admitDevice v16 w, 0xC002, 1, natLe 2 v16.toNat, []), (.requalStart v8 w, 0x30C2, 1, [v8], []),
       (.tierRcMibWrite d v8 w, 0x5000, d.val + 1, [v8], []), (.plcaSettingWrite n v8 w, 0x20E0, n.val + 1, [v8], [])]) →
    Inv s → Arrives s m t → Fresh s m → (∀ x, w.trailer = some x → x.sig.length = 64) → v.length < 4096 →
    entryOf idx sub = some e → indexKnown idx = true → idx < 65536 → sub < 256 → sub ≠ 0 → e.acc ≠ .ro → e.acc ≠ .rwl →
    e.acc ≠ .w1c → authorise t m (needsSignature t m.src e.acc) = (0, u) → lengthOk e v = true → inRange e v = true →
    valueOk u e sub v = true → stateOk u e sub v = true →
    (e.keep = true → exec c s = .next { u with mgmt := { u.mgmt with
      store := some { msg := m, key := dkey e.index sub, value := normalised u e sub v, again := false, silent := false } } })
    ∧ (e.keep = false → (idx, sub) ≠ (0x7006, 2) → exec c s = .next
      (answer (applyWrite u e sub (normalised u e sub v) circuits) m 0 (heldWrite u idx sub) (writeBody m))))
  ∧ (∀ (u : State) (n : Nat) (v : List Byte) (k : Fin 64) (e : Entry) (circuits : List HopEntry),
    let t := applyWrite u e
    let put := fun (w : Nat) => natLe w n
    n < 2 ^ 31 * 2 → Inv u →
    (entryOf 0xC000 1 = some e → n < 65536 → t 1 (put 2) circuits = collEpochAbort (dset u 0xC000 1 n) n)
    ∧ (entryOf 0xC001 (k.val + 1) = some e → n &&& 0x8003FFFF = n → n.testBit 31 = true →
      isFenced (t (k.val + 1) (put 4) circuits) (BitVec.ofNat 18 n) = true)
    ∧ (entryOf 0xC000 2 = some e → t 2 [1] circuits = enterFenced u ∧ t 2 [0] circuits = u)
    ∧ (entryOf 0xC020 1 = some e → t 1 [0] circuits = ghostMode u 0 ∧ (ghostMode u 0).res.mode = 0 ∧ (ghostMode u 0).res.openSet = []
      ∧ ∀ b : Byte, b ≠ 0 → u.res.mode = 0 → (t 1 [b] circuits).res.mode = b.toNat)
    ∧ (entryOf 0xC020 12 = some e → (t 12 [1] circuits).res.openSet = [] ∧ (t 12 [1] circuits).res.closing = []
      ∧ (t 12 [1] circuits).res.staged = [] ∧ (t 12 [1] circuits).res.owner = 0)
    ∧ (entryOf 0xC002 1 = some e → n < 65536 → (t 1 (put 2) circuits).res.fenced = false)
    ∧ (entryOf 0x30C2 1 = some e → (t 1 [1] circuits).health.running = true ∧ dcell (t 1 [1] circuits) 0x30C2 2 = 1
      ∧ t 1 [0] circuits = u)
    ∧ (entryOf 0x7002 1 = some e → t 1 v circuits = attest u v)
    ∧ (entryOf 0x7005 1 = some e →
      let why := imageReason u.fuses (stagedImage u) false
      t 1 [1] circuits = (if why = 0 then { u with boot := { u.boot with update := 2, pendingImg := stagedImage u } }
        else sticky { u with boot := { u.boot with update := 4, reason := why } } 0xA030 9 0)
      ∧ (t 1 [2] circuits).fuses.svn.toNat = max u.fuses.svn.toNat u.boot.imageSvn.toNat)
    ∧ (entryOf 0x9001 2 = some e → (t 2 [1] circuits).fab.released = true)
    ∧ (entryOf 0x40A0 9 = some e → t 9 [1] circuits = portMapApply u)
    ∧ (∀ d : Die, entryOf 0x5000 (d.val + 1) = some e → n < 256 →
      t (d.val + 1) (put 1) circuits = rcResize ((putStored u e (d.val + 1) (put 1)).setTier d.val
        { u.tier d.val with rcHeld := some n }) d.val)
    ∧ (entryOf 0x9000 1 = some e → dnum (t 1 (put 4) circuits) 0x9000 1 = n))
  ∧ (∀ (s : State) (j : StoreJob) (e : Entry),
    let note := fun (t : State) =>
      dset (dset t 0x30E0 2 (storeSeq t.flash)) 0x30E0 3 (bitAt t.flash.copyA.valid 0 + bitAt t.flash.copyB.valid 1)
    let t := note { s with flash := writeImage s.flash (withRecord s j.key j.value), mgmt := { s.mgmt with store := none } }
    let bad := note { s with flash := spoilImage s.flash }
    let sub := j.key % 256
    s.mgmt.store = some j → loaded s = true → j.silent = false →
    (entryOf (j.key / 256) sub = some e → j.key / 256 ≠ 0x20E0 → exec (.storeDurable true) s = .next
      (drainWaiting (answer (applyWrite t e sub j.value []) j.msg 0 (heldWrite t (j.key / 256) sub) (writeBody j.msg))))
    ∧ (entryOf (j.key / 256) sub = some e → j.key / 256 = 0x20E0 → exec (.storeDurable true) s = .next
      (drainWaiting (applyWrite (answer t j.msg 0 (heldWrite t 0x20E0 sub) (writeBody j.msg)) e sub j.value [])))
    ∧ (j.again = false → exec (.storeDurable false) s = .next
      { bad with mgmt := { s.mgmt with store := some { j with again := true } } })
    ∧ (j.again = true → exec (.storeDurable false) s = .next (drainWaiting
      (answer (sticky { bad with mgmt := { s.mgmt with store := none } } 0xA030 3 0) j.msg 12 false [])))
    ∧ (storeSeq (writeImage s.flash (withRecord s j.key j.value)) = storeSeq s.flash + 1)
    ∧ (j.value ≠ [] → mget [] (withRecord s j.key j.value) j.key = j.value))

/-- O60 (02_tensor_arrays.md (Table 2.2), 03_number_formats.md (R62), 04_vector_engine.md (R87),
08_isroum_base_fabric.md (R183, Tables 8.2, 8.3), 09_fabric_routing.md (R207, Tables 9.1, 9.2), 10_optical_ports.md
(R246, Table 10.6), 15_management_dictionary.md (R332, R341, Table 15.2)). Packed elements, instruction words,
requests, messages, packets and lane-control messages give back what they were made of. In every format, the bytes
that elements pack into have the format's length, and element i of them is the i-th element's pattern. A
vector-engine instruction word gives back the fields it was put together from, and the fields their word. A request,
signed or not, gives back its operation, sequence, body, flag and trailer, and is of the protocol. The flits of up
to fifteen messages between dies, each as it is sent, give a receiver that held none those messages, whole and in
order; a packet's bytes give back the packet, with every field of its header, its poison map and its data; and the
32 bytes of a lane-control message the message. Where a header flit ends and how a poison map is laid out are the
model's choice (log 71). -/
def Obligations.PackedFormsRoundTrip : Prop :=
  (∀ (f : Nat) (l : List Nat), (packElems f l).length = fmtBytes f l.length
    ∧ ∀ i < l.length, unpackElem f (packElems f l) i = l.getD i 0 % 2 ^ fmtBits f)
  ∧ (∀ v : VeWord, veDecode (veEncode v) = v) ∧ (∀ w : Word, veEncode (veDecode w) = w)
  ∧ (∀ (src : Source) (op : Byte) (q : BitVec 32) (body : List Byte) (trailer : Option Trailer),
    let m := bdpRequest src op q body trailer
    body.length < 65536 → (∀ x, trailer = some x → x.sig.length = 64) →
    isBdp m = true ∧ msgOp m = op ∧ msgSeq m = q ∧ msgBody m = body ∧ msgSigned m = trailer.isSome
      ∧ (∀ x, trailer = some x → leNat ((msgTrailer m).take 8) = x.keyId.toNat
        ∧ leNat (slice (msgTrailer m) 8 16) = x.nonce.toNat ∧ slice (msgTrailer m) 24 64 = x.sig)
      ∧ m.bytes.length = 16 + body.length + (if trailer.isSome then 88 else 0))
  ∧ (∀ ms : List D2dMsg, ms.length ≤ 15 →
    (∀ m, m ∈ ms → m.typ ≠ 0 ∧ normMsg m = m ∧ m.data.length = (if carriesData m.typ then m.len.toNat else 0)) →
    heldMsgs { buf := batchBodies ms, heads := [], stream := [] } = ms)
  ∧ (∀ p : Packet, p.data.length = pktData p → p.poison.length = (if p.px then pktMarks p else 0) →
    readPacket (packetBytes p) p.plane p.inPort p.lane = some p
      ∧ (packetBytes p).length = 32 + pktMapLen p + pktData p)
  ∧ (∀ m : LaneMsg, m.op ≠ 0 → m.op ≤ 6 → m.map.length = 18 →
    readLane (laneBytes m) = some m ∧ (laneBytes m).length = 32)
end

