-- ==== Sys2Proof/Laws/Fec.lean ====
section
/-!
SUPPORT. What the decoder of a fibre direction does: every word that it gives is a codeword, codewords come back as they
are, and a flit whose codewords are whole is read as it was sent, with no bit charged.
-/

namespace Sys2Proof.Machine

theorem gfDouble_lt : ∀ a < 1024, gfDouble a < 1024 := by decide +kernel

theorem gfMul_lt (a b : Nat) (h : a < 1024) : gfMul a b < 1024 := by
  unfold gfMul
  split
  · omega
  · have step : ∀ (l : List Nat) (x : Nat × Nat), x.1 < 1024 → x.2 < 1024 →
        (l.foldl (fun x i => (if b.testBit i then x.1 ^^^ x.2 else x.1, gfDouble x.2)) x).1 < 1024 := by
      intro l
      induction l with
      | nil => intro x h1 _; exact h1
      | cons i r ih =>
        intro x h1 h2
        refine ih _ ?_ (gfDouble_lt _ h2)
        dsimp only
        split
        · exact Nat.xor_lt_two_pow (n := 10) h1 h2
        · exact h1
    exact step _ _ (Nat.succ_pos 1023) h

theorem gfAdd_length (p q : List Nat) : (gfAdd p q).length = max p.length q.length := by simp [gfAdd]

theorem gfAdd_lt (p q : List Nat) (hp : ∀ x ∈ p, x < 1024) (hq : ∀ x ∈ q, x < 1024) : ∀ x ∈ gfAdd p q, x < 1024 := by
  have at_ : ∀ (l : List Nat), (∀ x ∈ l, x < 1024) → ∀ i, l.getD i 0 < 1024 := by
    intro l hl i
    rw [List.getD_eq_getElem?_getD]
    cases h : l[i]? with
    | none => simp
    | some v => exact hl v (List.mem_of_getElem? h)
  intro x hx
  simp only [gfAdd, List.mem_map] at hx
  obtain ⟨i, -, rfl⟩ := hx
  exact Nat.xor_lt_two_pow (n := 10) (at_ p hp i) (at_ q hq i)

/-- The remainder register keeps its 14 symbols through a step of the division. -/
theorem parityStep_keeps (g rem : List Nat) (c : Nat) (hg : g.length = 14) (hc : c < 1024)
    (hr : rem.length = 14 ∧ ∀ x ∈ rem, x < 1024) :
    (parityStep g rem c).length = 14 ∧ ∀ x ∈ parityStep g rem c, x < 1024 := by
  have shifted : ∀ x ∈ rem.drop 1 ++ [0], x < 1024 := by
    intro x hx
    rcases List.mem_append.mp hx with h | h
    · exact hr.2 x (List.mem_of_mem_drop h)
    · simp at h; omega
  have head : rem.headD 0 < 1024 := by
    cases rem with
    | nil => simp
    | cons a l => exact hr.2 a (by simp)
  unfold parityStep
  simp only
  split
  · exact ⟨by simp [hr.1], shifted⟩
  · refine ⟨by simp [gfAdd_length, hr.1, hg], gfAdd_lt _ _ shifted ?_⟩
    intro x hx
    obtain ⟨y, -, rfl⟩ := List.mem_map.mp hx
    exact gfMul_lt _ _ (Nat.xor_lt_two_pow (n := 10) hc head)

theorem genPoly_length : genPoly.length = 14 := by decide +kernel

theorem parity_keeps (data : List Nat) (h : ∀ x ∈ data, x < 1024) :
    (parity data).length = 14 ∧ ∀ x ∈ parity data, x < 1024 := by
  have run : ∀ (l rem : List Nat), (∀ x ∈ l, x < 1024) → (rem.length = 14 ∧ ∀ x ∈ rem, x < 1024) →
      (l.foldl (parityStep genPoly) rem).length = 14 ∧ ∀ x ∈ l.foldl (parityStep genPoly) rem, x < 1024 := by
    intro l
    induction l with
    | nil => intro rem _ hr; exact hr
    | cons c r ih =>
      intro rem hl hr
      exact ih _ (fun x hx => hl x (by simp [hx])) (parityStep_keeps _ _ _ genPoly_length (hl c (by simp)) hr)
  exact run _ _ h ⟨by simp, by simp⟩

theorem isCodeword_codeword (data : List Nat) (h : data.length = 258) : isCodeword (codeword data) = true := by
  simp [isCodeword, codeword, h]

theorem decodeSymbols_codeword (data : List Nat) (h : data.length = 258) :
    decodeSymbols (codeword data) = some (codeword data) := by
  simp [decodeSymbols, isCodeword_codeword data h]

/-- Every word that the decoder gives is a codeword. -/
theorem decodeSymbols_isCodeword {r c : List Nat} (h : decodeSymbols r = some c) : isCodeword c = true := by
  have pick : ∀ {p q t : Prop} [Decidable p] [Decidable q] [Decidable t] {a b : List Nat},
      (if p then some a else if q then none else if t then some b else none) = some c → (p ∧ a = c) ∨ (t ∧ b = c) := by
    intro p q t _ _ _ a b h
    split at h
    · exact Or.inl ⟨‹p›, Option.some.inj h⟩
    · split at h
      · cases h
      · split at h
        · exact Or.inr ⟨‹t›, Option.some.inj h⟩
        · cases h
  rcases pick h with ⟨hp, rfl⟩ | ⟨hq, rfl⟩
  · exact hp
  · exact hq.2

theorem lanesOf_self (lanes : Nat) (r : List Nat) : lanesOf lanes r r = [] := by
  simp [lanesOf, onesBelow]

/-- A codeword as it is received. -/
def sentWord (data : List Nat) : List (BitVec 10) := (codeword data).map (BitVec.ofNat 10)

theorem sentWord_toNat (data : List Nat) (h : ∀ x ∈ data, x < 1024) :
    (sentWord data).map BitVec.toNat = codeword data := by
  have small : ∀ x ∈ codeword data, x < 1024 := by
    intro x hx
    rcases List.mem_append.mp hx with hd | hp
    · exact h x hd
    · exact (parity_keeps data h).2 x hp
  simp only [sentWord, List.map_map]
  conv => rhs; rw [← List.map_id (codeword data)]
  refine List.map_congr_left (fun x hx => ?_)
  simp [Nat.mod_eq_of_lt (small x hx)]

/-- A flit whose codewords come as they were sent is read from their data, and no bit is charged. -/
theorem readWords_sent (lanes : Nat) (n : Word) (data : List (List Nat))
    (h : ∀ d ∈ data, d.length = 258 ∧ ∀ x ∈ d, x < 1024) :
    readWords lanes { number := n, words := data.map sentWord } =
      { bytes := natLe 256 (symbolsNat data.flatten / 2 ^ flitBit n.toNat),
        words := (List.range data.length).map (fun k => (BitVec.ofNat 64 (flitCodeword n.toNat + k), some [])) } := by
  have got : (data.map sentWord).map (fun w => w.map BitVec.toNat) = data.map codeword := by
    simp only [List.map_map]
    exact List.map_congr_left (fun d hd => sentWord_toNat d (h d hd).2)
  have done : (data.map codeword).map decodeSymbols = (data.map codeword).map some := by
    simp only [List.map_map]
    exact List.map_congr_left (fun d hd => decodeSymbols_codeword d (h d hd).1)
  have back : (List.range data.length).map (fun k =>
      (((data.map codeword).map some).getD k none |>.getD ((data.map codeword).getD k [])).take 258) = data := by
    refine List.ext_getElem (by simp) (fun k h1 h2 => ?_)
    have hk : k < data.length := h2
    simp [hk, codeword, (h data[k] (List.getElem_mem hk)).1]
  have clean : ∀ k ∈ List.range data.length, (BitVec.ofNat 64 (flitCodeword n.toNat + k),
      (((data.map codeword).map some).getD k none).map (lanesOf lanes ((data.map codeword).getD k [])))
        = ((BitVec.ofNat 64 (flitCodeword n.toNat + k), some []) : Word × Option (List Nat)) := by
    intro k hk
    have hk' : k < data.length := List.mem_range.mp hk
    simp [hk', lanesOf_self]
  unfold readWords
  simp only [got, done, List.length_map, back]
  rw [List.map_congr_left clean]

end Sys2Proof.Machine
end

