-- ==== Sys2Proof/Laws/Map.lean ====
section
/-!
SUPPORT. The sparse maps: a read after a write, and the canonical form that every write keeps.
-/

namespace Sys2Proof.Machine

variable {α : Type} [DecidableEq α]

theorem mfind_of_lt {d : α} {m : SMap α} {lo i : Nat} (h : mwf d lo m = true) (hi : i < lo) : mfind m i = none := by
  induction m generalizing lo with
  | nil => rfl
  | cons e r ih =>
    obtain ⟨k, v⟩ := e
    simp only [mwf, Bool.and_eq_true, decide_eq_true_eq] at h
    have h1 : ¬k < i := by omega
    have h2 : ¬k = i := by omega
    simp [mfind, h1, h2]

/-- A read of the key just written, in a map of canonical form. -/
theorem mget_mput_same {d : α} {m : SMap α} {lo i : Nat} (v : α) (h : mwf d lo m = true) : mget d (mput d m i v) i = v := by
  induction m generalizing lo with
  | nil =>
    unfold mput
    split
    · subst_vars; rfl
    · simp [mget, mfind]
  | cons e r ih =>
    obtain ⟨k, w⟩ := e
    simp only [mwf, Bool.and_eq_true, decide_eq_true_eq] at h
    obtain ⟨⟨h1, h2⟩, h3⟩ := h
    unfold mput
    split
    · rename_i hk
      simpa [mget, mfind, hk] using ih h3
    · rename_i hk
      split
      · rename_i he
        subst he
        split
        · rename_i hv
          rw [hv]
          simp [mget, mfind_of_lt h3 (Nat.lt_succ_self k)]
        · simp [mget, mfind]
      · split
        · rename_i hv
          rename_i he
          rw [hv]
          simp [mget, mfind, hk, he]
        · simp [mget, mfind]

/-- A key written with a value other than the default reads it, on any list. -/
theorem mget_mput_new {d : α} (m : SMap α) (i : Nat) {v : α} (hv : v ≠ d) : mget d (mput d m i v) i = v := by
  induction m with
  | nil => simp [mput, hv, mget, mfind]
  | cons e r ih =>
    obtain ⟨k, w⟩ := e
    unfold mput
    by_cases h1 : k < i
    · simp only [h1, if_true]
      unfold mget mfind
      simpa [h1, mget] using ih
    · by_cases h2 : k = i
      · simp [h2, hv, mget, mfind]
      · simp [h1, h2, hv, mget, mfind]

/-- A read of another key. -/
theorem mget_mput_other {d : α} {m : SMap α} {lo i j : Nat} (v : α) (h : mwf d lo m = true) (hij : j ≠ i) :
    mget d (mput d m i v) j = mget d m j := by
  induction m generalizing lo with
  | nil =>
    unfold mput
    split
    · rfl
    · by_cases hlt : i < j
      · simp [mget, mfind, hlt]
      · have : ¬i = j := fun e => hij e.symm
        simp [mget, mfind, hlt, this]
  | cons e r ih =>
    obtain ⟨k, w⟩ := e
    simp only [mwf, Bool.and_eq_true, decide_eq_true_eq] at h
    obtain ⟨⟨h1, h2⟩, h3⟩ := h
    have ih' := ih h3
    have hji : ¬i = j := fun e => hij e.symm
    unfold mput
    split
    · by_cases hkj : k < j
      · simpa [mget, mfind, hkj] using ih'
      · simp [mget, mfind, hkj]
    · rename_i hk
      split
      · rename_i he
        subst he
        by_cases hkj : k < j
        · split
          · simp [mget, mfind, hkj]
          · simp [mget, mfind, hkj]
        · have hn := mfind_of_lt h3 (show j < k + 1 by omega)
          split
          · simp [mget, mfind, hkj, hji, hn]
          · simp [mget, mfind, hkj, hji]
      · split
        · rfl
        · by_cases hlt : i < j
          · simp [mget, mfind, hlt]
          · have hkj : ¬k < j := by omega
            have hkj2 : ¬k = j := by omega
            simp [mget, mfind, hlt, hji, hkj, hkj2]

/-- A write keeps the canonical form. -/
theorem mwf_mput {d : α} {m : SMap α} {lo i : Nat} (v : α) (h : mwf d lo m = true) (hi : lo ≤ i) :
    mwf d lo (mput d m i v) = true := by
  induction m generalizing lo with
  | nil =>
    unfold mput
    split
    · rfl
    · rename_i hv
      simp [mwf, hi, hv]
  | cons e r ih =>
    obtain ⟨k, w⟩ := e
    simp only [mwf, Bool.and_eq_true, decide_eq_true_eq] at h
    obtain ⟨⟨h1, h2⟩, h3⟩ := h
    unfold mput
    split
    · rename_i hk
      simp [mwf, h1, h2, ih h3 hk]
    · rename_i hk
      split
      · rename_i he
        subst he
        split
        · cases r with
          | nil => rfl
          | cons e' r' =>
            obtain ⟨k', w'⟩ := e'
            simp only [mwf, Bool.and_eq_true, decide_eq_true_eq] at h3 ⊢
            exact ⟨⟨by omega, h3.1.2⟩, h3.2⟩
        · rename_i hv
          simp [mwf, h1, hv, h3]
      · split
        · simp [mwf, h1, h2, h3]
        · rename_i hv
          have : i + 1 ≤ k := by omega
          simp [mwf, hi, hv, this, h2, h3]

/-- A filter keeps the canonical form. -/
theorem mwf_filter {d : α} {m : SMap α} {lo : Nat} (p : Nat × α → Bool) (h : mwf d lo m = true) :
    mwf d lo (m.filter p) = true := by
  induction m generalizing lo with
  | nil => rfl
  | cons e r ih =>
    obtain ⟨k, w⟩ := e
    simp only [mwf, Bool.and_eq_true, decide_eq_true_eq] at h
    obtain ⟨⟨h1, h2⟩, h3⟩ := h
    have weaken : ∀ (l : SMap α) (a b : Nat), a ≤ b → mwf d b l = true → mwf d a l = true := by
      intro l a b hab hl
      cases l with
      | nil => rfl
      | cons e' r' =>
        obtain ⟨k', w'⟩ := e'
        simp only [mwf, Bool.and_eq_true, decide_eq_true_eq] at hl ⊢
        exact ⟨⟨by omega, hl.1.2⟩, hl.2⟩
    simp only [List.filter_cons]
    split
    · simp [mwf, h1, h2, ih h3]
    · exact weaken _ _ _ (by omega) (ih h3)

end Sys2Proof.Machine
end

