-- ==== Sys2Proof/Laws/State.lean ====
section
/-!
SUPPORT. What each update of one piece of state leaves alone: one lemma for each field and update, each true by
unfolding, so that no proof unfolds a record update.  The update's own field has the lemma of the same name ending in
its write.
-/

namespace Sys2Proof.Machine

/-! ### setQueue -/

@[simp] theorem State.setQueue_pending (s : State) (q : Nat) (x : Queue) : (s.setQueue q x).pending = s.pending := rfl
@[simp] theorem State.setQueue_free (s : State) (q : Nat) (x : Queue) : (s.setQueue q x).free = s.free := rfl
@[simp] theorem State.setQueue_out (s : State) (q : Nat) (x : Queue) : (s.setQueue q x).out = s.out := rfl
@[simp] theorem State.setQueue_stage (s : State) (q : Nat) (x : Queue) : (s.setQueue q x).stage = s.stage := rfl
@[simp] theorem State.setQueue_fuses (s : State) (q : Nat) (x : Queue) : (s.setQueue q x).fuses = s.fuses := rfl
@[simp] theorem State.setQueue_flash (s : State) (q : Nat) (x : Queue) : (s.setQueue q x).flash = s.flash := rfl
@[simp] theorem State.setQueue_boot (s : State) (q : Nat) (x : Queue) : (s.setQueue q x).boot = s.boot := rfl
@[simp] theorem State.setQueue_dict (s : State) (q : Nat) (x : Queue) : (s.setQueue q x).dict = s.dict := rfl
@[simp] theorem State.setQueue_blobs (s : State) (q : Nat) (x : Queue) : (s.setQueue q x).blobs = s.blobs := rfl
@[simp] theorem State.setQueue_host (s : State) (q : Nat) (x : Queue) : (s.setQueue q x).host = s.host := rfl
@[simp] theorem State.setQueue_mgmt (s : State) (q : Nat) (x : Queue) : (s.setQueue q x).mgmt = s.mgmt := rfl
@[simp] theorem State.setQueue_tempo (s : State) (q : Nat) (x : Queue) : (s.setQueue q x).tempo = s.tempo := rfl
@[simp] theorem State.setQueue_cps (s : State) (q : Nat) (x : Queue) : (s.setQueue q x).cps = s.cps := rfl
@[simp] theorem State.setQueue_train (s : State) (q : Nat) (x : Queue) : (s.setQueue q x).train = s.train := rfl
@[simp] theorem State.setQueue_bells (s : State) (q : Nat) (x : Queue) : (s.setQueue q x).bells = s.bells := rfl
@[simp] theorem State.setQueue_watches (s : State) (q : Nat) (x : Queue) : (s.setQueue q x).watches = s.watches := rfl
@[simp] theorem State.setQueue_scheds (s : State) (q : Nat) (x : Queue) : (s.setQueue q x).scheds = s.scheds := rfl
@[simp] theorem State.setQueue_remScheds (s : State) (q : Nat) (x : Queue) : (s.setQueue q x).remScheds = s.remScheds := rfl
@[simp] theorem State.setQueue_arrays (s : State) (q : Nat) (x : Queue) : (s.setQueue q x).arrays = s.arrays := rfl
@[simp] theorem State.setQueue_ves (s : State) (q : Nat) (x : Queue) : (s.setQueue q x).ves = s.ves := rfl
@[simp] theorem State.setQueue_lanes (s : State) (q : Nat) (x : Queue) : (s.setQueue q x).lanes = s.lanes := rfl
@[simp] theorem State.setQueue_mem (s : State) (q : Nat) (x : Queue) : (s.setQueue q x).mem = s.mem := rfl
@[simp] theorem State.setQueue_poison (s : State) (q : Nat) (x : Queue) : (s.setQueue q x).poison = s.poison := rfl
@[simp] theorem State.setQueue_tiers (s : State) (q : Nat) (x : Queue) : (s.setQueue q x).tiers = s.tiers := rfl
@[simp] theorem State.setQueue_hbms (s : State) (q : Nat) (x : Queue) : (s.setQueue q x).hbms = s.hbms := rfl
@[simp] theorem State.setQueue_rcs (s : State) (q : Nat) (x : Queue) : (s.setQueue q x).rcs = s.rcs := rfl
@[simp] theorem State.setQueue_pairs (s : State) (q : Nat) (x : Queue) : (s.setQueue q x).pairs = s.pairs := rfl
@[simp] theorem State.setQueue_flight (s : State) (q : Nat) (x : Queue) : (s.setQueue q x).flight = s.flight := rfl
@[simp] theorem State.setQueue_d2dReqs (s : State) (q : Nat) (x : Queue) : (s.setQueue q x).d2dReqs = s.d2dReqs := rfl
@[simp] theorem State.setQueue_fab (s : State) (q : Nat) (x : Queue) : (s.setQueue q x).fab = s.fab := rfl
@[simp] theorem State.setQueue_fibres (s : State) (q : Nat) (x : Queue) : (s.setQueue q x).fibres = s.fibres := rfl
@[simp] theorem State.setQueue_portMaps (s : State) (q : Nat) (x : Queue) : (s.setQueue q x).portMaps = s.portMaps := rfl
@[simp] theorem State.setQueue_banks (s : State) (q : Nat) (x : Queue) : (s.setQueue q x).banks = s.banks := rfl
@[simp] theorem State.setQueue_coll (s : State) (q : Nat) (x : Queue) : (s.setQueue q x).coll = s.coll := rfl
@[simp] theorem State.setQueue_res (s : State) (q : Nat) (x : Queue) : (s.setQueue q x).res = s.res := rfl
@[simp] theorem State.setQueue_health (s : State) (q : Nat) (x : Queue) : (s.setQueue q x).health = s.health := rfl
@[simp] theorem State.setQueue_therms (s : State) (q : Nat) (x : Queue) : (s.setQueue q x).therms = s.therms := rfl
@[simp] theorem State.setQueue_power (s : State) (q : Nat) (x : Queue) : (s.setQueue q x).power = s.power := rfl
@[simp] theorem State.setQueue_stretch (s : State) (q : Nat) (x : Queue) : (s.setQueue q x).stretch = s.stretch := rfl
@[simp] theorem State.setQueue_rings (s : State) (q : Nat) (x : Queue) : (s.setQueue q x).rings = s.rings := rfl
@[simp] theorem State.setQueue_stackMask (s : State) (q : Nat) (x : Queue) : (s.setQueue q x).stackMask = s.stackMask := rfl
@[simp] theorem State.setQueue_dieReset (s : State) (q : Nat) (x : Queue) : (s.setQueue q x).dieReset = s.dieReset := rfl
@[simp] theorem State.setQueue_swaps (s : State) (q : Nat) (x : Queue) : (s.setQueue q x).swaps = s.swaps := rfl

/-! ### setCp -/

@[simp] theorem State.setCp_pending (s : State) (d : Nat) (x : Cp) : (s.setCp d x).pending = s.pending := rfl
@[simp] theorem State.setCp_free (s : State) (d : Nat) (x : Cp) : (s.setCp d x).free = s.free := rfl
@[simp] theorem State.setCp_out (s : State) (d : Nat) (x : Cp) : (s.setCp d x).out = s.out := rfl
@[simp] theorem State.setCp_stage (s : State) (d : Nat) (x : Cp) : (s.setCp d x).stage = s.stage := rfl
@[simp] theorem State.setCp_fuses (s : State) (d : Nat) (x : Cp) : (s.setCp d x).fuses = s.fuses := rfl
@[simp] theorem State.setCp_flash (s : State) (d : Nat) (x : Cp) : (s.setCp d x).flash = s.flash := rfl
@[simp] theorem State.setCp_boot (s : State) (d : Nat) (x : Cp) : (s.setCp d x).boot = s.boot := rfl
@[simp] theorem State.setCp_dict (s : State) (d : Nat) (x : Cp) : (s.setCp d x).dict = s.dict := rfl
@[simp] theorem State.setCp_blobs (s : State) (d : Nat) (x : Cp) : (s.setCp d x).blobs = s.blobs := rfl
@[simp] theorem State.setCp_host (s : State) (d : Nat) (x : Cp) : (s.setCp d x).host = s.host := rfl
@[simp] theorem State.setCp_mgmt (s : State) (d : Nat) (x : Cp) : (s.setCp d x).mgmt = s.mgmt := rfl
@[simp] theorem State.setCp_tempo (s : State) (d : Nat) (x : Cp) : (s.setCp d x).tempo = s.tempo := rfl
@[simp] theorem State.setCp_queues (s : State) (d : Nat) (x : Cp) : (s.setCp d x).queues = s.queues := rfl
@[simp] theorem State.setCp_train (s : State) (d : Nat) (x : Cp) : (s.setCp d x).train = s.train := rfl
@[simp] theorem State.setCp_bells (s : State) (d : Nat) (x : Cp) : (s.setCp d x).bells = s.bells := rfl
@[simp] theorem State.setCp_watches (s : State) (d : Nat) (x : Cp) : (s.setCp d x).watches = s.watches := rfl
@[simp] theorem State.setCp_scheds (s : State) (d : Nat) (x : Cp) : (s.setCp d x).scheds = s.scheds := rfl
@[simp] theorem State.setCp_remScheds (s : State) (d : Nat) (x : Cp) : (s.setCp d x).remScheds = s.remScheds := rfl
@[simp] theorem State.setCp_arrays (s : State) (d : Nat) (x : Cp) : (s.setCp d x).arrays = s.arrays := rfl
@[simp] theorem State.setCp_ves (s : State) (d : Nat) (x : Cp) : (s.setCp d x).ves = s.ves := rfl
@[simp] theorem State.setCp_lanes (s : State) (d : Nat) (x : Cp) : (s.setCp d x).lanes = s.lanes := rfl
@[simp] theorem State.setCp_mem (s : State) (d : Nat) (x : Cp) : (s.setCp d x).mem = s.mem := rfl
@[simp] theorem State.setCp_poison (s : State) (d : Nat) (x : Cp) : (s.setCp d x).poison = s.poison := rfl
@[simp] theorem State.setCp_tiers (s : State) (d : Nat) (x : Cp) : (s.setCp d x).tiers = s.tiers := rfl
@[simp] theorem State.setCp_hbms (s : State) (d : Nat) (x : Cp) : (s.setCp d x).hbms = s.hbms := rfl
@[simp] theorem State.setCp_rcs (s : State) (d : Nat) (x : Cp) : (s.setCp d x).rcs = s.rcs := rfl
@[simp] theorem State.setCp_pairs (s : State) (d : Nat) (x : Cp) : (s.setCp d x).pairs = s.pairs := rfl
@[simp] theorem State.setCp_flight (s : State) (d : Nat) (x : Cp) : (s.setCp d x).flight = s.flight := rfl
@[simp] theorem State.setCp_d2dReqs (s : State) (d : Nat) (x : Cp) : (s.setCp d x).d2dReqs = s.d2dReqs := rfl
@[simp] theorem State.setCp_fab (s : State) (d : Nat) (x : Cp) : (s.setCp d x).fab = s.fab := rfl
@[simp] theorem State.setCp_fibres (s : State) (d : Nat) (x : Cp) : (s.setCp d x).fibres = s.fibres := rfl
@[simp] theorem State.setCp_portMaps (s : State) (d : Nat) (x : Cp) : (s.setCp d x).portMaps = s.portMaps := rfl
@[simp] theorem State.setCp_banks (s : State) (d : Nat) (x : Cp) : (s.setCp d x).banks = s.banks := rfl
@[simp] theorem State.setCp_coll (s : State) (d : Nat) (x : Cp) : (s.setCp d x).coll = s.coll := rfl
@[simp] theorem State.setCp_res (s : State) (d : Nat) (x : Cp) : (s.setCp d x).res = s.res := rfl
@[simp] theorem State.setCp_health (s : State) (d : Nat) (x : Cp) : (s.setCp d x).health = s.health := rfl
@[simp] theorem State.setCp_therms (s : State) (d : Nat) (x : Cp) : (s.setCp d x).therms = s.therms := rfl
@[simp] theorem State.setCp_power (s : State) (d : Nat) (x : Cp) : (s.setCp d x).power = s.power := rfl
@[simp] theorem State.setCp_stretch (s : State) (d : Nat) (x : Cp) : (s.setCp d x).stretch = s.stretch := rfl
@[simp] theorem State.setCp_rings (s : State) (d : Nat) (x : Cp) : (s.setCp d x).rings = s.rings := rfl
@[simp] theorem State.setCp_stackMask (s : State) (d : Nat) (x : Cp) : (s.setCp d x).stackMask = s.stackMask := rfl
@[simp] theorem State.setCp_dieReset (s : State) (d : Nat) (x : Cp) : (s.setCp d x).dieReset = s.dieReset := rfl
@[simp] theorem State.setCp_swaps (s : State) (d : Nat) (x : Cp) : (s.setCp d x).swaps = s.swaps := rfl

/-! ### setArr -/

@[simp] theorem State.setArr_pending (s : State) (a : Nat) (x : Arr) : (s.setArr a x).pending = s.pending := rfl
@[simp] theorem State.setArr_free (s : State) (a : Nat) (x : Arr) : (s.setArr a x).free = s.free := rfl
@[simp] theorem State.setArr_out (s : State) (a : Nat) (x : Arr) : (s.setArr a x).out = s.out := rfl
@[simp] theorem State.setArr_stage (s : State) (a : Nat) (x : Arr) : (s.setArr a x).stage = s.stage := rfl
@[simp] theorem State.setArr_fuses (s : State) (a : Nat) (x : Arr) : (s.setArr a x).fuses = s.fuses := rfl
@[simp] theorem State.setArr_flash (s : State) (a : Nat) (x : Arr) : (s.setArr a x).flash = s.flash := rfl
@[simp] theorem State.setArr_boot (s : State) (a : Nat) (x : Arr) : (s.setArr a x).boot = s.boot := rfl
@[simp] theorem State.setArr_dict (s : State) (a : Nat) (x : Arr) : (s.setArr a x).dict = s.dict := rfl
@[simp] theorem State.setArr_blobs (s : State) (a : Nat) (x : Arr) : (s.setArr a x).blobs = s.blobs := rfl
@[simp] theorem State.setArr_host (s : State) (a : Nat) (x : Arr) : (s.setArr a x).host = s.host := rfl
@[simp] theorem State.setArr_mgmt (s : State) (a : Nat) (x : Arr) : (s.setArr a x).mgmt = s.mgmt := rfl
@[simp] theorem State.setArr_tempo (s : State) (a : Nat) (x : Arr) : (s.setArr a x).tempo = s.tempo := rfl
@[simp] theorem State.setArr_queues (s : State) (a : Nat) (x : Arr) : (s.setArr a x).queues = s.queues := rfl
@[simp] theorem State.setArr_cps (s : State) (a : Nat) (x : Arr) : (s.setArr a x).cps = s.cps := rfl
@[simp] theorem State.setArr_train (s : State) (a : Nat) (x : Arr) : (s.setArr a x).train = s.train := rfl
@[simp] theorem State.setArr_bells (s : State) (a : Nat) (x : Arr) : (s.setArr a x).bells = s.bells := rfl
@[simp] theorem State.setArr_watches (s : State) (a : Nat) (x : Arr) : (s.setArr a x).watches = s.watches := rfl
@[simp] theorem State.setArr_scheds (s : State) (a : Nat) (x : Arr) : (s.setArr a x).scheds = s.scheds := rfl
@[simp] theorem State.setArr_remScheds (s : State) (a : Nat) (x : Arr) : (s.setArr a x).remScheds = s.remScheds := rfl
@[simp] theorem State.setArr_ves (s : State) (a : Nat) (x : Arr) : (s.setArr a x).ves = s.ves := rfl
@[simp] theorem State.setArr_lanes (s : State) (a : Nat) (x : Arr) : (s.setArr a x).lanes = s.lanes := rfl
@[simp] theorem State.setArr_mem (s : State) (a : Nat) (x : Arr) : (s.setArr a x).mem = s.mem := rfl
@[simp] theorem State.setArr_poison (s : State) (a : Nat) (x : Arr) : (s.setArr a x).poison = s.poison := rfl
@[simp] theorem State.setArr_tiers (s : State) (a : Nat) (x : Arr) : (s.setArr a x).tiers = s.tiers := rfl
@[simp] theorem State.setArr_hbms (s : State) (a : Nat) (x : Arr) : (s.setArr a x).hbms = s.hbms := rfl
@[simp] theorem State.setArr_rcs (s : State) (a : Nat) (x : Arr) : (s.setArr a x).rcs = s.rcs := rfl
@[simp] theorem State.setArr_pairs (s : State) (a : Nat) (x : Arr) : (s.setArr a x).pairs = s.pairs := rfl
@[simp] theorem State.setArr_flight (s : State) (a : Nat) (x : Arr) : (s.setArr a x).flight = s.flight := rfl
@[simp] theorem State.setArr_d2dReqs (s : State) (a : Nat) (x : Arr) : (s.setArr a x).d2dReqs = s.d2dReqs := rfl
@[simp] theorem State.setArr_fab (s : State) (a : Nat) (x : Arr) : (s.setArr a x).fab = s.fab := rfl
@[simp] theorem State.setArr_fibres (s : State) (a : Nat) (x : Arr) : (s.setArr a x).fibres = s.fibres := rfl
@[simp] theorem State.setArr_portMaps (s : State) (a : Nat) (x : Arr) : (s.setArr a x).portMaps = s.portMaps := rfl
@[simp] theorem State.setArr_banks (s : State) (a : Nat) (x : Arr) : (s.setArr a x).banks = s.banks := rfl
@[simp] theorem State.setArr_coll (s : State) (a : Nat) (x : Arr) : (s.setArr a x).coll = s.coll := rfl
@[simp] theorem State.setArr_res (s : State) (a : Nat) (x : Arr) : (s.setArr a x).res = s.res := rfl
@[simp] theorem State.setArr_health (s : State) (a : Nat) (x : Arr) : (s.setArr a x).health = s.health := rfl
@[simp] theorem State.setArr_therms (s : State) (a : Nat) (x : Arr) : (s.setArr a x).therms = s.therms := rfl
@[simp] theorem State.setArr_power (s : State) (a : Nat) (x : Arr) : (s.setArr a x).power = s.power := rfl
@[simp] theorem State.setArr_stretch (s : State) (a : Nat) (x : Arr) : (s.setArr a x).stretch = s.stretch := rfl
@[simp] theorem State.setArr_rings (s : State) (a : Nat) (x : Arr) : (s.setArr a x).rings = s.rings := rfl
@[simp] theorem State.setArr_stackMask (s : State) (a : Nat) (x : Arr) : (s.setArr a x).stackMask = s.stackMask := rfl
@[simp] theorem State.setArr_dieReset (s : State) (a : Nat) (x : Arr) : (s.setArr a x).dieReset = s.dieReset := rfl
@[simp] theorem State.setArr_swaps (s : State) (a : Nat) (x : Arr) : (s.setArr a x).swaps = s.swaps := rfl

/-! ### setVe -/

@[simp] theorem State.setVe_pending (s : State) (d : Nat) (x : Ve) : (s.setVe d x).pending = s.pending := rfl
@[simp] theorem State.setVe_free (s : State) (d : Nat) (x : Ve) : (s.setVe d x).free = s.free := rfl
@[simp] theorem State.setVe_out (s : State) (d : Nat) (x : Ve) : (s.setVe d x).out = s.out := rfl
@[simp] theorem State.setVe_stage (s : State) (d : Nat) (x : Ve) : (s.setVe d x).stage = s.stage := rfl
@[simp] theorem State.setVe_fuses (s : State) (d : Nat) (x : Ve) : (s.setVe d x).fuses = s.fuses := rfl
@[simp] theorem State.setVe_flash (s : State) (d : Nat) (x : Ve) : (s.setVe d x).flash = s.flash := rfl
@[simp] theorem State.setVe_boot (s : State) (d : Nat) (x : Ve) : (s.setVe d x).boot = s.boot := rfl
@[simp] theorem State.setVe_dict (s : State) (d : Nat) (x : Ve) : (s.setVe d x).dict = s.dict := rfl
@[simp] theorem State.setVe_blobs (s : State) (d : Nat) (x : Ve) : (s.setVe d x).blobs = s.blobs := rfl
@[simp] theorem State.setVe_host (s : State) (d : Nat) (x : Ve) : (s.setVe d x).host = s.host := rfl
@[simp] theorem State.setVe_mgmt (s : State) (d : Nat) (x : Ve) : (s.setVe d x).mgmt = s.mgmt := rfl
@[simp] theorem State.setVe_tempo (s : State) (d : Nat) (x : Ve) : (s.setVe d x).tempo = s.tempo := rfl
@[simp] theorem State.setVe_queues (s : State) (d : Nat) (x : Ve) : (s.setVe d x).queues = s.queues := rfl
@[simp] theorem State.setVe_cps (s : State) (d : Nat) (x : Ve) : (s.setVe d x).cps = s.cps := rfl
@[simp] theorem State.setVe_train (s : State) (d : Nat) (x : Ve) : (s.setVe d x).train = s.train := rfl
@[simp] theorem State.setVe_bells (s : State) (d : Nat) (x : Ve) : (s.setVe d x).bells = s.bells := rfl
@[simp] theorem State.setVe_watches (s : State) (d : Nat) (x : Ve) : (s.setVe d x).watches = s.watches := rfl
@[simp] theorem State.setVe_scheds (s : State) (d : Nat) (x : Ve) : (s.setVe d x).scheds = s.scheds := rfl
@[simp] theorem State.setVe_remScheds (s : State) (d : Nat) (x : Ve) : (s.setVe d x).remScheds = s.remScheds := rfl
@[simp] theorem State.setVe_arrays (s : State) (d : Nat) (x : Ve) : (s.setVe d x).arrays = s.arrays := rfl
@[simp] theorem State.setVe_lanes (s : State) (d : Nat) (x : Ve) : (s.setVe d x).lanes = s.lanes := rfl
@[simp] theorem State.setVe_mem (s : State) (d : Nat) (x : Ve) : (s.setVe d x).mem = s.mem := rfl
@[simp] theorem State.setVe_poison (s : State) (d : Nat) (x : Ve) : (s.setVe d x).poison = s.poison := rfl
@[simp] theorem State.setVe_tiers (s : State) (d : Nat) (x : Ve) : (s.setVe d x).tiers = s.tiers := rfl
@[simp] theorem State.setVe_hbms (s : State) (d : Nat) (x : Ve) : (s.setVe d x).hbms = s.hbms := rfl
@[simp] theorem State.setVe_rcs (s : State) (d : Nat) (x : Ve) : (s.setVe d x).rcs = s.rcs := rfl
@[simp] theorem State.setVe_pairs (s : State) (d : Nat) (x : Ve) : (s.setVe d x).pairs = s.pairs := rfl
@[simp] theorem State.setVe_flight (s : State) (d : Nat) (x : Ve) : (s.setVe d x).flight = s.flight := rfl
@[simp] theorem State.setVe_d2dReqs (s : State) (d : Nat) (x : Ve) : (s.setVe d x).d2dReqs = s.d2dReqs := rfl
@[simp] theorem State.setVe_fab (s : State) (d : Nat) (x : Ve) : (s.setVe d x).fab = s.fab := rfl
@[simp] theorem State.setVe_fibres (s : State) (d : Nat) (x : Ve) : (s.setVe d x).fibres = s.fibres := rfl
@[simp] theorem State.setVe_portMaps (s : State) (d : Nat) (x : Ve) : (s.setVe d x).portMaps = s.portMaps := rfl
@[simp] theorem State.setVe_banks (s : State) (d : Nat) (x : Ve) : (s.setVe d x).banks = s.banks := rfl
@[simp] theorem State.setVe_coll (s : State) (d : Nat) (x : Ve) : (s.setVe d x).coll = s.coll := rfl
@[simp] theorem State.setVe_res (s : State) (d : Nat) (x : Ve) : (s.setVe d x).res = s.res := rfl
@[simp] theorem State.setVe_health (s : State) (d : Nat) (x : Ve) : (s.setVe d x).health = s.health := rfl
@[simp] theorem State.setVe_therms (s : State) (d : Nat) (x : Ve) : (s.setVe d x).therms = s.therms := rfl
@[simp] theorem State.setVe_power (s : State) (d : Nat) (x : Ve) : (s.setVe d x).power = s.power := rfl
@[simp] theorem State.setVe_stretch (s : State) (d : Nat) (x : Ve) : (s.setVe d x).stretch = s.stretch := rfl
@[simp] theorem State.setVe_rings (s : State) (d : Nat) (x : Ve) : (s.setVe d x).rings = s.rings := rfl
@[simp] theorem State.setVe_stackMask (s : State) (d : Nat) (x : Ve) : (s.setVe d x).stackMask = s.stackMask := rfl
@[simp] theorem State.setVe_dieReset (s : State) (d : Nat) (x : Ve) : (s.setVe d x).dieReset = s.dieReset := rfl
@[simp] theorem State.setVe_swaps (s : State) (d : Nat) (x : Ve) : (s.setVe d x).swaps = s.swaps := rfl

/-! ### setLane -/

@[simp] theorem State.setLane_pending (s : State) (d : Nat) (x : List UpdReq) : (s.setLane d x).pending = s.pending := rfl
@[simp] theorem State.setLane_free (s : State) (d : Nat) (x : List UpdReq) : (s.setLane d x).free = s.free := rfl
@[simp] theorem State.setLane_out (s : State) (d : Nat) (x : List UpdReq) : (s.setLane d x).out = s.out := rfl
@[simp] theorem State.setLane_stage (s : State) (d : Nat) (x : List UpdReq) : (s.setLane d x).stage = s.stage := rfl
@[simp] theorem State.setLane_fuses (s : State) (d : Nat) (x : List UpdReq) : (s.setLane d x).fuses = s.fuses := rfl
@[simp] theorem State.setLane_flash (s : State) (d : Nat) (x : List UpdReq) : (s.setLane d x).flash = s.flash := rfl
@[simp] theorem State.setLane_boot (s : State) (d : Nat) (x : List UpdReq) : (s.setLane d x).boot = s.boot := rfl
@[simp] theorem State.setLane_dict (s : State) (d : Nat) (x : List UpdReq) : (s.setLane d x).dict = s.dict := rfl
@[simp] theorem State.setLane_blobs (s : State) (d : Nat) (x : List UpdReq) : (s.setLane d x).blobs = s.blobs := rfl
@[simp] theorem State.setLane_host (s : State) (d : Nat) (x : List UpdReq) : (s.setLane d x).host = s.host := rfl
@[simp] theorem State.setLane_mgmt (s : State) (d : Nat) (x : List UpdReq) : (s.setLane d x).mgmt = s.mgmt := rfl
@[simp] theorem State.setLane_tempo (s : State) (d : Nat) (x : List UpdReq) : (s.setLane d x).tempo = s.tempo := rfl
@[simp] theorem State.setLane_queues (s : State) (d : Nat) (x : List UpdReq) : (s.setLane d x).queues = s.queues := rfl
@[simp] theorem State.setLane_cps (s : State) (d : Nat) (x : List UpdReq) : (s.setLane d x).cps = s.cps := rfl
@[simp] theorem State.setLane_train (s : State) (d : Nat) (x : List UpdReq) : (s.setLane d x).train = s.train := rfl
@[simp] theorem State.setLane_bells (s : State) (d : Nat) (x : List UpdReq) : (s.setLane d x).bells = s.bells := rfl
@[simp] theorem State.setLane_watches (s : State) (d : Nat) (x : List UpdReq) : (s.setLane d x).watches = s.watches := rfl
@[simp] theorem State.setLane_scheds (s : State) (d : Nat) (x : List UpdReq) : (s.setLane d x).scheds = s.scheds := rfl
@[simp] theorem State.setLane_remScheds (s : State) (d : Nat) (x : List UpdReq) : (s.setLane d x).remScheds = s.remScheds := rfl
@[simp] theorem State.setLane_arrays (s : State) (d : Nat) (x : List UpdReq) : (s.setLane d x).arrays = s.arrays := rfl
@[simp] theorem State.setLane_ves (s : State) (d : Nat) (x : List UpdReq) : (s.setLane d x).ves = s.ves := rfl
@[simp] theorem State.setLane_mem (s : State) (d : Nat) (x : List UpdReq) : (s.setLane d x).mem = s.mem := rfl
@[simp] theorem State.setLane_poison (s : State) (d : Nat) (x : List UpdReq) : (s.setLane d x).poison = s.poison := rfl
@[simp] theorem State.setLane_tiers (s : State) (d : Nat) (x : List UpdReq) : (s.setLane d x).tiers = s.tiers := rfl
@[simp] theorem State.setLane_hbms (s : State) (d : Nat) (x : List UpdReq) : (s.setLane d x).hbms = s.hbms := rfl
@[simp] theorem State.setLane_rcs (s : State) (d : Nat) (x : List UpdReq) : (s.setLane d x).rcs = s.rcs := rfl
@[simp] theorem State.setLane_pairs (s : State) (d : Nat) (x : List UpdReq) : (s.setLane d x).pairs = s.pairs := rfl
@[simp] theorem State.setLane_flight (s : State) (d : Nat) (x : List UpdReq) : (s.setLane d x).flight = s.flight := rfl
@[simp] theorem State.setLane_d2dReqs (s : State) (d : Nat) (x : List UpdReq) : (s.setLane d x).d2dReqs = s.d2dReqs := rfl
@[simp] theorem State.setLane_fab (s : State) (d : Nat) (x : List UpdReq) : (s.setLane d x).fab = s.fab := rfl
@[simp] theorem State.setLane_fibres (s : State) (d : Nat) (x : List UpdReq) : (s.setLane d x).fibres = s.fibres := rfl
@[simp] theorem State.setLane_portMaps (s : State) (d : Nat) (x : List UpdReq) : (s.setLane d x).portMaps = s.portMaps := rfl
@[simp] theorem State.setLane_banks (s : State) (d : Nat) (x : List UpdReq) : (s.setLane d x).banks = s.banks := rfl
@[simp] theorem State.setLane_coll (s : State) (d : Nat) (x : List UpdReq) : (s.setLane d x).coll = s.coll := rfl
@[simp] theorem State.setLane_res (s : State) (d : Nat) (x : List UpdReq) : (s.setLane d x).res = s.res := rfl
@[simp] theorem State.setLane_health (s : State) (d : Nat) (x : List UpdReq) : (s.setLane d x).health = s.health := rfl
@[simp] theorem State.setLane_therms (s : State) (d : Nat) (x : List UpdReq) : (s.setLane d x).therms = s.therms := rfl
@[simp] theorem State.setLane_power (s : State) (d : Nat) (x : List UpdReq) : (s.setLane d x).power = s.power := rfl
@[simp] theorem State.setLane_stretch (s : State) (d : Nat) (x : List UpdReq) : (s.setLane d x).stretch = s.stretch := rfl
@[simp] theorem State.setLane_rings (s : State) (d : Nat) (x : List UpdReq) : (s.setLane d x).rings = s.rings := rfl
@[simp] theorem State.setLane_stackMask (s : State) (d : Nat) (x : List UpdReq) : (s.setLane d x).stackMask = s.stackMask := rfl
@[simp] theorem State.setLane_dieReset (s : State) (d : Nat) (x : List UpdReq) : (s.setLane d x).dieReset = s.dieReset := rfl
@[simp] theorem State.setLane_swaps (s : State) (d : Nat) (x : List UpdReq) : (s.setLane d x).swaps = s.swaps := rfl

/-! ### setTier -/

@[simp] theorem State.setTier_pending (s : State) (d : Nat) (x : Tier) : (s.setTier d x).pending = s.pending := rfl
@[simp] theorem State.setTier_free (s : State) (d : Nat) (x : Tier) : (s.setTier d x).free = s.free := rfl
@[simp] theorem State.setTier_out (s : State) (d : Nat) (x : Tier) : (s.setTier d x).out = s.out := rfl
@[simp] theorem State.setTier_stage (s : State) (d : Nat) (x : Tier) : (s.setTier d x).stage = s.stage := rfl
@[simp] theorem State.setTier_fuses (s : State) (d : Nat) (x : Tier) : (s.setTier d x).fuses = s.fuses := rfl
@[simp] theorem State.setTier_flash (s : State) (d : Nat) (x : Tier) : (s.setTier d x).flash = s.flash := rfl
@[simp] theorem State.setTier_boot (s : State) (d : Nat) (x : Tier) : (s.setTier d x).boot = s.boot := rfl
@[simp] theorem State.setTier_dict (s : State) (d : Nat) (x : Tier) : (s.setTier d x).dict = s.dict := rfl
@[simp] theorem State.setTier_blobs (s : State) (d : Nat) (x : Tier) : (s.setTier d x).blobs = s.blobs := rfl
@[simp] theorem State.setTier_host (s : State) (d : Nat) (x : Tier) : (s.setTier d x).host = s.host := rfl
@[simp] theorem State.setTier_mgmt (s : State) (d : Nat) (x : Tier) : (s.setTier d x).mgmt = s.mgmt := rfl
@[simp] theorem State.setTier_tempo (s : State) (d : Nat) (x : Tier) : (s.setTier d x).tempo = s.tempo := rfl
@[simp] theorem State.setTier_queues (s : State) (d : Nat) (x : Tier) : (s.setTier d x).queues = s.queues := rfl
@[simp] theorem State.setTier_cps (s : State) (d : Nat) (x : Tier) : (s.setTier d x).cps = s.cps := rfl
@[simp] theorem State.setTier_train (s : State) (d : Nat) (x : Tier) : (s.setTier d x).train = s.train := rfl
@[simp] theorem State.setTier_bells (s : State) (d : Nat) (x : Tier) : (s.setTier d x).bells = s.bells := rfl
@[simp] theorem State.setTier_watches (s : State) (d : Nat) (x : Tier) : (s.setTier d x).watches = s.watches := rfl
@[simp] theorem State.setTier_scheds (s : State) (d : Nat) (x : Tier) : (s.setTier d x).scheds = s.scheds := rfl
@[simp] theorem State.setTier_remScheds (s : State) (d : Nat) (x : Tier) : (s.setTier d x).remScheds = s.remScheds := rfl
@[simp] theorem State.setTier_arrays (s : State) (d : Nat) (x : Tier) : (s.setTier d x).arrays = s.arrays := rfl
@[simp] theorem State.setTier_ves (s : State) (d : Nat) (x : Tier) : (s.setTier d x).ves = s.ves := rfl
@[simp] theorem State.setTier_lanes (s : State) (d : Nat) (x : Tier) : (s.setTier d x).lanes = s.lanes := rfl
@[simp] theorem State.setTier_mem (s : State) (d : Nat) (x : Tier) : (s.setTier d x).mem = s.mem := rfl
@[simp] theorem State.setTier_poison (s : State) (d : Nat) (x : Tier) : (s.setTier d x).poison = s.poison := rfl
@[simp] theorem State.setTier_hbms (s : State) (d : Nat) (x : Tier) : (s.setTier d x).hbms = s.hbms := rfl
@[simp] theorem State.setTier_rcs (s : State) (d : Nat) (x : Tier) : (s.setTier d x).rcs = s.rcs := rfl
@[simp] theorem State.setTier_pairs (s : State) (d : Nat) (x : Tier) : (s.setTier d x).pairs = s.pairs := rfl
@[simp] theorem State.setTier_flight (s : State) (d : Nat) (x : Tier) : (s.setTier d x).flight = s.flight := rfl
@[simp] theorem State.setTier_d2dReqs (s : State) (d : Nat) (x : Tier) : (s.setTier d x).d2dReqs = s.d2dReqs := rfl
@[simp] theorem State.setTier_fab (s : State) (d : Nat) (x : Tier) : (s.setTier d x).fab = s.fab := rfl
@[simp] theorem State.setTier_fibres (s : State) (d : Nat) (x : Tier) : (s.setTier d x).fibres = s.fibres := rfl
@[simp] theorem State.setTier_portMaps (s : State) (d : Nat) (x : Tier) : (s.setTier d x).portMaps = s.portMaps := rfl
@[simp] theorem State.setTier_banks (s : State) (d : Nat) (x : Tier) : (s.setTier d x).banks = s.banks := rfl
@[simp] theorem State.setTier_coll (s : State) (d : Nat) (x : Tier) : (s.setTier d x).coll = s.coll := rfl
@[simp] theorem State.setTier_res (s : State) (d : Nat) (x : Tier) : (s.setTier d x).res = s.res := rfl
@[simp] theorem State.setTier_health (s : State) (d : Nat) (x : Tier) : (s.setTier d x).health = s.health := rfl
@[simp] theorem State.setTier_therms (s : State) (d : Nat) (x : Tier) : (s.setTier d x).therms = s.therms := rfl
@[simp] theorem State.setTier_power (s : State) (d : Nat) (x : Tier) : (s.setTier d x).power = s.power := rfl
@[simp] theorem State.setTier_stretch (s : State) (d : Nat) (x : Tier) : (s.setTier d x).stretch = s.stretch := rfl
@[simp] theorem State.setTier_rings (s : State) (d : Nat) (x : Tier) : (s.setTier d x).rings = s.rings := rfl
@[simp] theorem State.setTier_stackMask (s : State) (d : Nat) (x : Tier) : (s.setTier d x).stackMask = s.stackMask := rfl
@[simp] theorem State.setTier_dieReset (s : State) (d : Nat) (x : Tier) : (s.setTier d x).dieReset = s.dieReset := rfl
@[simp] theorem State.setTier_swaps (s : State) (d : Nat) (x : Tier) : (s.setTier d x).swaps = s.swaps := rfl

/-! ### setHbm -/

@[simp] theorem State.setHbm_pending (s : State) (d : Nat) (x : Hbm) : (s.setHbm d x).pending = s.pending := rfl
@[simp] theorem State.setHbm_free (s : State) (d : Nat) (x : Hbm) : (s.setHbm d x).free = s.free := rfl
@[simp] theorem State.setHbm_out (s : State) (d : Nat) (x : Hbm) : (s.setHbm d x).out = s.out := rfl
@[simp] theorem State.setHbm_stage (s : State) (d : Nat) (x : Hbm) : (s.setHbm d x).stage = s.stage := rfl
@[simp] theorem State.setHbm_fuses (s : State) (d : Nat) (x : Hbm) : (s.setHbm d x).fuses = s.fuses := rfl
@[simp] theorem State.setHbm_flash (s : State) (d : Nat) (x : Hbm) : (s.setHbm d x).flash = s.flash := rfl
@[simp] theorem State.setHbm_boot (s : State) (d : Nat) (x : Hbm) : (s.setHbm d x).boot = s.boot := rfl
@[simp] theorem State.setHbm_dict (s : State) (d : Nat) (x : Hbm) : (s.setHbm d x).dict = s.dict := rfl
@[simp] theorem State.setHbm_blobs (s : State) (d : Nat) (x : Hbm) : (s.setHbm d x).blobs = s.blobs := rfl
@[simp] theorem State.setHbm_host (s : State) (d : Nat) (x : Hbm) : (s.setHbm d x).host = s.host := rfl
@[simp] theorem State.setHbm_mgmt (s : State) (d : Nat) (x : Hbm) : (s.setHbm d x).mgmt = s.mgmt := rfl
@[simp] theorem State.setHbm_tempo (s : State) (d : Nat) (x : Hbm) : (s.setHbm d x).tempo = s.tempo := rfl
@[simp] theorem State.setHbm_queues (s : State) (d : Nat) (x : Hbm) : (s.setHbm d x).queues = s.queues := rfl
@[simp] theorem State.setHbm_cps (s : State) (d : Nat) (x : Hbm) : (s.setHbm d x).cps = s.cps := rfl
@[simp] theorem State.setHbm_train (s : State) (d : Nat) (x : Hbm) : (s.setHbm d x).train = s.train := rfl
@[simp] theorem State.setHbm_bells (s : State) (d : Nat) (x : Hbm) : (s.setHbm d x).bells = s.bells := rfl
@[simp] theorem State.setHbm_watches (s : State) (d : Nat) (x : Hbm) : (s.setHbm d x).watches = s.watches := rfl
@[simp] theorem State.setHbm_scheds (s : State) (d : Nat) (x : Hbm) : (s.setHbm d x).scheds = s.scheds := rfl
@[simp] theorem State.setHbm_remScheds (s : State) (d : Nat) (x : Hbm) : (s.setHbm d x).remScheds = s.remScheds := rfl
@[simp] theorem State.setHbm_arrays (s : State) (d : Nat) (x : Hbm) : (s.setHbm d x).arrays = s.arrays := rfl
@[simp] theorem State.setHbm_ves (s : State) (d : Nat) (x : Hbm) : (s.setHbm d x).ves = s.ves := rfl
@[simp] theorem State.setHbm_lanes (s : State) (d : Nat) (x : Hbm) : (s.setHbm d x).lanes = s.lanes := rfl
@[simp] theorem State.setHbm_mem (s : State) (d : Nat) (x : Hbm) : (s.setHbm d x).mem = s.mem := rfl
@[simp] theorem State.setHbm_poison (s : State) (d : Nat) (x : Hbm) : (s.setHbm d x).poison = s.poison := rfl
@[simp] theorem State.setHbm_tiers (s : State) (d : Nat) (x : Hbm) : (s.setHbm d x).tiers = s.tiers := rfl
@[simp] theorem State.setHbm_rcs (s : State) (d : Nat) (x : Hbm) : (s.setHbm d x).rcs = s.rcs := rfl
@[simp] theorem State.setHbm_pairs (s : State) (d : Nat) (x : Hbm) : (s.setHbm d x).pairs = s.pairs := rfl
@[simp] theorem State.setHbm_flight (s : State) (d : Nat) (x : Hbm) : (s.setHbm d x).flight = s.flight := rfl
@[simp] theorem State.setHbm_d2dReqs (s : State) (d : Nat) (x : Hbm) : (s.setHbm d x).d2dReqs = s.d2dReqs := rfl
@[simp] theorem State.setHbm_fab (s : State) (d : Nat) (x : Hbm) : (s.setHbm d x).fab = s.fab := rfl
@[simp] theorem State.setHbm_fibres (s : State) (d : Nat) (x : Hbm) : (s.setHbm d x).fibres = s.fibres := rfl
@[simp] theorem State.setHbm_portMaps (s : State) (d : Nat) (x : Hbm) : (s.setHbm d x).portMaps = s.portMaps := rfl
@[simp] theorem State.setHbm_banks (s : State) (d : Nat) (x : Hbm) : (s.setHbm d x).banks = s.banks := rfl
@[simp] theorem State.setHbm_coll (s : State) (d : Nat) (x : Hbm) : (s.setHbm d x).coll = s.coll := rfl
@[simp] theorem State.setHbm_res (s : State) (d : Nat) (x : Hbm) : (s.setHbm d x).res = s.res := rfl
@[simp] theorem State.setHbm_health (s : State) (d : Nat) (x : Hbm) : (s.setHbm d x).health = s.health := rfl
@[simp] theorem State.setHbm_therms (s : State) (d : Nat) (x : Hbm) : (s.setHbm d x).therms = s.therms := rfl
@[simp] theorem State.setHbm_power (s : State) (d : Nat) (x : Hbm) : (s.setHbm d x).power = s.power := rfl
@[simp] theorem State.setHbm_stretch (s : State) (d : Nat) (x : Hbm) : (s.setHbm d x).stretch = s.stretch := rfl
@[simp] theorem State.setHbm_rings (s : State) (d : Nat) (x : Hbm) : (s.setHbm d x).rings = s.rings := rfl
@[simp] theorem State.setHbm_stackMask (s : State) (d : Nat) (x : Hbm) : (s.setHbm d x).stackMask = s.stackMask := rfl
@[simp] theorem State.setHbm_dieReset (s : State) (d : Nat) (x : Hbm) : (s.setHbm d x).dieReset = s.dieReset := rfl
@[simp] theorem State.setHbm_swaps (s : State) (d : Nat) (x : Hbm) : (s.setHbm d x).swaps = s.swaps := rfl

/-! ### setRc -/

@[simp] theorem State.setRc_pending (s : State) (d : Nat) (x : Rc) : (s.setRc d x).pending = s.pending := rfl
@[simp] theorem State.setRc_free (s : State) (d : Nat) (x : Rc) : (s.setRc d x).free = s.free := rfl
@[simp] theorem State.setRc_out (s : State) (d : Nat) (x : Rc) : (s.setRc d x).out = s.out := rfl
@[simp] theorem State.setRc_stage (s : State) (d : Nat) (x : Rc) : (s.setRc d x).stage = s.stage := rfl
@[simp] theorem State.setRc_fuses (s : State) (d : Nat) (x : Rc) : (s.setRc d x).fuses = s.fuses := rfl
@[simp] theorem State.setRc_flash (s : State) (d : Nat) (x : Rc) : (s.setRc d x).flash = s.flash := rfl
@[simp] theorem State.setRc_boot (s : State) (d : Nat) (x : Rc) : (s.setRc d x).boot = s.boot := rfl
@[simp] theorem State.setRc_dict (s : State) (d : Nat) (x : Rc) : (s.setRc d x).dict = s.dict := rfl
@[simp] theorem State.setRc_blobs (s : State) (d : Nat) (x : Rc) : (s.setRc d x).blobs = s.blobs := rfl
@[simp] theorem State.setRc_host (s : State) (d : Nat) (x : Rc) : (s.setRc d x).host = s.host := rfl
@[simp] theorem State.setRc_mgmt (s : State) (d : Nat) (x : Rc) : (s.setRc d x).mgmt = s.mgmt := rfl
@[simp] theorem State.setRc_tempo (s : State) (d : Nat) (x : Rc) : (s.setRc d x).tempo = s.tempo := rfl
@[simp] theorem State.setRc_queues (s : State) (d : Nat) (x : Rc) : (s.setRc d x).queues = s.queues := rfl
@[simp] theorem State.setRc_cps (s : State) (d : Nat) (x : Rc) : (s.setRc d x).cps = s.cps := rfl
@[simp] theorem State.setRc_train (s : State) (d : Nat) (x : Rc) : (s.setRc d x).train = s.train := rfl
@[simp] theorem State.setRc_bells (s : State) (d : Nat) (x : Rc) : (s.setRc d x).bells = s.bells := rfl
@[simp] theorem State.setRc_watches (s : State) (d : Nat) (x : Rc) : (s.setRc d x).watches = s.watches := rfl
@[simp] theorem State.setRc_scheds (s : State) (d : Nat) (x : Rc) : (s.setRc d x).scheds = s.scheds := rfl
@[simp] theorem State.setRc_remScheds (s : State) (d : Nat) (x : Rc) : (s.setRc d x).remScheds = s.remScheds := rfl
@[simp] theorem State.setRc_arrays (s : State) (d : Nat) (x : Rc) : (s.setRc d x).arrays = s.arrays := rfl
@[simp] theorem State.setRc_ves (s : State) (d : Nat) (x : Rc) : (s.setRc d x).ves = s.ves := rfl
@[simp] theorem State.setRc_lanes (s : State) (d : Nat) (x : Rc) : (s.setRc d x).lanes = s.lanes := rfl
@[simp] theorem State.setRc_mem (s : State) (d : Nat) (x : Rc) : (s.setRc d x).mem = s.mem := rfl
@[simp] theorem State.setRc_poison (s : State) (d : Nat) (x : Rc) : (s.setRc d x).poison = s.poison := rfl
@[simp] theorem State.setRc_tiers (s : State) (d : Nat) (x : Rc) : (s.setRc d x).tiers = s.tiers := rfl
@[simp] theorem State.setRc_hbms (s : State) (d : Nat) (x : Rc) : (s.setRc d x).hbms = s.hbms := rfl
@[simp] theorem State.setRc_pairs (s : State) (d : Nat) (x : Rc) : (s.setRc d x).pairs = s.pairs := rfl
@[simp] theorem State.setRc_flight (s : State) (d : Nat) (x : Rc) : (s.setRc d x).flight = s.flight := rfl
@[simp] theorem State.setRc_d2dReqs (s : State) (d : Nat) (x : Rc) : (s.setRc d x).d2dReqs = s.d2dReqs := rfl
@[simp] theorem State.setRc_fab (s : State) (d : Nat) (x : Rc) : (s.setRc d x).fab = s.fab := rfl
@[simp] theorem State.setRc_fibres (s : State) (d : Nat) (x : Rc) : (s.setRc d x).fibres = s.fibres := rfl
@[simp] theorem State.setRc_portMaps (s : State) (d : Nat) (x : Rc) : (s.setRc d x).portMaps = s.portMaps := rfl
@[simp] theorem State.setRc_banks (s : State) (d : Nat) (x : Rc) : (s.setRc d x).banks = s.banks := rfl
@[simp] theorem State.setRc_coll (s : State) (d : Nat) (x : Rc) : (s.setRc d x).coll = s.coll := rfl
@[simp] theorem State.setRc_res (s : State) (d : Nat) (x : Rc) : (s.setRc d x).res = s.res := rfl
@[simp] theorem State.setRc_health (s : State) (d : Nat) (x : Rc) : (s.setRc d x).health = s.health := rfl
@[simp] theorem State.setRc_therms (s : State) (d : Nat) (x : Rc) : (s.setRc d x).therms = s.therms := rfl
@[simp] theorem State.setRc_power (s : State) (d : Nat) (x : Rc) : (s.setRc d x).power = s.power := rfl
@[simp] theorem State.setRc_stretch (s : State) (d : Nat) (x : Rc) : (s.setRc d x).stretch = s.stretch := rfl
@[simp] theorem State.setRc_rings (s : State) (d : Nat) (x : Rc) : (s.setRc d x).rings = s.rings := rfl
@[simp] theorem State.setRc_stackMask (s : State) (d : Nat) (x : Rc) : (s.setRc d x).stackMask = s.stackMask := rfl
@[simp] theorem State.setRc_dieReset (s : State) (d : Nat) (x : Rc) : (s.setRc d x).dieReset = s.dieReset := rfl
@[simp] theorem State.setRc_swaps (s : State) (d : Nat) (x : Rc) : (s.setRc d x).swaps = s.swaps := rfl

/-! ### setPort -/

@[simp] theorem State.setPort_pending (s : State) (p : Nat) (x : PortSt) : (s.setPort p x).pending = s.pending := rfl
@[simp] theorem State.setPort_free (s : State) (p : Nat) (x : PortSt) : (s.setPort p x).free = s.free := rfl
@[simp] theorem State.setPort_out (s : State) (p : Nat) (x : PortSt) : (s.setPort p x).out = s.out := rfl
@[simp] theorem State.setPort_stage (s : State) (p : Nat) (x : PortSt) : (s.setPort p x).stage = s.stage := rfl
@[simp] theorem State.setPort_fuses (s : State) (p : Nat) (x : PortSt) : (s.setPort p x).fuses = s.fuses := rfl
@[simp] theorem State.setPort_flash (s : State) (p : Nat) (x : PortSt) : (s.setPort p x).flash = s.flash := rfl
@[simp] theorem State.setPort_boot (s : State) (p : Nat) (x : PortSt) : (s.setPort p x).boot = s.boot := rfl
@[simp] theorem State.setPort_dict (s : State) (p : Nat) (x : PortSt) : (s.setPort p x).dict = s.dict := rfl
@[simp] theorem State.setPort_blobs (s : State) (p : Nat) (x : PortSt) : (s.setPort p x).blobs = s.blobs := rfl
@[simp] theorem State.setPort_host (s : State) (p : Nat) (x : PortSt) : (s.setPort p x).host = s.host := rfl
@[simp] theorem State.setPort_mgmt (s : State) (p : Nat) (x : PortSt) : (s.setPort p x).mgmt = s.mgmt := rfl
@[simp] theorem State.setPort_tempo (s : State) (p : Nat) (x : PortSt) : (s.setPort p x).tempo = s.tempo := rfl
@[simp] theorem State.setPort_queues (s : State) (p : Nat) (x : PortSt) : (s.setPort p x).queues = s.queues := rfl
@[simp] theorem State.setPort_cps (s : State) (p : Nat) (x : PortSt) : (s.setPort p x).cps = s.cps := rfl
@[simp] theorem State.setPort_train (s : State) (p : Nat) (x : PortSt) : (s.setPort p x).train = s.train := rfl
@[simp] theorem State.setPort_bells (s : State) (p : Nat) (x : PortSt) : (s.setPort p x).bells = s.bells := rfl
@[simp] theorem State.setPort_watches (s : State) (p : Nat) (x : PortSt) : (s.setPort p x).watches = s.watches := rfl
@[simp] theorem State.setPort_scheds (s : State) (p : Nat) (x : PortSt) : (s.setPort p x).scheds = s.scheds := rfl
@[simp] theorem State.setPort_remScheds (s : State) (p : Nat) (x : PortSt) : (s.setPort p x).remScheds = s.remScheds := rfl
@[simp] theorem State.setPort_arrays (s : State) (p : Nat) (x : PortSt) : (s.setPort p x).arrays = s.arrays := rfl
@[simp] theorem State.setPort_ves (s : State) (p : Nat) (x : PortSt) : (s.setPort p x).ves = s.ves := rfl
@[simp] theorem State.setPort_lanes (s : State) (p : Nat) (x : PortSt) : (s.setPort p x).lanes = s.lanes := rfl
@[simp] theorem State.setPort_mem (s : State) (p : Nat) (x : PortSt) : (s.setPort p x).mem = s.mem := rfl
@[simp] theorem State.setPort_poison (s : State) (p : Nat) (x : PortSt) : (s.setPort p x).poison = s.poison := rfl
@[simp] theorem State.setPort_tiers (s : State) (p : Nat) (x : PortSt) : (s.setPort p x).tiers = s.tiers := rfl
@[simp] theorem State.setPort_hbms (s : State) (p : Nat) (x : PortSt) : (s.setPort p x).hbms = s.hbms := rfl
@[simp] theorem State.setPort_rcs (s : State) (p : Nat) (x : PortSt) : (s.setPort p x).rcs = s.rcs := rfl
@[simp] theorem State.setPort_pairs (s : State) (p : Nat) (x : PortSt) : (s.setPort p x).pairs = s.pairs := rfl
@[simp] theorem State.setPort_flight (s : State) (p : Nat) (x : PortSt) : (s.setPort p x).flight = s.flight := rfl
@[simp] theorem State.setPort_d2dReqs (s : State) (p : Nat) (x : PortSt) : (s.setPort p x).d2dReqs = s.d2dReqs := rfl
@[simp] theorem State.setPort_fibres (s : State) (p : Nat) (x : PortSt) : (s.setPort p x).fibres = s.fibres := rfl
@[simp] theorem State.setPort_portMaps (s : State) (p : Nat) (x : PortSt) : (s.setPort p x).portMaps = s.portMaps := rfl
@[simp] theorem State.setPort_banks (s : State) (p : Nat) (x : PortSt) : (s.setPort p x).banks = s.banks := rfl
@[simp] theorem State.setPort_coll (s : State) (p : Nat) (x : PortSt) : (s.setPort p x).coll = s.coll := rfl
@[simp] theorem State.setPort_res (s : State) (p : Nat) (x : PortSt) : (s.setPort p x).res = s.res := rfl
@[simp] theorem State.setPort_health (s : State) (p : Nat) (x : PortSt) : (s.setPort p x).health = s.health := rfl
@[simp] theorem State.setPort_therms (s : State) (p : Nat) (x : PortSt) : (s.setPort p x).therms = s.therms := rfl
@[simp] theorem State.setPort_power (s : State) (p : Nat) (x : PortSt) : (s.setPort p x).power = s.power := rfl
@[simp] theorem State.setPort_stretch (s : State) (p : Nat) (x : PortSt) : (s.setPort p x).stretch = s.stretch := rfl
@[simp] theorem State.setPort_rings (s : State) (p : Nat) (x : PortSt) : (s.setPort p x).rings = s.rings := rfl
@[simp] theorem State.setPort_stackMask (s : State) (p : Nat) (x : PortSt) : (s.setPort p x).stackMask = s.stackMask := rfl
@[simp] theorem State.setPort_dieReset (s : State) (p : Nat) (x : PortSt) : (s.setPort p x).dieReset = s.dieReset := rfl
@[simp] theorem State.setPort_swaps (s : State) (p : Nat) (x : PortSt) : (s.setPort p x).swaps = s.swaps := rfl

/-! ### setFibre -/

@[simp] theorem State.setFibre_pending (s : State) (f : Nat) (x : Fibre) : (s.setFibre f x).pending = s.pending := rfl
@[simp] theorem State.setFibre_free (s : State) (f : Nat) (x : Fibre) : (s.setFibre f x).free = s.free := rfl
@[simp] theorem State.setFibre_out (s : State) (f : Nat) (x : Fibre) : (s.setFibre f x).out = s.out := rfl
@[simp] theorem State.setFibre_stage (s : State) (f : Nat) (x : Fibre) : (s.setFibre f x).stage = s.stage := rfl
@[simp] theorem State.setFibre_fuses (s : State) (f : Nat) (x : Fibre) : (s.setFibre f x).fuses = s.fuses := rfl
@[simp] theorem State.setFibre_flash (s : State) (f : Nat) (x : Fibre) : (s.setFibre f x).flash = s.flash := rfl
@[simp] theorem State.setFibre_boot (s : State) (f : Nat) (x : Fibre) : (s.setFibre f x).boot = s.boot := rfl
@[simp] theorem State.setFibre_dict (s : State) (f : Nat) (x : Fibre) : (s.setFibre f x).dict = s.dict := rfl
@[simp] theorem State.setFibre_blobs (s : State) (f : Nat) (x : Fibre) : (s.setFibre f x).blobs = s.blobs := rfl
@[simp] theorem State.setFibre_host (s : State) (f : Nat) (x : Fibre) : (s.setFibre f x).host = s.host := rfl
@[simp] theorem State.setFibre_mgmt (s : State) (f : Nat) (x : Fibre) : (s.setFibre f x).mgmt = s.mgmt := rfl
@[simp] theorem State.setFibre_tempo (s : State) (f : Nat) (x : Fibre) : (s.setFibre f x).tempo = s.tempo := rfl
@[simp] theorem State.setFibre_queues (s : State) (f : Nat) (x : Fibre) : (s.setFibre f x).queues = s.queues := rfl
@[simp] theorem State.setFibre_cps (s : State) (f : Nat) (x : Fibre) : (s.setFibre f x).cps = s.cps := rfl
@[simp] theorem State.setFibre_train (s : State) (f : Nat) (x : Fibre) : (s.setFibre f x).train = s.train := rfl
@[simp] theorem State.setFibre_bells (s : State) (f : Nat) (x : Fibre) : (s.setFibre f x).bells = s.bells := rfl
@[simp] theorem State.setFibre_watches (s : State) (f : Nat) (x : Fibre) : (s.setFibre f x).watches = s.watches := rfl
@[simp] theorem State.setFibre_scheds (s : State) (f : Nat) (x : Fibre) : (s.setFibre f x).scheds = s.scheds := rfl
@[simp] theorem State.setFibre_remScheds (s : State) (f : Nat) (x : Fibre) : (s.setFibre f x).remScheds = s.remScheds := rfl
@[simp] theorem State.setFibre_arrays (s : State) (f : Nat) (x : Fibre) : (s.setFibre f x).arrays = s.arrays := rfl
@[simp] theorem State.setFibre_ves (s : State) (f : Nat) (x : Fibre) : (s.setFibre f x).ves = s.ves := rfl
@[simp] theorem State.setFibre_lanes (s : State) (f : Nat) (x : Fibre) : (s.setFibre f x).lanes = s.lanes := rfl
@[simp] theorem State.setFibre_mem (s : State) (f : Nat) (x : Fibre) : (s.setFibre f x).mem = s.mem := rfl
@[simp] theorem State.setFibre_poison (s : State) (f : Nat) (x : Fibre) : (s.setFibre f x).poison = s.poison := rfl
@[simp] theorem State.setFibre_tiers (s : State) (f : Nat) (x : Fibre) : (s.setFibre f x).tiers = s.tiers := rfl
@[simp] theorem State.setFibre_hbms (s : State) (f : Nat) (x : Fibre) : (s.setFibre f x).hbms = s.hbms := rfl
@[simp] theorem State.setFibre_rcs (s : State) (f : Nat) (x : Fibre) : (s.setFibre f x).rcs = s.rcs := rfl
@[simp] theorem State.setFibre_pairs (s : State) (f : Nat) (x : Fibre) : (s.setFibre f x).pairs = s.pairs := rfl
@[simp] theorem State.setFibre_flight (s : State) (f : Nat) (x : Fibre) : (s.setFibre f x).flight = s.flight := rfl
@[simp] theorem State.setFibre_d2dReqs (s : State) (f : Nat) (x : Fibre) : (s.setFibre f x).d2dReqs = s.d2dReqs := rfl
@[simp] theorem State.setFibre_fab (s : State) (f : Nat) (x : Fibre) : (s.setFibre f x).fab = s.fab := rfl
@[simp] theorem State.setFibre_portMaps (s : State) (f : Nat) (x : Fibre) : (s.setFibre f x).portMaps = s.portMaps := rfl
@[simp] theorem State.setFibre_banks (s : State) (f : Nat) (x : Fibre) : (s.setFibre f x).banks = s.banks := rfl
@[simp] theorem State.setFibre_coll (s : State) (f : Nat) (x : Fibre) : (s.setFibre f x).coll = s.coll := rfl
@[simp] theorem State.setFibre_res (s : State) (f : Nat) (x : Fibre) : (s.setFibre f x).res = s.res := rfl
@[simp] theorem State.setFibre_health (s : State) (f : Nat) (x : Fibre) : (s.setFibre f x).health = s.health := rfl
@[simp] theorem State.setFibre_therms (s : State) (f : Nat) (x : Fibre) : (s.setFibre f x).therms = s.therms := rfl
@[simp] theorem State.setFibre_power (s : State) (f : Nat) (x : Fibre) : (s.setFibre f x).power = s.power := rfl
@[simp] theorem State.setFibre_stretch (s : State) (f : Nat) (x : Fibre) : (s.setFibre f x).stretch = s.stretch := rfl
@[simp] theorem State.setFibre_rings (s : State) (f : Nat) (x : Fibre) : (s.setFibre f x).rings = s.rings := rfl
@[simp] theorem State.setFibre_stackMask (s : State) (f : Nat) (x : Fibre) : (s.setFibre f x).stackMask = s.stackMask := rfl
@[simp] theorem State.setFibre_dieReset (s : State) (f : Nat) (x : Fibre) : (s.setFibre f x).dieReset = s.dieReset := rfl
@[simp] theorem State.setFibre_swaps (s : State) (f : Nat) (x : Fibre) : (s.setFibre f x).swaps = s.swaps := rfl

/-! ### setBank -/

@[simp] theorem State.setBank_pending (s : State) (b : Nat) (x : Bank) : (s.setBank b x).pending = s.pending := rfl
@[simp] theorem State.setBank_free (s : State) (b : Nat) (x : Bank) : (s.setBank b x).free = s.free := rfl
@[simp] theorem State.setBank_out (s : State) (b : Nat) (x : Bank) : (s.setBank b x).out = s.out := rfl
@[simp] theorem State.setBank_stage (s : State) (b : Nat) (x : Bank) : (s.setBank b x).stage = s.stage := rfl
@[simp] theorem State.setBank_fuses (s : State) (b : Nat) (x : Bank) : (s.setBank b x).fuses = s.fuses := rfl
@[simp] theorem State.setBank_flash (s : State) (b : Nat) (x : Bank) : (s.setBank b x).flash = s.flash := rfl
@[simp] theorem State.setBank_boot (s : State) (b : Nat) (x : Bank) : (s.setBank b x).boot = s.boot := rfl
@[simp] theorem State.setBank_dict (s : State) (b : Nat) (x : Bank) : (s.setBank b x).dict = s.dict := rfl
@[simp] theorem State.setBank_blobs (s : State) (b : Nat) (x : Bank) : (s.setBank b x).blobs = s.blobs := rfl
@[simp] theorem State.setBank_host (s : State) (b : Nat) (x : Bank) : (s.setBank b x).host = s.host := rfl
@[simp] theorem State.setBank_mgmt (s : State) (b : Nat) (x : Bank) : (s.setBank b x).mgmt = s.mgmt := rfl
@[simp] theorem State.setBank_tempo (s : State) (b : Nat) (x : Bank) : (s.setBank b x).tempo = s.tempo := rfl
@[simp] theorem State.setBank_queues (s : State) (b : Nat) (x : Bank) : (s.setBank b x).queues = s.queues := rfl
@[simp] theorem State.setBank_cps (s : State) (b : Nat) (x : Bank) : (s.setBank b x).cps = s.cps := rfl
@[simp] theorem State.setBank_train (s : State) (b : Nat) (x : Bank) : (s.setBank b x).train = s.train := rfl
@[simp] theorem State.setBank_bells (s : State) (b : Nat) (x : Bank) : (s.setBank b x).bells = s.bells := rfl
@[simp] theorem State.setBank_watches (s : State) (b : Nat) (x : Bank) : (s.setBank b x).watches = s.watches := rfl
@[simp] theorem State.setBank_scheds (s : State) (b : Nat) (x : Bank) : (s.setBank b x).scheds = s.scheds := rfl
@[simp] theorem State.setBank_remScheds (s : State) (b : Nat) (x : Bank) : (s.setBank b x).remScheds = s.remScheds := rfl
@[simp] theorem State.setBank_arrays (s : State) (b : Nat) (x : Bank) : (s.setBank b x).arrays = s.arrays := rfl
@[simp] theorem State.setBank_ves (s : State) (b : Nat) (x : Bank) : (s.setBank b x).ves = s.ves := rfl
@[simp] theorem State.setBank_lanes (s : State) (b : Nat) (x : Bank) : (s.setBank b x).lanes = s.lanes := rfl
@[simp] theorem State.setBank_mem (s : State) (b : Nat) (x : Bank) : (s.setBank b x).mem = s.mem := rfl
@[simp] theorem State.setBank_poison (s : State) (b : Nat) (x : Bank) : (s.setBank b x).poison = s.poison := rfl
@[simp] theorem State.setBank_tiers (s : State) (b : Nat) (x : Bank) : (s.setBank b x).tiers = s.tiers := rfl
@[simp] theorem State.setBank_hbms (s : State) (b : Nat) (x : Bank) : (s.setBank b x).hbms = s.hbms := rfl
@[simp] theorem State.setBank_rcs (s : State) (b : Nat) (x : Bank) : (s.setBank b x).rcs = s.rcs := rfl
@[simp] theorem State.setBank_pairs (s : State) (b : Nat) (x : Bank) : (s.setBank b x).pairs = s.pairs := rfl
@[simp] theorem State.setBank_flight (s : State) (b : Nat) (x : Bank) : (s.setBank b x).flight = s.flight := rfl
@[simp] theorem State.setBank_d2dReqs (s : State) (b : Nat) (x : Bank) : (s.setBank b x).d2dReqs = s.d2dReqs := rfl
@[simp] theorem State.setBank_fab (s : State) (b : Nat) (x : Bank) : (s.setBank b x).fab = s.fab := rfl
@[simp] theorem State.setBank_fibres (s : State) (b : Nat) (x : Bank) : (s.setBank b x).fibres = s.fibres := rfl
@[simp] theorem State.setBank_portMaps (s : State) (b : Nat) (x : Bank) : (s.setBank b x).portMaps = s.portMaps := rfl
@[simp] theorem State.setBank_coll (s : State) (b : Nat) (x : Bank) : (s.setBank b x).coll = s.coll := rfl
@[simp] theorem State.setBank_res (s : State) (b : Nat) (x : Bank) : (s.setBank b x).res = s.res := rfl
@[simp] theorem State.setBank_health (s : State) (b : Nat) (x : Bank) : (s.setBank b x).health = s.health := rfl
@[simp] theorem State.setBank_therms (s : State) (b : Nat) (x : Bank) : (s.setBank b x).therms = s.therms := rfl
@[simp] theorem State.setBank_power (s : State) (b : Nat) (x : Bank) : (s.setBank b x).power = s.power := rfl
@[simp] theorem State.setBank_stretch (s : State) (b : Nat) (x : Bank) : (s.setBank b x).stretch = s.stretch := rfl
@[simp] theorem State.setBank_rings (s : State) (b : Nat) (x : Bank) : (s.setBank b x).rings = s.rings := rfl
@[simp] theorem State.setBank_stackMask (s : State) (b : Nat) (x : Bank) : (s.setBank b x).stackMask = s.stackMask := rfl
@[simp] theorem State.setBank_dieReset (s : State) (b : Nat) (x : Bank) : (s.setBank b x).dieReset = s.dieReset := rfl
@[simp] theorem State.setBank_swaps (s : State) (b : Nat) (x : Bank) : (s.setBank b x).swaps = s.swaps := rfl

/-! ### setTherm -/

@[simp] theorem State.setTherm_pending (s : State) (d : Nat) (x : Therm) : (s.setTherm d x).pending = s.pending := rfl
@[simp] theorem State.setTherm_free (s : State) (d : Nat) (x : Therm) : (s.setTherm d x).free = s.free := rfl
@[simp] theorem State.setTherm_out (s : State) (d : Nat) (x : Therm) : (s.setTherm d x).out = s.out := rfl
@[simp] theorem State.setTherm_stage (s : State) (d : Nat) (x : Therm) : (s.setTherm d x).stage = s.stage := rfl
@[simp] theorem State.setTherm_fuses (s : State) (d : Nat) (x : Therm) : (s.setTherm d x).fuses = s.fuses := rfl
@[simp] theorem State.setTherm_flash (s : State) (d : Nat) (x : Therm) : (s.setTherm d x).flash = s.flash := rfl
@[simp] theorem State.setTherm_boot (s : State) (d : Nat) (x : Therm) : (s.setTherm d x).boot = s.boot := rfl
@[simp] theorem State.setTherm_dict (s : State) (d : Nat) (x : Therm) : (s.setTherm d x).dict = s.dict := rfl
@[simp] theorem State.setTherm_blobs (s : State) (d : Nat) (x : Therm) : (s.setTherm d x).blobs = s.blobs := rfl
@[simp] theorem State.setTherm_host (s : State) (d : Nat) (x : Therm) : (s.setTherm d x).host = s.host := rfl
@[simp] theorem State.setTherm_mgmt (s : State) (d : Nat) (x : Therm) : (s.setTherm d x).mgmt = s.mgmt := rfl
@[simp] theorem State.setTherm_tempo (s : State) (d : Nat) (x : Therm) : (s.setTherm d x).tempo = s.tempo := rfl
@[simp] theorem State.setTherm_queues (s : State) (d : Nat) (x : Therm) : (s.setTherm d x).queues = s.queues := rfl
@[simp] theorem State.setTherm_cps (s : State) (d : Nat) (x : Therm) : (s.setTherm d x).cps = s.cps := rfl
@[simp] theorem State.setTherm_train (s : State) (d : Nat) (x : Therm) : (s.setTherm d x).train = s.train := rfl
@[simp] theorem State.setTherm_bells (s : State) (d : Nat) (x : Therm) : (s.setTherm d x).bells = s.bells := rfl
@[simp] theorem State.setTherm_watches (s : State) (d : Nat) (x : Therm) : (s.setTherm d x).watches = s.watches := rfl
@[simp] theorem State.setTherm_scheds (s : State) (d : Nat) (x : Therm) : (s.setTherm d x).scheds = s.scheds := rfl
@[simp] theorem State.setTherm_remScheds (s : State) (d : Nat) (x : Therm) : (s.setTherm d x).remScheds = s.remScheds := rfl
@[simp] theorem State.setTherm_arrays (s : State) (d : Nat) (x : Therm) : (s.setTherm d x).arrays = s.arrays := rfl
@[simp] theorem State.setTherm_ves (s : State) (d : Nat) (x : Therm) : (s.setTherm d x).ves = s.ves := rfl
@[simp] theorem State.setTherm_lanes (s : State) (d : Nat) (x : Therm) : (s.setTherm d x).lanes = s.lanes := rfl
@[simp] theorem State.setTherm_mem (s : State) (d : Nat) (x : Therm) : (s.setTherm d x).mem = s.mem := rfl
@[simp] theorem State.setTherm_poison (s : State) (d : Nat) (x : Therm) : (s.setTherm d x).poison = s.poison := rfl
@[simp] theorem State.setTherm_tiers (s : State) (d : Nat) (x : Therm) : (s.setTherm d x).tiers = s.tiers := rfl
@[simp] theorem State.setTherm_hbms (s : State) (d : Nat) (x : Therm) : (s.setTherm d x).hbms = s.hbms := rfl
@[simp] theorem State.setTherm_rcs (s : State) (d : Nat) (x : Therm) : (s.setTherm d x).rcs = s.rcs := rfl
@[simp] theorem State.setTherm_pairs (s : State) (d : Nat) (x : Therm) : (s.setTherm d x).pairs = s.pairs := rfl
@[simp] theorem State.setTherm_flight (s : State) (d : Nat) (x : Therm) : (s.setTherm d x).flight = s.flight := rfl
@[simp] theorem State.setTherm_d2dReqs (s : State) (d : Nat) (x : Therm) : (s.setTherm d x).d2dReqs = s.d2dReqs := rfl
@[simp] theorem State.setTherm_fab (s : State) (d : Nat) (x : Therm) : (s.setTherm d x).fab = s.fab := rfl
@[simp] theorem State.setTherm_fibres (s : State) (d : Nat) (x : Therm) : (s.setTherm d x).fibres = s.fibres := rfl
@[simp] theorem State.setTherm_portMaps (s : State) (d : Nat) (x : Therm) : (s.setTherm d x).portMaps = s.portMaps := rfl
@[simp] theorem State.setTherm_banks (s : State) (d : Nat) (x : Therm) : (s.setTherm d x).banks = s.banks := rfl
@[simp] theorem State.setTherm_coll (s : State) (d : Nat) (x : Therm) : (s.setTherm d x).coll = s.coll := rfl
@[simp] theorem State.setTherm_res (s : State) (d : Nat) (x : Therm) : (s.setTherm d x).res = s.res := rfl
@[simp] theorem State.setTherm_health (s : State) (d : Nat) (x : Therm) : (s.setTherm d x).health = s.health := rfl
@[simp] theorem State.setTherm_power (s : State) (d : Nat) (x : Therm) : (s.setTherm d x).power = s.power := rfl
@[simp] theorem State.setTherm_stretch (s : State) (d : Nat) (x : Therm) : (s.setTherm d x).stretch = s.stretch := rfl
@[simp] theorem State.setTherm_rings (s : State) (d : Nat) (x : Therm) : (s.setTherm d x).rings = s.rings := rfl
@[simp] theorem State.setTherm_stackMask (s : State) (d : Nat) (x : Therm) : (s.setTherm d x).stackMask = s.stackMask := rfl
@[simp] theorem State.setTherm_dieReset (s : State) (d : Nat) (x : Therm) : (s.setTherm d x).dieReset = s.dieReset := rfl
@[simp] theorem State.setTherm_swaps (s : State) (d : Nat) (x : Therm) : (s.setTherm d x).swaps = s.swaps := rfl

/-! ### setMemRec -/

@[simp] theorem State.setMemRec_pending (s : State) (d : Nat) (x : MemRec) : (s.setMemRec d x).pending = s.pending := rfl
@[simp] theorem State.setMemRec_free (s : State) (d : Nat) (x : MemRec) : (s.setMemRec d x).free = s.free := rfl
@[simp] theorem State.setMemRec_out (s : State) (d : Nat) (x : MemRec) : (s.setMemRec d x).out = s.out := rfl
@[simp] theorem State.setMemRec_stage (s : State) (d : Nat) (x : MemRec) : (s.setMemRec d x).stage = s.stage := rfl
@[simp] theorem State.setMemRec_fuses (s : State) (d : Nat) (x : MemRec) : (s.setMemRec d x).fuses = s.fuses := rfl
@[simp] theorem State.setMemRec_boot (s : State) (d : Nat) (x : MemRec) : (s.setMemRec d x).boot = s.boot := rfl
@[simp] theorem State.setMemRec_dict (s : State) (d : Nat) (x : MemRec) : (s.setMemRec d x).dict = s.dict := rfl
@[simp] theorem State.setMemRec_blobs (s : State) (d : Nat) (x : MemRec) : (s.setMemRec d x).blobs = s.blobs := rfl
@[simp] theorem State.setMemRec_host (s : State) (d : Nat) (x : MemRec) : (s.setMemRec d x).host = s.host := rfl
@[simp] theorem State.setMemRec_mgmt (s : State) (d : Nat) (x : MemRec) : (s.setMemRec d x).mgmt = s.mgmt := rfl
@[simp] theorem State.setMemRec_tempo (s : State) (d : Nat) (x : MemRec) : (s.setMemRec d x).tempo = s.tempo := rfl
@[simp] theorem State.setMemRec_queues (s : State) (d : Nat) (x : MemRec) : (s.setMemRec d x).queues = s.queues := rfl
@[simp] theorem State.setMemRec_cps (s : State) (d : Nat) (x : MemRec) : (s.setMemRec d x).cps = s.cps := rfl
@[simp] theorem State.setMemRec_train (s : State) (d : Nat) (x : MemRec) : (s.setMemRec d x).train = s.train := rfl
@[simp] theorem State.setMemRec_bells (s : State) (d : Nat) (x : MemRec) : (s.setMemRec d x).bells = s.bells := rfl
@[simp] theorem State.setMemRec_watches (s : State) (d : Nat) (x : MemRec) : (s.setMemRec d x).watches = s.watches := rfl
@[simp] theorem State.setMemRec_scheds (s : State) (d : Nat) (x : MemRec) : (s.setMemRec d x).scheds = s.scheds := rfl
@[simp] theorem State.setMemRec_remScheds (s : State) (d : Nat) (x : MemRec) : (s.setMemRec d x).remScheds = s.remScheds := rfl
@[simp] theorem State.setMemRec_arrays (s : State) (d : Nat) (x : MemRec) : (s.setMemRec d x).arrays = s.arrays := rfl
@[simp] theorem State.setMemRec_ves (s : State) (d : Nat) (x : MemRec) : (s.setMemRec d x).ves = s.ves := rfl
@[simp] theorem State.setMemRec_lanes (s : State) (d : Nat) (x : MemRec) : (s.setMemRec d x).lanes = s.lanes := rfl
@[simp] theorem State.setMemRec_mem (s : State) (d : Nat) (x : MemRec) : (s.setMemRec d x).mem = s.mem := rfl
@[simp] theorem State.setMemRec_poison (s : State) (d : Nat) (x : MemRec) : (s.setMemRec d x).poison = s.poison := rfl
@[simp] theorem State.setMemRec_tiers (s : State) (d : Nat) (x : MemRec) : (s.setMemRec d x).tiers = s.tiers := rfl
@[simp] theorem State.setMemRec_hbms (s : State) (d : Nat) (x : MemRec) : (s.setMemRec d x).hbms = s.hbms := rfl
@[simp] theorem State.setMemRec_rcs (s : State) (d : Nat) (x : MemRec) : (s.setMemRec d x).rcs = s.rcs := rfl
@[simp] theorem State.setMemRec_pairs (s : State) (d : Nat) (x : MemRec) : (s.setMemRec d x).pairs = s.pairs := rfl
@[simp] theorem State.setMemRec_flight (s : State) (d : Nat) (x : MemRec) : (s.setMemRec d x).flight = s.flight := rfl
@[simp] theorem State.setMemRec_d2dReqs (s : State) (d : Nat) (x : MemRec) : (s.setMemRec d x).d2dReqs = s.d2dReqs := rfl
@[simp] theorem State.setMemRec_fab (s : State) (d : Nat) (x : MemRec) : (s.setMemRec d x).fab = s.fab := rfl
@[simp] theorem State.setMemRec_fibres (s : State) (d : Nat) (x : MemRec) : (s.setMemRec d x).fibres = s.fibres := rfl
@[simp] theorem State.setMemRec_portMaps (s : State) (d : Nat) (x : MemRec) : (s.setMemRec d x).portMaps = s.portMaps := rfl
@[simp] theorem State.setMemRec_banks (s : State) (d : Nat) (x : MemRec) : (s.setMemRec d x).banks = s.banks := rfl
@[simp] theorem State.setMemRec_coll (s : State) (d : Nat) (x : MemRec) : (s.setMemRec d x).coll = s.coll := rfl
@[simp] theorem State.setMemRec_res (s : State) (d : Nat) (x : MemRec) : (s.setMemRec d x).res = s.res := rfl
@[simp] theorem State.setMemRec_health (s : State) (d : Nat) (x : MemRec) : (s.setMemRec d x).health = s.health := rfl
@[simp] theorem State.setMemRec_therms (s : State) (d : Nat) (x : MemRec) : (s.setMemRec d x).therms = s.therms := rfl
@[simp] theorem State.setMemRec_power (s : State) (d : Nat) (x : MemRec) : (s.setMemRec d x).power = s.power := rfl
@[simp] theorem State.setMemRec_stretch (s : State) (d : Nat) (x : MemRec) : (s.setMemRec d x).stretch = s.stretch := rfl
@[simp] theorem State.setMemRec_rings (s : State) (d : Nat) (x : MemRec) : (s.setMemRec d x).rings = s.rings := rfl
@[simp] theorem State.setMemRec_stackMask (s : State) (d : Nat) (x : MemRec) : (s.setMemRec d x).stackMask = s.stackMask := rfl
@[simp] theorem State.setMemRec_dieReset (s : State) (d : Nat) (x : MemRec) : (s.setMemRec d x).dieReset = s.dieReset := rfl
@[simp] theorem State.setMemRec_swaps (s : State) (d : Nat) (x : MemRec) : (s.setMemRec d x).swaps = s.swaps := rfl

/-! ### setBell -/

@[simp] theorem State.setBell_pending (s : State) (b : Nat) (v : Word) : (s.setBell b v).pending = s.pending := rfl
@[simp] theorem State.setBell_free (s : State) (b : Nat) (v : Word) : (s.setBell b v).free = s.free := rfl
@[simp] theorem State.setBell_out (s : State) (b : Nat) (v : Word) : (s.setBell b v).out = s.out := rfl
@[simp] theorem State.setBell_stage (s : State) (b : Nat) (v : Word) : (s.setBell b v).stage = s.stage := rfl
@[simp] theorem State.setBell_fuses (s : State) (b : Nat) (v : Word) : (s.setBell b v).fuses = s.fuses := rfl
@[simp] theorem State.setBell_flash (s : State) (b : Nat) (v : Word) : (s.setBell b v).flash = s.flash := rfl
@[simp] theorem State.setBell_boot (s : State) (b : Nat) (v : Word) : (s.setBell b v).boot = s.boot := rfl
@[simp] theorem State.setBell_dict (s : State) (b : Nat) (v : Word) : (s.setBell b v).dict = s.dict := rfl
@[simp] theorem State.setBell_blobs (s : State) (b : Nat) (v : Word) : (s.setBell b v).blobs = s.blobs := rfl
@[simp] theorem State.setBell_host (s : State) (b : Nat) (v : Word) : (s.setBell b v).host = s.host := rfl
@[simp] theorem State.setBell_mgmt (s : State) (b : Nat) (v : Word) : (s.setBell b v).mgmt = s.mgmt := rfl
@[simp] theorem State.setBell_tempo (s : State) (b : Nat) (v : Word) : (s.setBell b v).tempo = s.tempo := rfl
@[simp] theorem State.setBell_queues (s : State) (b : Nat) (v : Word) : (s.setBell b v).queues = s.queues := rfl
@[simp] theorem State.setBell_cps (s : State) (b : Nat) (v : Word) : (s.setBell b v).cps = s.cps := rfl
@[simp] theorem State.setBell_train (s : State) (b : Nat) (v : Word) : (s.setBell b v).train = s.train := rfl
@[simp] theorem State.setBell_watches (s : State) (b : Nat) (v : Word) : (s.setBell b v).watches = s.watches := rfl
@[simp] theorem State.setBell_scheds (s : State) (b : Nat) (v : Word) : (s.setBell b v).scheds = s.scheds := rfl
@[simp] theorem State.setBell_remScheds (s : State) (b : Nat) (v : Word) : (s.setBell b v).remScheds = s.remScheds := rfl
@[simp] theorem State.setBell_arrays (s : State) (b : Nat) (v : Word) : (s.setBell b v).arrays = s.arrays := rfl
@[simp] theorem State.setBell_ves (s : State) (b : Nat) (v : Word) : (s.setBell b v).ves = s.ves := rfl
@[simp] theorem State.setBell_lanes (s : State) (b : Nat) (v : Word) : (s.setBell b v).lanes = s.lanes := rfl
@[simp] theorem State.setBell_mem (s : State) (b : Nat) (v : Word) : (s.setBell b v).mem = s.mem := rfl
@[simp] theorem State.setBell_poison (s : State) (b : Nat) (v : Word) : (s.setBell b v).poison = s.poison := rfl
@[simp] theorem State.setBell_tiers (s : State) (b : Nat) (v : Word) : (s.setBell b v).tiers = s.tiers := rfl
@[simp] theorem State.setBell_hbms (s : State) (b : Nat) (v : Word) : (s.setBell b v).hbms = s.hbms := rfl
@[simp] theorem State.setBell_rcs (s : State) (b : Nat) (v : Word) : (s.setBell b v).rcs = s.rcs := rfl
@[simp] theorem State.setBell_pairs (s : State) (b : Nat) (v : Word) : (s.setBell b v).pairs = s.pairs := rfl
@[simp] theorem State.setBell_flight (s : State) (b : Nat) (v : Word) : (s.setBell b v).flight = s.flight := rfl
@[simp] theorem State.setBell_d2dReqs (s : State) (b : Nat) (v : Word) : (s.setBell b v).d2dReqs = s.d2dReqs := rfl
@[simp] theorem State.setBell_fab (s : State) (b : Nat) (v : Word) : (s.setBell b v).fab = s.fab := rfl
@[simp] theorem State.setBell_fibres (s : State) (b : Nat) (v : Word) : (s.setBell b v).fibres = s.fibres := rfl
@[simp] theorem State.setBell_portMaps (s : State) (b : Nat) (v : Word) : (s.setBell b v).portMaps = s.portMaps := rfl
@[simp] theorem State.setBell_banks (s : State) (b : Nat) (v : Word) : (s.setBell b v).banks = s.banks := rfl
@[simp] theorem State.setBell_coll (s : State) (b : Nat) (v : Word) : (s.setBell b v).coll = s.coll := rfl
@[simp] theorem State.setBell_res (s : State) (b : Nat) (v : Word) : (s.setBell b v).res = s.res := rfl
@[simp] theorem State.setBell_health (s : State) (b : Nat) (v : Word) : (s.setBell b v).health = s.health := rfl
@[simp] theorem State.setBell_therms (s : State) (b : Nat) (v : Word) : (s.setBell b v).therms = s.therms := rfl
@[simp] theorem State.setBell_power (s : State) (b : Nat) (v : Word) : (s.setBell b v).power = s.power := rfl
@[simp] theorem State.setBell_stretch (s : State) (b : Nat) (v : Word) : (s.setBell b v).stretch = s.stretch := rfl
@[simp] theorem State.setBell_rings (s : State) (b : Nat) (v : Word) : (s.setBell b v).rings = s.rings := rfl
@[simp] theorem State.setBell_stackMask (s : State) (b : Nat) (v : Word) : (s.setBell b v).stackMask = s.stackMask := rfl
@[simp] theorem State.setBell_dieReset (s : State) (b : Nat) (v : Word) : (s.setBell b v).dieReset = s.dieReset := rfl
@[simp] theorem State.setBell_swaps (s : State) (b : Nat) (v : Word) : (s.setBell b v).swaps = s.swaps := rfl

/-! ### setPair -/

@[simp] theorem State.setPair_pending (s : State) (a b : Nat) (x : Pair) : (s.setPair a b x).pending = s.pending := rfl
@[simp] theorem State.setPair_free (s : State) (a b : Nat) (x : Pair) : (s.setPair a b x).free = s.free := rfl
@[simp] theorem State.setPair_out (s : State) (a b : Nat) (x : Pair) : (s.setPair a b x).out = s.out := rfl
@[simp] theorem State.setPair_stage (s : State) (a b : Nat) (x : Pair) : (s.setPair a b x).stage = s.stage := rfl
@[simp] theorem State.setPair_fuses (s : State) (a b : Nat) (x : Pair) : (s.setPair a b x).fuses = s.fuses := rfl
@[simp] theorem State.setPair_flash (s : State) (a b : Nat) (x : Pair) : (s.setPair a b x).flash = s.flash := rfl
@[simp] theorem State.setPair_boot (s : State) (a b : Nat) (x : Pair) : (s.setPair a b x).boot = s.boot := rfl
@[simp] theorem State.setPair_dict (s : State) (a b : Nat) (x : Pair) : (s.setPair a b x).dict = s.dict := rfl
@[simp] theorem State.setPair_blobs (s : State) (a b : Nat) (x : Pair) : (s.setPair a b x).blobs = s.blobs := rfl
@[simp] theorem State.setPair_host (s : State) (a b : Nat) (x : Pair) : (s.setPair a b x).host = s.host := rfl
@[simp] theorem State.setPair_mgmt (s : State) (a b : Nat) (x : Pair) : (s.setPair a b x).mgmt = s.mgmt := rfl
@[simp] theorem State.setPair_tempo (s : State) (a b : Nat) (x : Pair) : (s.setPair a b x).tempo = s.tempo := rfl
@[simp] theorem State.setPair_queues (s : State) (a b : Nat) (x : Pair) : (s.setPair a b x).queues = s.queues := rfl
@[simp] theorem State.setPair_cps (s : State) (a b : Nat) (x : Pair) : (s.setPair a b x).cps = s.cps := rfl
@[simp] theorem State.setPair_train (s : State) (a b : Nat) (x : Pair) : (s.setPair a b x).train = s.train := rfl
@[simp] theorem State.setPair_bells (s : State) (a b : Nat) (x : Pair) : (s.setPair a b x).bells = s.bells := rfl
@[simp] theorem State.setPair_watches (s : State) (a b : Nat) (x : Pair) : (s.setPair a b x).watches = s.watches := rfl
@[simp] theorem State.setPair_scheds (s : State) (a b : Nat) (x : Pair) : (s.setPair a b x).scheds = s.scheds := rfl
@[simp] theorem State.setPair_remScheds (s : State) (a b : Nat) (x : Pair) : (s.setPair a b x).remScheds = s.remScheds := rfl
@[simp] theorem State.setPair_arrays (s : State) (a b : Nat) (x : Pair) : (s.setPair a b x).arrays = s.arrays := rfl
@[simp] theorem State.setPair_ves (s : State) (a b : Nat) (x : Pair) : (s.setPair a b x).ves = s.ves := rfl
@[simp] theorem State.setPair_lanes (s : State) (a b : Nat) (x : Pair) : (s.setPair a b x).lanes = s.lanes := rfl
@[simp] theorem State.setPair_mem (s : State) (a b : Nat) (x : Pair) : (s.setPair a b x).mem = s.mem := rfl
@[simp] theorem State.setPair_poison (s : State) (a b : Nat) (x : Pair) : (s.setPair a b x).poison = s.poison := rfl
@[simp] theorem State.setPair_tiers (s : State) (a b : Nat) (x : Pair) : (s.setPair a b x).tiers = s.tiers := rfl
@[simp] theorem State.setPair_hbms (s : State) (a b : Nat) (x : Pair) : (s.setPair a b x).hbms = s.hbms := rfl
@[simp] theorem State.setPair_rcs (s : State) (a b : Nat) (x : Pair) : (s.setPair a b x).rcs = s.rcs := rfl
@[simp] theorem State.setPair_flight (s : State) (a b : Nat) (x : Pair) : (s.setPair a b x).flight = s.flight := rfl
@[simp] theorem State.setPair_d2dReqs (s : State) (a b : Nat) (x : Pair) : (s.setPair a b x).d2dReqs = s.d2dReqs := rfl
@[simp] theorem State.setPair_fab (s : State) (a b : Nat) (x : Pair) : (s.setPair a b x).fab = s.fab := rfl
@[simp] theorem State.setPair_fibres (s : State) (a b : Nat) (x : Pair) : (s.setPair a b x).fibres = s.fibres := rfl
@[simp] theorem State.setPair_portMaps (s : State) (a b : Nat) (x : Pair) : (s.setPair a b x).portMaps = s.portMaps := rfl
@[simp] theorem State.setPair_banks (s : State) (a b : Nat) (x : Pair) : (s.setPair a b x).banks = s.banks := rfl
@[simp] theorem State.setPair_coll (s : State) (a b : Nat) (x : Pair) : (s.setPair a b x).coll = s.coll := rfl
@[simp] theorem State.setPair_res (s : State) (a b : Nat) (x : Pair) : (s.setPair a b x).res = s.res := rfl
@[simp] theorem State.setPair_health (s : State) (a b : Nat) (x : Pair) : (s.setPair a b x).health = s.health := rfl
@[simp] theorem State.setPair_therms (s : State) (a b : Nat) (x : Pair) : (s.setPair a b x).therms = s.therms := rfl
@[simp] theorem State.setPair_power (s : State) (a b : Nat) (x : Pair) : (s.setPair a b x).power = s.power := rfl
@[simp] theorem State.setPair_stretch (s : State) (a b : Nat) (x : Pair) : (s.setPair a b x).stretch = s.stretch := rfl
@[simp] theorem State.setPair_rings (s : State) (a b : Nat) (x : Pair) : (s.setPair a b x).rings = s.rings := rfl
@[simp] theorem State.setPair_stackMask (s : State) (a b : Nat) (x : Pair) : (s.setPair a b x).stackMask = s.stackMask := rfl
@[simp] theorem State.setPair_dieReset (s : State) (a b : Nat) (x : Pair) : (s.setPair a b x).dieReset = s.dieReset := rfl
@[simp] theorem State.setPair_swaps (s : State) (a b : Nat) (x : Pair) : (s.setPair a b x).swaps = s.swaps := rfl

/-! ### emit -/

@[simp] theorem emit_pending (s : State) (o : Output) : (emit s o).pending = s.pending := rfl
@[simp] theorem emit_free (s : State) (o : Output) : (emit s o).free = s.free := rfl
@[simp] theorem emit_stage (s : State) (o : Output) : (emit s o).stage = s.stage := rfl
@[simp] theorem emit_fuses (s : State) (o : Output) : (emit s o).fuses = s.fuses := rfl
@[simp] theorem emit_flash (s : State) (o : Output) : (emit s o).flash = s.flash := rfl
@[simp] theorem emit_boot (s : State) (o : Output) : (emit s o).boot = s.boot := rfl
@[simp] theorem emit_dict (s : State) (o : Output) : (emit s o).dict = s.dict := rfl
@[simp] theorem emit_blobs (s : State) (o : Output) : (emit s o).blobs = s.blobs := rfl
@[simp] theorem emit_host (s : State) (o : Output) : (emit s o).host = s.host := rfl
@[simp] theorem emit_mgmt (s : State) (o : Output) : (emit s o).mgmt = s.mgmt := rfl
@[simp] theorem emit_tempo (s : State) (o : Output) : (emit s o).tempo = s.tempo := rfl
@[simp] theorem emit_queues (s : State) (o : Output) : (emit s o).queues = s.queues := rfl
@[simp] theorem emit_cps (s : State) (o : Output) : (emit s o).cps = s.cps := rfl
@[simp] theorem emit_train (s : State) (o : Output) : (emit s o).train = s.train := rfl
@[simp] theorem emit_bells (s : State) (o : Output) : (emit s o).bells = s.bells := rfl
@[simp] theorem emit_watches (s : State) (o : Output) : (emit s o).watches = s.watches := rfl
@[simp] theorem emit_scheds (s : State) (o : Output) : (emit s o).scheds = s.scheds := rfl
@[simp] theorem emit_remScheds (s : State) (o : Output) : (emit s o).remScheds = s.remScheds := rfl
@[simp] theorem emit_arrays (s : State) (o : Output) : (emit s o).arrays = s.arrays := rfl
@[simp] theorem emit_ves (s : State) (o : Output) : (emit s o).ves = s.ves := rfl
@[simp] theorem emit_lanes (s : State) (o : Output) : (emit s o).lanes = s.lanes := rfl
@[simp] theorem emit_mem (s : State) (o : Output) : (emit s o).mem = s.mem := rfl
@[simp] theorem emit_poison (s : State) (o : Output) : (emit s o).poison = s.poison := rfl
@[simp] theorem emit_tiers (s : State) (o : Output) : (emit s o).tiers = s.tiers := rfl
@[simp] theorem emit_hbms (s : State) (o : Output) : (emit s o).hbms = s.hbms := rfl
@[simp] theorem emit_rcs (s : State) (o : Output) : (emit s o).rcs = s.rcs := rfl
@[simp] theorem emit_pairs (s : State) (o : Output) : (emit s o).pairs = s.pairs := rfl
@[simp] theorem emit_flight (s : State) (o : Output) : (emit s o).flight = s.flight := rfl
@[simp] theorem emit_d2dReqs (s : State) (o : Output) : (emit s o).d2dReqs = s.d2dReqs := rfl
@[simp] theorem emit_fab (s : State) (o : Output) : (emit s o).fab = s.fab := rfl
@[simp] theorem emit_fibres (s : State) (o : Output) : (emit s o).fibres = s.fibres := rfl
@[simp] theorem emit_portMaps (s : State) (o : Output) : (emit s o).portMaps = s.portMaps := rfl
@[simp] theorem emit_banks (s : State) (o : Output) : (emit s o).banks = s.banks := rfl
@[simp] theorem emit_coll (s : State) (o : Output) : (emit s o).coll = s.coll := rfl
@[simp] theorem emit_res (s : State) (o : Output) : (emit s o).res = s.res := rfl
@[simp] theorem emit_health (s : State) (o : Output) : (emit s o).health = s.health := rfl
@[simp] theorem emit_therms (s : State) (o : Output) : (emit s o).therms = s.therms := rfl
@[simp] theorem emit_power (s : State) (o : Output) : (emit s o).power = s.power := rfl
@[simp] theorem emit_stretch (s : State) (o : Output) : (emit s o).stretch = s.stretch := rfl
@[simp] theorem emit_rings (s : State) (o : Output) : (emit s o).rings = s.rings := rfl
@[simp] theorem emit_stackMask (s : State) (o : Output) : (emit s o).stackMask = s.stackMask := rfl
@[simp] theorem emit_dieReset (s : State) (o : Output) : (emit s o).dieReset = s.dieReset := rfl
@[simp] theorem emit_swaps (s : State) (o : Output) : (emit s o).swaps = s.swaps := rfl

/-! ### dset -/

@[simp] theorem dset_pending (s : State) (idx sub v : Nat) : (dset s idx sub v).pending = s.pending := rfl
@[simp] theorem dset_free (s : State) (idx sub v : Nat) : (dset s idx sub v).free = s.free := rfl
@[simp] theorem dset_out (s : State) (idx sub v : Nat) : (dset s idx sub v).out = s.out := rfl
@[simp] theorem dset_stage (s : State) (idx sub v : Nat) : (dset s idx sub v).stage = s.stage := rfl
@[simp] theorem dset_fuses (s : State) (idx sub v : Nat) : (dset s idx sub v).fuses = s.fuses := rfl
@[simp] theorem dset_flash (s : State) (idx sub v : Nat) : (dset s idx sub v).flash = s.flash := rfl
@[simp] theorem dset_boot (s : State) (idx sub v : Nat) : (dset s idx sub v).boot = s.boot := rfl
@[simp] theorem dset_blobs (s : State) (idx sub v : Nat) : (dset s idx sub v).blobs = s.blobs := rfl
@[simp] theorem dset_host (s : State) (idx sub v : Nat) : (dset s idx sub v).host = s.host := rfl
@[simp] theorem dset_mgmt (s : State) (idx sub v : Nat) : (dset s idx sub v).mgmt = s.mgmt := rfl
@[simp] theorem dset_tempo (s : State) (idx sub v : Nat) : (dset s idx sub v).tempo = s.tempo := rfl
@[simp] theorem dset_queues (s : State) (idx sub v : Nat) : (dset s idx sub v).queues = s.queues := rfl
@[simp] theorem dset_cps (s : State) (idx sub v : Nat) : (dset s idx sub v).cps = s.cps := rfl
@[simp] theorem dset_train (s : State) (idx sub v : Nat) : (dset s idx sub v).train = s.train := rfl
@[simp] theorem dset_bells (s : State) (idx sub v : Nat) : (dset s idx sub v).bells = s.bells := rfl
@[simp] theorem dset_watches (s : State) (idx sub v : Nat) : (dset s idx sub v).watches = s.watches := rfl
@[simp] theorem dset_scheds (s : State) (idx sub v : Nat) : (dset s idx sub v).scheds = s.scheds := rfl
@[simp] theorem dset_remScheds (s : State) (idx sub v : Nat) : (dset s idx sub v).remScheds = s.remScheds := rfl
@[simp] theorem dset_arrays (s : State) (idx sub v : Nat) : (dset s idx sub v).arrays = s.arrays := rfl
@[simp] theorem dset_ves (s : State) (idx sub v : Nat) : (dset s idx sub v).ves = s.ves := rfl
@[simp] theorem dset_lanes (s : State) (idx sub v : Nat) : (dset s idx sub v).lanes = s.lanes := rfl
@[simp] theorem dset_mem (s : State) (idx sub v : Nat) : (dset s idx sub v).mem = s.mem := rfl
@[simp] theorem dset_poison (s : State) (idx sub v : Nat) : (dset s idx sub v).poison = s.poison := rfl
@[simp] theorem dset_tiers (s : State) (idx sub v : Nat) : (dset s idx sub v).tiers = s.tiers := rfl
@[simp] theorem dset_hbms (s : State) (idx sub v : Nat) : (dset s idx sub v).hbms = s.hbms := rfl
@[simp] theorem dset_rcs (s : State) (idx sub v : Nat) : (dset s idx sub v).rcs = s.rcs := rfl
@[simp] theorem dset_pairs (s : State) (idx sub v : Nat) : (dset s idx sub v).pairs = s.pairs := rfl
@[simp] theorem dset_flight (s : State) (idx sub v : Nat) : (dset s idx sub v).flight = s.flight := rfl
@[simp] theorem dset_d2dReqs (s : State) (idx sub v : Nat) : (dset s idx sub v).d2dReqs = s.d2dReqs := rfl
@[simp] theorem dset_fab (s : State) (idx sub v : Nat) : (dset s idx sub v).fab = s.fab := rfl
@[simp] theorem dset_fibres (s : State) (idx sub v : Nat) : (dset s idx sub v).fibres = s.fibres := rfl
@[simp] theorem dset_portMaps (s : State) (idx sub v : Nat) : (dset s idx sub v).portMaps = s.portMaps := rfl
@[simp] theorem dset_banks (s : State) (idx sub v : Nat) : (dset s idx sub v).banks = s.banks := rfl
@[simp] theorem dset_coll (s : State) (idx sub v : Nat) : (dset s idx sub v).coll = s.coll := rfl
@[simp] theorem dset_res (s : State) (idx sub v : Nat) : (dset s idx sub v).res = s.res := rfl
@[simp] theorem dset_health (s : State) (idx sub v : Nat) : (dset s idx sub v).health = s.health := rfl
@[simp] theorem dset_therms (s : State) (idx sub v : Nat) : (dset s idx sub v).therms = s.therms := rfl
@[simp] theorem dset_power (s : State) (idx sub v : Nat) : (dset s idx sub v).power = s.power := rfl
@[simp] theorem dset_stretch (s : State) (idx sub v : Nat) : (dset s idx sub v).stretch = s.stretch := rfl
@[simp] theorem dset_rings (s : State) (idx sub v : Nat) : (dset s idx sub v).rings = s.rings := rfl
@[simp] theorem dset_stackMask (s : State) (idx sub v : Nat) : (dset s idx sub v).stackMask = s.stackMask := rfl
@[simp] theorem dset_dieReset (s : State) (idx sub v : Nat) : (dset s idx sub v).dieReset = s.dieReset := rfl
@[simp] theorem dset_swaps (s : State) (idx sub v : Nat) : (dset s idx sub v).swaps = s.swaps := rfl

/-! ### bump -/

@[simp] theorem bump_pending (s : State) (idx sub n : Nat) : (bump s idx sub n).pending = s.pending := rfl
@[simp] theorem bump_free (s : State) (idx sub n : Nat) : (bump s idx sub n).free = s.free := rfl
@[simp] theorem bump_out (s : State) (idx sub n : Nat) : (bump s idx sub n).out = s.out := rfl
@[simp] theorem bump_stage (s : State) (idx sub n : Nat) : (bump s idx sub n).stage = s.stage := rfl
@[simp] theorem bump_fuses (s : State) (idx sub n : Nat) : (bump s idx sub n).fuses = s.fuses := rfl
@[simp] theorem bump_flash (s : State) (idx sub n : Nat) : (bump s idx sub n).flash = s.flash := rfl
@[simp] theorem bump_boot (s : State) (idx sub n : Nat) : (bump s idx sub n).boot = s.boot := rfl
@[simp] theorem bump_blobs (s : State) (idx sub n : Nat) : (bump s idx sub n).blobs = s.blobs := rfl
@[simp] theorem bump_host (s : State) (idx sub n : Nat) : (bump s idx sub n).host = s.host := rfl
@[simp] theorem bump_mgmt (s : State) (idx sub n : Nat) : (bump s idx sub n).mgmt = s.mgmt := rfl
@[simp] theorem bump_tempo (s : State) (idx sub n : Nat) : (bump s idx sub n).tempo = s.tempo := rfl
@[simp] theorem bump_queues (s : State) (idx sub n : Nat) : (bump s idx sub n).queues = s.queues := rfl
@[simp] theorem bump_cps (s : State) (idx sub n : Nat) : (bump s idx sub n).cps = s.cps := rfl
@[simp] theorem bump_train (s : State) (idx sub n : Nat) : (bump s idx sub n).train = s.train := rfl
@[simp] theorem bump_bells (s : State) (idx sub n : Nat) : (bump s idx sub n).bells = s.bells := rfl
@[simp] theorem bump_watches (s : State) (idx sub n : Nat) : (bump s idx sub n).watches = s.watches := rfl
@[simp] theorem bump_scheds (s : State) (idx sub n : Nat) : (bump s idx sub n).scheds = s.scheds := rfl
@[simp] theorem bump_remScheds (s : State) (idx sub n : Nat) : (bump s idx sub n).remScheds = s.remScheds := rfl
@[simp] theorem bump_arrays (s : State) (idx sub n : Nat) : (bump s idx sub n).arrays = s.arrays := rfl
@[simp] theorem bump_ves (s : State) (idx sub n : Nat) : (bump s idx sub n).ves = s.ves := rfl
@[simp] theorem bump_lanes (s : State) (idx sub n : Nat) : (bump s idx sub n).lanes = s.lanes := rfl
@[simp] theorem bump_mem (s : State) (idx sub n : Nat) : (bump s idx sub n).mem = s.mem := rfl
@[simp] theorem bump_poison (s : State) (idx sub n : Nat) : (bump s idx sub n).poison = s.poison := rfl
@[simp] theorem bump_tiers (s : State) (idx sub n : Nat) : (bump s idx sub n).tiers = s.tiers := rfl
@[simp] theorem bump_hbms (s : State) (idx sub n : Nat) : (bump s idx sub n).hbms = s.hbms := rfl
@[simp] theorem bump_rcs (s : State) (idx sub n : Nat) : (bump s idx sub n).rcs = s.rcs := rfl
@[simp] theorem bump_pairs (s : State) (idx sub n : Nat) : (bump s idx sub n).pairs = s.pairs := rfl
@[simp] theorem bump_flight (s : State) (idx sub n : Nat) : (bump s idx sub n).flight = s.flight := rfl
@[simp] theorem bump_d2dReqs (s : State) (idx sub n : Nat) : (bump s idx sub n).d2dReqs = s.d2dReqs := rfl
@[simp] theorem bump_fab (s : State) (idx sub n : Nat) : (bump s idx sub n).fab = s.fab := rfl
@[simp] theorem bump_fibres (s : State) (idx sub n : Nat) : (bump s idx sub n).fibres = s.fibres := rfl
@[simp] theorem bump_portMaps (s : State) (idx sub n : Nat) : (bump s idx sub n).portMaps = s.portMaps := rfl
@[simp] theorem bump_banks (s : State) (idx sub n : Nat) : (bump s idx sub n).banks = s.banks := rfl
@[simp] theorem bump_coll (s : State) (idx sub n : Nat) : (bump s idx sub n).coll = s.coll := rfl
@[simp] theorem bump_res (s : State) (idx sub n : Nat) : (bump s idx sub n).res = s.res := rfl
@[simp] theorem bump_health (s : State) (idx sub n : Nat) : (bump s idx sub n).health = s.health := rfl
@[simp] theorem bump_therms (s : State) (idx sub n : Nat) : (bump s idx sub n).therms = s.therms := rfl
@[simp] theorem bump_power (s : State) (idx sub n : Nat) : (bump s idx sub n).power = s.power := rfl
@[simp] theorem bump_stretch (s : State) (idx sub n : Nat) : (bump s idx sub n).stretch = s.stretch := rfl
@[simp] theorem bump_rings (s : State) (idx sub n : Nat) : (bump s idx sub n).rings = s.rings := rfl
@[simp] theorem bump_stackMask (s : State) (idx sub n : Nat) : (bump s idx sub n).stackMask = s.stackMask := rfl
@[simp] theorem bump_dieReset (s : State) (idx sub n : Nat) : (bump s idx sub n).dieReset = s.dieReset := rfl
@[simp] theorem bump_swaps (s : State) (idx sub n : Nat) : (bump s idx sub n).swaps = s.swaps := rfl

/-! ### dputBit -/

@[simp] theorem dputBit_pending (s : State) (idx sub i : Nat) (b : Bool) : (dputBit s idx sub i b).pending = s.pending := rfl
@[simp] theorem dputBit_free (s : State) (idx sub i : Nat) (b : Bool) : (dputBit s idx sub i b).free = s.free := rfl
@[simp] theorem dputBit_out (s : State) (idx sub i : Nat) (b : Bool) : (dputBit s idx sub i b).out = s.out := rfl
@[simp] theorem dputBit_stage (s : State) (idx sub i : Nat) (b : Bool) : (dputBit s idx sub i b).stage = s.stage := rfl
@[simp] theorem dputBit_fuses (s : State) (idx sub i : Nat) (b : Bool) : (dputBit s idx sub i b).fuses = s.fuses := rfl
@[simp] theorem dputBit_flash (s : State) (idx sub i : Nat) (b : Bool) : (dputBit s idx sub i b).flash = s.flash := rfl
@[simp] theorem dputBit_boot (s : State) (idx sub i : Nat) (b : Bool) : (dputBit s idx sub i b).boot = s.boot := rfl
@[simp] theorem dputBit_blobs (s : State) (idx sub i : Nat) (b : Bool) : (dputBit s idx sub i b).blobs = s.blobs := rfl
@[simp] theorem dputBit_host (s : State) (idx sub i : Nat) (b : Bool) : (dputBit s idx sub i b).host = s.host := rfl
@[simp] theorem dputBit_mgmt (s : State) (idx sub i : Nat) (b : Bool) : (dputBit s idx sub i b).mgmt = s.mgmt := rfl
@[simp] theorem dputBit_tempo (s : State) (idx sub i : Nat) (b : Bool) : (dputBit s idx sub i b).tempo = s.tempo := rfl
@[simp] theorem dputBit_queues (s : State) (idx sub i : Nat) (b : Bool) : (dputBit s idx sub i b).queues = s.queues := rfl
@[simp] theorem dputBit_cps (s : State) (idx sub i : Nat) (b : Bool) : (dputBit s idx sub i b).cps = s.cps := rfl
@[simp] theorem dputBit_train (s : State) (idx sub i : Nat) (b : Bool) : (dputBit s idx sub i b).train = s.train := rfl
@[simp] theorem dputBit_bells (s : State) (idx sub i : Nat) (b : Bool) : (dputBit s idx sub i b).bells = s.bells := rfl
@[simp] theorem dputBit_watches (s : State) (idx sub i : Nat) (b : Bool) : (dputBit s idx sub i b).watches = s.watches := rfl
@[simp] theorem dputBit_scheds (s : State) (idx sub i : Nat) (b : Bool) : (dputBit s idx sub i b).scheds = s.scheds := rfl
@[simp] theorem dputBit_remScheds (s : State) (idx sub i : Nat) (b : Bool) : (dputBit s idx sub i b).remScheds = s.remScheds := rfl
@[simp] theorem dputBit_arrays (s : State) (idx sub i : Nat) (b : Bool) : (dputBit s idx sub i b).arrays = s.arrays := rfl
@[simp] theorem dputBit_ves (s : State) (idx sub i : Nat) (b : Bool) : (dputBit s idx sub i b).ves = s.ves := rfl
@[simp] theorem dputBit_lanes (s : State) (idx sub i : Nat) (b : Bool) : (dputBit s idx sub i b).lanes = s.lanes := rfl
@[simp] theorem dputBit_mem (s : State) (idx sub i : Nat) (b : Bool) : (dputBit s idx sub i b).mem = s.mem := rfl
@[simp] theorem dputBit_poison (s : State) (idx sub i : Nat) (b : Bool) : (dputBit s idx sub i b).poison = s.poison := rfl
@[simp] theorem dputBit_tiers (s : State) (idx sub i : Nat) (b : Bool) : (dputBit s idx sub i b).tiers = s.tiers := rfl
@[simp] theorem dputBit_hbms (s : State) (idx sub i : Nat) (b : Bool) : (dputBit s idx sub i b).hbms = s.hbms := rfl
@[simp] theorem dputBit_rcs (s : State) (idx sub i : Nat) (b : Bool) : (dputBit s idx sub i b).rcs = s.rcs := rfl
@[simp] theorem dputBit_pairs (s : State) (idx sub i : Nat) (b : Bool) : (dputBit s idx sub i b).pairs = s.pairs := rfl
@[simp] theorem dputBit_flight (s : State) (idx sub i : Nat) (b : Bool) : (dputBit s idx sub i b).flight = s.flight := rfl
@[simp] theorem dputBit_d2dReqs (s : State) (idx sub i : Nat) (b : Bool) : (dputBit s idx sub i b).d2dReqs = s.d2dReqs := rfl
@[simp] theorem dputBit_fab (s : State) (idx sub i : Nat) (b : Bool) : (dputBit s idx sub i b).fab = s.fab := rfl
@[simp] theorem dputBit_fibres (s : State) (idx sub i : Nat) (b : Bool) : (dputBit s idx sub i b).fibres = s.fibres := rfl
@[simp] theorem dputBit_portMaps (s : State) (idx sub i : Nat) (b : Bool) : (dputBit s idx sub i b).portMaps = s.portMaps := rfl
@[simp] theorem dputBit_banks (s : State) (idx sub i : Nat) (b : Bool) : (dputBit s idx sub i b).banks = s.banks := rfl
@[simp] theorem dputBit_coll (s : State) (idx sub i : Nat) (b : Bool) : (dputBit s idx sub i b).coll = s.coll := rfl
@[simp] theorem dputBit_res (s : State) (idx sub i : Nat) (b : Bool) : (dputBit s idx sub i b).res = s.res := rfl
@[simp] theorem dputBit_health (s : State) (idx sub i : Nat) (b : Bool) : (dputBit s idx sub i b).health = s.health := rfl
@[simp] theorem dputBit_therms (s : State) (idx sub i : Nat) (b : Bool) : (dputBit s idx sub i b).therms = s.therms := rfl
@[simp] theorem dputBit_power (s : State) (idx sub i : Nat) (b : Bool) : (dputBit s idx sub i b).power = s.power := rfl
@[simp] theorem dputBit_stretch (s : State) (idx sub i : Nat) (b : Bool) : (dputBit s idx sub i b).stretch = s.stretch := rfl
@[simp] theorem dputBit_rings (s : State) (idx sub i : Nat) (b : Bool) : (dputBit s idx sub i b).rings = s.rings := rfl
@[simp] theorem dputBit_stackMask (s : State) (idx sub i : Nat) (b : Bool) : (dputBit s idx sub i b).stackMask = s.stackMask := rfl
@[simp] theorem dputBit_dieReset (s : State) (idx sub i : Nat) (b : Bool) : (dputBit s idx sub i b).dieReset = s.dieReset := rfl
@[simp] theorem dputBit_swaps (s : State) (idx sub i : Nat) (b : Bool) : (dputBit s idx sub i b).swaps = s.swaps := rfl

/-! ### writeByte -/

@[simp] theorem writeByte_pending (s : State) (key : Nat) (b : Byte) : (writeByte s key b).pending = s.pending := rfl
@[simp] theorem writeByte_free (s : State) (key : Nat) (b : Byte) : (writeByte s key b).free = s.free := rfl
@[simp] theorem writeByte_out (s : State) (key : Nat) (b : Byte) : (writeByte s key b).out = s.out := rfl
@[simp] theorem writeByte_stage (s : State) (key : Nat) (b : Byte) : (writeByte s key b).stage = s.stage := rfl
@[simp] theorem writeByte_fuses (s : State) (key : Nat) (b : Byte) : (writeByte s key b).fuses = s.fuses := rfl
@[simp] theorem writeByte_flash (s : State) (key : Nat) (b : Byte) : (writeByte s key b).flash = s.flash := rfl
@[simp] theorem writeByte_boot (s : State) (key : Nat) (b : Byte) : (writeByte s key b).boot = s.boot := rfl
@[simp] theorem writeByte_dict (s : State) (key : Nat) (b : Byte) : (writeByte s key b).dict = s.dict := rfl
@[simp] theorem writeByte_blobs (s : State) (key : Nat) (b : Byte) : (writeByte s key b).blobs = s.blobs := rfl
@[simp] theorem writeByte_host (s : State) (key : Nat) (b : Byte) : (writeByte s key b).host = s.host := rfl
@[simp] theorem writeByte_mgmt (s : State) (key : Nat) (b : Byte) : (writeByte s key b).mgmt = s.mgmt := rfl
@[simp] theorem writeByte_tempo (s : State) (key : Nat) (b : Byte) : (writeByte s key b).tempo = s.tempo := rfl
@[simp] theorem writeByte_queues (s : State) (key : Nat) (b : Byte) : (writeByte s key b).queues = s.queues := rfl
@[simp] theorem writeByte_cps (s : State) (key : Nat) (b : Byte) : (writeByte s key b).cps = s.cps := rfl
@[simp] theorem writeByte_train (s : State) (key : Nat) (b : Byte) : (writeByte s key b).train = s.train := rfl
@[simp] theorem writeByte_bells (s : State) (key : Nat) (b : Byte) : (writeByte s key b).bells = s.bells := rfl
@[simp] theorem writeByte_watches (s : State) (key : Nat) (b : Byte) : (writeByte s key b).watches = s.watches := rfl
@[simp] theorem writeByte_scheds (s : State) (key : Nat) (b : Byte) : (writeByte s key b).scheds = s.scheds := rfl
@[simp] theorem writeByte_remScheds (s : State) (key : Nat) (b : Byte) : (writeByte s key b).remScheds = s.remScheds := rfl
@[simp] theorem writeByte_arrays (s : State) (key : Nat) (b : Byte) : (writeByte s key b).arrays = s.arrays := rfl
@[simp] theorem writeByte_ves (s : State) (key : Nat) (b : Byte) : (writeByte s key b).ves = s.ves := rfl
@[simp] theorem writeByte_lanes (s : State) (key : Nat) (b : Byte) : (writeByte s key b).lanes = s.lanes := rfl
@[simp] theorem writeByte_poison (s : State) (key : Nat) (b : Byte) : (writeByte s key b).poison = s.poison := rfl
@[simp] theorem writeByte_tiers (s : State) (key : Nat) (b : Byte) : (writeByte s key b).tiers = s.tiers := rfl
@[simp] theorem writeByte_hbms (s : State) (key : Nat) (b : Byte) : (writeByte s key b).hbms = s.hbms := rfl
@[simp] theorem writeByte_rcs (s : State) (key : Nat) (b : Byte) : (writeByte s key b).rcs = s.rcs := rfl
@[simp] theorem writeByte_pairs (s : State) (key : Nat) (b : Byte) : (writeByte s key b).pairs = s.pairs := rfl
@[simp] theorem writeByte_flight (s : State) (key : Nat) (b : Byte) : (writeByte s key b).flight = s.flight := rfl
@[simp] theorem writeByte_d2dReqs (s : State) (key : Nat) (b : Byte) : (writeByte s key b).d2dReqs = s.d2dReqs := rfl
@[simp] theorem writeByte_fab (s : State) (key : Nat) (b : Byte) : (writeByte s key b).fab = s.fab := rfl
@[simp] theorem writeByte_fibres (s : State) (key : Nat) (b : Byte) : (writeByte s key b).fibres = s.fibres := rfl
@[simp] theorem writeByte_portMaps (s : State) (key : Nat) (b : Byte) : (writeByte s key b).portMaps = s.portMaps := rfl
@[simp] theorem writeByte_banks (s : State) (key : Nat) (b : Byte) : (writeByte s key b).banks = s.banks := rfl
@[simp] theorem writeByte_coll (s : State) (key : Nat) (b : Byte) : (writeByte s key b).coll = s.coll := rfl
@[simp] theorem writeByte_res (s : State) (key : Nat) (b : Byte) : (writeByte s key b).res = s.res := rfl
@[simp] theorem writeByte_health (s : State) (key : Nat) (b : Byte) : (writeByte s key b).health = s.health := rfl
@[simp] theorem writeByte_therms (s : State) (key : Nat) (b : Byte) : (writeByte s key b).therms = s.therms := rfl
@[simp] theorem writeByte_power (s : State) (key : Nat) (b : Byte) : (writeByte s key b).power = s.power := rfl
@[simp] theorem writeByte_stretch (s : State) (key : Nat) (b : Byte) : (writeByte s key b).stretch = s.stretch := rfl
@[simp] theorem writeByte_rings (s : State) (key : Nat) (b : Byte) : (writeByte s key b).rings = s.rings := rfl
@[simp] theorem writeByte_stackMask (s : State) (key : Nat) (b : Byte) : (writeByte s key b).stackMask = s.stackMask := rfl
@[simp] theorem writeByte_dieReset (s : State) (key : Nat) (b : Byte) : (writeByte s key b).dieReset = s.dieReset := rfl
@[simp] theorem writeByte_swaps (s : State) (key : Nat) (b : Byte) : (writeByte s key b).swaps = s.swaps := rfl

/-! ### markWord -/

@[simp] theorem markWord_pending (s : State) (w : Nat) (b : Bool) : (markWord s w b).pending = s.pending := rfl
@[simp] theorem markWord_free (s : State) (w : Nat) (b : Bool) : (markWord s w b).free = s.free := rfl
@[simp] theorem markWord_out (s : State) (w : Nat) (b : Bool) : (markWord s w b).out = s.out := rfl
@[simp] theorem markWord_stage (s : State) (w : Nat) (b : Bool) : (markWord s w b).stage = s.stage := rfl
@[simp] theorem markWord_fuses (s : State) (w : Nat) (b : Bool) : (markWord s w b).fuses = s.fuses := rfl
@[simp] theorem markWord_flash (s : State) (w : Nat) (b : Bool) : (markWord s w b).flash = s.flash := rfl
@[simp] theorem markWord_boot (s : State) (w : Nat) (b : Bool) : (markWord s w b).boot = s.boot := rfl
@[simp] theorem markWord_dict (s : State) (w : Nat) (b : Bool) : (markWord s w b).dict = s.dict := rfl
@[simp] theorem markWord_blobs (s : State) (w : Nat) (b : Bool) : (markWord s w b).blobs = s.blobs := rfl
@[simp] theorem markWord_host (s : State) (w : Nat) (b : Bool) : (markWord s w b).host = s.host := rfl
@[simp] theorem markWord_mgmt (s : State) (w : Nat) (b : Bool) : (markWord s w b).mgmt = s.mgmt := rfl
@[simp] theorem markWord_tempo (s : State) (w : Nat) (b : Bool) : (markWord s w b).tempo = s.tempo := rfl
@[simp] theorem markWord_queues (s : State) (w : Nat) (b : Bool) : (markWord s w b).queues = s.queues := rfl
@[simp] theorem markWord_cps (s : State) (w : Nat) (b : Bool) : (markWord s w b).cps = s.cps := rfl
@[simp] theorem markWord_train (s : State) (w : Nat) (b : Bool) : (markWord s w b).train = s.train := rfl
@[simp] theorem markWord_bells (s : State) (w : Nat) (b : Bool) : (markWord s w b).bells = s.bells := rfl
@[simp] theorem markWord_watches (s : State) (w : Nat) (b : Bool) : (markWord s w b).watches = s.watches := rfl
@[simp] theorem markWord_scheds (s : State) (w : Nat) (b : Bool) : (markWord s w b).scheds = s.scheds := rfl
@[simp] theorem markWord_remScheds (s : State) (w : Nat) (b : Bool) : (markWord s w b).remScheds = s.remScheds := rfl
@[simp] theorem markWord_arrays (s : State) (w : Nat) (b : Bool) : (markWord s w b).arrays = s.arrays := rfl
@[simp] theorem markWord_ves (s : State) (w : Nat) (b : Bool) : (markWord s w b).ves = s.ves := rfl
@[simp] theorem markWord_lanes (s : State) (w : Nat) (b : Bool) : (markWord s w b).lanes = s.lanes := rfl
@[simp] theorem markWord_mem (s : State) (w : Nat) (b : Bool) : (markWord s w b).mem = s.mem := rfl
@[simp] theorem markWord_tiers (s : State) (w : Nat) (b : Bool) : (markWord s w b).tiers = s.tiers := rfl
@[simp] theorem markWord_hbms (s : State) (w : Nat) (b : Bool) : (markWord s w b).hbms = s.hbms := rfl
@[simp] theorem markWord_rcs (s : State) (w : Nat) (b : Bool) : (markWord s w b).rcs = s.rcs := rfl
@[simp] theorem markWord_pairs (s : State) (w : Nat) (b : Bool) : (markWord s w b).pairs = s.pairs := rfl
@[simp] theorem markWord_flight (s : State) (w : Nat) (b : Bool) : (markWord s w b).flight = s.flight := rfl
@[simp] theorem markWord_d2dReqs (s : State) (w : Nat) (b : Bool) : (markWord s w b).d2dReqs = s.d2dReqs := rfl
@[simp] theorem markWord_fab (s : State) (w : Nat) (b : Bool) : (markWord s w b).fab = s.fab := rfl
@[simp] theorem markWord_fibres (s : State) (w : Nat) (b : Bool) : (markWord s w b).fibres = s.fibres := rfl
@[simp] theorem markWord_portMaps (s : State) (w : Nat) (b : Bool) : (markWord s w b).portMaps = s.portMaps := rfl
@[simp] theorem markWord_banks (s : State) (w : Nat) (b : Bool) : (markWord s w b).banks = s.banks := rfl
@[simp] theorem markWord_coll (s : State) (w : Nat) (b : Bool) : (markWord s w b).coll = s.coll := rfl
@[simp] theorem markWord_res (s : State) (w : Nat) (b : Bool) : (markWord s w b).res = s.res := rfl
@[simp] theorem markWord_health (s : State) (w : Nat) (b : Bool) : (markWord s w b).health = s.health := rfl
@[simp] theorem markWord_therms (s : State) (w : Nat) (b : Bool) : (markWord s w b).therms = s.therms := rfl
@[simp] theorem markWord_power (s : State) (w : Nat) (b : Bool) : (markWord s w b).power = s.power := rfl
@[simp] theorem markWord_stretch (s : State) (w : Nat) (b : Bool) : (markWord s w b).stretch = s.stretch := rfl
@[simp] theorem markWord_rings (s : State) (w : Nat) (b : Bool) : (markWord s w b).rings = s.rings := rfl
@[simp] theorem markWord_stackMask (s : State) (w : Nat) (b : Bool) : (markWord s w b).stackMask = s.stackMask := rfl
@[simp] theorem markWord_dieReset (s : State) (w : Nat) (b : Bool) : (markWord s w b).dieReset = s.dieReset := rfl
@[simp] theorem markWord_swaps (s : State) (w : Nat) (b : Bool) : (markWord s w b).swaps = s.swaps := rfl

/-! ### addDebt -/

@[simp] theorem addDebt_pending (s : State) (n : Nat) : (addDebt s n).pending = s.pending := rfl
@[simp] theorem addDebt_free (s : State) (n : Nat) : (addDebt s n).free = s.free := rfl
@[simp] theorem addDebt_out (s : State) (n : Nat) : (addDebt s n).out = s.out := rfl
@[simp] theorem addDebt_stage (s : State) (n : Nat) : (addDebt s n).stage = s.stage := rfl
@[simp] theorem addDebt_fuses (s : State) (n : Nat) : (addDebt s n).fuses = s.fuses := rfl
@[simp] theorem addDebt_flash (s : State) (n : Nat) : (addDebt s n).flash = s.flash := rfl
@[simp] theorem addDebt_boot (s : State) (n : Nat) : (addDebt s n).boot = s.boot := rfl
@[simp] theorem addDebt_dict (s : State) (n : Nat) : (addDebt s n).dict = s.dict := rfl
@[simp] theorem addDebt_blobs (s : State) (n : Nat) : (addDebt s n).blobs = s.blobs := rfl
@[simp] theorem addDebt_host (s : State) (n : Nat) : (addDebt s n).host = s.host := rfl
@[simp] theorem addDebt_mgmt (s : State) (n : Nat) : (addDebt s n).mgmt = s.mgmt := rfl
@[simp] theorem addDebt_tempo (s : State) (n : Nat) : (addDebt s n).tempo = s.tempo := rfl
@[simp] theorem addDebt_queues (s : State) (n : Nat) : (addDebt s n).queues = s.queues := rfl
@[simp] theorem addDebt_cps (s : State) (n : Nat) : (addDebt s n).cps = s.cps := rfl
@[simp] theorem addDebt_train (s : State) (n : Nat) : (addDebt s n).train = s.train := rfl
@[simp] theorem addDebt_bells (s : State) (n : Nat) : (addDebt s n).bells = s.bells := rfl
@[simp] theorem addDebt_watches (s : State) (n : Nat) : (addDebt s n).watches = s.watches := rfl
@[simp] theorem addDebt_scheds (s : State) (n : Nat) : (addDebt s n).scheds = s.scheds := rfl
@[simp] theorem addDebt_remScheds (s : State) (n : Nat) : (addDebt s n).remScheds = s.remScheds := rfl
@[simp] theorem addDebt_arrays (s : State) (n : Nat) : (addDebt s n).arrays = s.arrays := rfl
@[simp] theorem addDebt_ves (s : State) (n : Nat) : (addDebt s n).ves = s.ves := rfl
@[simp] theorem addDebt_lanes (s : State) (n : Nat) : (addDebt s n).lanes = s.lanes := rfl
@[simp] theorem addDebt_mem (s : State) (n : Nat) : (addDebt s n).mem = s.mem := rfl
@[simp] theorem addDebt_poison (s : State) (n : Nat) : (addDebt s n).poison = s.poison := rfl
@[simp] theorem addDebt_tiers (s : State) (n : Nat) : (addDebt s n).tiers = s.tiers := rfl
@[simp] theorem addDebt_hbms (s : State) (n : Nat) : (addDebt s n).hbms = s.hbms := rfl
@[simp] theorem addDebt_rcs (s : State) (n : Nat) : (addDebt s n).rcs = s.rcs := rfl
@[simp] theorem addDebt_pairs (s : State) (n : Nat) : (addDebt s n).pairs = s.pairs := rfl
@[simp] theorem addDebt_flight (s : State) (n : Nat) : (addDebt s n).flight = s.flight := rfl
@[simp] theorem addDebt_d2dReqs (s : State) (n : Nat) : (addDebt s n).d2dReqs = s.d2dReqs := rfl
@[simp] theorem addDebt_fab (s : State) (n : Nat) : (addDebt s n).fab = s.fab := rfl
@[simp] theorem addDebt_fibres (s : State) (n : Nat) : (addDebt s n).fibres = s.fibres := rfl
@[simp] theorem addDebt_portMaps (s : State) (n : Nat) : (addDebt s n).portMaps = s.portMaps := rfl
@[simp] theorem addDebt_banks (s : State) (n : Nat) : (addDebt s n).banks = s.banks := rfl
@[simp] theorem addDebt_coll (s : State) (n : Nat) : (addDebt s n).coll = s.coll := rfl
@[simp] theorem addDebt_res (s : State) (n : Nat) : (addDebt s n).res = s.res := rfl
@[simp] theorem addDebt_therms (s : State) (n : Nat) : (addDebt s n).therms = s.therms := rfl
@[simp] theorem addDebt_power (s : State) (n : Nat) : (addDebt s n).power = s.power := rfl
@[simp] theorem addDebt_stretch (s : State) (n : Nat) : (addDebt s n).stretch = s.stretch := rfl
@[simp] theorem addDebt_rings (s : State) (n : Nat) : (addDebt s n).rings = s.rings := rfl
@[simp] theorem addDebt_stackMask (s : State) (n : Nat) : (addDebt s n).stackMask = s.stackMask := rfl
@[simp] theorem addDebt_dieReset (s : State) (n : Nat) : (addDebt s n).dieReset = s.dieReset := rfl
@[simp] theorem addDebt_swaps (s : State) (n : Nat) : (addDebt s n).swaps = s.swaps := rfl

/-! ### spendTag -/

@[simp] theorem spendTag_pending (s : State) (t : BitVec 16) : (spendTag s t).pending = s.pending := rfl
@[simp] theorem spendTag_free (s : State) (t : BitVec 16) : (spendTag s t).free = s.free := rfl
@[simp] theorem spendTag_out (s : State) (t : BitVec 16) : (spendTag s t).out = s.out := rfl
@[simp] theorem spendTag_stage (s : State) (t : BitVec 16) : (spendTag s t).stage = s.stage := rfl
@[simp] theorem spendTag_fuses (s : State) (t : BitVec 16) : (spendTag s t).fuses = s.fuses := rfl
@[simp] theorem spendTag_flash (s : State) (t : BitVec 16) : (spendTag s t).flash = s.flash := rfl
@[simp] theorem spendTag_boot (s : State) (t : BitVec 16) : (spendTag s t).boot = s.boot := rfl
@[simp] theorem spendTag_dict (s : State) (t : BitVec 16) : (spendTag s t).dict = s.dict := rfl
@[simp] theorem spendTag_blobs (s : State) (t : BitVec 16) : (spendTag s t).blobs = s.blobs := rfl
@[simp] theorem spendTag_host (s : State) (t : BitVec 16) : (spendTag s t).host = s.host := rfl
@[simp] theorem spendTag_mgmt (s : State) (t : BitVec 16) : (spendTag s t).mgmt = s.mgmt := rfl
@[simp] theorem spendTag_tempo (s : State) (t : BitVec 16) : (spendTag s t).tempo = s.tempo := rfl
@[simp] theorem spendTag_queues (s : State) (t : BitVec 16) : (spendTag s t).queues = s.queues := rfl
@[simp] theorem spendTag_cps (s : State) (t : BitVec 16) : (spendTag s t).cps = s.cps := rfl
@[simp] theorem spendTag_train (s : State) (t : BitVec 16) : (spendTag s t).train = s.train := rfl
@[simp] theorem spendTag_bells (s : State) (t : BitVec 16) : (spendTag s t).bells = s.bells := rfl
@[simp] theorem spendTag_watches (s : State) (t : BitVec 16) : (spendTag s t).watches = s.watches := rfl
@[simp] theorem spendTag_scheds (s : State) (t : BitVec 16) : (spendTag s t).scheds = s.scheds := rfl
@[simp] theorem spendTag_remScheds (s : State) (t : BitVec 16) : (spendTag s t).remScheds = s.remScheds := rfl
@[simp] theorem spendTag_arrays (s : State) (t : BitVec 16) : (spendTag s t).arrays = s.arrays := rfl
@[simp] theorem spendTag_ves (s : State) (t : BitVec 16) : (spendTag s t).ves = s.ves := rfl
@[simp] theorem spendTag_lanes (s : State) (t : BitVec 16) : (spendTag s t).lanes = s.lanes := rfl
@[simp] theorem spendTag_mem (s : State) (t : BitVec 16) : (spendTag s t).mem = s.mem := rfl
@[simp] theorem spendTag_poison (s : State) (t : BitVec 16) : (spendTag s t).poison = s.poison := rfl
@[simp] theorem spendTag_tiers (s : State) (t : BitVec 16) : (spendTag s t).tiers = s.tiers := rfl
@[simp] theorem spendTag_hbms (s : State) (t : BitVec 16) : (spendTag s t).hbms = s.hbms := rfl
@[simp] theorem spendTag_rcs (s : State) (t : BitVec 16) : (spendTag s t).rcs = s.rcs := rfl
@[simp] theorem spendTag_pairs (s : State) (t : BitVec 16) : (spendTag s t).pairs = s.pairs := rfl
@[simp] theorem spendTag_flight (s : State) (t : BitVec 16) : (spendTag s t).flight = s.flight := rfl
@[simp] theorem spendTag_d2dReqs (s : State) (t : BitVec 16) : (spendTag s t).d2dReqs = s.d2dReqs := rfl
@[simp] theorem spendTag_fibres (s : State) (t : BitVec 16) : (spendTag s t).fibres = s.fibres := rfl
@[simp] theorem spendTag_portMaps (s : State) (t : BitVec 16) : (spendTag s t).portMaps = s.portMaps := rfl
@[simp] theorem spendTag_banks (s : State) (t : BitVec 16) : (spendTag s t).banks = s.banks := rfl
@[simp] theorem spendTag_coll (s : State) (t : BitVec 16) : (spendTag s t).coll = s.coll := rfl
@[simp] theorem spendTag_res (s : State) (t : BitVec 16) : (spendTag s t).res = s.res := rfl
@[simp] theorem spendTag_health (s : State) (t : BitVec 16) : (spendTag s t).health = s.health := rfl
@[simp] theorem spendTag_therms (s : State) (t : BitVec 16) : (spendTag s t).therms = s.therms := rfl
@[simp] theorem spendTag_power (s : State) (t : BitVec 16) : (spendTag s t).power = s.power := rfl
@[simp] theorem spendTag_stretch (s : State) (t : BitVec 16) : (spendTag s t).stretch = s.stretch := rfl
@[simp] theorem spendTag_rings (s : State) (t : BitVec 16) : (spendTag s t).rings = s.rings := rfl
@[simp] theorem spendTag_stackMask (s : State) (t : BitVec 16) : (spendTag s t).stackMask = s.stackMask := rfl
@[simp] theorem spendTag_dieReset (s : State) (t : BitVec 16) : (spendTag s t).dieReset = s.dieReset := rfl
@[simp] theorem spendTag_swaps (s : State) (t : BitVec 16) : (spendTag s t).swaps = s.swaps := rfl

end Sys2Proof.Machine
end

