-- ==== Sys2Proof/Laws/Ops.lean ====
section
/-!
SUPPORT. The shared operations over the state: what each reads back after its write, where the state is canonical.
-/

namespace Sys2Proof.Machine

/-! ### What the canonical form says of each map -/

theorem Inv.parts {s : State} (h : Inv s) :
    Memory.wf s.mem = true ∧ rising 0 s.poison = true ∧ mwf dictAbsent 0 s.dict = true ∧ mwf Queue.init 0 s.queues = true
      ∧ mwf Cp.init 0 s.cps = true ∧ mwf 0 0 s.bells = true ∧ mwf Arr.init 0 s.arrays = true
      ∧ mwf Ve.init 0 s.ves = true ∧ mwf [] 0 s.lanes = true ∧ mwf Tier.init 0 s.tiers = true
      ∧ mwf Hbm.init 0 s.hbms = true ∧ mwf Rc.init 0 s.rcs = true ∧ mwf Pair.init 0 s.pairs = true
      ∧ mwf Fibre.init 0 s.fibres = true ∧ mwf Bank.init 0 s.banks = true ∧ mwf Therm.init 0 s.therms = true
      ∧ mwf PortSt.init 0 s.fab.ports = true ∧ mwf portMapReset 0 s.portMaps = true
      ∧ mwf 0 0 s.host.reqBuf = true ∧ mwf none 0 s.rings = true := by
  simpa [Inv, State.canonical, and_assoc] using h

theorem Inv.queues {s : State} (h : Inv s) : mwf Queue.init 0 s.queues = true := h.parts.2.2.2.1
theorem Inv.mem {s : State} (h : Inv s) : Memory.wf s.mem = true := h.parts.1
theorem Inv.dict {s : State} (h : Inv s) : mwf dictAbsent 0 s.dict = true := h.parts.2.2.1
theorem Inv.bells {s : State} (h : Inv s) : mwf 0 0 s.bells = true := h.parts.2.2.2.2.2.1
theorem Inv.arrays {s : State} (h : Inv s) : mwf Arr.init 0 s.arrays = true := h.parts.2.2.2.2.2.2.1

/-! ### Reads after writes -/

theorem queue_setQueue {s : State} (h : mwf Queue.init 0 s.queues = true) (q : Nat) (x : Queue) :
    (s.setQueue q x).queue q = x := mget_mput_same x h

theorem queue_setQueue_other {s : State} (h : mwf Queue.init 0 s.queues = true) {q p : Nat} (x : Queue) (hp : p ≠ q) :
    (s.setQueue q x).queue p = s.queue p := mget_mput_other x h hp

theorem queues_setQueue {s : State} (h : mwf Queue.init 0 s.queues = true) (q : Nat) (x : Queue) :
    mwf Queue.init 0 (s.setQueue q x).queues = true := mwf_mput x h (Nat.zero_le q)

theorem bell_setBell {s : State} (h : mwf 0 0 s.bells = true) (b : Nat) (v : Word) : (s.setBell b v).bell b = v :=
  mget_mput_same v h

theorem readByte_writeByte {s : State} (h : Memory.wf s.mem = true) (k : Nat) (b : Byte) :
    readByte (writeByte s k b) k = b := mget_mput_same b h

theorem readByte_writeByte_other {s : State} (h : Memory.wf s.mem = true) {k j : Nat} (b : Byte) (hj : j ≠ k) :
    readByte (writeByte s k b) j = readByte s j := mget_mput_other b h hj

/-! ### The memory keeps its canonical form -/

theorem wf_writeByte {s : State} (h : Memory.wf s.mem = true) (k : Nat) (b : Byte) :
    Memory.wf (writeByte s k b).mem = true := mwf_mput b h (Nat.zero_le k)

theorem wf_writeBytes {s : State} (h : Memory.wf s.mem = true) (k : Nat) (l : List Byte) :
    Memory.wf (writeBytes s k l).mem = true := by
  induction l generalizing s k with
  | nil => exact h
  | cons b r ih => exact ih (wf_writeByte h k b) (k + 1)

@[simp] theorem markWrite_mem (s : State) (k n : Nat) (pz : Nat → Bool) : (markWrite s k n pz).mem = s.mem := by
  unfold markWrite
  generalize wordsOf k n = l
  induction l generalizing s with
  | nil => rfl
  | cons w r ih =>
    simp only [List.foldl_cons]
    rw [ih]
    split
    · rfl
    · split <;> rfl

@[simp] theorem ghostTouch_mem (s : State) (k : Nat) : (ghostTouch s k).mem = s.mem := by
  unfold ghostTouch
  split
  · rfl
  · split <;> rfl

@[simp] theorem ghostTouchAll_mem (s : State) (k n : Nat) : (ghostTouchAll s k n).mem = s.mem := by
  unfold ghostTouchAll
  split
  · rfl
  · have key : ∀ (l : List Nat) (s : State), (l.foldl ghostTouch s).mem = s.mem := by
      intro l
      induction l with
      | nil => intro s; rfl
      | cons x r ih => intro s; simp [ih]
    exact key _ s

@[simp] theorem specTouch_mem (s : State) (k n : Nat) : (specTouch s k n).mem = s.mem := by
  unfold specTouch
  simp only
  split <;> rfl

/-- A store keeps the memory's canonical form. -/
theorem wf_storeBytes {s : State} (h : Memory.wf s.mem = true) (k : Nat) (l : List Byte) (pz : Nat → Bool) :
    Memory.wf (storeBytes s k l pz).mem = true := by
  unfold storeBytes
  exact wf_writeBytes (by simpa using h) k l

/-- Zeroing keeps the memory's canonical form. -/
theorem wf_zeroRange {s : State} (h : Memory.wf s.mem = true) (lo hi : Nat) : Memory.wf (zeroRange s lo hi).mem = true :=
  mwf_filter _ h

/-- The memory at reset. -/
theorem wf_reset : Memory.wf State.reset.mem = true := rfl

/-! ### Periodic checks -/

@[simp] theorem ran_pending (s : State) (k : Nat) (t : Word) : (ran s k t).pending = s.pending := rfl
@[simp] theorem ran_free (s : State) (k : Nat) (t : Word) : (ran s k t).free = s.free := rfl
@[simp] theorem ran_out (s : State) (k : Nat) (t : Word) : (ran s k t).out = s.out := rfl
@[simp] theorem ran_stage (s : State) (k : Nat) (t : Word) : (ran s k t).stage = s.stage := rfl
@[simp] theorem ran_fuses (s : State) (k : Nat) (t : Word) : (ran s k t).fuses = s.fuses := rfl
@[simp] theorem ran_flash (s : State) (k : Nat) (t : Word) : (ran s k t).flash = s.flash := rfl
@[simp] theorem ran_boot (s : State) (k : Nat) (t : Word) : (ran s k t).boot = s.boot := rfl
@[simp] theorem ran_dict (s : State) (k : Nat) (t : Word) : (ran s k t).dict = s.dict := rfl
@[simp] theorem ran_blobs (s : State) (k : Nat) (t : Word) : (ran s k t).blobs = s.blobs := rfl
@[simp] theorem ran_host (s : State) (k : Nat) (t : Word) : (ran s k t).host = s.host := rfl
@[simp] theorem ran_mgmt (s : State) (k : Nat) (t : Word) : (ran s k t).mgmt = s.mgmt := rfl
@[simp] theorem ran_tempo (s : State) (k : Nat) (t : Word) : (ran s k t).tempo = s.tempo := rfl
@[simp] theorem ran_queues (s : State) (k : Nat) (t : Word) : (ran s k t).queues = s.queues := rfl
@[simp] theorem ran_cps (s : State) (k : Nat) (t : Word) : (ran s k t).cps = s.cps := rfl
@[simp] theorem ran_train (s : State) (k : Nat) (t : Word) : (ran s k t).train = s.train := rfl
@[simp] theorem ran_bells (s : State) (k : Nat) (t : Word) : (ran s k t).bells = s.bells := rfl
@[simp] theorem ran_watches (s : State) (k : Nat) (t : Word) : (ran s k t).watches = s.watches := rfl
@[simp] theorem ran_scheds (s : State) (k : Nat) (t : Word) : (ran s k t).scheds = s.scheds := rfl
@[simp] theorem ran_remScheds (s : State) (k : Nat) (t : Word) : (ran s k t).remScheds = s.remScheds := rfl
@[simp] theorem ran_arrays (s : State) (k : Nat) (t : Word) : (ran s k t).arrays = s.arrays := rfl
@[simp] theorem ran_ves (s : State) (k : Nat) (t : Word) : (ran s k t).ves = s.ves := rfl
@[simp] theorem ran_lanes (s : State) (k : Nat) (t : Word) : (ran s k t).lanes = s.lanes := rfl
@[simp] theorem ran_mem (s : State) (k : Nat) (t : Word) : (ran s k t).mem = s.mem := rfl
@[simp] theorem ran_poison (s : State) (k : Nat) (t : Word) : (ran s k t).poison = s.poison := rfl
@[simp] theorem ran_tiers (s : State) (k : Nat) (t : Word) : (ran s k t).tiers = s.tiers := rfl
@[simp] theorem ran_hbms (s : State) (k : Nat) (t : Word) : (ran s k t).hbms = s.hbms := rfl
@[simp] theorem ran_rcs (s : State) (k : Nat) (t : Word) : (ran s k t).rcs = s.rcs := rfl
@[simp] theorem ran_pairs (s : State) (k : Nat) (t : Word) : (ran s k t).pairs = s.pairs := rfl
@[simp] theorem ran_flight (s : State) (k : Nat) (t : Word) : (ran s k t).flight = s.flight := rfl
@[simp] theorem ran_d2dReqs (s : State) (k : Nat) (t : Word) : (ran s k t).d2dReqs = s.d2dReqs := rfl
@[simp] theorem ran_fab (s : State) (k : Nat) (t : Word) : (ran s k t).fab = s.fab := rfl
@[simp] theorem ran_fibres (s : State) (k : Nat) (t : Word) : (ran s k t).fibres = s.fibres := rfl
@[simp] theorem ran_portMaps (s : State) (k : Nat) (t : Word) : (ran s k t).portMaps = s.portMaps := rfl
@[simp] theorem ran_banks (s : State) (k : Nat) (t : Word) : (ran s k t).banks = s.banks := rfl
@[simp] theorem ran_coll (s : State) (k : Nat) (t : Word) : (ran s k t).coll = s.coll := rfl
@[simp] theorem ran_res (s : State) (k : Nat) (t : Word) : (ran s k t).res = s.res := rfl
@[simp] theorem ran_health (s : State) (k : Nat) (t : Word) : (ran s k t).health = s.health := rfl
@[simp] theorem ran_therms (s : State) (k : Nat) (t : Word) : (ran s k t).therms = s.therms := rfl
@[simp] theorem ran_stretch (s : State) (k : Nat) (t : Word) : (ran s k t).stretch = s.stretch := rfl
@[simp] theorem ran_rings (s : State) (k : Nat) (t : Word) : (ran s k t).rings = s.rings := rfl
@[simp] theorem ran_stackMask (s : State) (k : Nat) (t : Word) : (ran s k t).stackMask = s.stackMask := rfl
@[simp] theorem ran_dieReset (s : State) (k : Nat) (t : Word) : (ran s k t).dieReset = s.dieReset := rfl
@[simp] theorem ran_swaps (s : State) (k : Nat) (t : Word) : (ran s k t).swaps = s.swaps := rfl
@[simp] theorem ran_clock (s : State) (k : Nat) (t : Word) : clock (ran s k t) = clock s := rfl
@[simp] theorem ran_beat (s : State) (k : Nat) (t : Word) : beat (ran s k t) = beat s := rfl

/-- Where its period has passed, a periodic check runs in the state that has noted it. -/
theorem periodic_due {s : State} {k n : Nat} (h : checkDue s k n = true) (f : State → State) :
    periodic s k n f = f (ran s k (clock s)) := by simp [periodic, h]

/-- Before that it changes nothing. -/
theorem periodic_early {s : State} {k n : Nat} (h : checkDue s k n = false) (f : State → State) : periodic s k n f = s := by
  simp [periodic, h]

/-- A check that has just run is not due again. -/
theorem checkDue_ran {s : State} (h : mwf none 0 s.power.checks = true) (k : Nat) {n : Nat} (hn : 0 < n) :
    checkDue (ran s k (clock s)) k n = false := by
  have hm : mget none (ran s k (clock s)).power.checks k = some (clock s) := mget_mput_same _ h
  simp [checkDue, hm, since]
  omega

/-- A check of each beat runs in a beat in which it has not run. -/
theorem atBeat_new {s : State} {k : Nat} (h : mget none s.power.checks k ≠ some (beat s)) (f : State → State) :
    atBeat s k f = f (ran s k (beat s)) := by simp [atBeat, h]

/-- It runs once in a beat. -/
theorem atBeat_again {s : State} {k : Nat} (h : mget none s.power.checks k = some (beat s)) (f : State → State) :
    atBeat s k f = s := by simp [atBeat, h]

/-! ### CRC-64 (02 R48) -/

theorem crc64Bit_lt (r : Nat) (h : r < 2 ^ 64) : crc64Bit r < 2 ^ 64 := by
  unfold crc64Bit
  split
  · exact Nat.xor_lt_two_pow (Nat.mod_lt _ (by decide)) (by decide)
  · omega

theorem crc64Byte_lt (r : Nat) (b : Byte) (h : r < 2 ^ 64) : crc64Byte r b < 2 ^ 64 := by
  unfold crc64Byte
  have hb : b.toNat * 2 ^ 56 < 2 ^ 64 := by have := b.isLt; omega
  iterate 8 apply crc64Bit_lt
  exact Nat.xor_lt_two_pow h hb

theorem crc64_foldl_lt (l : List Byte) (r : Nat) (h : r < 2 ^ 64) : l.foldl crc64Byte r < 2 ^ 64 := by
  induction l generalizing r with
  | nil => exact h
  | cons b rest ih => exact ih _ (crc64Byte_lt r b h)

/-- A CRC-64 is a 64-bit number. -/
theorem crc64_lt (l : List Byte) : crc64 l < 2 ^ 64 :=
  Nat.xor_lt_two_pow (crc64_foldl_lt l _ (by decide)) (by decide)

end Sys2Proof.Machine
end

