-- ==== Sys2Proof/Laws/Ve.lean ====
section
/-!
SUPPORT. The issue of one vector-engine instruction, said once: what `veStep` answers when a word has been fetched, by what
its operation answers, and what it answers without one.
-/

namespace Sys2Proof.Machine

/-- The context as an instruction sees it: a poisoned word has poisoned its program. -/
def veSeen (s : State) (d : Nat) (upd p : Bool) : VeRun :=
  if p then { veRun s d upd with poison := true } else veRun s d upd

/-- The machine and the context after the command's register-file words in error are handled. -/
def veStart (s : State) (d : Nat) (c : VeCtx) (p : Bool) (w : Word) : State × VeRun :=
  regErrs d (veDecode w) c.regs s (veSeen s d c.upd p)

/-- Where an instruction leaves its context: at the next index, its cycles counted; past the last index, refused there. -/
def veNext (t : State) (d : Nat) (upd : Bool) (y : VeRun) (cost goal : Nat) : State :=
  let z := { y with pc := goal, cycles := y.cycles + cost, lines := [] }
  let u := setVeRun (countCycles t d upd cost) d upd z
  if progLimit upd ≤ goal then refuseVe u d upd z goal else u

variable {s s1 t : State} {d : Die} {c : VeCtx} {op : Nat} {cost : VeWord → Nat}
  {act : State → VeRun → Bool → Word → VeWord → VeAct} {w : Word} {p : Bool} {y : VeRun} {a goal : Nat} {q : Place}

/-- A context with no instruction to issue issues none: the command's findings alone are handled. -/
theorem veStep_none (hf : veFetch (readErrs s c.words) d.val c.upd = .none) :
    veStep s d c op cost act = readErrs s c.words := by
  simp only [veStep, hf]

/-- A refused word ends its program, whichever command meets it. -/
theorem veStep_refused (hf : veFetch (readErrs s c.words) d.val c.upd = .word s1 w p)
    (hr : veRefused c.upd (veDecode w) = true) :
    veStep s d c op cost act = refuseVe s1 d.val c.upd (veSeen s1 d.val c.upd p) (veSeen s1 d.val c.upd p).pc := by
  simp only [veStep, hf, hr, if_true, veSeen]

/-- A word of another opcode is left for its own command. -/
theorem veStep_other (hf : veFetch (readErrs s c.words) d.val c.upd = .word s1 w p)
    (hr : veRefused c.upd (veDecode w) = false) (ho : (veDecode w).op.toNat ≠ op) :
    veStep s d c op cost act = readErrs s c.words := by
  simp only [veStep, hf, hr, Bool.false_eq_true, if_false, ne_eq, ho, not_false_eq_true, if_true]

/-- A legal word of the command's opcode does what its operation answers. -/
theorem veStep_word (hf : veFetch (readErrs s c.words) d.val c.upd = .word s1 w p)
    (hr : veRefused c.upd (veDecode w) = false) (ho : (veDecode w).op.toNat = op) :
    veStep s d c op cost act =
      let (s2, r) := veStart s1 d.val c p w
      match act (setVeRun s2 d.val c.upd r) r c.upd w (veDecode w) with
      | .done t x => veNext t d.val c.upd x (cost (veDecode w)) (r.pc + 1)
      | .jump t x goal => veNext t d.val c.upd x (cost (veDecode w)) goal
      | .over t x =>
        let z := { x with cycles := x.cycles + cost (veDecode w) }
        let u := countCycles t d.val c.upd (cost (veDecode w))
        if c.upd = true then setVeRun u d.val true { z with active := false, lines := [] } else endOk u d.val z
      | .wait t => t
      | .bad a p' => faultVe (setVeRun s2 d.val c.upd r) d.val c.upd r a p'
      | .refuse => refuseVe (setVeRun s2 d.val c.upd r) d.val c.upd r r.pc := by
  unfold veStep
  simp only [hf]
  rw [if_neg (by simp [hr]), if_neg (by simp [ho])]
  rfl

/-- An instruction that ends normally before the last index: the next index, its cycles counted, and its registers. -/
theorem veStep_done (hf : veFetch (readErrs s c.words) d.val c.upd = .word s1 w p)
    (hr : veRefused c.upd (veDecode w) = false) (ho : (veDecode w).op.toNat = op)
    (ha : act (setVeRun (veStart s1 d.val c p w).1 d.val c.upd (veStart s1 d.val c p w).2) (veStart s1 d.val c p w).2 c.upd w
      (veDecode w) = .done t y)
    (hp : (veStart s1 d.val c p w).2.pc + 1 < progLimit c.upd) :
    veStep s d c op cost act =
      setVeRun (countCycles t d.val c.upd (cost (veDecode w))) d.val c.upd
        { y with pc := (veStart s1 d.val c p w).2.pc + 1, cycles := y.cycles + cost (veDecode w), lines := [] } := by
  rw [veStep_word hf hr ho]
  simp only [ha, veNext, Nat.not_le.mpr hp, if_false]

end Sys2Proof.Machine
end

