-- ==== Sys2Proof/WellFormed.lean ====
section
/-!
DEFINITION. Which commands are well formed: each list operand has the length its table gives it, and each length
operand fits its field.  `exec` is total on every command; an ill-formed one is a term no agent of the spec can send.
-/

namespace Sys2Proof

/-- A packet's data has LEN bytes (with the 64-byte mask of STM counted, 09 Table 9.1) and at most one mark a word. -/
def Packet.wf (p : Packet) : Bool := decide (p.data.length ≤ 4160) && decide (p.poison.length ≤ 520)

/-- A die-to-die message (08 Table 8.2). -/
def D2dMsg.wf (m : D2dMsg) : Bool := decide (m.data.length ≤ 4160) && decide (m.poison.length ≤ 520)

/-- A lane-control message names eighteen wavelengths (10 Table 10.6). -/
def LaneMsg.wf (m : LaneMsg) : Bool := m.map.length == 18

/-- A start's measurements name thirty domains (16 R364; 01 R22). -/
def BootEnv.wf (e : BootEnv) : Bool := e.vmin.length == 30 && e.slackPs.length == 30 && e.ratios.length == 30

/-- And so do those of a requalification. -/
def RequalEnv.wf (e : RequalEnv) : Bool := e.vmin.length == 30 && e.slackPs.length == 30 && e.ratios.length == 30

/-- A word of a buffer of an array: 2,048 rows, of 256 words in an accumulator buffer and of 64 in a feed buffer (07
R163). -/
def BufErr.wf (e : BufErr) : Bool := decide (e.row < 2048) && decide (e.word < (if e.feed then 64 else 256))

/-- A trailer's signature has 64 bytes (15 R341). -/
def WriteCtx.wf (w : WriteCtx) : Bool :=
  match w.trailer with
  | none => true
  | some t => t.sig.length == 64

/-- The codewords of a fibre flit: as many as its bytes lie in, of 272 symbols each (10 R241). -/
def FibreFlit.wf (f : FibreFlit) : Bool :=
  f.words.length == (2048 * f.number.toNat % 2580 + 2048 + 2579) / 2580 && f.words.all (fun w => w.length == 272)

/-- Well-formedness of a command. -/
def Instr.wellFormed : Instr → Bool
  | .inputGood env | .moduleResetN env | .resetCmdModule env | .resetCmdHub env | .resetCmdDie env
  | .watchdogExpiry env | .recoveryLoad _ env => env.wf
  | .attestChallenge data w => data.length == 32 && w.wf
  | .bar2Access _ len data => decide (len ≤ 4096) && (match data.arg with | none => true | some l => l.length == len)
  | .hostReadCompletion _ _ _ data => decide (data.length ≤ 4096)
  | .d2dFlitReceived _ _ f => f.bytes.length == 256
  | .linkFlitReceived _ f => f.wf
  | .d2dRd m => m.arg.wf
  | .d2dWr m | .d2dWrm m | .d2dRdr m | .d2dWra m | .d2dErr m | .d2dStrike m | .d2dStrikeAt m
  | .d2dSetb m | .d2dWatch m | .d2dNotify m | .d2dUnwatch m => m.wf
  | .fabLd p | .fabPull p => p.arg.wf
  | .packetTransit p | .fabSt p | .fabStm p | .fabPut p | .fabSend p | .fabCsetup p
  | .fabCtear p | .fabPulld p | .fabLdr p | .fabSta p | .fabPuta p | .fabSenda p | .fabCack p | .fabErr p
  | .fabStrike p | .fabStrikeAt p | .chs p | .cdata p | .cabort p => p.wf
  | .changeReq _ m | .changeAck _ m | .commit _ m | .laneFault _ m | .lost _ m | .calSched _ m => m.wf
  | .laserPowerCheck _ mdbm => mdbm.length == 18
  | .trainingDone _ r => r.free.length == 6 && r.laneFree.length == 16 && r.rxMargins.length == 18 && r.rxBers.length == 18
  | .matrix _ r | .diagonalTile _ r => r.bufs.all BufErr.wf
  | .tileEmit _ r => r.bufs.all BufErr.wf
  | .requalVerdict e => e.wf && e.buffers.all (fun x => x.2.wf)
  | .sensorCrossCheck _ r => r.base.length == 16 && r.cd.length == 32 && r.tier.length == 16
  | .shadowRecord bytes => bytes.length == 32
  | .ghostHello r | .ghostCommit r | .ghostAck r | .ghostRefuse r => r.regionBytes.length == 8
  | .endpointCoordWrite _ w | .darkRelease _ w _ | .portMapApply _ w | .fabricEpochWrite _ w | .admitDevice _ w
  | .fenceEntryWrite _ _ w | .fenceSelfWrite _ w | .ghostModeWrite _ w | .ghostRollback _ w | .requalStart _ w
  | .plcaSettingWrite _ _ w | .fwUpdateCmdUpdate w | .fwUpdateCmdSvn w | .tierRcMibWrite _ _ w => w.wf
  | _ => true

end Sys2Proof
end

