-- ==== Sys2Proof/Tests/Slice0.lean ====
section
/-!
SUPPORT. The model's own tests.  First the smoke test of well-formedness and worked values of the spec; then, for each
statement of Certificates/Slice0/Obligations.lean that has hypotheses, one theorem `witness_<statement>` with concrete states
and operands that meet the hypotheses of its clauses.
-/

set_option Elab.async false

namespace Sys2Proof.Tests

open Sys2Proof Sys2Proof.Machine

/-! ### States and operands -/

/-- A module in service: every domain on, firmware running, the boot complete, the host link up, a coordinate in force. -/
def live : State :=
  { State.reset with
    stage := { State.reset.stage with inputGood := true, domains := BitVec.allOnes 30 },
    boot := { Boot.init with firmware := true, loaded := true, complete := true }, dieReset := 0,
    host := { HostIf.init with linkUp := true, busMaster := true, msixEnable := true },
    fab := { Fab.init with coord := some 0, released := true } }

/-- A descriptor: some of its words, the others 0. -/
def desc (l : List (Nat × Word)) : List Word := l.foldl (fun d e => d.set e.1 e.2) (List.replicate 16 0)

/-- Word 0 of a descriptor of a TYPE. -/
def typ (t : Nat) : Word := BitVec.ofNat 64 (t * 2 ^ 56)

/-- An issued descriptor with ring index 0. -/
def jobOf (l : List Word) (p : JobPhase) : Job := { newJob 0 l with phase := p }

/-- A running queue with issued descriptors, and the state in service with queue q so. -/
def runQ (l : List Job) : Queue := { Queue.init with state := .running, tail := 64, jobs := l }
def withJob (q : Nat) (l : List Word) (p : JobPhase) : State := live.setQueue q (runQ [jobOf l p])

/-- A running queue with a descriptor at its head, and the state in service with queue q so. -/
def headQ (l : List Word) : Queue := { Queue.init with state := .running, tail := 64, fetchAt := 1, fetched := [⟨0, l, none⟩] }
def withHead (q : Nat) (l : List Word) : State := live.setQueue q (headQ l)

/-- Measurements of a good start, a dictionary write by the mailbox, and plain messages and packets. -/
def env : BootEnv :=
  { viaLost := 0, pllLocked := true, noGood := 0, flashOk := true, identityOk := true, straps := 0, bankOk := 3, slow := 0,
    katFail := 0, bumps := [], pcFail := [], laneFail := [], vmin := List.replicate 30 700, slackPs := List.replicate 30 20,
    duplicate := false, copyAOk := true, copyBOk := true, memAOk := true, memBOk := true,
    ratios := List.replicate 30 [], banks := [], sourceFail := 0 }
def ctx : WriteCtx := { src := .mailbox, seq := 1, trailer := none }
def mapOf (c : BitVec 5) : List (BitVec 5) := List.replicate 18 c
def laneM : LaneMsg := { op := 0, reason := 0, tick := 0, cw := 0, map := mapOf 0 }
def d2dM : D2dMsg := { typ := 0, src := 1, dst := 0, tag := 0, len := 8, addr := 0, data := natLe 8 5, poison := [] }
def pkt : Packet :=
  { dst := 0, src := 1, cls := 0, typ := 1, srcDie := 0, dstDie := 0, id := 0, epoch := 0, tag := 0, len := 8, px := false,
    mcast := false, mcAxis := 0, mcDir := false, mcSpan := 0, offset := 0, aux := 0, data := [], poison := [], plane := 0,
    inPort := none, lane := none }
def rec8 : GhostRec :=
  { kind := 0, mode := 0, domain := 0, epoch := 0, blocks := 0, crc := 0, regionBytes := List.replicate 8 0,
    journalBytes := 0, reason := 0 }
def trained : TrainResult :=
  { txPass := 0, rxMargins := List.replicate 18 0, rxBers := List.replicate 18 0, peer := 0, peerOrder := 0, loopNs := 0,
    spans := 0, free := List.replicate 6 0, laneFree := List.replicate 16 0, origin := 0, far := 0 }
def requal : RequalEnv :=
  { failed := none, katFail := 0, words := [], buffers := [], laneFail := [], vmin := List.replicate 30 700,
    slackPs := List.replicate 30 20, ratios := List.replicate 30 [] }

/-- Die `b` holds a whole message from die `a`, as the oldest of its class. -/
def inRx (s : State) (a b : Nat) (m : D2dMsg) : State :=
  s.setPair a b { s.pair a b with
    rx := (s.pair a b).rx.set (msgClass m.typ) { RxClass.init with buf := batchBodies [m] } }

/-- A packet of the device to itself, which it may take; and one whose flits a port holds. -/
def owned (s : State) (p : Packet) : State := { s with fab := { s.fab with own := [p] } }
def pooled (s : State) (port : Nat) (p : Packet) : State :=
  s.setPort port { s.port port with rx := mput [] (s.port port).rx (portKey p) (flitsOf p) }

theorem owned_taken (s : State) (p : Packet) : takePacket (owned s p) p = some (takeOwn (owned s p) p) := by
  simp [takePacket, owned]

/-! ### Well-formedness -/

theorem test_wellFormed_good : (Instr.descNop 0 0).wellFormed && (Instr.inputGood env).wellFormed
    && (Instr.bar2Access 0 2 ⟨some [1, 2], []⟩).wellFormed
    && (Instr.requalVerdict requal).wellFormed && (Instr.trainingDone 0 trained).wellFormed = true := by decide +kernel
theorem test_wellFormed_env : (Instr.moduleResetN { env with vmin := [] }).wellFormed = false := by decide +kernel
theorem test_wellFormed_slack : (Instr.resetCmdHub { env with slackPs := [] }).wellFormed = false := by decide +kernel
theorem test_wellFormed_ratios : (Instr.watchdogExpiry { env with ratios := [] }).wellFormed = false := by decide +kernel
theorem test_wellFormed_requal : (Instr.requalVerdict { requal with ratios := [] }).wellFormed = false := by decide +kernel
theorem test_wellFormed_buffer :
    (Instr.matrix 0 ⟨0, [], [⟨true, 0, 64, none, none⟩]⟩).wellFormed = false
      ∧ (Instr.matrix 0 ⟨0, [], [⟨false, 2048, 0, none, none⟩]⟩).wellFormed = false
      ∧ (Instr.matrix 0 ⟨0, [], [⟨false, 2047, 255, none, none⟩]⟩).wellFormed = true := by decide +kernel
theorem test_wellFormed_challenge : (Instr.attestChallenge [1] ctx).wellFormed = false := by decide +kernel
theorem test_wellFormed_signature :
    (Instr.fwUpdateCmdSvn { ctx with trailer := some ⟨0, 0, []⟩ }).wellFormed = false := by decide +kernel
theorem test_wellFormed_bar2 : (Instr.bar2Access 0 1 ⟨some [1, 2], []⟩).wellFormed = false := by decide +kernel
theorem test_wellFormed_bar2_long : (Instr.bar2Access 0 4097 ⟨none, []⟩).wellFormed = false := by decide +kernel
theorem test_wellFormed_completion :
    (Instr.hostReadCompletion 0 .sc false (List.replicate 4097 0)).wellFormed = false := by decide +kernel
theorem test_wellFormed_d2dFlit : (Instr.d2dFlitReceived 0 1 ⟨[]⟩).wellFormed = false := by decide +kernel
theorem test_wellFormed_linkFlit : (Instr.linkFlitReceived 0 ⟨0, []⟩).wellFormed = false := by decide +kernel
theorem test_wellFormed_message :
    (Instr.d2dWr { d2dM with data := List.replicate 4161 0 }).wellFormed = false := by decide +kernel
theorem test_wellFormed_message_marks :
    (Instr.d2dRdr { d2dM with poison := List.replicate 521 false }).wellFormed = false := by decide +kernel
theorem test_wellFormed_packet :
    (Instr.fabSt { pkt with data := List.replicate 4161 0 }).wellFormed = false := by decide +kernel
theorem test_wellFormed_packet_marks :
    (Instr.fabLdr { pkt with poison := List.replicate 521 false }).wellFormed = false := by decide +kernel
theorem test_wellFormed_lane : (Instr.commit 0 { laneM with map := [] }).wellFormed = false := by decide +kernel
theorem test_wellFormed_laser : (Instr.laserPowerCheck 0 []).wellFormed = false := by decide +kernel
theorem test_wellFormed_trained : (Instr.trainingDone 0 { trained with free := [] }).wellFormed = false := by decide +kernel
theorem test_wellFormed_trained_lanes :
    (Instr.trainingDone 0 { trained with laneFree := [] }).wellFormed = false := by decide +kernel
theorem test_wellFormed_trained_margins :
    (Instr.trainingDone 0 { trained with rxMargins := [] }).wellFormed = false
      ∧ (Instr.trainingDone 0 { trained with rxBers := [] }).wellFormed = false := by decide +kernel
theorem test_wellFormed_sensors : (Instr.sensorCrossCheck 0 ⟨[], [], [], 0⟩).wellFormed = false := by decide +kernel
theorem test_wellFormed_shadow : (Instr.shadowRecord []).wellFormed = false := by decide +kernel
theorem test_wellFormed_ghost : (Instr.ghostHello { rec8 with regionBytes := [] }).wellFormed = false := by decide +kernel

/-- No row of the opcode table has bits, so no word spells a command. -/
theorem test_decode_none : decodeTableWord 64 0 = none ∧ State.reset.withFetchWord 64 0 = State.reset := by decide +kernel

/-! ### Worked values of the spec -/

/-- 03, "why the summation order is stated": BF16 products 2^24, 1, 1, −2^24 sum to 1 in a chunk, and to 0 as strict FP32. -/
theorem test_chunk_order :
    (fp32Chunk 7 7 [(0x4B80, 0x3F80), (0x3F80, 0x3F80), (0x3F80, 0x3F80), (0xCB80, 0x3F80)]).1 = 0x3F800000
      ∧ (strictSum [(0x4B800000, 0x3F800000), (0x3F800000, 0x3F800000), (0x3F800000, 0x3F800000), (0xCB800000, 0x3F800000)]).1
        = 0 := by decide +kernel

/-- 03, "packing and expanding an MXFP4 block": the eight inputs, their scale, their elements and their flags. -/
def mxInputs : List Nat :=
  [0x40A66666, 0xBF333333, 0x40200000, 0x3E4CCCCD, 0x3E800000, 0xC079999A, 0x3F800000, 0xC0CCCCCD]
theorem test_mx_pack :
    mxScale 4 (mxInputs ++ List.replicate 24 0) = (0x7F, false)
      ∧ mxInputs.map (fun x => (mxPack 4 rneCtl 0x7F x).1) = [0x7, 0x9, 0x4, 0x0, 0x0, 0xE, 0x2, 0xF]
      ∧ mxInputs.foldl (fun a x => a ||| (mxPack 4 rneCtl 0x7F x).2) 0 = 0x07
      ∧ packElems 4 [0x7, 0x9, 0x4, 0x0, 0x0, 0xE, 0x2, 0xF] = [0x97, 0x04, 0xE0, 0xF2] := by decide +kernel

/-- 00, "a 60-array part": the fused mask leaves 60 arrays in service. -/
theorem test_array_mask :
    popBelow 64 (inService { live with fuses := { Fuses.init with mask := 0xFFBDFFFFFFDFF7FF } }) = 60 := by decide +kernel

/-- 01, "a derated core path on stack 5": 61 of 64 vias in one group give 63 steps, as 58 do. -/
theorem test_core_path :
    (groupLimits 5 (List.replicate 17 1000 ++ [1180])).foldl (· + ·) 0 = 5800 * (49 * 64 + 61)
      ∧ pathFull 5 = 290000 * 64 ∧ 64 * (5800 * (49 * 64 + 61)) / pathFull 5 = 63
      ∧ 64 * (5800 * (49 * 64 + 58)) / pathFull 5 = 63 := by decide +kernel

/-- 06, "a routing branch at first use": queue 130 and ring index 1,001 use counter 937. -/
theorem test_predictor_index : predIndex 130 1001 = 937 := by decide +kernel

/-- 04 Table 4.9: AdamW with FP32 moments issues 17 cycles a block (with 4 for copy and AMAX, the 21 of the example), SGD 2. -/
theorem test_update_cycles : updCycles (uBlock (2 * 2 ^ 704 + 9 * 2 ^ 708)) = 17 ∧ updCycles (uBlock 0) = 2 := by
  decide +kernel

/-- 16, "a middle layer hot": at 204 W and 35 °C the model is at 62.7 °C, and U is 45.0 + 22.4 + 3.0 = 70.4 °C. -/
theorem test_thermal_model :
    ((thermalModelUpdate 5 204000 35000 35000 live).therm 5).tModel = 62744 ∧ 45000 + 110 * (204000 : Int) / 1000 + 3000 = 70440 := by
  decide +kernel

/-- 03 R62 and 02 Table 2.2: a group of four 6-bit elements takes three bytes. -/
theorem test_pack_fp6 : packElems 2 [0x3F, 0, 0, 1] = [0x3F, 0x00, 0x04] ∧ fmtBytes 3 5 = 6 := by decide +kernel

/-- The check values of the three CRCs (the ASCII digits 1 to 9): CRC-32, CRC-32C and CRC-64 of ECMA-182 as 02 R48 has it. -/
def digits : List Byte := [0x31, 0x32, 0x33, 0x34, 0x35, 0x36, 0x37, 0x38, 0x39]
theorem test_crc : crc32 digits = 0xCBF43926 ∧ crc32c digits = 0xE3069283 ∧ crc64 digits = 0x62EC59E3F1A4F00A := by
  decide +kernel

/-- A store keeps the marking of a partly covered word and replaces that of a whole one (07 R171). -/
theorem test_store_marks :
    (storeBytes { live with poison := [0, 1] } 4 (List.replicate 12 7) (fun _ => false)).poison = [0]
      ∧ (storeBytes live 4 [7] (fun _ => true)).poison = [0] := by decide +kernel

/-! ### Witnesses: the statements of queues, bells, arrays and copies -/

theorem witness_StepRunsFrontCommand :
    live.pending = [] ∧ hubOn live = true ∧ hubOn (readErrs live [⟨0, 0, .secded 0 false⟩]) = true := by
  decide +kernel

theorem witness_CanonicalKept :
    Inv live ∧ ∃ t, step { live with pending := [.descNop 0 0] } = .next t := ⟨by decide +kernel, _, rfl⟩

/-- A store of the last 4 bytes of word 0 and all of word 1. -/
theorem witness_StoredBytesAndMarks :
    Memory.wf live.mem = true ∧ 11 < (List.replicate 12 (1 : Byte)).length ∧ (3 < 4 ∨ 4 + 12 ≤ 3)
      ∧ (4 ≤ 8 * 1 ∧ 8 * 1 + 8 ≤ 4 + 12) ∧ ¬(4 ≤ 8 * 0 ∧ 8 * 0 + 8 ≤ 4 + 12) ∧ 0 ∈ wordsOf 4 12 ∧ 2 ∉ wordsOf 4 12 := by
  decide +kernel

theorem witness_StickyBitEvents :
    dbit (sticky live 0xA0A0 3 7) 0xA0A0 3 7 = true ∧ dbit live 0xA0A0 3 63 = false ∧ Inv live
      ∧ (0xA0A0, 3) ≠ (0xA0FF, 3) ∧ (0xA0A0, 3) ≠ (0x80D0, 4) ∧ dcell live 0xA0A0 3 < dictAbsent := by decide +kernel

/-- Queue 527, the last of the hub, in each state. -/
def inState (st : QState) : State := live.setQueue 527 { Queue.init with state := st }
theorem witness_QueueRegistersWritten :
    hubOn live = true ∧ (live.queue 527).state = .disabled ∧ live.boot.complete = true ∧ (live.queue 527).jobs = []
      ∧ unitUp live (queueDie 527) = true ∧ ((inState .running).queue 527).state = .running
      ∧ ((inState .parked).queue 527).state = .parked ∧ ((inState .parked).tier (queueDie 527)).rcHeld = none
      ∧ ((inState .error).queue 527).state = .error ∧ quiet (live.queue 527) = true
      ∧ quiet ((inState .running).queue 527) = false ∧ wbits 8 3 0 ≤ 8 ∧ 8 < wbits 9 3 0 := by decide +kernel

/-- A ring in HBM of die 0 with one descriptor below TAIL, and one in host memory. -/
def ringSt (host : Bool) : State :=
  live.setQueue 3
    { Queue.init with state := .running, tail := 1, ringBase := if host then 0x8000000000000000 else 0x1000000000 }
theorem witness_DescriptorFetched :
    let s := ringSt false
    let x := s.queue 3
    let a := bitsOf x.ringBase.toNat 55 0 + x.fetchAt.toNat % (256 * 2 ^ x.ringLog2.toNat) * 128
    let y := (ringSt true).queue 3
    Inv s ∧ hubOn s = true ∧ unitUp s (queueDie 3) = true ∧ x.state = .running ∧ x.fetchAt ≠ x.tail
      ∧ (x.fetchAt - oldest x).toNat < min 256 (dnum s 0x2060 4) ∧ x.ringBase.getLsbD 63 = false ∧ addrSlot a = ownSlot s
      ∧ faultIn s (addrDie a) (addrOff a) 128 = none
      ∧ firstMark (fun k => poisoned s (cellKey (addrDie a) (addrOff a) + 8 * k)) = none
      ∧ Inv (ringSt true) ∧ y.fetchAt ≠ y.tail ∧ y.ringBase.getLsbD 63 = true ∧ hostReady (ringSt true) = true
      ∧ (ringSt true).host.reads.length < 1024 := by decide +kernel

/-- A NOP at the head issues; one with a bit that must be 0 is refused. -/
theorem witness_DescriptorIssued :
    let s := withHead 3 (desc [])
    let bad := withHead 3 (desc [(0, 2 ^ 51)])
    (s.queue 3).fetched = [⟨0, desc [], none⟩] ∧ mayIssue s 3 = true ∧ (0 : BitVec 32) = (s.queue 3).head
      ∧ refusal s 3 ⟨0, desc [], none⟩ (desc []) = none ∧ isFrozen (desc []) = false ∧ waitEn (desc []) = false ∧ descFence (desc []) = false
      ∧ trainPhase (desc []) = 0 ∧ isShut s (desc []) = false ∧ takes s 3 (desc []) = .yes ∧ descType (desc []) ≠ 5
      ∧ mayIssue bad 3 = true ∧ (bad.queue 3).fetched = [⟨0, desc [(0, 2 ^ 51)], none⟩]
      ∧ (refusal bad 3 ⟨0, desc [(0, 2 ^ 51)], none⟩ (desc [(0, 2 ^ 51)])).isSome = true :=
  ⟨by decide +kernel, by decide +kernel, by decide +kernel, by decide +kernel, by decide +kernel, by decide +kernel,
    by decide +kernel, by decide +kernel, by decide +kernel, rfl, by decide +kernel, by decide +kernel, by decide +kernel, by decide +kernel⟩

/-- A finished NOP with its ring in HBM of die 0, and a raise held until its hold-off ends. -/
def doneSt : State := live.setQueue 3 { runQ [jobOf (desc []) .finished] with cqBase := 0x1000000000 }
def heldSt (at_ : Word) : State :=
  { live with tempo := { Tempo.init with passed := at_ } }.setQueue 3
    { Queue.init with holdoff := 1, lastRaise := some 0, raiseHeld := true }
theorem witness_DescriptorCompletes :
    let s := doneSt
    let x := s.queue 3
    let j := jobOf (desc []) .finished
    let place := recordAt x.cqBase x.cqLog2.toNat x.cqTail
    Inv s ∧ s.job 3 0 = some j ∧ j.phase = .finished ∧ collHeld s j = false ∧ isStopping j.status = false
      ∧ strikeEn j.words = false
      ∧ descIrq j.words = false ∧ descType j.words ≠ 3 ∧ j.replay = none ∧ j.cqOld = none ∧ x.state = .running
      ∧ x.cqBase.getLsbD 63 = false ∧ addrSlot place.1 = ownSlot s ∧ faultIn s (addrDie place.1) (addrOff place.1) 32 = none
      ∧ ((heldSt 1000).queue 3).raiseHeld = true ∧ ((heldSt 1000).queue 3).lastRaise = some 0
      ∧ ((heldSt 1000).queue 3).holdoff.toNat * 1000 ≤ (clock (heldSt 1000) - 0).toNat
      ∧ (clock (heldSt 999) - 0).toNat < ((heldSt 999).queue 3).holdoff.toNat * 1000 := by decide +kernel

/-- A head that waits on bell 0 for 1, before and at the end of its timeout of 1 µs, and frozen ROLE 2 work. -/
def waits : List Word := desc [(1, 0x8000000000001000), (2, 1)]
def waitSt (since : Option Word) (at_ : Word) : State :=
  { live with tempo := { Tempo.init with passed := at_ } }.setQueue 3 { headQ waits with waitAt := since }
def tileWord : Word := 1 + 2 ^ 4
def matrixBody (t : Word) (w : Word) : List Word :=
  desc [(0, typ 1 + t), (5, w), (6, 1), (10, 0x20000000200), (11, 0x80000000000)]
theorem witness_WaitingAndFrozenHeads :
    let s := waitSt none 0
    let x := s.queue 3
    let u := waitSt (some 0) (BitVec.ofNat 64 (waitTicks (waitSt (some 0) 0) waits))
    let frozen := matrixBody 0x240 tileWord
    let m := withHead 3 frozen
    x.fetched = [⟨0, waits, none⟩] ∧ (0 : BitVec 32) = x.head ∧ waitEn waits = true ∧ bellDie (waitBell waits) = queueDie 3
      ∧ s.bell (waitBell waits) < waitValue waits ∧ mayIssue s 3 = true ∧ refusal s 3 ⟨0, waits, none⟩ waits = none
      ∧ x.waitAt = none ∧ dieUp s (bellDie (waitBell waits)) = true ∧ trainPhase waits = 0
      ∧ (u.queue 3).state = .running ∧ (u.queue 3).waitAt = some 0 ∧ waitTicks u waits ≤ (clock u - 0).toNat
      ∧ (m.queue 3).fetched = [⟨0, frozen, none⟩] ∧ (0 : BitVec 32) = (m.queue 3).head ∧ mayIssue m 3 = true
      ∧ refusal m 3 ⟨0, frozen, none⟩ frozen = none ∧ waitEn frozen = false ∧ (m.queue 3).jobs = []
      ∧ phaseMay m (trainPhase frozen) (m.queue 3).waitOpen = true ∧ isShut m frozen = false ∧ trainRole frozen = 2 ∧ trainFrozen frozen = true := by decide +kernel

/-- A NOP; a BRANCH of PRED 7 and SKIP 1, and one of PRED 0 on input 0 and VALUE 0 (taken) or 1 (not taken). -/
def branchD (pred : Nat) (value : Word) : List Word :=
  desc [(0, typ 4), (5, BitVec.ofNat 64 (2 ^ 56 + pred * 2 ^ 53)), (6, value)]
theorem witness_NopAndBranchIssue :
    let nop := jobOf (desc []) .ready
    let b7 := jobOf (branchD 7 0) .ready
    let b0 := jobOf (branchD 0 0) .ready
    (withJob 3 nop.words .ready).job 3 0 = some nop ∧ descType nop.words = 0 ∧ (withJob 3 b7.words .ready).job 3 0 = some b7
      ∧ descType b7.words = 4 ∧ wbits (dword b7.words 5) 55 53 = 7 ∧ b7.replay = none
      ∧ skipCovered ((withJob 3 b7.words .ready).queue 3) 0 b7.words = true
      ∧ (withJob 3 b0.words .ready).job 3 0 = some b0 ∧ wbits (dword b0.words 5) 55 53 ≠ 7 ∧ b0.outcomes = [] := by
  decide +kernel

/-- A branch that waits to resolve, with each prediction. -/
def predicted (value : Word) (p : Bool) : Job := { jobOf (branchD 0 value) .working with predicted := some p }
def predictedSt (value : Word) (p : Bool) : State := live.setQueue 3 (runQ [predicted value p])
theorem witness_BranchResolution :
    let holds := fun (value : Word) (p : Bool) (taken : Bool) =>
      let s := predictedSt value p
      let x := s.queue 3
      let j := predicted value p
      s.job 3 0 = some j ∧ j.phase = .working ∧ descType j.words = 4 ∧ veBefore x 0 = false ∧ j.replay = none
        ∧ branchTaken j.words x.inputs = taken ∧ j.predicted = some p ∧ skipCovered x 0 j.words = true
    holds 1 false false ∧ holds 1 true false ∧ holds 0 true true ∧ holds 0 false true ∧ Inv (predictedSt 1 true)
      ∧ ((predictedSt 1 true).queue 3).state = .running := by decide +kernel

theorem witness_BellArithmetic :
    Inv live ∧ 1 ≠ 0 ∧ live.watches = [] ∧ live.bell 4095 ≤ live.bell 4095 + 0xFFFFFFFFFFFFFFFF := by decide +kernel

/-- A BELL descriptor whose entry 0 acts on a bell, with the release of its lines done: the release finds none. -/
def bellD (w : Word) : List Word := desc [(0, typ 5), (5, w), (6, 1), (7, 0x10)]
theorem witness_BellEntriesPerformed :
    let own := 0x8000000000000003#64
    let far := 0x8000000000000203#64
    let done := fun (w : Word) => bellReady (withJob 3 (bellD w) .ready) 3 0 (jobOf (bellD w) .ready)
    let ok := fun (w : Word) => (withJob 3 (bellD w) .ready).job 3 0 = some (jobOf (bellD w) .ready)
      ∧ descType (bellD w) = 5 ∧ nextEntry (bellD w) 0 = some 0 ∧ (done w).1 = true
    ok own ∧ ok far ∧ ok 0xC000000000000003 ∧ ok 0x9000000000000003 ∧ ok 0x9000000000000203 ∧ ok 0xA000000000000003
      ∧ ok 0xE000000000000003 ∧ ok 0xA000000000000203 ∧ (0xE000000000000003#64).getLsbD 62 = true
      ∧ schedAllowance (done 0xA000000000000203).2 0 1 < 4
      ∧ own.getLsbD 61 = false ∧ own.getLsbD 60 = false ∧ own.getLsbD 62 = false ∧ bellDie (wbits own 11 0) = queueDie 3
      ∧ bellDie (wbits far 11 0) ≠ queueDie 3 ∧ (0xC000000000000003#64).getLsbD 62 = true
      ∧ (0x9000000000000003#64).getLsbD 60 = true ∧ (0xA000000000000003#64).getLsbD 61 = true
      ∧ now (done 0xA000000000000003).2 ≤ 0x10 ∧ ownScheds (done 0xA000000000000003).2 0 < 32
      ∧ (0xF : Word) < now { live with tempo := { Tempo.init with ticks := 0x10 } } := by decide +kernel

def strikeM : D2dMsg := { d2dM with typ := 0x20 }
def strikeAtM : D2dMsg := { d2dM with typ := 0x21, len := 16, data := natLe 8 5 ++ natLe 8 9 }
def notifyM : D2dMsg := { d2dM with typ := 0x24, len := 0, data := [] }
/-- The wait of queue 0's head holds the watch of tag 0, and its NOTIFY has come. -/
def watching : State := inRx (live.setQueue 0 { Queue.init with watch := some 0 }) 1 0 notifyM
def schedSt : State :=
  { live with scheds := [(0, ⟨3, 1, 0, none⟩)], remScheds := [(0, ⟨4, 1, 0, none⟩)] }
theorem witness_BellMessagesAndSchedule :
    hubOn live = true ∧ dieUp live (bellDie 4095) = true ∧ unitUp live d2dM.dst.val = true
      ∧ (takeMsg (inRx live 1 0 strikeM) strikeM).isSome = true ∧ msgWord strikeAtM 8 = 9
      ∧ (takeMsg (inRx live 1 0 strikeAtM) strikeAtM).map (fun u => decide (now u ≤ 9)) = some true
      ∧ (takeMsg (inRx { live with tempo := { Tempo.init with ticks := 10 } } 1 0 strikeAtM) strikeAtM).map
          (fun u => decide (9 < now u)) = some true
      ∧ (takeMsg watching notifyM).map (fun u => u.queues.any (fun e => queueDie e.1 == 0 && e.2.watch == some notifyM.tag))
          = some true
      ∧ (takeMsg (inRx live 1 0 notifyM) notifyM).map (fun u => u.queues.isEmpty) = some true
      ∧ takeMsg live strikeM = none ∧ dieUp schedSt 0 = true
      ∧ (schedSt.scheds.filter (fun y => y.1 == 0))[0]? = some (0, ⟨3, 1, 0, none⟩)
      ∧ (schedSt.remScheds.filter (fun y => y.1 == 0))[0]? = some (0, ⟨4, 1, 0, none⟩) ∧ (0 : Word) ≤ now schedSt := by
  decide +kernel

/-- A REPLAY of block 0 with a record of one descriptor on queue 4, and without one. -/
def recorded : Block := { queue := 4, first := 0, last := 0, record := true, live := false, outcomes := [true] }
def replaySt (b : Bool) : State :=
  (withJob 3 (desc [(0, typ 3)]) .ready).setCp 0 { Cp.init with blocks := if b then [(0, recorded)] else [] }
/-- Array 0 owned by queue 0, free of tiles; and with its quantum passed while the MATRIX of queue 1 waits for it. -/
def arraySt : State := live.setArr 0 { Arr.init with owner := some 0 }
def affine : List Word := desc [(0, typ 1), (5, tileWord), (6, 0x0100000000000001), (10, 0x20000000200), (11, 0x80000000000)]
def contended : State :=
  ({ arraySt with tempo := { Tempo.init with passed := 0x7FFFFFFFFFFFFFFF } }).setQueue 1 (headQ affine)
theorem witness_ReplayAndPhases :
    let j := jobOf (desc [(0, typ 3)]) .ready
    (replaySt true).job 3 0 = some j ∧ descType j.words = 3 ∧ dieUp (replaySt true) (queueDie 3) = true
      ∧ mget Block.init ((replaySt true).cp (queueDie 3)).blocks (trainBlock j.words) = recorded
      ∧ replayOn (replaySt true) 4 = none ∧ (replaySt false).job 3 0 = some j
      ∧ (mget Block.init ((replaySt false).cp (queueDie 3)).blocks (trainBlock j.words)).record = false
      ∧ ({ live with train := { phase := 2, held := 1, ranges := [] } } : State).train.held ≠ 0
      ∧ phaseBusy { live with train := { phase := 2, held := 1, ranges := [] } } = false
      ∧ (arraySt.arr 0).owner = some 0 ∧ (arraySt.arr 0).kat = false ∧ dieUp arraySt 0 = true ∧ atBoundary arraySt 0 = true
      ∧ matrixReady arraySt 0 none = false ∧ nextOwner arraySt 0 0 = none
      ∧ dnum contended 0x2060 1 ≤ (clock contended - (contended.arr 0).since).toNat / 2 ^ 20
      ∧ nextOwner contended 0 0 = some 1 ∧ matrixReady contended 0 none = false := by decide +kernel

/-- A tile of one row and one column of E4M3, open on array 0; a diagonal one; a finished one; and a refused word. -/
def tileCtx (l : List Word) (done : Bool) : TileCtx :=
  { queue := 3, idx := 0, base := 0, rows := 1, word := dword l 5, acc := [], nans := [], poison := [], fp := 0, seq := 0, done := done,
    held := false, rscale := [], cscale := [] }
def tileSt (l : List Word) (p : JobPhase) (done : Bool) : State :=
  (live.setQueue 3 (runQ [{ jobOf l p with array := some 0 }])).setArr 0
    { Arr.init with owner := some 3, tiles := [(0, some (tileCtx l done))] }
theorem witness_TileComputedAndEmitted :
    let ok := fun (l : List Word) =>
      let s := tileSt l .ready false
      s.job 3 0 = some { jobOf l .ready with array := some 0 } ∧ descType l = 1 ∧ tileRefused l = false ∧ usableArrays s 0 l ≠ 0 ∧ (s.ve 0).hold = none
        ∧ kernelBefore s 3 0 l = false ∧ tileOf s 3 0 0 = some (0, tileCtx l false) ∧ (s.arr 0).kat = false
        ∧ (∀ e ∈ openTiles (s.arr 0), e.2.done = false → (tileCtx l false).seq ≤ e.2.seq)
        ∧ ∀ r ∈ tileReads l, tierFault s 0 r.1 r.2 = none
    let plain := matrixBody 0 tileWord
    let diag := matrixBody 0 (tileWord + 2 ^ 19)
    let bad := matrixBody 0 (tileWord + 2 ^ 63)
    let e := tileSt plain .working true
    ok plain ∧ twDiag (dword plain 5) = false ∧ ok diag ∧ twDiag (dword diag 5) = true ∧ tileRefused bad = true
      ∧ twDiag (dword bad 5) = false ∧ mget none (e.arr 0).tiles 0 = some (tileCtx plain true)
      ∧ (e.job 3 0).isSome = true ∧ isSlice plain = false ∧ twDigest (tileCtx plain true).word = false
      ∧ (emitRows e 0 plain (tileCtx plain true) (twRows (dword plain 5)) 0).1 = none := by decide +kernel

theorem witness_ArraySelfTest :
    let t := live.setArr 63 { Arr.init with kat := true }
    let late : State := { live with tempo := { Tempo.init with passed := 0x7FFFFFFFFFFFFFFF } }
    let age := fun (s : State) (k : Nat) => (clock s - (s.arr k).katTurn).toNat
    let ticks := fun (s : State) => dnum s 0x2020 1 * 2 ^ 20
    loaded late = true ∧ (inService late).testBit 0 = true ∧ (late.arr 0).kat = false ∧ atBoundary late 0 = true
      ∧ ticks late ≤ age late 0 ∧ (∀ k ∈ onesBelow 64 (inService late), k ≠ 0 → (age late k < age late 0
        ∨ (age late k = age late 0 ∧ 0 < k)) ∧ ticks late / (onesBelow 64 (inService late)).length ≤ age late k)
      ∧ age live 63 < ticks live ∧ loaded live = true ∧ (inService live).testBit 63 = true ∧ dieUp live (63 / 8) = true ∧ (live.arr 63).kat = false
      ∧ atBoundary live 63 = true ∧ (t.arr 63).kat = true ∧ (t.arr 63).lastBad = [] := by decide +kernel

/-- A SPEC copy of 1,024 bytes from HBM to the tier behind an unresolved branch. -/
def specD : List Word := desc [(0, typ 6 + 2 ^ 52), (5, 0x1000000000), (6, 0x1000), (7, 1024)]
def specSt : State :=
  live.setQueue 3 { runQ [predicted 1 false] with fetched := [⟨1, specD, none⟩], head := 1, fetchAt := 2 }
/-- The same, with the branch predicted to skip the copy. -/
def specOff : State :=
  live.setQueue 3 { runQ [predicted 1 true] with fetched := [⟨1, specD, none⟩], head := 1, fetchAt := 2 }
theorem witness_SpeculativeFillRuns :
    let s := specSt
    let x := s.queue 3
    let l := specD
    let src := (dword l 5).toNat
    let dst := (dword l 6).toNat
    let len := wbits (dword l 7) 47 0
    let room := min (dnum s 0x2060 3 * 2048) ((s.tier 0).rcMib * 2048 - (s.memRec 0).lent.length)
      - ((s.cp 0).specs.map (fun g => g.lines.length)).foldl (· + ·) 0
    x.fetched.find? (fun g => g.idx == 1) = some ⟨1, l, none⟩ ∧ x.state = .running ∧ descType l = 6 ∧ descSpec l = true
      ∧ len ≠ 0 ∧ src < 2 ^ 56 ∧ addrSlot src = ownSlot s ∧ addrDie src = 0 ∧ dst < 2 ^ 56 ∧ addrSlot dst = ownSlot s
      ∧ addrDie dst = 0 ∧ 0x1000000000 ≤ addrOff src ∧ addrOff dst < 0x18000000 ∧ issueFault s 3 l = none
      ∧ faultIn s 0 (addrOff src) len = none ∧ (s.cp 0).specs.any (fun g => g.queue == 3 && g.idx == 1) = false
      ∧ onPredicted s 3 1 = true ∧ (sourceLines src len).take room ≠ [] ∧ (freeWay s 0 (specSet s 0 0x8000000)).isSome = true
      ∧ onPredicted specOff 3 1 = false
      ∧ (specOff.queue 3).fetched.find? (fun g => g.idx == 1) = some ⟨1, l, none⟩ := by
  decide +kernel

/-- A COPY within the store of die 0, one to host memory, one from a hole of the map, one to it. -/
def copyD (src dst : Word) : List Word := desc [(0, typ 6), (5, src), (6, dst), (7, 8)]
theorem witness_CopyMovesBytes :
    let ok := fun (l : List Word) => (withJob 3 l .ready).job 3 0 = some (jobOf l .ready) ∧ descType l = 6
    let s := withJob 3 (copyD 0x1000000000 0x40) .ready
    let own := copyD 0x1000000000 0x40
    let host := copyD 0x1000000000 0x8000000000001000
    ok own ∧ hostReady s = true ∧ endFault s (copySrc own) (copyLen own) = none ∧ endFault s (copyDst own) (copyLen own) = none
      ∧ Inv s ∧ isHost (copySrc own) = false ∧ isOwnAddr s 0 (wbits (copySrc own) 55 0) = true ∧ isHost (copyDst own) = false
      ∧ isOwnAddr s 0 (wbits (copyDst own) 55 0) = true
      ∧ (!isHost (copySrc own) && isOwnAddr s 1 (wbits (copySrc own) 55 0)) = false
      ∧ ok host ∧ endFault s (copyDst host) (copyLen host) = none ∧ isHost (copyDst host) = true
      ∧ (endFault s (copySrc (copyD 0x900000000 0x40)) 8).isSome = true
      ∧ (endFault s (copyDst (copyD 0x40 0x900000000)) 8).isSome = true ∧ endFault s (copySrc (copyD 0x40 0x900000000)) 8 = none := by
  decide +kernel

/-- The five forms of PUT and SEND, on an endpoint at coordinate 1; a circuit that is open; no plane in service. -/
def putD (w5 w6 w8 len : Word) : List Word := desc [(0, typ 7), (5, w5), (6, w6), (8, w8), (9, len)]
def sendD : List Word := desc [(0, typ 8), (5, 0x1000000000), (6, 0x40000000), (7, 8)]
def circuit1 : Circuit :=
  { id := 0, queue := 512, idx := 0, dst := 1, window := 0, plane := 0, lanes := 1, isOpen := true, closing := false }
theorem witness_PutsAndSendsStart :
    let put := putD 0x1000000000 0x40000000 0 8
    let pull := putD 0 0x8000000040000000 0x0001000000000000 8
    let mc := putD 0x1000000000 0x6000000000000000 0 8
    let circ := putD 0x1000000000 0x0020000040000000 0 8
    let ok := fun (l : List Word) =>
      let s := withJob 513 l .ready
      s.job 513 0 = some (jobOf l .ready) ∧ allowedPlanes s (putDst s l) (putMask l) ≠ [] ∧ hostReady s = true
        ∧ endFault s (dword l 5) (putLen l) = none ∧ addrSlot (dword l 5).toNat = ownSlot s
    ok put ∧ descType put = 7 ∧ putPull put = false ∧ putMcast put = false ∧ putCirc put = false
      ∧ ok pull ∧ descType pull = 7 ∧ putPull pull = true ∧ ok mc ∧ putMcast mc = true ∧ putPull mc = false
      ∧ ok circ ∧ putCirc circ = true ∧ ok sendD ∧ descType sendD = 8
      ∧ (openCircuit { live with fab := { live.fab with circuits := [circuit1] } } (putCircuit circ)).isSome = true
      ∧ openCircuit live (putCircuit circ) = none
      ∧ allowedPlanes { withJob 513 put .ready with dieReset := 0xFF } 1 (putMask put) = [] := by decide +kernel

/-- FABRIC operations. -/
def fabD (op : Nat) (l : List (Nat × Word)) : List Word := desc ([(0, typ 17), (5, BitVec.ofNat 64 (op * 2 ^ 56))] ++ l)
theorem witness_FabricTablesWritten :
    let ok := fun (l : List Word) => (withJob 513 l .ready).job 513 0 = some (jobOf l .ready) ∧ descType l = 17
      ∧ fabricBefore (withJob 513 l .ready) 513 0 = false
    let win := fabD 4 [(6, 0x1000000000), (7, 4096)]
    let rq := fabD 6 [(6, 0x1000000000), (7, 0x1000100000)]
    let det := fabD 3 [(6, 0x1000000000), (7, 1)]
    let ended : State := { live with fab := { live.fab with ends := [(1, 0, 0)] } }
    ok win ∧ fabOp win = 4 ∧ regFault live (dword win 6) = none ∧ ok (fabD 5 []) ∧ fabOp (fabD 5 []) = 5
      ∧ live.fab.ends.any (fun e => e.2.2.toNat == fabId (fabD 5 [])) = false
      ∧ ended.fab.ends.any (fun e => e.2.2.toNat == fabId (fabD 5 [])) = true
      ∧ ok rq ∧ fabOp rq = 6 ∧ regFault live (dword rq 6) = none ∧ regFault live (dword rq 7) = none
      ∧ ok (fabD 7 []) ∧ fabOp (fabD 7 []) = 7 ∧ ok (fabD 3 []) ∧ fabOp (fabD 3 []) = 3 ∧ wbits (dword (fabD 3 []) 7) 6 0 = 0
      ∧ ok det ∧ wbits (dword det 7) 6 0 ≠ 0 ∧ addrSlot (wbits (dword det 6) 55 0) = ownSlot live
      ∧ endFault live (dword det 6) 16 = none ∧ rangePoison live (cellKey 0 0x1000000000) 16 = false := by decide +kernel

/-- A taken packet of the device to itself is accepted, once its tests hold. -/
theorem accepts_owned (s : State) (p : Packet)
    (h : (fabricLive (owned s p) && decide ((owned s p).fab.coord = some p.dst) && replyCredit (owned s p) p
      && !isFenced (takeOwn (owned s p) p) p.src && epochOk (takeOwn (owned s p) p) p) = true) :
    Accepts (owned s p) p (takeOwn (owned s p) p) := by
  simp only [Bool.and_eq_true, Bool.not_eq_true', decide_eq_true_eq] at h
  exact ⟨h.1.1.1.1, h.1.1.1.2, h.1.1.2, owned_taken s p, h.1.2, h.2⟩

/-- Plane ports: up with a peer, and up with no credit left; port 0 is +X of plane 0. -/
def upPort (peer : BitVec 18) : PortSt := { PortSt.init with state := 2, peer := peer }
def noCredit : PortSt := { upPort 0 with sharedFree := 0, mins := [0, 0, 0, 0, 0, 0] }
def portUp (peer : BitVec 18) : State := live.setPort 0 (upPort peer)
/-- A setup that passes through from port 1, and its tear. -/
def through : Packet := { pkt with typ := 7, dst := 0x1000, inPort := some 1, data := natLe 8 1 }
def tear : Packet := { through with typ := 8, len := 0, data := [], aux := 1 }
def win : State := { live with fab := { live.fab with windows := [(0, some ⟨0x1000000000, 4096, true, true, none⟩)] } }
/-- What holds of the state in which a packet has been taken from its port. -/
def atTaken (s : State) (p : Packet) (f : State → Bool) : Bool := (takeAtPort s p).any f
def reqOf (t : BitVec 5) (c : Option (BitVec 12)) (resent : Bool) : Req :=
  ⟨0, 513, 0, 8, 0, some 0, t, newPacket live 8 1 0 t, c, resent, false⟩
def waitingFor (t : BitVec 5) : State := { win with fab := { win.fab with reqs := [reqOf t none false] } }
theorem witness_CircuitsOpenAndClose :
    let l := fabD 1 [(6, 0x0000040000000000), (7, 1)]
    let c := fabD 2 []
    let opening := (portUp 0x1000).setQueue 513 (runQ [jobOf l .ready])
    let hasCirc : State := { withJob 513 c .ready with fab := { live.fab with circuits := [circuit1] } }
    let setup : Packet := { pkt with typ := 7, data := natLe 8 1 }
    let ack : Packet := { pkt with cls := 1, typ := 0x14 }
    let hops := fun (s : State) => ({ s with fab := { s.fab with hops := [⟨1, 0, 0⟩] } } : State)
    let goes := fun (x : PortSt) (p : Packet) (u : State) =>
      (portTakes (u.setPort 0 x) 0 { p with inPort := none }).1.isSome
    let entered := fun (u : State) => decide (nextPort u through.dst through.plane.val = some 0) && !stepsPast u through.dst 0
      && lanesFree u 0 (setupLanes through) && !(laneList (setupLanes through)).any (fun k => (hopOf u 1 k).isSome)
    opening.job 513 0 = some (jobOf l .ready) ∧ descType l = 17 ∧ fabricBefore opening 513 0 = false ∧ fabOp l = 1
      ∧ nextPort opening (BitVec.ofNat 18 (wbits (dword l 6) 47 30)) (wbits (dword l 5) 19 16) = some 0
      ∧ dieUp opening (wbits (dword l 5) 19 16) = true ∧ opening.fab.circuits = []
      ∧ lanesFree opening 0 (BitVec.ofNat 16 (wbits (dword l 7) 15 0)) = true
      ∧ hasCirc.job 513 0 = some (jobOf c .ready) ∧ fabricBefore hasCirc 513 0 = false ∧ fabOp c = 2
      ∧ openCircuit hasCirc (BitVec.ofNat 12 (fabId c)) = some circuit1 ∧ circuit1.closing = false
      ∧ fabricLive (portUp 0x1000) = true ∧ (portUp 0x1000).fab.coord ≠ some through.dst ∧ through.inPort = some 1
      ∧ atTaken (pooled (portUp 0x1000) 1 through) through entered = true
      ∧ atTaken (pooled (portUp 0x1000) 1 through) through (goes (upPort 0x1000) through) = true
      ∧ atTaken (pooled (portUp 0x1000) 1 through) through (fun u => !goes noCredit through u) = true
      ∧ atTaken (pooled (hops (portUp 0x1000)) 1 tear) tear (fun u => goes (upPort 0x1000) tear u
          && u.fab.hops.filter (fun h => h.inPort == 1 && (BitVec.ofNat 16 (wbits tear.aux 15 0)).getLsbD h.lane.val)
            == [⟨1, 0, 0⟩] && (u.port 0).state == 2) = true
      ∧ (windowRange (takeOwn (owned win setup) setup) (setupWindow setup).toNat 0 0 setup.src true).isSome = true
      ∧ fabReq (takeOwn (owned (waitingFor 7) ack) ack) ack.tag = some (reqOf 7 none false)
      ∧ fabReq (takeOwn (owned (waitingFor 8) ack) ack) ack.tag = some (reqOf 8 none false) := by decide +kernel
theorem witness_CircuitsOpenAndClose_accepted :
    Accepts (owned win pkt) pkt (takeOwn (owned win pkt) pkt) := accepts_owned _ _ (by decide +kernel)

/-- A receive queue of two slots of 64 bytes, and a window; packets that they admit, at their last byte, or do not. -/
def windowed : State :=
  { live with fab := { live.fab with
      windows := [(0, some ⟨0x1000000000, 16, true, true, none⟩)],
      rqs := [(0, some ⟨0x1000001000, 6, 1, 0x1000002000, some 7⟩)] } }
def inside : Packet := { pkt with offset := 8, data := natLe 8 1 }
theorem witness_FabricRequestsServed :
    let s := takeOwn (owned windowed inside) inside
    let p := inside
    let out := { pkt with offset := 9, data := natLe 8 1 }
    let r : RecvQ := ⟨0x1000001000, 6, 1, 0x1000002000, some 7⟩
    let full := live.setPort 4 noCredit
    faultIn s 0 8 8 = none ∧ faultIn s p.dstDie.toNat p.offset.toNat 512 = none ∧ p.mcast = false
      ∧ windowRange s p.id.toNat p.offset.toNat p.data.length p.src true = some 0x1000000008
      ∧ faultIn s (addrDie 0x1000000008) (addrOff 0x1000000008) p.data.length = none
      ∧ windowRange s out.id.toNat out.offset.toNat out.data.length out.src true = none
      ∧ windowRange s p.id.toNat p.offset.toNat p.len.toNat p.src false = some 0x1000000008
      ∧ recvOf s p.id.toNat = some r ∧ refusing s = false ∧ p.data.length + 32 ≤ 2 ^ r.slotLog2
      ∧ faultIn s (addrDie r.ctrl) (addrOff r.ctrl) 16 = none
      ∧ (leNat (readBytes s (cellKey 0 0x1000002000) 8) + 2 ^ 64 - leNat (readBytes s (cellKey 0 0x1000002008) 8)) % 2 ^ 64
          < 2 ^ r.slotsLog2
      ∧ faultIn s (addrDie r.base) (addrOff r.base) (32 + p.data.length) = none
      ∧ fabricLive full = true ∧ full.fab.coord = some pkt.dst ∧ replyCredit full pkt = false := by decide +kernel
theorem witness_FabricRequestsServed_accepted :
    Accepts (owned windowed inside) inside (takeOwn (owned windowed inside) inside) := accepts_owned _ _ (by decide +kernel)

/-- A reply, and requests of each kind that wait for it: of a queue, and of a die to another device. -/
def answerP : Packet := { pkt with cls := 1, data := natLe 8 1 }
def boardD : D2dReq := ⟨0, 0, 1, 0, 0, 0x1000000000, 8, .store 0, 0⟩
def boardSt : State := { live with d2dReqs := [boardD] }
theorem witness_FabricRepliesEndRequests :
    let p := answerP
    let taken := fun (t : BitVec 5) => takeOwn (owned (waitingFor t) p) p
    let of := fun (t : BitVec 5) => reqOf t none false
    let board := takeOwn (owned boardSt p) p
    fabReq (taken 5) p.tag = some (of 5) ∧ (of 5).typ = 0x05
      ∧ fabReq (taken 6) p.tag = some (of 6) ∧ (of 6).ghost = false
      ∧ windowRange (endReq (taken 6) (of 6)) p.id.toNat p.offset.toNat p.data.length p.src true = some 0x1000000000
      ∧ faultIn (endReq (taken 6) (of 6)) (addrDie 0x1000000000) (addrOff 0x1000000000) p.data.length = none
      ∧ (List.range p.poison.length).any (packetMark p) = false ∧ (of 4).circuit = none ∧ (of 4).packet.mcast = false
      ∧ (taken 4).fab.reqs.filter (fun x => x.tag == p.tag) = [of 4] ∧ wbits p.aux 7 0 ≠ 0x1C
      ∧ boardReq board p.tag = some boardD ∧ fabReq board p.tag = none ∧ boardReq (taken 5) p.tag = none := by
  decide +kernel
theorem witness_FabricRepliesEndRequests_accepted :
    Accepts (owned (waitingFor 5) answerP) answerP (takeOwn (owned (waitingFor 5) answerP) answerP)
      ∧ Accepts (owned boardSt answerP) answerP (takeOwn (owned boardSt answerP) answerP) :=
  ⟨accepts_owned _ _ (by decide +kernel), accepts_owned _ _ (by decide +kernel)⟩

/-- A frame on class 5, of the own epoch and of one that is not taken; its source fenced. -/
theorem witness_BellFramesApplied :
    let synced : State := { live with tempo := { Tempo.init with state := 2, ticks := 5 } }
    let frame := fun (tick : Nat) => ({ pkt with cls := 5, data := natLe 8 tick } : Packet)
    let fenced := dset live 0xC001 1 (2 ^ 31 + 1)
    let taken := fun (s : State) (p : Packet) => takeOwn (owned s p) p
    (∀ s ∈ [synced, live, fenced], fabricLive (owned s (frame 6)) = true ∧ (owned s (frame 6)).fab.coord = some (frame 6).dst
        ∧ replyCredit (owned s (frame 6)) (frame 6) = true)
      ∧ isFenced (taken synced (frame 6)) (frame 6).src = false ∧ epochOk (taken synced (frame 6)) (frame 6) = true
      ∧ dieUp (taken synced (frame 6)) (bellDie (packetBell (frame 6))) = true ∧ unsync (taken synced (frame 6)) = false
      ∧ ((taken synced (frame 6)).remScheds.filter (fun y => y.1 == 0)).length < 256
      ∧ now (taken synced (frame 5)) ≤ BitVec.ofNat 64 (leNat (frame 5).data)
      ∧ BitVec.ofNat 64 (leNat (frame 4).data) < now (taken synced (frame 4)) ∧ unsync (taken live (frame 6)) = true
      ∧ epochOk (taken live { frame 0 with epoch := 2 }) { frame 0 with epoch := 2 } = false
      ∧ isFencedErr { frame 0 with epoch := 2 } = false ∧ (frame 0).cls = 5
      ∧ isFenced (taken fenced pkt) pkt.src = true ∧ pkt.cls = 0 ∧ replyCredit (owned fenced pkt) pkt = true := by
  decide +kernel
theorem witness_BellFramesApplied_taken :
    takePacket (owned live pkt) pkt = some (takeOwn (owned live pkt) pkt) := owned_taken live pkt

/-- A circuit packet, one to be ejected on the hub, and a multicast packet of a line that ends here or goes on. -/
def laneP : Packet := { through with lane := some 0 }
def hubP : Packet := { pkt with typ := 5, inPort := some 1, data := natLe 8 1 }
def mcP (span : BitVec 5) : Packet :=
  { pkt with cls := 2, typ := 4, src := 0x1000, mcast := true, mcDir := true, mcSpan := span, inPort := some 0, data := natLe 8 1 }
theorem witness_TransitForwards :
    let goes := fun (x : PortSt) (p : Packet) (u : State) => (u.port 0).state == 2
      && (portTakes (u.setPort 0 x) 0 { p with inPort := none }).1.isSome
    let s := portUp 0x1000
    let hops : State := { s with fab := { s.fab with hops := [⟨1, 0, 0⟩] } }
    let mcSt := pooled (win.setPort 1 (upPort 0)) 0 (mcP 1)
    let mcEnd := pooled win 0 (mcP 0)
    let admits := fun (p : Packet) (u : State) => windowRange u p.id.toNat p.offset.toNat p.data.length p.src true
      == some 0x1000000000 && (faultIn u 0 0x1000000000 p.data.length).isNone && !isFenced u p.src && epochOk u p
    fabricLive s = true ∧ dieUp s through.plane.val = true ∧ through.mcast = false ∧ s.fab.coord ≠ some through.dst
      ∧ through.lane = none ∧ nextPort s through.dst 0 = some 0 ∧ stepsPast s through.dst 0 = false ∧ through.cls = 0
      ∧ atTaken (pooled s 1 through) through (goes (upPort 0x1000) through) = true
      ∧ atTaken (pooled s 1 through) through (fun u => !goes noCredit through u) = true
      ∧ atTaken (pooled live 1 through) through (fun u => (u.port 0).state != 2) = true
      ∧ atTaken (pooled (portUp 0x2000) 1 through) through (fun u => stepsPast u through.dst 0) = true
      ∧ laneP.lane = some 0 ∧ laneP.inPort = some 1
      ∧ atTaken (pooled hops 1 laneP) laneP (fun u => hopOf u 1 0 == some ⟨1, 0, 0⟩ && goes (upPort 0x1000) laneP u) = true
      ∧ live.fab.coord = some hubP.dst ∧ hubP.lane = none
      ∧ atTaken (pooled live 1 hubP) hubP (fun u => ejectDie u hubP == 8 && (u.pair 0 8).cross.wait.isEmpty) = true
      ∧ fabricLive mcSt = true ∧ atTaken mcSt (mcP 1) (fun u => admits (mcP 1) u && (u.port 1).state == 2
          && (portTakes u 1 { mcP 1 with aux := ackAux 0 1, inPort := none }).1.isSome) = true
      ∧ coordOn (mcP 1).src 0 - coordOn (upPort 0).peer 0 ≤ (mcP 1).mcSpan.toNat + 1
      ∧ atTaken mcEnd (mcP 0) (fun u => admits (mcP 0) u && (u.port 1).state != 2 && replyCredit u (mcP 0)) = true := by
  decide +kernel

def dieReq : D2dReq := ⟨0, 0, 0, 1, 0, 0x1000000000, 8, .store 0, 0⟩
def rdM (off : BitVec 48) : D2dMsg := { d2dM with typ := 1, addr := off, data := [] }
def wrM : D2dMsg := { d2dM with typ := 2, addr := 0x1000000000 }
def wrmM : D2dMsg := { d2dM with typ := 3, len := 576, addr := 0x1000000000, data := List.replicate 576 1 }
def rdrM : D2dMsg := { d2dM with typ := 0x10 }
theorem witness_DieRequestsServed :
    let taken := fun (m : D2dMsg) (f : State → Bool) => (takeMsg (inRx live 1 0 m) m).any f
    let r := dieReq
    let s : State := { live with d2dReqs := [r] }
    let busy := live.setPair 0 1 { Pair.init with sent := [0, 48, 0, 0] }
    unitUp live 0 = true ∧ hasRoom live 0 1 1 = true ∧ hasRoom busy 0 1 1 = false ∧ takeMsg live rdrM = none
      ∧ taken (rdM 0x1000000000) (fun u => (faultIn u 0 0x1000000000 8).isNone) = true
      ∧ taken wrM (fun u => (faultIn u 0 wrM.addr.toNat wrM.data.length).isNone) = true
      ∧ taken wrmM (fun u => (faultIn u 0 wrmM.addr.toNat 512).isNone) = true
      ∧ taken (rdM 0x900000000) (fun u => faultIn u 0 0x900000000 8 == some (0x900000000, .bad)) = true
      ∧ (takeMsg (inRx s 1 0 rdrM) rdrM).any (fun u => findReq u 0 rdrM.tag == some r) = true
      ∧ taken rdrM (fun u => (findReq u 0 rdrM.tag).isNone) = true := by decide +kernel

/-- Requests at, and a tick before, their timeouts. -/
def lateSt (ticks : Nat) (resent : Bool) : State :=
  { live with
    tempo := { Tempo.init with passed := BitVec.ofNat 64 ticks },
    d2dReqs := [dieReq], fab := { live.fab with reqs := [reqOf 4 (some 0) resent] } }
theorem witness_RequestTimeouts :
    let r := dieReq
    let f := reqOf 4 (some 0) false
    let limit := dnum live 0x9004 1 * 1000
    let resend := dnum live 0x9004 2 * 1000
    findReq (lateSt 0 false) 0 0 = some r ∧ r.slot = ownSlot live ∧ 1000000 ≤ (clock (lateSt 1000000 false) - r.at_).toNat
      ∧ (clock (lateSt 999999 false) - r.at_).toNat < 1000000 ∧ fabReq (lateSt 0 false) 0 = some f
      ∧ limit ≤ (clock (lateSt limit false) - f.at_).toNat ∧ (clock (lateSt (limit - 1) false) - f.at_).toNat < limit
      ∧ f.circuit.isSome = true ∧ f.leftAt = some 0 ∧ resend ≤ (clock (lateSt resend false) - 0).toNat ∧ f.resent = false
      ∧ fabReq (lateSt 0 true) 0 = some { f with resent := true } := by decide +kernel

/-! ### Witnesses: collectives, ports, lanes, lasers and tempo -/

/-- A collective of an OP over FP32 along X: COUNT 64 among the devices at x = 0 and x = 1, SRC and DST in HBM of die 0. -/
def collD (op : Nat) (src dst : Word) : List Word :=
  desc [(0, typ 16), (5, BitVec.ofNat 64 (op * 2 ^ 56 + 9 * 2 ^ 52 + 3 * 2 ^ 41 + 3 * 2 ^ 39)), (6, src), (7, dst), (8, 64),
    (9, 3), (10, 1), (11, 1), (13, 0)]
def collOf (op : Nat) (started data : Bool) : Coll :=
  { cid := 0, queue := 512, idx := 0, words := collD op 0x1000000000 0x1000001000, epoch := 0, started := started, ok := true,
    fail := none, reason := false, axis := 0, lap := 0, data := data, step := 0, got := [], lastPkt := 0, poisoned := false }
/-- The device at x = `x` with one open collective. -/
def collSt (x : BitVec 18) (c : Coll) : State :=
  { live with fab := { live.fab with coord := some x }, coll := { CollEng.init with opens := [c] } }
/-- A CHS of the axis in turn, by its lap and who sends it to whom. -/
def chsOf (src dst : BitVec 18) (lap : Bool) : Packet :=
  { pkt with src := src, dst := dst, aux := if lap then 0x2000000000000000 else 0 }
theorem witness_CollectivesOpenAndShake :
    let ok := fun (op : Nat) =>
      let l := collD op 0x1000000000 0x1000001000
      let s := withJob 512 l .ready
      s.job 512 0 = some (jobOf l .ready) ∧ descType l = 16 ∧ collOp l = op ∧ s.coll.opens.length < 8
        ∧ openColl s (collId l) = none ∧ (s.ve (collDie l)).hold = none
        ∧ s.coll.opens.any (fun e => collDie e.words == collDie l && (collOp e.words == 0 || collOp e.words == 2)) = false
    let c := collOf 2 false false
    let s := collSt 0 c
    let badSrc := { c with words := collD 2 0x900000000 0x1000001000 }
    let badDst := { c with words := collD 2 0x1000000000 0x900000000 }
    let on := collOf 2 true false
    let at0 := collSt 0 on
    let at1 := collSt 0x1000 on
    ok 0 ∧ ok 1 ∧ ok 2 ∧ ok 3
      ∧ s.coll.opens.find? (fun x => x.queue == 512 && x.idx == 0) = some c ∧ c.started = false ∧ dword c.words 13 ≤ now s
      ∧ faultIn s 0 (addrOff (dword c.words 6).toNat) (srcBytes s c.words) = none
      ∧ faultIn s 0 (addrOff (dword c.words 7).toNat) (elemBytes (collFmt c.words) (collCount c.words)) = none
      ∧ (faultIn s 0 (addrOff (dword badSrc.words 6).toNat) (srcBytes s badSrc.words)).isSome = true
      ∧ faultIn s 0 (addrOff (dword badDst.words 6).toNat) (srcBytes s badDst.words) = none
      ∧ (faultIn s 0 (addrOff (dword badDst.words 7).toNat) (elemBytes (collFmt badDst.words) (collCount badDst.words))).isSome
        = true
      ∧ chsWrong s c pkt = true ∧ chsWrong s c { pkt with src := ringPrev s c.words 0 } = false
      ∧ chsWrong at1 on (chsOf 0 0x1000 false) = false
      ∧ openColl live pkt.id = none ∧ live.coll.closed.contains pkt.id = false ∧ live.coll.pend.length < 64
      ∧ openColl s pkt.id = some c ∧ c.epoch = pkt.epoch
      ∧ openColl at1 0 = some on ∧ on.data = false ∧ wbits (chsOf 0 0x1000 false).aux 63 62 = on.axis
      ∧ on.axis < (collAxes on.words).length ∧ (chsOf 0 0x1000 false).src = ringPrev at1 on.words 0 ∧ myRank at1 on.words 0 = 1
      ∧ on.lap = 0 ∧ (chsOf 0 0x1000 true).aux.getLsbD 61 = true
      ∧ openColl at0 0 = some on ∧ on.lap = 0 ∧ (chsOf 0x1000 0 false).src = ringPrev at0 on.words 0
      ∧ myRank at0 on.words 0 = 0 ∧ (chsOf 0x1000 0 false).aux.getLsbD 61 = false := by decide +kernel

/-- A packet of a collective that the device may pull, with what the statements ask of the state before and after it gives its
credit back. -/
def pulls (s : State) (p : Packet) (f : State → Bool) : Bool :=
  fabricLive (owned s p) && (owned s p).fab.coord == some p.dst && (pullPacket (owned s p) p).any (fun t =>
    !isFenced t p.src && f t && f (releasePacket t p))
theorem witness_CollectivesOpenAndShake_pulled :
    let on := collOf 2 true false
    pulls live pkt (fun t => (openColl t pkt.id).isNone && decide (t.coll.pend.length < 64)) = true
      ∧ pulls (collSt 0 (collOf 2 false false)) pkt (fun t => openColl t pkt.id == some (collOf 2 false false)) = true
      ∧ pulls (collSt 0x1000 on) (chsOf 0 0x1000 true) (fun t => openColl t 0 == some on && myRank t on.words 0 == 1
          && ringPrev t on.words 0 == 0) = true
      ∧ pulls (collSt 0 on) (chsOf 0x1000 0 false) (fun t => openColl t 0 == some on && myRank t on.words 0 == 0) = true := by
  decide +kernel

/-- Three members in a row: in the middle one a collecting CHS goes on collecting. -/
def threeD (op : Nat) : List Word := (collD op 0x1000000000 0x1000001000).set 9 7
theorem witness_CollectivesOpenAndShake_fold :
    let on := { collOf 2 true false with words := threeD 2 }
    let at2 := collSt 0x2000 on
    openColl at2 0 = some on ∧ myRank at2 on.words 0 = 2 ∧ (chsOf 0x1000 0x2000 false).src = ringPrev at2 on.words 0
      ∧ (chsOf 0x1000 0x2000 false).aux.getLsbD 61 = false ∧ on.lap = 0 ∧ on.axis < (collAxes on.words).length := by
  decide +kernel

/-- The hypotheses that every clause about CDATA shares, for the middle one of three members. -/
def cdataOk (op : Nat) (aux : Word) (off k : Nat) : Bool :=
  let c := { collOf op true true with words := threeD op }
  let s := collSt 0x1000 c
  let p : Packet := { pkt with src := 0, dst := 0x1000, aux := aux, offset := BitVec.ofNat 48 off, data := List.replicate 84 0 }
  let l := c.words
  let step := (collSteps l).getD 0 (true, 0)
  pulls s p (fun t => openColl t p.id == some c) && decide (openColl s p.id = some c ∧ c.epoch = p.epoch
    ∧ c.data = true ∧ stepOf l p = some k ∧ (collSteps l)[c.step]? = some step ∧ c.got.length < (offsetsGot s l step).length
    ∧ s.coll.early.find? (fun e => e.id == p.id && stepOf l e == some c.step) = none
    ∧ (c.step = k → (offsetsGot s l step).contains off = true) ∧ c.got.contains off = false)

/-- CDATA of the current step: its journey ends here or goes on, reducing and gathering; and of an all-reduce's later step. -/
theorem witness_CollectiveDataTaken :
    cdataOk 0 0x0080000000000000 21 0 = true ∧ cdataOk 0 0x0100000000000000 42 0 = true
      ∧ cdataOk 1 0x2100000000000000 42 0 = true ∧ cdataOk 1 0x2000000000000000 0 0 = true
      ∧ cdataOk 2 0x2000000000000000 0 1 = true ∧ wbits 0x0080000000000000 60 55 = 1 ∧ wbits 0x0100000000000000 60 55 ≠ 1
      ∧ (1 + 1) % lineSize (threeD 1) 0 = wbits 0x2100000000000000 60 55
      ∧ (1 + 1) % lineSize (threeD 1) 0 ≠ wbits 0x2000000000000000 60 55
      ∧ (collSteps (threeD 0)).getD 0 (true, 0) = (false, 0) ∧ (collSteps (threeD 1)).getD 0 (true, 0) = (true, 0) := by
  decide +kernel

theorem witness_CollectiveAborts :
    let c := collOf 2 true false
    let s := { collSt 0 c with tempo := { Tempo.init with passed := BitVec.ofNat 64 (collTicks (collSt 0 c) c.words) } }
    let p := { pkt with src := 1, aux := 0x123 }
    pulls s p (fun t => openColl t p.id == some c) = true ∧ openColl s p.id = some c ∧ c.epoch = p.epoch
      ∧ wbits p.aux 7 0 = 0x23 ∧ p.src = BitVec.ofNat 18 (wbits p.aux 25 8) ∧ wbits (0x122 : Word) 7 0 ≠ 0x23
      ∧ c.started = true ∧ collTicks s c.words ≤ (clock s - c.lastPkt).toNat ∧ 0 < fmtGroup 2 ∧ 0 < 3 ∧ fmtGroup 2 ∣ 8 := by
  decide +kernel

/-- Flits of a fibre, and of a die pair: sequence number 0, CRC good; fibre 0 serves port 0 and fibre 6 none. -/
def upFibre : Fibre := { Fibre.init with training := 2, exchanged := true, txMap := mapOf 0, rxMap := mapOf 0 }
def fibreSt (f : Nat) (x : Fibre) : State := live.setFibre f x
/-- The bytes of a flit of a kind, its CRC good or spoilt, and the flit as its codeword comes whole; a flit of zeros with one wrong bit; and one with
a codeword that has more than 7 wrong symbols. -/
def kindBytes (kind : Nat) (spoil : Nat := 0) : List Byte :=
  let body := natLe 4 (kind * 4) ++ List.replicate 248 0
  natLe 4 (crc32 body + spoil) ++ body
def blockOf (l : List Byte) : List Nat := (List.range 258).map (fun i => leNat l / 2 ^ (10 * i) % 1024)
def fibreFlit (kind : Nat) (spoil : Nat := 0) : FibreFlit :=
  { number := 0, words := [blockOf (kindBytes kind spoil)].map sentWord }
def wrongBit : FibreFlit := { number := 0, words := [List.replicate 271 0 ++ [512]] }
def lostWord : FibreFlit := { number := 0, words := [List.replicate 264 0 ++ [1, 127, 253, 972, 607, 398, 28, 130]] }
/-- A flit of a good codeword is read as its bytes, whatever the lanes. -/
theorem fibreFlit_read (lanes : Nat) :
    ∀ kind ∈ [0, 1, 2, 3, 4, 5], ∀ spoil ∈ [0, 1],
      readWords lanes (fibreFlit kind spoil) = ⟨kindBytes kind spoil, [(0, some [])]⟩ := by
  have sent : ∀ kind spoil, readWords lanes (fibreFlit kind spoil)
      = ⟨natLe 256 (symbolsNat (blockOf (kindBytes kind spoil)) / 2 ^ flitBit 0), [(0, some [])]⟩ := by
    intro kind spoil
    rw [fibreFlit, readWords_sent lanes 0 [blockOf (kindBytes kind spoil)] (fun d hd => by
      rw [List.mem_singleton.mp hd]
      refine ⟨by simp [blockOf], fun x hx => ?_⟩
      obtain ⟨i, -, rfl⟩ := List.mem_map.mp hx
      exact Nat.mod_lt _ (by omega))]
    simp [flitCodeword]
  have bytes : ∀ kind ∈ [0, 1, 2, 3, 4, 5], ∀ spoil ∈ [0, 1],
      natLe 256 (symbolsNat (blockOf (kindBytes kind spoil)) / 2 ^ flitBit 0) = kindBytes kind spoil := by decide +kernel
  intro kind h spoil g
  rw [sent, bytes kind h spoil g]
theorem witness_FibreFlitsAndCredits_words :
    (readWords 18 wrongBit).words = [(0, some [1])] ∧ (readWords 18 lostWord).words = [(0, none)]
      ∧ activeLanes upFibre.rxMap = 18 ∧ wrongBit.wf = true ∧ lostWord.wf = true
      ∧ upFibre.counted ≤ 0 ∧ (0 : Word) < { upFibre with counted := 1 }.counted := by decide +kernel
theorem witness_FibreFlitsAndCredits :
    let kind := fun (l : List Byte) => bitsOf (leNat (slice l 0 8)) 36 34
    let good := fun (l : List Byte) => crc32 (slice l 4 252) == bitsOf (leNat (slice l 0 8)) 31 0
    let seq := fun (l : List Byte) => BitVec.ofNat 13 (bitsOf (leNat (slice l 0 8)) 63 51)
    let x := { upFibre with replay := [[]] }
    let held := { fibreSt 0 x with tempo := { Tempo.init with passed := 20000 } }
    let port := { live with tempo := { Tempo.init with passed := 16000 } }.setPort 0 { PortSt.init with state := 2, bells := [0] }
    fibreUp (fibreSt 0 upFibre) 0 = true ∧ (∀ k ∈ [0, 1, 2, 3, 4, 5], kind (kindBytes k) = k ∧ good (kindBytes k) = true
        ∧ kind (kindBytes k 1) = k ∧ good (kindBytes k 1) = false)
      ∧ seq (kindBytes 1) = upFibre.expect ∧ seq (kindBytes 1) ≠ { upFibre with expect := 1 }.expect
      ∧ portOf (fibreSt 6 upFibre) 6 = none ∧ portOf (fibreSt 0 upFibre) 0 = some 0
      ∧ fibreUp held 0 = true ∧ (held.fibre 0).replay = [[]] ∧ 20000 ≤ (clock held - x.ackAt).toNat ∧ hubOn port = true
      ∧ (port.port 0).bells.takeWhile (fun t => decide (16000 ≤ (clock port - t).toNat)) ≠ [] := by decide +kernel

/-- A data flit of a die pair with a number of its own, its CRC good or spoilt; and an idle one. -/
def pairFlit (seq kind : Nat) (spoil : Nat) : D2dFlit :=
  let body := natLe 8 (seq * 2 ^ 52 + kind * 2 ^ 36) ++ List.replicate 244 0
  { bytes := body ++ natLe 4 (crc32 body + spoil) }
def pairSt (p : Pair) : State := live.setPair 0 1 p
theorem witness_DieLinkFlitsAndLanes :
    let sums := fun (f : D2dFlit) => (crc32 (f.bytes.take 252), leNat (slice f.bytes 252 4))
    let kind := fun (f : D2dFlit) => bitsOf (leNat (f.bytes.take 8)) 38 36
    let seq := fun (f : D2dFlit) => BitVec.ofNat 12 (bitsOf (leNat (f.bytes.take 8)) 63 52)
    let bad := sums (pairFlit 0 1 1)
    let good := sums (pairFlit 0 1 0)
    let idle := sums (pairFlit 0 0 0)
    let w : Swap := ⟨3, 16, some 0, true⟩
    let swapping := pairSt { Pair.init with swaps := [w] }
    let asked := live.setPair 1 0 { Pair.init with ctl := [laneBody 1 3 16 0] }
    let answered := pairSt { Pair.init with ctl := [laneBody 2 3 16 32] }
    let worn := pairSt { Pair.init with bad := List.replicate 15 [] }
    let h := 2 ^ 40 + 2 ^ 39
    unitUp live 1 = true ∧ hubOn live = true ∧ bad.1 ≠ bad.2 ∧ good.1 = good.2 ∧ idle.1 = idle.2
      ∧ (live.pair 0 1).retrain = false ∧ pairLanes (live.pair 0 1) ≠ 0
      ∧ kind (pairFlit 0 0 0) = 0 ∧ kind (pairFlit 0 1 0) ≠ 0 ∧ seq (pairFlit 0 1 0) = (live.pair 0 1).expect
      ∧ seq (pairFlit 9 1 0) ≠ (live.pair 0 1).expect ∧ (live.pair 0 1).bad = [] ∧ (live.pair 0 1).charges = []
      ∧ 16 ≤ ((worn.pair 0 1).bad ++ [[]]).length ∧ (worn.pair 0 1).nak = false ∧ Inv worn ∧ (0 : Die9) ≠ 1
      ∧ ((pairSt { Pair.init with retrain := true }).pair 0 1).retrain = true
      ∧ (BitVec.ofNat 12 (bitsOf h 51 40) - 0).toNat ≤ ({ Pair.init with acked := 0, replay := [[], []] } : Pair).replay.length
      ∧ h.testBit 39 = true ∧ (2 ^ 40 : Nat).testBit 39 = false
      ∧ (takeCtl asked 1 0 (laneBody 1 3 16 0)).isSome = true ∧ (takeCtl answered 0 1 (laneBody 2 3 16 32)).isSome = true
      ∧ (swapping.pair 0 1).swaps.find? (fun x => x.acked && x.at_ == some (swapping.pair 0 1).next) = some w := by decide +kernel

/-- A moment of tempo and of the clock. -/
def atTick (n : Nat) (s : State) : State :=
  { s with tempo := { Tempo.init with ticks := BitVec.ofNat 64 n, passed := BitVec.ofNat 64 n } }

/-- A fibre 100 ms into its training, with failures behind it; a good result for port 0, and coordinate 0 written. -/
def trainSt (f fails : Nat) : State :=
  dset (atTick 100000000 (fibreSt f { Fibre.init with training := 1, fails := fails })) 0x9000 1 0
def goodTraining : TrainResult :=
  { trained with txPass := 0x3FFFF, rxMargins := List.replicate 18 1000, peer := 0x1000, loopNs := 8000, spans := 2 }
theorem witness_TrainingAndPortMaps :
    let s := trainSt 0 2
    let r := goodTraining
    let moved : State := { live with blobs := [(dkey 0x40A0 1, [0x10, 0x01, 0x22, 0x33, 0x44, 0x55])] }
    let broken : State := { live with blobs := [(dkey 0x40A0 1, [0x00, 0x01, 0x22, 0x33, 0x44, 0x55])] }
    let bad := fun (t : State) => (List.range 8).any (fun n => !portMapLegal (writtenMap t n)) || (mapChanges t).any (circuitOn t)
    let passed := fun (k : Nat) => decide (1000 ≤ r.rxMargins.getD k 0) && f32Le (r.rxBers.getD k 0).toNat (dnum s 0x20A0 2)
    Inv s ∧ canTrain s 0 = true ∧ portOf s 0 = some 0 ∧ hubOn s = true ∧ (s.fibre 0).training = 1 ∧ 3 ≤ (s.fibre 0).fails + 1
      ∧ 100000000 ≤ (clock s - (s.fibre 0).trainAt).toNat ∧ (s.fibre 0).everUp = false
      ∧ ((trainSt 0 1).fibre 0).fails + 1 < 3 ∧ ((trainSt 6 2).fibre 6).training = 1 ∧ portOf (trainSt 6 2) 6 = none
      ∧ 16 ≤ activeLanes (initialMap (fun k => r.txPass.getLsbD k && !lamDead s 0 k true))
      ∧ 16 ≤ activeLanes (initialMap (fun k => passed k && !lamDead s 0 k false)) ∧ dnum s 0x20A0 1 ≤ 16
      ∧ writtenCoord s = some 0 ∧ r.loopNs.toNat ≤ 8000 ∧ 8000 < ({ r with loopNs := 8001 } : TrainResult).loopNs.toNat
      ∧ r.spans ≠ 3 ∧ ({ r with spans := 3 } : TrainResult).spans = 3
      ∧ peerOk 0 r.peer 0 = true ∧ r.peerOrder = byteAt (planeOrders s) 0
      ∧ bad broken = true ∧ Inv moved ∧ bad moved = false ∧ mapChanges moved = [0, 1] := by decide +kernel

/-- Eighteen λ on lanes 0 to 15 with two free ones, as training leaves them. -/
def fullMap : List (BitVec 5) := initialMap (fun _ => true)
def onFibre : Fibre := { upFibre with txMap := fullMap, rxMap := fullMap }
def change (committed lost : Bool) : Change :=
  { want := none, reason := 0, tick := 0, cw := 4, map := fullMap, committed := committed, isLost := lost }
/-- A transceiver that holds a lane-control message. -/
def holding (op : BitVec 8) (cw : Word) (x : Fibre) : State := fibreSt 5 { x with laneIn := [{ laneM with op := op, cw := cw }] }
theorem witness_LaneChangesAgreed :
    let s := fibreSt 5 onFibre
    let x := s.fibre 5
    let due := { onFibre with txAt := 0, rxAt := 0, txCw := 4, rxCw := 4 }
    let changing := { onFibre with txChange := some (change true false), rxChange := some (change true false) }
    fibreUp s 5 = true ∧ (∀ op ∈ [1, 2, 3, 4, 5, 6], fibreUp (holding op 0 onFibre) 5 = true ∧ Inv (holding op 0 onFibre)
        ∧ ((holding op 0 onFibre).fibre 5).laneIn = [{ laneM with op := op }])
      ∧ heldTick onFibre = none ∧ heldTick changing = some 0
      ∧ (change false false).committed = false ∧ rxIndex s x < 1 ∧ 0 ≤ rxIndex s x ∧ txIndex s x < 1
      ∧ laneM ≠ { laneM with op := 1 } ∧ (1 : Word) < (change true false).cw ∧ (change true false).cw ≤ 4
      ∧ x.txChange = none ∧ codeAt (rxPlanned x 4) 15 < 16 ∧ codeAt (rxPlanned x 4) 16 = 16
      ∧ codeAt x.rxMap 16 ≤ 16 ∧ 16 < codeAt (rxPlanned { onFibre with rxMap := fullMap.set 16 19 } 4) 16
      ∧ x.rxLost = [] ∧ x.rxChange = none ∧ [change true true].getLast? = some (change true true)
      ∧ f32Le 0 (dnum s 0x20A0 2) = true ∧ f32Le 0x3F800000 (dnum s 0x20A0 2) = false
      ∧ fibreUp (fibreSt 5 changing) 5 = true ∧ changing.txLost = [] ∧ changing.rxLost = [] ∧ (change true false).committed = true
      ∧ (change true false).isLost = false ∧ (change true true).isLost = true
      ∧ txIndex (fibreSt 5 changing) changing < (change true false).cw.toNat
      ∧ rxIndex (fibreSt 5 changing) changing < (change true false).cw.toNat
      ∧ (change true false).cw.toNat ≤ txIndex (fibreSt 5 due) due ∧ (change true true).cw.toNat ≤ rxIndex (fibreSt 5 due) due
      ∧ Inv s := by decide +kernel

def verified : VerifyResult := { pass := true, ber := 0, marginMdb := 1000, reserveUw := 0 }
/-- Rotations at an active λ, a free one and a retired one; a paused rotation with λ 0 the longest without calibration.
Window 0 of transceiver 5 opens at tick 625,000. -/
def rotated (n : Nat) : Fibre :=
  { onFibre with txCal := { Rotation.init with done := n }, rxCal := { Rotation.init with done := n } }
def pausedFibre : Fibre :=
  { onFibre with
    txMap := (fullMap.set 16 19).set 17 19,
    txCal := { Rotation.init with lastCal := (List.range 17).map (fun k => (k + 1, BitVec.ofNat 64 (k + 1))) } }
def calibrating : Fibre :=
  { onFibre with txMap := fullMap.set 16 17, txCal := { Rotation.init with done := 16, window := 1, cal := some 16 } }
theorem witness_CalibrationRuns :
    let at_ := fun (n : Nat) (x : Fibre) => atTick n (fibreSt 5 x)
    let gone := { rotated 16 with txMap := fullMap.set 16 19 }
    let late := at_ (dnum live 0x20A0 4 * second) pausedFibre
    let lead := changeLead live
    fibreUp (at_ 0 (rotated 0)) 5 = true ∧ (rotated 0).txChange = none ∧ (rotated 0).txLost = [] ∧ (rotated 0).exchanged = true
      ∧ calPaused (rotated 0).txMap = false ∧ codeAt fullMap (nextCal (rotated 0).txCal) < 16
      ∧ windowTick 5 (rotated 0) true 0 = 625000 ∧ 0 + lead < 625000
      ∧ windowNow (at_ 0 (rotated 0)) 5 (rotated 0) true = none
      ∧ windowNow (at_ 625000 (rotated 16)) 5 (rotated 16) true = some 0 ∧ (dirCal (rotated 16) true).cal = none
      ∧ windowNow (at_ 0 (rotated 16)) 5 (rotated 16) false = some 0 ∧ (dirCal (rotated 16) false).cal = none
      ∧ (dirCal (rotated 16) true).window ≤ 0 ∧ dirIdle (rotated 16) true = true ∧ dirIdle (rotated 16) false = true
      ∧ codeAt fullMap (nextCal (rotated 16).txCal) = 16 ∧ calPaused gone.txMap = false
      ∧ codeAt gone.txMap (nextCal gone.txCal) = 19 ∧ codeAt (fullMap.set 16 18) 16 = 18
      ∧ sourceReady (at_ 625000 (rotated 16)) 5 16 = true ∧ Inv (at_ 2525000 calibrating)
      ∧ (dirCal calibrating true).cal = some 16 ∧ verifyOk (at_ 2525000 calibrating) verified = true
      ∧ windowTick 5 calibrating true ((dirCal calibrating true).window - 1) + 1900000 ≤ (now (at_ 2525000 calibrating)).toNat
      ∧ (∀ w, windowNow (at_ 625000 calibrating) 5 calibrating true = some w → w < (dirCal calibrating true).window)
      ∧ fibreUp late 5 = true ∧ calPaused pausedFibre.txMap = true ∧ codeAt pausedFibre.txMap 0 < 16
      ∧ pausedFibre.txChange = none ∧ pausedFibre.txLost = []
      ∧ dnum late 0x20A0 4 * second ≤ (clock late - mget 0 pausedFibre.txCal.lastCal 0).toNat
      ∧ (∀ j, j < 18 → j ≠ 0 → codeAt pausedFibre.txMap j < 16
          → mget 0 pausedFibre.txCal.lastCal 0 < mget 0 pausedFibre.txCal.lastCal j)
      ∧ dieUp live 7 = true ∧ dnum (dset live 0x20A0 5 1) 0x20A0 5 = 1 ∧ checkDue live (ckRing 7) 10000 = true := by decide +kernel

theorem witness_LambdaFailsVerify :
    let failed := fun (n : Nat) => { calibrating with txCal := { calibrating.txCal with badRuns := [(16, n)] } }
    let at_ := fun (x : Fibre) => atTick 2775000 (fibreSt 55 x)
    let r := { verified with pass := false }
    let after := calWindowEnd 55 true r (at_ (failed 1))
    let again := at_ { failed 1 with txCal := { (after.fibre 55).txCal with cal := some 16 } }
    Inv (at_ (failed 2)) ∧ fibreUp (at_ (failed 2)) 55 = true ∧ (dirCal (failed 2) true).cal = some 16
      ∧ codeAt (dirMap (failed 2) true) 16 = 17 ∧ verifyOk (at_ (failed 2)) r = false
      ∧ windowTick 55 (failed 2) true ((dirCal (failed 2) true).window - 1) + 1900000 ≤ (now (at_ (failed 2))).toNat
      ∧ 3 ≤ mget 0 (dirCal (failed 2) true).badRuns 16 + 1 ∧ mget 0 (dirCal (failed 1) true).badRuns 16 + 1 < 3
      ∧ Inv (at_ (failed 1)) ∧ verifyOk again verified = true ∧ Inv again ∧ fibreUp again 55 = true
      ∧ dirCal (again.fibre 55) true = { dirCal (after.fibre 55) true with cal := some 16 }
      ∧ windowTick 55 (again.fibre 55) true ((dirCal (failed 1) true).window - 1) + 1900000 ≤ (now again).toNat := by
  decide +kernel

def bankSt (src : Nat) (locked : Bool) : State :=
  live.setBank 1 { Bank.init with source := if src = 0 then [] else [(17, src)], locked := if locked then [(17, true)] else [] }
theorem witness_LaserSourcesJudged :
    let sum := fun (mdbm : Int) =>
      ((mdbm :: mget [] (live.bank 1).taps 17).take 16).foldl (· + ·) 0 - 1 * bankPower live 1 17
    let late : State := { bankSt 2 false with tempo := { Tempo.init with passed := 500000000 } }
    mget none live.power.checks (ckLaser 1) ≠ some (beat live)
      ∧ 500000000 ≤ (clock late - mget 0 (late.bank 1).warmAt 17).toNat ∧ bankOn late 1 = true
      ∧ mget 0 (late.bank 1).source 17 = 2 ∧ mget false (late.bank 1).locked 17 = false ∧ bankOn live 1 = true ∧ mget 0 (live.bank 1).source 17 = 0 ∧ bankOn (bankSt 1 false) 1 = true
      ∧ ((0 :: mget [] (live.bank 1).taps 17).take 16).length = 1 ∧ -1500 < f32Milli (dnum live 0x40A5 18)
      ∧ -1500 < sum 24000 ∧ -3000 < sum 22500 ∧ sum 22500 ≤ -1500 ∧ sum 21000 ≤ -3000
      ∧ mget 0 ((bankSt 1 false).bank 1).source 17 = 1 ∧ mget 0 ((bankSt 2 false).bank 1).source 17 = 2
      ∧ mget 0 ((bankSt 3 true).bank 1).source 17 = 3 ∧ mget false ((bankSt 3 false).bank 1).locked 17 = false
      ∧ Inv (bankSt 3 true) ∧ bankOn (bankSt 3 true) 1 = true
      ∧ (∀ f, f ∈ halfFibres 1 → ((bankSt 3 true).fibre f).training = 2 → fibreUses ((bankSt 3 true).fibre f) 17 = false)
      ∧ (∀ e, e ∈ halfPairs 1 → pairMoving (bankSt 3 true) e.1 e.2 17 = false) := by
  decide +kernel

/-- Tempo flits on port 1, the second of plane 0, whose direction is the parent's. -/
def tempoF : TempoFlit :=
  { ok := true, txTick := 100, txCw := 0, echoTx := 90, echoRx := 95, txFrac := 0, echoTxFrac := 0, echoRxFrac := 0, depth := 61,
    priority := 1, root := 0, sync := 0, age := 0 }
def tempoSt (t : Tempo) : State := { live.setPort 1 { PortSt.init with state := 2 } with tempo := t }
theorem witness_TempoExchangeAndServo :
    let s := tempoSt { Tempo.init with parent := some 1, median := some 1000, beatOf := [(7, 2000)], ticks := 0x100000 }
    let early := tempoSt { Tempo.init with ticks := 65536 + 8192 }
    hubOn s = true ∧ beat s ≠ s.tempo.servoAt ∧ flitPeriod s (1 / 6) = some 16 ∧ mget none s.tempo.sent 1 ≠ some 16
      ∧ flitPeriod early 1 = some 1 ∧ flitPeriod live 1 = none ∧ (s.port 1).state = 2 ∧ { tempoF with ok := false }.ok = false ∧ 62 ≤ { tempoF with depth := 62 }.depth.toNat
      ∧ tempoF.depth.toNat < 62 ∧ s.tempo.parent = some (dirField (1 % 6)) ∧ tempoF.sync = 0 ∧ tempoF.echoTx ≠ 0
      ∧ ¬(live.tempo.parent = some (dirField (1 % 6)) ∧ tempoF.sync = 0 ∧ tempoF.echoTx ≠ 0)
      ∧ (2024 - 1000 : Int).natAbs ≤ 1024 ∧ 1024 < (2025 - 1000 : Int).natAbs ∧ median (s.tempo.beatOf.map (·.1)) = some 7
      ∧ median (early.tempo.beatOf.map (·.1)) = none ∧ beat early ≠ { early.tempo with servoAt := 1 }.servoAt
      ∧ s.tempo.ticks.toNat * 2 ^ 32 + s.tempo.frac.toNat + s.tempo.incr.toNat < 2 ^ 96 := by decide +kernel

/-- A device with a parent in direction 1 and a better vector in direction 0; one that may be root; HOLDOVER at its end. -/
def heardAt (sync : BitVec 2) (prio : Byte) : Heard := { sync := sync, priority := prio, root := 0, depth := 1 }
def treeSt (t : Tempo) : State := { (live.setPort 0 { PortSt.init with state := 2 }).setPort 1 { PortSt.init with state := 2 } with tempo := t }
def child : Tempo :=
  { Tempo.init with state := 1, parent := some 1, heard := [(0, some (heardAt 0 1)), (1, some (heardAt 0 2))] }
theorem witness_TempoTreeKept :
    let s := treeSt { child with ticks := 0x100000, selectAt := 1 }
    let next := treeSt { child with ticks := 0x200000, selectAt := 1 }
    let orphan := treeSt { child with parent := none, selectAt := beat s }
    let late := treeSt { child with passed := BitVec.ofNat 64 (beats (dnum live 0x9021 3)) }
    let lone := treeSt { child with heard := [(1, some (heardAt 0 2))], passed := BitVec.ofNat 64 (beats (dnum live 0x9021 3)) }
    let root := dset { live with tempo :=
      { Tempo.init with firstUp := some 0, passed := BitVec.ofNat 64 (beats (dnum live 0x9021 2)) } } 0x9021 1 1
    let held := treeSt { Tempo.init with state := 3, passed := BitVec.ofNat 64 (beats (dnum live 0x9021 4)) }
    beat next ≠ next.tempo.selectAt ∧ bestLink next (fun x => decide (x.depth < 62)) = some (0, heardAt 0 1)
      ∧ hubOn s = true ∧ s.tempo.isRoot = false ∧ heardOn s 1 = some (heardAt 0 2) ∧ (heardAt 0 2).sync = 0
      ∧ bestLink s (fun x => decide (x.depth < 62)) = some (0, heardAt 0 1)
      ∧ bestLink orphan (admissible orphan) = some (0, heardAt 0 1)
      ∧ beats (dnum late 0x9021 3) ≤ since late late.tempo.sampleAt
      ∧ (let gone : State := { late with tempo := { late.tempo with
          parent := none, lastDepth := late.tempo.depth, lastRoot := late.tempo.root, heard := mput none late.tempo.heard 1 none,
          beatOf := [], held := [], median := none } }
         (bestLink gone (admissible gone)).isSome = true)
      ∧ (let gone : State := { lone with tempo := { lone.tempo with
          parent := none, lastDepth := lone.tempo.depth, lastRoot := lone.tempo.root, heard := mput none lone.tempo.heard 1 none,
          beatOf := [], held := [], median := none } }
         bestLink gone (admissible gone) = none)
      ∧ lone.tempo.state = 1
      ∧ root.fab.coord = some 0 ∧ root.tempo.state = 0 ∧ root.tempo.isRoot = false ∧ tempoPriority root ≠ 0
      ∧ root.tempo.firstUp = some 0 ∧ beats (dnum root 0x9021 2) ≤ since root 0 ∧ (∀ d, d < 6 → heardOn root d = none)
      ∧ held.tempo.state = 3 ∧ beats (dnum held 0x9021 4) ≤ since held held.tempo.holdAt := by decide +kernel

/-! ### The vector engine -/

/-- Die 0's context about to issue a word of an opcode, formats, and IMM 0, with other fields as given. -/
def veW (op df sf fields : Nat) : Word := BitVec.ofNat 64 (op * 2 ^ 56 + df * 2 ^ 25 + sf * 2 ^ 21 + fields)
def veSt (upd : Bool) (w : Word) (f : VeRun → VeRun) : State :=
  setVeRun (writeBytes live (addrKey 0x1000000000) (natLe 8 w.toNat)) 0 upd (f { VeRun.init with active := true, prog := 0x1000000000 })
def fetched : Fetch → Option (Word × Bool)
  | .word _ w p => some (w, p)
  | _ => none
def gotBytes : Got → Option (List Byte × Bool)
  | .bytes b p => some (b, p)
  | _ => none
def gotBad : Got → Option (Nat × Place)
  | .bad a p => some (a, p)
  | _ => none

/-- A word is fetched, is not refused, and has its opcode, in the main context. -/
def issues (op df sf fields : Nat) : Bool :=
  let w := veW op df sf fields
  fetched (veFetch (veSt false w id) 0 false) == some (w, false) && !veRefused false (veDecode w) && (veDecode w).op.toNat == op
    && decide ((veRun (veSt false w id) 0 false).pc + 1 < progLimit false)

/-- A word that issues with every word read clean. -/
theorem issues_clean {s t : State} {d : Die} {upd p : Bool} {w : Word} (hf : veFetch s d.val upd = .word t w p)
    (hr : veRefused upd (veDecode w) = false) :
    ∃ r, Issues s d { upd := upd, words := [], regs := [] } w (setVeRun t d.val upd r) r :=
  ⟨_, t, t, p, hf, hr, rfl, rfl⟩
theorem word_of_fetched {x : Fetch} {w : Word} {p : Bool} (h : fetched x = some (w, p)) : ∃ t, x = .word t w p := by
  cases x with
  | word t v q => cases h; exact ⟨t, rfl⟩
  | wait t => cases h
  | bad a q => cases h
  | none => cases h
/-- FADD of BF16 issues, in each context; of the update lane on registers of its own. -/
def addW (upd : Bool) : Word := veW 0x10 7 7 (if upd then 50 * 2 ^ 50 + 49 * 2 ^ 44 + 48 * 2 ^ 38 else 0)
theorem witness_Issues (upd : Bool) :
    ∃ u r, Issues (veSt upd (addW upd) id) 0 { upd := upd, words := [], regs := [] } (addW upd) u r := by
  have hf : fetched (veFetch (veSt upd (addW upd) id) (0 : Die).val upd) = some (addW upd, false) := by
    cases upd <;> decide +kernel
  have hr : veRefused upd (veDecode (addW upd)) = false := by cases upd <;> decide +kernel
  obtain ⟨t, ht⟩ := word_of_fetched hf
  obtain ⟨r, h⟩ := issues_clean ht hr
  exact ⟨_, r, h⟩

theorem witness_VeElementsComputed :
    [0x10, 0x11, 0x12, 0x16, 0x17, 0x18, 0x19, 0x1A, 0x1B, 0x1C].all (fun op => issues op 7 7 0) = true
      ∧ ([0x13, 0x14, 0x15, 0x1D, 0x1E, 0x1F] ++ (List.range 9).map (0x40 + ·)).all (fun op => issues op 9 9 0) = true
      ∧ ((List.range 13).map (0x20 + ·)).all (fun op => issues op 5 5 0) = true ∧ issues 0x38 0 9 0 = true := by decide +kernel
/-- The last index at which an instruction may go on, and a word in the update context. -/
theorem witness_VeElementsComputed_update :
    let w := veW 0x10 7 7 (50 * 2 ^ 50 + 49 * 2 ^ 44 + 48 * 2 ^ 38)
    fetched (veFetch (veSt true w id) 0 true) = some (w, false) ∧ veRefused true (veDecode w) = false
      ∧ (veRun (veSt true w id) 0 true).pc + 1 < progLimit true := by decide +kernel

theorem witness_VeRegistersWritten :
    [0x00, 0x07, 0x32, 0x39, 0x60, 0x61, 0x62, 0x70, 0x71, 0x72, 0x73, 0x77].all (fun op => issues op 0 0 0) = true
      ∧ issues 0x3A 0 9 0 = true ∧ [0x30, 0x51, 0x52, 0x54, 0x55].all (fun op => issues op 7 7 0) = true
      ∧ issues 0x31 5 5 0 = true ∧ [0x50, 0x53].all (fun op => issues op 9 9 0) = true := by decide +kernel

/-- A context whose address scalar S1 is 0x1000000000, or an address outside every store; the strides are 0. -/
def withS1 (a : Nat) (r : VeRun) : VeRun :=
  { r with s := mput 0 r.s 1 (BitVec.ofNat 64 a), sw := mput false r.sw 1 true }
def memSt (op a : Nat) : State := veSt false (veW op 0 0 (2 ^ 32)) (withS1 a)
def memRun (op a : Nat) : VeRun := veRun (memSt op a) 0 false
def memOk (op a : Nat) : Bool :=
  let w := veW op 0 0 (2 ^ 32)
  fetched (veFetch (memSt op a) 0 false) == some (w, false) && !veRefused false (veDecode w)
    && (veDecode w).op.toNat == op && decide ((memRun op a).pc + 1 < progLimit false)
def memParts (op a : Nat) (strided : Bool) : List (Nat × Nat) × Nat := memPieces strided (memRun op a) (veDecode (veW op 0 0 (2 ^ 32)))
def memReads (op a : Nat) (strided : Bool) : Got :=
  let x := memParts op a strided
  veGetAll (memSt op a) 0 false (x.1.map (fun q => (q.1, fmtBytes 0 x.2)))
def memFault (op a : Nat) (strided : Bool) : Option (Nat × Place) :=
  let x := memParts op a strided
  x.1.findSome? (fun q => slotFault (memSt op a) q.1 (fmtBytes 0 x.2))
def hole : Nat := 0x900000000
theorem witness_VeMemoryMoved :
    [1, 2, 3, 4, 5, 6].all (fun op => memOk op 0x1000000000 && memOk op hole) = true
      ∧ (gotBytes (memReads 1 0x1000000000 false)).isSome = true ∧ (gotBytes (memReads 5 0x1000000000 true)).isSome = true
      ∧ (gotBad (memReads 1 hole false)).isSome = true ∧ (gotBad (memReads 5 hole true)).isSome = true
      ∧ memFault 2 0x1000000000 false = none ∧ memFault 6 0x1000000000 true = none
      ∧ (memFault 2 hole false).isSome = true ∧ (memFault 6 hole true).isSome = true := by decide +kernel
/-- What a store merges has been read. -/
def memMerged (op : Nat) (strided : Bool) : Got :=
  let s := memSt op 0x1000000000
  let x := memParts op 0x1000000000 strided
  let k := (veDecode (veW op 0 0 (2 ^ 32))).mask.toNat
  let on := fun (first i : Nat) => decide (i < x.2) && (memRun op 0x1000000000).on k (first + i)
  veGetAll s 0 false ((x.1.filter (fun q => !(mergedBytes 0 x.2 (on q.2)).isEmpty)).map (fun q => (q.1, fmtBytes 0 x.2)))
theorem witness_VeMemoryMoved_merge :
    (gotBytes (memMerged 2 false)).isSome = true ∧ (gotBytes (memMerged 6 true)).isSome = true := by decide +kernel

theorem witness_VeProgramsRun :
    let s := withJob 0 (desc [(0, typ 2), (5, 0x1000000000), (6, 7)]) .ready
    let j := jobOf (desc [(0, typ 2), (5, 0x1000000000), (6, 7)]) .ready
    let over_ := veSt false 0 (fun r => { r with cycles := dnum live 0x2040 1 + 1 })
    s.job 0 0 = some j ∧ descType j.words = 2 ∧ j.phase = .ready ∧ (veRun s 0 false).active = false ∧ (s.ve 0).hold = none
      ∧ dieUp s 0 = true ∧ Inv s ∧ mwf 0 0 (veRun s 0 false).s = true
      ∧ [0x74, 0x75, 0x76, 0x78].all (fun op => issues op 0 0 0) = true
      ∧ (veRun (veSt false (veW 0x76 0 0 0) id) 0 false).scalarPoison 0 = false
      ∧ (veRun (veSt false (veW 0x76 0 0 0)
          (fun r => { r with sw := [(0, true)], sp := [(0, true)] })) 0 false).scalarPoison 0 = true
      ∧ fetched (veFetch (veSt false (veW 0xFF 0 0 0) id) 0 false) = some (veW 0xFF 0 0 0, false)
      ∧ veRefused false (veDecode (veW 0xFF 0 0 0)) = true ∧ (veRun over_ 0 false).active = true
      ∧ dnum over_ 0x2040 1 < (veRun over_ 0 false).cycles := by decide +kernel

/-- A kernel at its one row, chained or not, its block at 0x1000: FP32 throughout, one element a row. -/
def kernelWords (chain : Bool) : List Word := desc [(0, BitVec.ofNat 64 (2 * 2 ^ 56 + (if chain then 2 ^ 54 else 0)))]
def kernelNum (kind : Nat) : Nat :=
  kind * 2 ^ 488 + 9 * 2 ^ 484 + 9 * 2 ^ 480 + 0x1000005000 * 2 ^ 320 + 0x1000004000 * 2 ^ 192 + 0x1000003000 * 2 ^ 128
    + 0x1000002000 * 2 ^ 64 + 0x1000006000
def kernelSt (k : Kernel) (chain : Bool) (kind : Nat) : State :=
  let s := (veSt false (veW k.op 0 0 0) (fun r =>
    { r with s := mput 0 r.s 0 (BitVec.ofNat 64 0x1000), sw := mput false r.sw 0 true })).setQueue 0
      (runQ [jobOf (kernelWords chain) .working])
  writeBytes s (addrKey 0x1000) (natLe 64 (kernelNum kind))
def kernelOk (k : Kernel) (chain : Bool) (kind : Nat) : Bool :=
  let s := kernelSt k chain kind
  let w := veW k.op 0 0 0
  let r := veRun s 0 false
  let a := memAddr r (veDecode w)
  let n := leNat (readBytes s (addrKey a) 64)
  fetched (veFetch s 0 false) == some (w, false) && !veRefused false (veDecode w) && (veDecode w).op.toNat == k.op
    && r.pc == 0 && decide ((veDecode w).vc.toNat ≤ 7) && a % 64 == 0 && tierFault s 0 a 64 == none
    && (s.job r.queue r.idx).map Job.nextOff == some 0 && !kRefused k n && (kBlock n).rows == 1
    && decide (r.cycles ≤ dnum s 0x2040 1) && (gotBytes (veGetAll s 0 false (kReads k (kBlock n) 0))).isSome
    && (kWrites k (kBlock n) 0).findSome? (fun e => slotFault s e.1 e.2) == none
    && kernelChained s 0 == chain && rowsEmitted s r.queue r.idx
theorem witness_KernelRowsRun :
    [(Kernel.normF, 0), (.normB, 1), (.smaxF, 2), (.smaxB, 2)].all (fun k => kernelOk k.1 false k.2 && kernelOk k.1 true k.2)
      = true ∧ kRefused .smaxF (kernelNum 0) = true := by decide +kernel

/-- An update request of die 0's lane, its block at 0x1000001000, waiting for bell 0 to reach a value. -/
def updOf (value : Nat) : UpdReq :=
  { queue := 0, idx := 0, words := [0x1000001000, 0, 0, BitVec.ofNat 64 value], slice := 0x1000008000, rows := 1, cols := 1,
    stride := 64, at_ := 0, running := false, block := 0, loaded := false, wrTags := [], fp := 0, poisoned := false, ending := none, freed := false }
def updNum (algo : Nat) : Nat :=
  algo * 2 ^ 704 + 9 * 2 ^ 708 + 64 * 2 ^ 672 + 0x1000000000 * 2 ^ 608 + 0x1000004000 * 2 ^ 128 + 0x1000003000 * 2 ^ 64
    + 0x1000002000
def updSt (algo : Nat) (u : UpdReq) : State :=
  writeBytes (live.setLane 0 [u]) (addrKey 0x1000001000) (natLe 128 (updNum algo))
def updStarts (algo : Nat) (frozen : Bool) : Bool :=
  let s := updSt algo (updOf 0)
  let t := if frozen then ({ s with train := { s.train with ranges := [(0x1000002000, 64)] } } : State) else s
  let u := acquire t 0
  let n := match updParam u 0 (updOf 0) with
    | .bytes data _ => leNat data
    | _ => 0
  (gotBytes (updParam u 0 (updOf 0))).isSome && uRefused n == decide (3 < algo)
    && (updTensors (updOf 0) (uBlock n) (List.range 1)).any (meetsFrozen u) == frozen
def updRuns (algo : Nat) (k : Nat) : Bool :=
  let u := { updOf 0 with running := true, block := k }
  let s := updSt algo u
  let b := match updParam s 0 u with
    | .bytes data _ => uBlock (leNat data)
    | _ => uBlock 0
  s.lane 0 == [u] && (s.ve 0).hold.isNone && dieUp s 0 && (gotBytes (updParam s 0 u)).isSome
    && (gotBytes (veGetAll s 0 true (updReads u b))).isSome
    && (updWrites u b).findSome? (fun e => slotFault s e.1 e.2) == none && b.algo == algo && !(veRun s 0 true).active
theorem witness_UpdatesApplied :
    let late := { updSt 0 (updOf 1) with tempo := { Tempo.init with passed := BitVec.ofNat 64 (dnum live 0x2060 2 * 1024) } }
    (updSt 0 (updOf 0)).lane 0 = [updOf 0] ∧ ((updSt 0 (updOf 0)).ve 0).hold = none ∧ dieUp (updSt 0 (updOf 0)) 0 = true
      ∧ updValue (updOf 0) ≤ (updSt 0 (updOf 0)).bell (updBell (updOf 0)) ∧ (updOf 0).poisoned = false
      ∧ ({ updOf 0 with poisoned := true } : UpdReq).poisoned = true ∧ updStarts 0 false = true ∧ updStarts 0 true = true
      ∧ updStarts 4 false = true ∧ late.bell (updBell (updOf 1)) < updValue (updOf 1)
      ∧ dnum late 0x2060 2 * 1024 ≤ (clock late - (updOf 1).at_).toNat
      ∧ [0, 1, 2, 3].all (fun a => updRuns a 31 && updRuns a 0) = true := by decide +kernel

/-! ### Host, power, thermal, start, repair and memory -/

/-- Die 0's tier with its first row a hole. -/
def holeSt : State :=
  { live with flash := { live.flash with
      mem := mput MemRec.init [] 0 { MemRec.init with holes := [tierRow live 0 0] } } }
theorem witness_BarAccessesServed_holes :
    let early : State := { live with boot := { live.boot with complete := false } }
    faultIn holeSt 0 0 8 = some (0, .hole 0) ∧ hubOn holeSt = true ∧ (0 < 8 ∧ early.boot.complete = false) ∧ hubOn early = true
      ∧ readErrs live [] = live := by decide +kernel
theorem witness_BarAccessesServed :
    hubOn live = true ∧ bar0Mapped 0x10000 = true ∧ bar0Mapped 0x20 = false
      ∧ faultIn live 0 0x1000000000 8 = none ∧ live.boot.complete = true ∧ Memory.wf live.mem = true
      ∧ faultIn live 8 0 8 = none ∧ faultIn live 0 0x900000000 8 ≠ none
      ∧ ({ live with boot := { live.boot with complete := false } } : State).boot.complete = false := by decide +kernel

/-- The host interface with a vector waiting, or with an outstanding read. -/
def waitingVec : State := { live with host := { live.host with pba := [(5, true)] } }
def readSt (r : HostRead) : State := { live with host := { live.host with reads := [r] } }
def hostRingSt (base : Word) : State := { live with queues := [(3, { Queue.init with state := .running, ringBase := base })] }
theorem witness_HostFunction :
    let fetch : HostRead := ⟨7, 0x1000, 128, .fetch 3 0, [], []⟩
    let copy : HostRead := ⟨7, 0x1000, 128, .copy 3 0 0, [], []⟩
    let job := jobOf (desc [(0, typ 2)]) .working
    let one : State := { live with queues := [(3, { Queue.init with state := .running, jobs := [job] })] }
    hubOn waitingVec = true ∧ hostReady waitingVec = true ∧ waitingVec.host.msixEnable = true ∧ waitingVec.host.fnMask = false
      ∧ mget false waitingVec.host.pba 5 = true ∧ mget false waitingVec.host.pba 6 = false
      ∧ waitingVec.queues.all (fun e => e.2.jobs.isEmpty) = true ∧ live.queues.all (fun e => e.2.jobs.isEmpty) = true
      ∧ live.host.pba = [] ∧ (16 : Byte).toNat < 16 + 1 ∧ 16 ≤ (16 : Byte).toNat ∧ 6 ≤ (6 : Byte).toNat
      ∧ (15 : Byte).toNat < 16 ∧ (5 : Byte).toNat < 6
      ∧ (readSt fetch).host.reads = [fetch] ∧ fetch.use = .fetch 3 0 ∧ fetch.got = [] ∧ fetch.marks = [] ∧ fetch.len = 128
      ∧ (List.replicate 128 (0 : Byte)).length = 128 ∧ ((readSt fetch).queue 3).fetched.any (fun f => f.idx == 0) = false
      ∧ (readSt copy).host.reads = [copy] ∧ copy.use = .copy 3 0 0 ∧ fetch.got.length + (List.replicate 64 (0 : Byte)).length < fetch.len
      ∧ (8 : Nat) ≠ copy.tag ∧ live.host.linkUp = true ∧ live.host.reads = []
      ∧ (hostRingSt (2 ^ 63)).queues = [(3, (hostRingSt (2 ^ 63)).queue 3)] ∧ ((hostRingSt (2 ^ 63)).queue 3).ringBase.getLsbD 63 = true
      ∧ (hostRingSt 0).queues = [(3, (hostRingSt 0).queue 3)] ∧ Inv live ∧ one.queues = [(3, one.queue 3)]
      ∧ (one.queue 3).jobs = [job] ∧ job.cqOld = none ∧ usesHost job.words = false ∧ (one.queue 3).watch = none := by
  decide +kernel
theorem witness_HostFunction_held :
    let w : HeldWrite := ⟨0x1000, [1, 2], false, false⟩
    let s : State := { live with host := { live.host with busMaster := false, held := [w] } }
    hubOn s = true ∧ s.queues.all (fun e => e.2.jobs.isEmpty) = true ∧ s.host.pba = [] ∧ s.host.held = [w]
      ∧ s.host.linkUp = true ∧ s.host.d3hot = false ∧ waitingVec.host.held = [] ∧ waitingVec.host.pba = [(5, true)]
      ∧ live.host.held = [] := by decide +kernel
theorem witness_HostFunction_read : ∀ q i off, (ReadFor.fetch 3 0) ≠ .copy q i off := by intro q i off h; cases h

def powerSt (cap : Nat) (since : Option Word) (passed : Nat) : State :=
  { live with power := { live.power with cap := cap, okAt := since }, tempo := { Tempo.init with passed := BitVec.ofNat 64 passed } }
theorem witness_PowerStopsAndCaps :
    let hold := dnum live 0x6001 2 * 1000000
    let limit := dnum live 0x6001 1
    let off : State := { live with stage := { live.stage with domains := 0 } }
    live.stage.inputGood = true ∧ live.mgmt.store = none ∧ live.boot.update ≠ 2
      ∧ (List.range 30).all (fun d => domainOn live d) = true ∧ domainOn off 28 = false ∧ loaded live = true ∧ Inv live
      ∧ (powerSt 20 none 0).power.okAt = none ∧ checkDue (powerSt 20 (some 0) hold) ckPower 100000 = true ∧ 0 < limit ∧ limit * 97 ≤ limit * 100 ∧ (0 : Nat) * 100 < limit * 97
      ∧ (powerSt 20 (some 0) 0).power.okAt = some 0 ∧ (clock (powerSt 20 (some 0) 0) - 0).toNat < hold
      ∧ hold ≤ (clock (powerSt 20 (some 0) hold) - 0).toNat ∧ Inv (powerSt 20 (some 0) hold)
  := by decide +kernel
theorem witness_PowerStopsAndCaps_more :
    let path := pathLimitMa live 0
    let droop := fun (l : Nat) => ({ live with stretch := mput Stretch.init [] 0 ⟨l, 0⟩ } : State)
    dieUp live 0 = true ∧ checkDue live (ckCurrent 0) 100000 = true ∧ path * 95 < path * 100 ∧ path * 90 ≤ (path * 90 / 100 + 1) * 100 ∧ (path * 90 / 100 + 1) * 100 ≤ path * 95
      ∧ 0 * 100 < path * 90 ∧ (live.therm 0).upCur < 9
      ∧ 9 ≤ ((live.setTherm 0 { live.therm 0 with upCur := 9 }).therm 0).upCur
      ∧ unitUp live 0 = true ∧ mwf Stretch.init 0 live.stretch = true
      ∧ (mget Stretch.init live.stretch 0).level < 1 ∧ (mget Stretch.init (droop 1).stretch 0).level < 2
      ∧ 2 ≤ (mget Stretch.init (droop 2).stretch 0).level
      ∧ (mget Stretch.init (droop 2).stretch 0).level = 2 ∧ 765 < 770 ∧ (mget Stretch.init (droop 1).stretch 0).level = 1
      ∧ 785 < 790 ∧ (8 : Int) ≤ 8 ∧ Inv (droop 2) ∧ mwf Stretch.init 0 (droop 2).stretch = true
      ∧ unitUp (droop 2) 0 = true := by decide +kernel

/-- A sensor reading in which every sensor agrees, at 40 °C, with one compute-die reading as given. -/
def sensors (x : Int) : SensorReading :=
  ⟨List.replicate 16 40000, x :: List.replicate 31 40000, List.replicate 16 40000, 100000⟩
def thermSt (f : Therm → Therm) (passed : Nat) : State :=
  { live.setTherm 0 (f (live.therm 0)) with tempo := { Tempo.init with passed := BitVec.ofNat 64 passed } }
theorem witness_ThermalRules :
    let suspect := dset live 0x6023 1 1
    let r := sensors 40000
    checkDue live (ckModel 0) 10000 = true ∧ mget none suspect.power.checks (ckRefine 0) ≠ some (beat suspect)
      ∧ checkDue live (ckSensor 0) 1000000 = true
      ∧ dieUp live 0 = true ∧ Inv live ∧ anySuspect live 0 = false ∧ anySuspect suspect 0 = true ∧ dieUp suspect 0 = true ∧ Inv suspect
      ∧ ((suspect.setTherm 0 { suspect.therm 0 with cdMax := some 0, low := some 0 }).therm 0).cdMax = some 0
      ∧ (live.therm 0).throttled = false ∧ ((thermSt (fun x => { x with throttled := true }) 0).therm 0).throttled = true
      ∧ 102000 ≤ (live.therm 0).rj ∧ (live.therm 0).rj ≤ 170000 ∧ mwf 0 0 (live.therm 0).fails = true
      ∧ r.base.length = 16 ∧ r.tier.length = 16 ∧ r.cd.length = 32
      ∧ (List.range 16).all (fun k => !offMedian r.base k && !offMedian r.tier k) = true ∧ dcell live 0x6024 1 = 0 ∧ dcell live 0x6023 1 = 0
      ∧ (List.range 32).all (fun k => decide (38000 ≤ r.cd.getD k 0) && decide (r.cd.getD k 0 ≤ 54000)) = true ∧ (highest r.base).getD 0 - 2000 = 38000
      ∧ (highest r.tier).getD 0 + 110 * (r.mw : Int) / 1000 + 3000 = 54000 ∧ (sensors 37999).cd.getD 0 0 < 38000
      ∧ mget 0 (live.therm 0).fails 32 < 7
      ∧ 7 ≤ mget 0 ((thermSt (fun x => { x with fails := [(32, 7)] }) 0).therm 0).fails 32
  := by decide +kernel
theorem witness_ThermalRules_caps :
    let hot := f32Milli (dnum live 0x6026 1)
    let at_ := fun (g : Int) (t : Nat) => thermSt (fun x => { x with tGov := g, critAt := some 0, coolAt := some 0 }) t
    let cool := fun (g : Int) => thermSt (fun x => { x with tGov := g }) 0
    checkDue (at_ 109999 0) (ckThermal 0) 100000 = true ∧ checkDue live (ckSurvey 0) (beats (dnum live 0x6043 2)) = true
      ∧ dieUp (at_ 110000 10000000) 0 = true ∧ 110000 ≤ ((at_ 110000 10000000).therm 0).tGov ∧ hot < 109999
      ∧ ((at_ 110000 10000000).therm 0).critAt = some 0 ∧ 10000000 ≤ (clock (at_ 110000 10000000) - 0).toNat
      ∧ hot < ((at_ 109999 0).therm 0).tGov ∧ ((at_ 109999 0).therm 0).tGov < 110000
      ∧ hot - 3000 ≤ ((at_ hot 0).therm 0).tGov ∧ ((at_ hot 0).therm 0).tGov < 110000
      ∧ ((cool 0).therm 0).tGov < hot - 3000 ∧ ((cool 0).therm 0).coolAt = none
      ∧ ((at_ 0 999999).therm 0).coolAt = some 0 ∧ (clock (at_ 0 999999) - 0).toNat < 1000000
      ∧ 1000000 ≤ (clock (at_ 0 1000000) - 0).toNat ∧ loaded live = true ∧ domainOn live 0 = true ∧ domainOn live 29 = true
      ∧ mwf 0 0 live.power.lost = true ∧ mget 0 live.power.lost 16 < pathFull 16 - 0
      ∧ (slice (groupLimits 8 (List.replicate 16 3000)) 0 4).foldl (· + ·) 0 < 5000 * 32
      ∧ (live.tier 0).quads.contains 0 = true := by decide +kernel

/-- A state in which some comparisons in a row have found a rise. -/
def coolSt (n : Nat) : State :=
  { live with power := { live.power with hotRuns := n } }
theorem witness_CoolantRiseJudged :
    loaded live = true ∧ Inv live ∧ (0 + 0 - 0 - 0 : Int) ≤ 40000 ∧ (40000 : Int) < 30000 + 30000 - 0 - 0
      ∧ (coolSt 8).power.hotRuns ≠ 9 ∧ checkDue live ckCoolant 1000000000 = true
      ∧ checkDue (ran live ckCoolant 0) ckCoolant 1000000000 = false := by decide +kernel
/-- Ten comparisons in a row: each is due, and leaves the count that the next one starts with. -/
theorem witness_CoolantRiseJudged_row :
    9 + (coolSt 0).power.hotRuns = 9 ∧ ∀ k ≤ 9, loaded (coolSt k) = true ∧ Inv (coolSt k)
      ∧ checkDue (coolSt k) ckCoolant 1000000000 = true ∧ (match exec (.coolantCheck 0 0 30000 30000) (coolSt k) with
        | .next t => t.power.hotRuns
        | _ => 0) = (coolSt (k + 1)).power.hotRuns := by decide +kernel

/-! ### Starts, repair and memory -/

/-- The state that a cause of a reset starts from. -/
def offBase (s : State) (cause : Byte) : State :=
  { State.reset with
    pending := s.pending, free := s.free, out := s.out, fuses := s.fuses, flash := s.flash,
    stage := { s.stage with domains := 0, inputGood := true, resetCause := cause } }
def keptBase (s : State) (cause : Byte) (dog : Bool) : State :=
  let hbm := fun (k : Nat) => decide (k / 2 ^ 48 < 8) && decide (0x1000000000 ≤ k % 2 ^ 48)
  { offBase s cause with
    stackMask := s.stackMask, mem := s.mem.filter (fun e => hbm e.1), poison := s.poison.filter (fun w => hbm (8 * w)),
    tiers := s.tiers, hbms := s.hbms, boot := { Boot.init with watchdog := dog },
    stage := { s.stage with resetCause := cause } }
def askedSt (r : ResetAsk) : State :=
  { live with boot := { live.boot with reset := some r }, tempo := { Tempo.init with passed := 10000000 } }
def unpowered : State := { State.reset with stage := { State.reset.stage with latch := 3 } }
theorem witness_StartsAndResets :
    let bad : State := { live with flash := { live.flash with image := [], factory := false } }
    unpowered.stage.inputGood = false ∧ live.stage.inputGood = true ∧ asked (askedSt .module) .module = true
      ∧ asked (askedSt .hub) .hub = true ∧ loaded live = true ∧ live.mgmt.store = none ∧ live.boot.update ≠ 2
      ∧ (offBase unpowered 0).flash = unpowered.flash ∧ (keptBase live 3 true).flash = live.flash
      ∧ env.noGood.getLsbD 24 = false ∧ env.noGood.getLsbD 25 = false ∧ env.noGood.getLsbD 26 = false
      ∧ ({ env with viaLost := 3 } : BootEnv).viaLost = 3 ∧ ({ env with pllLocked := false } : BootEnv).pllLocked = false
      ∧ env.viaLost ≠ 3 ∧ env.pllLocked = true ∧ env.flashOk = true ∧ live.flash.imageTorn = false
      ∧ imageReason bad.fuses bad.flash.image false = 1 ∧ imageReason live.fuses live.flash.image live.flash.factory = 0
      ∧ env.noGood.getLsbD 28 = false ∧ env.bankOk.getLsbD 0 = true ∧ unpowered.stage.latch.getLsbD 0 = true
      ∧ env.laneFail = [] ∧ ({ env with flashOk := false } : BootEnv).flashOk = false := by decide +kernel
/-- The flash of a hub one of whose control groups is exhausted with its twin, or not. -/
def deadTwins (l : List BumpGroup) : Bool :=
  l.any (fun g => match g with
    | .hubCtl k t => l.contains (.hubCtl k (!t))
    | _ => false)
theorem witness_StartsAndResets_twins :
    deadTwins [.hubCtl 1 false, .hubCtl 1 true] = true ∧ deadTwins [.hubCtl 1 false, .hubCtl 2 true] = false
      ∧ deadTwins unpowered.flash.bumpDead = false ∧ deadTwins live.flash.bumpDead = false := by decide +kernel
theorem witness_StartsAndResets_more :
    let die := askedSt (.die 1)
    let booting : State := { live with boot := { live.boot with complete := false } }
    let writing : State := { live with boot := { live.boot with update := 2 } }
    let rom : State := { live with boot := { live.boot with firmware := false, rom := 2 } }
    hubOn die = true ∧ die.boot.reset = some (.die 1) ∧ (1 : Byte) = BitVec.ofNat 8 (2 ^ 0) ∧ die.stackMask.getLsbD 0 = true
      ∧ stackBad env 0 = false ∧ stackBad { env with slow := 1 } 0 = true
      ∧ loaded booting = true ∧ booting.boot.complete = false ∧ booting.boot.log.length < 255
      ∧ loaded writing = true ∧ writing.boot.update = 2 ∧ writing.boot.log.length < 256
      ∧ romRuns rom = true ∧ rom.boot.rom = 2 ∧ imageReason rom.fuses (readBytes rom (cellKey 8 0) (min 4 8388608)) false ≠ 0
      ∧ rom.stage.latch.getLsbD 0 = true ∧ rom.host.mbxBusy = false ∧ Inv rom := by decide +kernel

/-- A port's two read groups exhausted; a hub control group and its twin. -/
def sparedSt (l dead : List BumpGroup) : State := { live with flash := { live.flash with bumpSpared := l, bumpDead := dead } }
theorem witness_BumpsAndClocksRepaired :
    let g := BumpGroup.tierRead 0 2 5
    let h := BumpGroup.hubCtl 1 false
    let twin := BumpGroup.hubCtl 1 true
    let pc := BumpGroup.hbmPc 0 5 0
    let lane := BumpGroup.hbmLane 0 5
    let lone : State := (sparedSt [g] []).setTier 0 { live.tier 0 with ports := 0xF7 }
    let swapping : State := { sparedSt [g] [] with swaps := [.tierRead 0 3 5, g] }
    let first : State := { sparedSt [g] [] with swaps := [g] }
    let one := dset live 0x3014 1 1
    let hub := dset live 0x3014 9 1
    hubOn live = true ∧ groupLive live g = true ∧ live.flash.bumpSpared.contains g = false
      ∧ (sparedSt [g] [g]).flash.bumpDead.contains g = true ∧ (sparedSt [g] []).flash.bumpDead.contains g = false
      ∧ (sparedSt [g] []).flash.bumpSpared.contains g = true ∧ groupLive (sparedSt [g] []) g = true
      ∧ spareless g = false ∧ groupPc pc = some (0, 5) ∧ groupLive (sparedSt [pc] []) pc = true
      ∧ groupPc lane = some (0, 5) ∧ spareless lane = true ∧ groupLive live lane = true ∧ (live.tier 0).quads.contains (2 / 2) = true
      ∧ groupPort g = some (0, 2) ∧ ((sparedSt [g] []).tier 0).ports.getLsbD 2 = true
      ∧ (lone.tier 0).ports.getLsbD 2 = true ∧ (lone.tier 0).ports.getLsbD (2 / 2 * 2 + 1 - 2 % 2) = false
      ∧ groupLive (sparedSt [h] [twin]) h = true ∧ (sparedSt [h] [twin]).flash.bumpDead.contains (.hubCtl 1 (!false)) = true
      ∧ (sparedSt [h] [twin]).flash.bumpDead.contains h = false ∧ (sparedSt [h] []).flash.bumpDead.contains (.hubCtl 1 (!false)) = false
      ∧ swapping.swaps.contains g = true ∧ (swapsAhead g swapping.swaps).any (sameQuad g) = true
      ∧ (swapsAhead g first.swaps).any (sameQuad g) = false ∧ first.swaps.contains g = true
      ∧ live.stackMask.getLsbD 0 = true ∧ dcell live 0x3014 1 = 0 ∧ dcell one 0x3014 1 ≠ 0 ∧ (live.tier 0).clkTwin = false
      ∧ ((live.setTier 0 { live.tier 0 with clkTwin := true }).tier 0).clkTwin = true ∧ dcell live 0x3014 9 = 0
      ∧ dcell hub 0x3014 9 ≠ 0 ∧ hubOn hub = true := by decide +kernel

/-- Die 0's memory during a retirement of pseudo-channel 5 and GiB 63. -/
def retiring (phase batch cursor : Nat) (cur : Option Nat) (passed : Nat) : State :=
  let s := live.setHbm 0 { live.hbm 0 with phase := phase, pc := 5, gib := 63, batch := batch, cursor := cursor }
  let m := { s.memRec 0 with active := some ⟨5, 63⟩, cursor := cur }
  { s with
    flash := { s.flash with mem := mput MemRec.init s.flash.mem 0 m },
    tempo := { Tempo.init with passed := BitVec.ofNat 64 passed } }
theorem witness_ScrubFindingsAndRetirement :
    let off := 0x1000000000
    let marked := markWord live (cellKey 0 off / 8) true
    let low := markWord live (cellKey 0 0 / 8) true
    dieUp live 0 = true ∧ 0 / gibLines < hbmGib live 0 ∧ 0x1000000000 ≤ off ∧ (off - 0x1000000000) / 256 = 0 ∧ Inv live
      ∧ poisoned live (cellKey 0 off) = false ∧ poisoned marked (cellKey 0 off) = true ∧ dieUp marked 0 = true
      ∧ 0 * 512 < tierMap live 0 ∧ (live.tier 0).out.getLsbD (quadOf live 0 0) = false
      ∧ (live.memRec 0).holes.contains (tierRow live 0 0) = false ∧ 0 < tierTop live 0 ∧ 0 < 0x18000000
      ∧ 0 / 512 = 0 ∧ poisoned low (cellKey 0 0) = true ∧ poisoned live (cellKey 0 0) = false
      ∧ mget 0 (live.memRec 0).rowSpares (rowBank (tierRow live 0 0)) < 48 := by decide +kernel
theorem witness_ScrubFindingsAndRetirement_retire :
    let notice := dnum live 0x5013 2 * 2 ^ 20
    let s := retiring 3 1 0 (some 0) 0
    let last := retiring 3 8 7 (some 7) 0
    let start := retiring 3 0 0 none 0
    ((retiring 1 0 0 none 0).hbm 0).phase = 1 ∧ ((retiring 2 0 0 none notice).hbm 0).phase = 2
      ∧ ((retiring 2 0 0 none notice).hbm 0).removed = none
      ∧ notice ≤ (clock (retiring 2 0 0 none notice) - ((retiring 2 0 0 none notice).hbm 0).noticeAt).toNat
      ∧ (start.hbm 0).phase = 3 ∧ (start.memRec 0).cursor = none ∧ Inv start ∧ mwf MemRec.init 0 start.flash.mem = true
      ∧ (s.hbm 0).phase = 3 ∧ (s.memRec 0).cursor = some 0 ∧ (s.hbm 0).batch < batches s 0 ∧ 0 < (s.hbm 0).batch
      ∧ (s.hbm 0).waiting = [] ∧ 0 + 1 < batches s 0 ∧ (last.hbm 0).phase = 3 ∧ (last.memRec 0).cursor = some 7
      ∧ 7 < (last.hbm 0).batch ∧ (last.hbm 0).waiting = [] ∧ batches last 0 ≤ 7 + 1 ∧ (last.hbm 0).pc < 64 := by decide +kernel
/-- Line 5 is the first that a retirement of pseudo-channel 5 moves. -/
theorem witness_ScrubFindingsAndRetirement_batch :
    let s := retiring 3 0 0 (some 0) 0
    let off := 0x1000000000 + 5 * 256
    0x1000000000 ≤ off ∧ movedRank s 0 ((off - 0x1000000000) / 256) = some 0 ∧ 0 / 524288 = (s.hbm 0).batch := by
  have hl : ((retiring 3 0 0 (some 0) 0).hbm 0).list = [] := by decide +kernel
  have hp : ((retiring 3 0 0 (some 0) 0).hbm 0).phase = 3 := by decide +kernel
  have hc : ((retiring 3 0 0 (some 0) 0).hbm 0).pc = 5 := by decide +kernel
  have hg : ((retiring 3 0 0 (some 0) 0).hbm 0).gib = 63 := by decide +kernel
  have hb : ((retiring 3 0 0 (some 0) 0).hbm 0).batch = 0 := by decide +kernel
  refine ⟨by decide, ?_, by rw [hb]⟩
  simp only [movedRank, hl, hp, hc, hg]
  simp [placeIn, gibLines]

/-! ### Resilience, management and encodings -/

/-- A neighbour of direction 1, heard at tick 0 on plane 0, silent until a tick. -/
def silentSt (passed : Nat) : State :=
  { live.setPort 1 { PortSt.init with state := 2, known := true, peer := 0x1000 } with
    tempo := { Tempo.init with passed := BitVec.ofNat 64 passed } }
/-- A candidate whose shadow run is going on, with the digests it has made itself. -/
def shadowSt (ours : List Shadow) (passed : Nat) : State :=
  let s := dset (dset (dset live 0xC030 1 2) 0xC031 1 1) 0xC031 2 passed
  { s with res := { s.res with ours := ours } }
theorem witness_ResilienceAndHealth :
    let limit := beats (dnum live 0xC003 1)
    let x : Shadow := { queue := 3, idx := 0, digest := 7, poisoned := false }
    let same := fun (y : Shadow) => y.queue == 3 && y.idx == 0
    let fin := dset live 0xC031 2 (dnum live 0xC030 4 - 1)
    lastHeard live 1 = none ∧ lastHeard (silentSt 0) 1 = some 1 ∧ (clock (silentSt 0) - ((silentSt 0).port 1).heard).toNat < limit
      ∧ lastHeard (silentSt limit) 1 = some 1 ∧ loaded (silentSt limit) = true ∧ Inv (silentSt limit)
      ∧ limit ≤ (clock (silentSt limit) - ((silentSt limit).port 1).heard).toNat ∧ dcell (silentSt limit) 0xC003 3 = 0
      ∧ dcell (silentSt limit) 0xA0C0 2 < dictAbsent ∧ dbit (sticky live 0xA0C0 2 1) 0xA0C0 2 1 = true
      ∧ (3 : Nat) < 65536 ∧ loaded (shadowSt [] 0) = true ∧ Inv (shadowSt [x] 0) ∧ dcell (shadowSt [x] 0) 0xC030 1 = 2
      ∧ dcell (shadowSt [x] 0) 0xC031 1 = 1 ∧ (shadowSt [x] 0).res.theirs.find? same = none
      ∧ (shadowSt [] 0).res.ours.find? same = none ∧ (shadowSt [] 0).res.theirs.length < 4095
      ∧ (shadowSt [x] 0).res.ours.find? same = some x ∧ x.poisoned = false ∧ dcell (shadowSt [x] 0) 0xC031 2 + 1 < dictAbsent
      ∧ x.digest ≠ 8 ∧ dcell (shadowSt [x] 0) 0xA0C0 7 < dictAbsent ∧ dnum live 0xC030 4 ≤ dcell fin 0xC031 2 + 1
      ∧ 0 + 1 < dnum live 0xC030 4 := by decide +kernel
/-- States of health with a good score, or none; a fibre trained and calibrated; a run of the requalification. -/
def healthSt (st : Nat) (debt : Nat) : State :=
  let full := (List.range 30).foldl (fun (s : State) d => dset (dset s 0x6040 (d + 1) 0x42480000) 0x6041 (d + 1) 0x42480000) live
  let s := dset (dset (full.setFibre 5 { onFibre with txCal := { Rotation.init with rounds := 1 }, rxCal := { Rotation.init with rounds := 1 } }) 0x30C0 2 st) 0x6043 1 1
  { s with health := { s.health with debt := debt, survey := true }, tempo := { s.tempo with ticks := BitVec.ofNat 64 (2 ^ 40) } }
theorem witness_ResilienceAndHealth_health :
    let run : State := { live with health := { live.health with running := true, destroy := true } }
    loaded run = true ∧ run.health.running = true ∧ Inv run ∧ run.health.destroy = true ∧ dieUp run 0 = true ∧ hubOn live = true := by
  decide +kernel
theorem witness_ResilienceAndHealth_states :
    let decay : State := { live with tempo := { Tempo.init with passed := BitVec.ofNat 64 (beats 1024) } }
    beats 1024 ≤ (clock decay - decay.health.decayAt).toNat ∧ hubOn decay = true
      ∧ (clock live - live.health.decayAt).toNat < beats 1024 ∧ beat live = live.health.judgedAt
      ∧ beat (healthSt 0 0) ≠ (healthSt 0 0).health.judgedAt
      ∧ loaded (healthSt 0 0) = true ∧ Inv (healthSt 0 0) ∧ healthState (healthSt 3 0) = 3 ∧ healthState (healthSt 1 0) = 1
      ∧ healthState (healthSt 2 0) = 2 ∧ healthState (healthSt 0 0) = 0 ∧ opticalDone (healthSt 0 0) = true
      ∧ dcell (healthSt 0 0) 0x6043 1 = 1 ∧ healthScore (healthSt 1 1000) < dnum live 0x30C1 3
      ∧ dnum live 0x30C1 3 ≤ healthScore (healthSt 2 0) := by decide +kernel

/-- A state with a score that lets it be healthy, held long enough; and a run whose first array fails its test. -/
theorem witness_ResilienceAndHealth_fit :
    let fit := fun (st : Nat) =>
      let s := healthSt st 0
      s.setFibre 5 { s.fibre 5 with margins := [(0, 4000)], reserve := [(0, 3200)] }
    let held := fun (s : State) => dnum s 0x30C1 4 ≤
      (beat s - (if s.health.beatIn < s.health.failBeat then s.health.failBeat else s.health.beatIn)).toNat
    dnum live 0x30C1 1 ≤ healthScore (fit 2) ∧ held (fit 2) ∧ healthState (fit 2) = 2 ∧ dnum live 0x30C1 1 ≤ healthScore (fit 0)
      ∧ held (fit 0) ∧ opticalDone (fit 0) = true ∧ dcell (fit 0) 0x6043 1 = 1 ∧ loaded (fit 0) = true ∧ Inv (fit 0)
      ∧ healthScore (healthSt 1 0) < dnum live 0x30C1 2 ∧ dnum live 0x30C1 2 ≤ healthScore (fit 1) ∧ healthState (fit 1) = 1
      ∧ (inService live).testBit 3 = true ∧ ({ requal with katFail := 8 } : RequalEnv).katFail.getLsbD 3 = true := by decide +kernel

/-- An owner whose engine is in a mode and state, with open and closing blocks. -/
def ownerSt (mode owner : Nat) (paired : Bool) (opens closing : List Nat) : State :=
  let s := dset (dset live 0xC020 2 0x1000) 0xC020 3 1
  { s with tempo := { live.tempo with ticks := BitVec.ofNat 64 (beats 1) }, res := { s.res with
      mode := mode, owner := owner, paired := paired, openSet := opens, closing := closing, stepped := true, epoch := 5 } }
def ack (kind : Byte) (epoch : Word) : GhostRec := { rec8 with kind := kind, epoch := epoch }
theorem witness_GhostEpochsKept_owner :
    let off : State := { ownerSt 1 0 true [0] [] with
      res := { (ownerSt 1 0 true [0] []).res with stepped := false } }
    beat off ≠ off.res.markAt ∧ beat (ownerSt 2 0 true [0] []) ≠ 0 ∧ beat live = live.res.markAt
      ∧ loaded (ownerSt 1 0 true [0] []) = true ∧ (ownerSt 1 0 true [0] []).res.paired = true ∧ (0 : Nat) ≠ 4
      ∧ (ownerSt 1 3 true [0] []).res.owner ∈ [1, 2, 3] ∧ (ownerSt 1 0 true [0] []).res.openSet ≠ []
      ∧ (ownerSt 1 0 true [0] []).res.stepped = true ∧ (ownerSt 1 0 true [0] []).res.owner = 0
      ∧ off.res.mode = 1 ∧ off.res.stepped = false ∧ beat off % BitVec.ofNat 64 (dnum off 0xC020 6) ≠ 0
      ∧ (ownerSt 2 0 true [0] []).res.mode = 2 ∧ (ownerSt 2 0 true [0] []).res.bellNext ≤ 0
      ∧ (ownerSt 1 1 true [] [0]).res.closing = [0] ∧ ghostOpen (ownerSt 1 1 true [] [0]) = true
      ∧ allowedPlanes (ownerSt 1 1 true [] [0]) (ghostPartner (ownerSt 1 1 true [] [0])) 0 ≠ []
      ∧ (ownerSt 1 1 true [] []).res.closing = [] ∧ ghostOpen (ownerSt 1 1 true [] []) = true
      ∧ (ownerSt 1 1 true [] []).res.puts = 0 ∧ (ownerSt 1 0 false [] []).res.mode ≠ 0
      ∧ (ack 3 0).kind = 3 ∧ (ack 4 0).kind = 4 ∧ (ack 3 0).epoch = 0 ∧ (ownerSt 1 0 false [] []).res.paired = false
      ∧ (ack 3 5).epoch = (ownerSt 1 3 true [] []).res.epoch ∧ (ack 3 4).epoch ≠ (ownerSt 1 3 true [] []).res.epoch
      ∧ (ownerSt 1 3 true [] []).res.owner = 3 := by decide +kernel

/-- A host of the device at 0x1000, in another failure domain, its windows from 4 on; and what has come in. -/
def ghostHostSt (state : Nat) (rx : List (Nat × Nat)) : State :=
  let s := dset (dset (dset (dset live 0xC028 1 0x1000) 0xC028 2 4) 0xC028 3 1) 0xC000 3 7
  { s with
    res := { s.res with hostState := mput 0 [] 0 state, rx := rx },
    fab := { s.fab with windows := [(4, some ⟨0x1000000000, 0x40000000, true, true, some 0x1000⟩)] } }
def hello (domain : BitVec 32) : GhostRec :=
  { rec8 with kind := 1, mode := 1, domain := domain, journalBytes := 1048576, regionBytes := 1 :: List.replicate 7 0 }
theorem witness_GhostEpochsKept_host :
    let s := ghostHostSt 1 []
    let g : GhostRec := { rec8 with kind := 2, crc := BitVec.ofNat 64 (crc64 []) }
    loaded s = true ∧ dnum s 0xC028 1 ≠ 0xFFFFFFFF ∧ (hello 7).domain.toNat = dcell s 0xC000 3 ∧ (hello 0).domain.toNat = 0
      ∧ helloReason s (hello 8) = none ∧ g.kind = 2 ∧ mwf 0 0 s.res.hostState = true
      ∧ g.blocks.toNat = s.res.rx.length
      ∧ g.crc.toNat = crc64 (s.res.rx.flatMap (fun x => readBytes s (hostKey s x.1 x.2) 65536))
      ∧ s.res.rx.filter (inJournal s) = [] ∧ ({ g with blocks := 9 } : GhostRec).blocks.toNat ≠ s.res.rx.length
      ∧ mget 0 (ghostHostSt 5 []).res.hostState 0 = 5 := by decide +kernel
/-- A COMMIT that matches one unit received in the journal. -/
theorem witness_GhostEpochsKept_journal :
    let rx := [(0, 4096 + hostBase (ghostHostSt 3 []) 0)]
    let s := ghostHostSt 3 rx
    let data := rx.flatMap (fun x => readBytes s (hostKey s x.1 x.2) 65536)
    let g : GhostRec := { rec8 with kind := 2, blocks := 1, crc := BitVec.ofNat 64 (crc64 data) }
    g.blocks.toNat = s.res.rx.length ∧ g.crc.toNat = crc64 data ∧ s.res.rx.filter (inJournal s) ≠ [] := by
  refine ⟨by decide +kernel, ?_, by decide +kernel⟩
  rw [BitVec.toNat_ofNat]
  exact Nat.mod_eq_of_lt (crc64_lt _)

/-- The states in which a request of the mailbox, or of the multidrop, comes to its turn. -/
def mailed (s : State) (m : BdpMsg) : State :=
  { setRequest s m.bytes with host := { (setRequest s m.bytes).host with mbxBusy := true } }
def known : State := { live with blobs := [(dkey 0x7011 1, addrBytes 9)] }
def ask (src : Source) (op : Byte) (idx sub : Nat) : BdpMsg :=
  bdpRequest src op 1 (if op = 4 then [] else natLe 2 idx ++ [BitVec.ofNat 8 sub, 0]
    ++ (if op = 1 then List.replicate 8 0 else [])) none
def servable (s : State) (m : BdpMsg) : Bool :=
  loaded s && isBdp m && s.mgmt.store.isNone && (s.mgmt.cache.find? (fun c => c.src == m.src && c.seq == msgSeq m && c.req == m.bytes)).isNone
    && (match m.src with
      | .mailbox => !s.host.mbxBusy && !romRuns s && decide (m.bytes.length ≤ 4096)
      | .udp a => !s.mgmt.dadBad && sourceKnown s (.udp a) && decide (second ≤ bucketOf s a))
theorem witness_BdpServed :
    let nonce := ask .mailbox 4 0 0
    let c : Cached := ⟨nonce.src, msgSeq nonce, nonce.bytes, nonce.bytes⟩
    let held : State := { live with mgmt := { live.mgmt with cache := [c] } }
    let busy : State := { live with host := { live.host with mbxBusy := true } }
    let late : State := { live with mgmt := { live.mgmt with fallback := true } }
    Inv live ∧ servable live nonce = true ∧ servable known (ask (.udp 9) 1 0xC000 1) = true ∧ servable known (ask (.udp 9) 4 0 0) = true
      ∧ held.mgmt.cache.find? (fun x => x.src == nonce.src && x.seq == msgSeq nonce && x.req == nonce.bytes) = some c
      ∧ formOk (ask .mailbox 9 0 0) = false ∧ servable live (ask .mailbox 9 0 0) = true ∧ formOk nonce = true
      ∧ msgSigned nonce = false ∧ msgOp nonce = 4 ∧ msgOp (ask .mailbox 1 0xC000 1) = 1 ∧ msgOp (ask .mailbox 3 0xC000 1) = 3
      ∧ formOk (ask .mailbox 1 0xC000 1) = true ∧ formOk (ask .mailbox 3 0xC000 1) = true
      ∧ indexKnown (msgIndex (ask .mailbox 1 0x1234 1)) = false ∧ indexKnown (msgIndex (ask .mailbox 1 0xC000 1)) = true
      ∧ msgSub (ask .mailbox 1 0xC000 99) ≠ 0 ∧ entryOf 0xC000 (msgSub (ask .mailbox 1 0xC000 99)) = none
      ∧ ((entryOf 0xC000 1).map (fun e => e.sub != 0)) = some true ∧ msgSub (ask .mailbox 1 0xC000 0) = 0
      ∧ (live.mgmt.nonces.filter (fun n => n.src == nonce.src)).length < 4 ∧ domainOn live 24 = true
      ∧ busy.host.mbxBusy = true ∧ romRuns live = false ∧ (0 : BitVec 16) = 0 ∧ 4096 < (4097 : BitVec 16).toNat
      ∧ dnum (dset live 0x20E0 1 1) 0x20E0 1 ≠ 255 ∧ live.mgmt.fallback = false ∧ late.mgmt.fallback = true ∧ (15 : Nat) < 16 := by decide +kernel
theorem witness_BdpServed_more :
    let m := ask .mailbox 4 0 0
    let s := setRequest live m.bytes
    let shown : State := { live with host := { live.host with msix := mput MsixEntry.init [] 0 { MsixEntry.init with masked := false } } }
    m.src = .mailbox ∧ m.bytes = reqBytes s m.bytes.length ∧ (BitVec.ofNat 16 m.bytes.length).toNat = m.bytes.length
      ∧ m.bytes.length ≤ 4096 ∧ isBdp m = true ∧ loaded s = true ∧ romRuns s = false ∧ s.host.mbxBusy = false
      ∧ s.mgmt.store = none ∧ sourceKnown known (.udp 9) = true ∧ sourceKnown live (.udp 9) = false ∧ live.mgmt.dadBad = false
      ∧ (9 : BitVec 128) ≠ linkLocal live ∧ vectorOpen shown 0 = true ∧ vectorOpen live 0 = false := by decide +kernel
theorem witness_BdpServed_journal :
    let j : State := { live with mgmt := { live.mgmt with jwait := [JEntry.blank] } }
    hubOn j = true ∧ mwf JEntry.blank 0 j.flash.journal = true ∧ 0 < min 64 j.mgmt.jwait.length := by decide +kernel

/-- A write that comes to its turn in a state passes its checks: its entry is there, writable, in range and allowed. -/
def writable (s : State) (idx sub : Nat) (v : List Byte) (keep : Bool) : Bool :=
  let m := writeOf ctx idx sub v
  let t := mailed s m
  servable s m && indexKnown idx && decide (sub ≠ 0) && !msgSigned m && (match entryOf idx sub with
    | some e => e.acc != .ro && e.acc != .rwl && e.acc != .w1c && !needsSignature t m.src e.acc && lengthOk e v && inRange e v
        && valueOk t e sub v && stateOk t e sub v && e.keep == keep
    | none => false)
/-- Every dictionary write by a row of its own. -/
theorem witness_DictionaryWritesTakeEffect :
    let admit_ : State := { live with res := { live.res with passedOk := true } }
    let mode := ownerSt 1 0 true [] []
    let stable := dset mode 0xC023 1 1
    Inv live ∧ [(0x7005, 1, [1]), (0x7005, 1, [2]), (0x7002, 1, List.replicate 32 0), (0x9001, 2, [1]), (0x40A0, 9, [1]),
        (0xC000, 1, [1, 0]), (0xC001, 1, [0, 0, 0, 0x80]), (0xC000, 2, [1]), (0xC020, 1, [1]), (0x30C2, 1, [1]),
        (0xC001, 64, [0, 0, 0, 0x80]), (0x9000, 1, [0, 0, 0, 0])].all (fun x => writable live x.1 x.2.1 x.2.2 false) = true
      ∧ [(0x5000, 1, [32]), (0x20E0, 1, [1]), (0x20E0, 4, [1])].all
        (fun x => writable live x.1 x.2.1 x.2.2 true) = true
      ∧ writable admit_ 0xC002 1 [1, 0] false = true ∧ writable stable 0xC020 12 [1] false = true := by decide +kernel
theorem witness_DictionaryWritesTakeEffect_authorised :
    let m := writeOf ctx 0xC000 1 [1, 0]
    let t := mailed live m
    authorise t m false = (0, t) ∧ Arrives live m t ∧ Fresh live m ∧ ctx.trailer = none ∧ (0xC000, 1) ≠ (0x7006, 2) := by
  refine ⟨rfl, ⟨by decide +kernel, by decide +kernel, rfl, by decide +kernel, by decide +kernel, by decide +kernel, rfl⟩, rfl, rfl, by decide⟩
/-- A store job of an entry, of one with its effect after the reply, and of one whose first read-back has failed. -/
def storing (idx : Nat) (again : Bool) : State :=
  { live with mgmt := { live.mgmt with store := some ⟨writeOf ctx idx 1 [1], dkey idx 1, [1], again, false⟩ } }
theorem witness_DictionaryWritesTakeEffect_stored :
    [0xC000, 0xC001, 0xC020, 0xC002, 0x30C2, 0x7002, 0x7005, 0x40A0, 0x5000, 0x9000].all (fun i => (entryOf i 1).isSome) = true
      ∧ (entryOf 0xC000 2).isSome = true ∧ (entryOf 0xC020 12).isSome = true ∧ (entryOf 0x9001 2).isSome = true
      ∧ (entryOf 0x40A0 9).isSome = true ∧ 0x80000001 &&& 0x8003FFFF = 0x80000001 ∧ (0x80000001 : Nat).testBit 31 = true
      ∧ (storing 0x5000 false).mgmt.store.isSome = true ∧ loaded (storing 0x5000 false) = true
      ∧ (entryOf (dkey 0x5000 1 / 256) (dkey 0x5000 1 % 256)).isSome = true ∧ dkey 0x5000 1 / 256 ≠ 0x20E0
      ∧ dkey 0x20E0 1 / 256 = 0x20E0 ∧ (entryOf (dkey 0x20E0 1 / 256) (dkey 0x20E0 1 % 256)).isSome = true
      ∧ ((storing 0x5000 true).mgmt.store.map StoreJob.again) = some true
      ∧ ((storing 0x5000 false).mgmt.store.map StoreJob.silent) = some false ∧ ([1] : List Byte) ≠ [] := by decide +kernel

/-- Messages and a packet in the form their clauses ask for: fifteen messages, one of each that carries data. -/
def packable (m : D2dMsg) : Bool :=
  decide (m.typ ≠ 0) && decide (normMsg m = m) && decide (m.data.length = (if carriesData m.typ then m.len.toNat else 0))
theorem witness_PackedFormsRoundTrip_messages :
    let l := ([0x02, 0x10, 0x20, 0x21, 0x22, 0x23].map (fun t => ({ d2dM with typ := t } : D2dMsg)))
      ++ [{ d2dM with typ := 0x02, poison := [true] }, { d2dM with typ := 0x03, len := 72, data := List.replicate 72 1 }]
      ++ List.replicate 7 { d2dM with typ := 0x01, data := [] }
    l.length ≤ 15 ∧ l.all packable = true := by decide +kernel
theorem witness_PackedFormsRoundTrip_packets :
    let read : Packet := { pkt with len := 256 }
    let put : Packet := { pkt with typ := 2, data := natLe 8 5, px := true, poison := [true] }
    let masked : Packet := { pkt with typ := 3, len := 72, data := List.replicate 72 0, px := true, poison := List.replicate 64 false }
    [read, put, masked].all (fun p => decide (p.data.length = pktData p)
      && decide (p.poison.length = (if p.px then pktMarks p else 0))) = true
      ∧ laneM.map.length = 18 ∧ ({ laneM with op := 6 } : LaneMsg).op ≠ 0 ∧ ({ laneM with op := 6 } : LaneMsg).op ≤ 6 := by decide +kernel
theorem witness_PackedFormsRoundTrip :
    let t : Trailer := ⟨1, 2, List.replicate 64 3⟩
    ([1, 2, 3] : List Byte).length < 65536 ∧ (some t = some t ∧ t.sig.length = 64) ∧ 1 < [5, 6].length := by decide +kernel

end Sys2Proof.Tests
end

section
/-! What no traffic touches. The loss of a die (01 R27) ends queues, collectives, requests, waits and links of the whole
module; each operation it is made of leaves the package itself as it stands: the power stage, the boot state, the tiers
and stacks, and which of them are in service. -/

namespace Sys2Proof.Machine

/-- The part of the state that says how the package stands. -/
structure Standing where
  stage     : Stage
  fuses     : Fuses
  boot      : Boot
  tempo     : Tempo
  tiers     : SMap Tier
  hbms      : SMap Hbm
  banks     : SMap Bank
  therms    : SMap Therm
  power     : Power
  stackMask : Byte
  dieReset  : Byte
  swaps     : List BumpGroup

/-- How the package of a state stands. -/
def standing (s : State) : Standing :=
  ⟨s.stage, s.fuses, s.boot, s.tempo, s.tiers, s.hbms, s.banks, s.therms, s.power, s.stackMask, s.dieReset, s.swaps⟩

/-- What each step of a fold leaves, the fold leaves. -/
theorem standing_foldl {α : Type} {f : State → α → State} (h : ∀ t x, standing (f t x) = standing t) (l : List α)
    (s : State) : standing (l.foldl f s) = standing s := by
  induction l generalizing s with
  | nil => rfl
  | cons x r ih => exact (ih _).trans (h s x)

/-! ### Updates of one piece of state -/

variable (s : State)

@[simp] theorem standing_free (x : Nat) : standing { s with free := x } = standing s := rfl
@[simp] theorem standing_flash (x : Flash) : standing { s with flash := x } = standing s := rfl
@[simp] theorem standing_host (x : HostIf) : standing { s with host := x } = standing s := rfl
@[simp] theorem standing_mgmt (x : Mgmt) : standing { s with mgmt := x } = standing s := rfl
@[simp] theorem standing_queues (x : SMap Queue) : standing { s with queues := x } = standing s := rfl
@[simp] theorem standing_watches (x : List (Nat × Watch)) : standing { s with watches := x } = standing s := rfl
@[simp] theorem standing_flight (x : List Flying) : standing { s with flight := x } = standing s := rfl
@[simp] theorem standing_d2dReqs (x : List D2dReq) : standing { s with d2dReqs := x } = standing s := rfl
@[simp] theorem standing_fab (x : Fab) : standing { s with fab := x } = standing s := rfl
@[simp] theorem standing_coll (x : CollEng) : standing { s with coll := x } = standing s := rfl
@[simp] theorem standing_res (x : Resil) : standing { s with res := x } = standing s := rfl
@[simp] theorem standing_setQueue (q : Nat) (x : Queue) : standing (s.setQueue q x) = standing s := rfl
@[simp] theorem standing_setCp (d : Nat) (x : Cp) : standing (s.setCp d x) = standing s := rfl
@[simp] theorem standing_setVe (d : Nat) (x : Ve) : standing (s.setVe d x) = standing s := rfl
@[simp] theorem standing_setLane (d : Nat) (x : List UpdReq) : standing (s.setLane d x) = standing s := rfl
@[simp] theorem standing_setRc (d : Nat) (x : Rc) : standing (s.setRc d x) = standing s := rfl
@[simp] theorem standing_setPair (a b : Nat) (x : Pair) : standing (s.setPair a b x) = standing s := rfl
@[simp] theorem standing_setPort (p : Nat) (x : PortSt) : standing (s.setPort p x) = standing s := rfl
@[simp] theorem standing_setFibre (f : Nat) (x : Fibre) : standing (s.setFibre f x) = standing s := rfl
@[simp] theorem standing_setBell (b : Nat) (v : Word) : standing (s.setBell b v) = standing s := rfl
@[simp] theorem standing_emit (o : Output) : standing (emit s o) = standing s := rfl
@[simp] theorem standing_dset (idx sub v : Nat) : standing (dset s idx sub v) = standing s := rfl
@[simp] theorem standing_dputBit (idx sub i : Nat) (b : Bool) : standing (dputBit s idx sub i b) = standing s := rfl
@[simp] theorem standing_bump (idx sub n : Nat) : standing (bump s idx sub n) = standing s := rfl
@[simp] theorem standing_addDebt (n : Nat) : standing (addDebt s n) = standing s := rfl
@[simp] theorem standing_spendTag (t : BitVec 16) : standing (spendTag s t) = standing s := rfl
@[simp] theorem standing_writeByte (key : Nat) (b : Byte) : standing (writeByte s key b) = standing s := rfl
@[simp] theorem standing_markWord (w : Nat) (b : Bool) : standing (markWord s w b) = standing s := rfl

/-! ### Sticky bits, vectors and stores -/

@[simp] theorem standing_raiseVector (v : Nat) : standing (raiseVector s v) = standing s := by
  unfold raiseVector
  split <;> simp

@[simp] theorem standing_journal (idx sub bit : Nat) : standing (journal s idx sub bit) = standing s := by
  unfold journal
  extract_lets m fresh used
  split <;> simp

@[simp] theorem standing_sticky (idx sub bit : Nat) : standing (sticky s idx sub bit) = standing s := by
  unfold sticky
  split <;> simp [raiseError]

@[simp] theorem standing_postHost (addr : Nat) (data : List Byte) (ep relaxed : Bool) :
    standing (postHost s addr data ep relaxed) = standing s := by
  unfold postHost
  split
  · simp
  · split <;> simp

@[simp] theorem standing_writeBytes (key : Nat) (l : List Byte) : standing (writeBytes s key l) = standing s := by
  induction l generalizing s key with
  | nil => rfl
  | cons b r ih => exact ih _ _

@[simp] theorem standing_markWrite (key len : Nat) (pz : Nat → Bool) :
    standing (markWrite s key len pz) = standing s := by
  refine standing_foldl (fun t w => ?_) _ s
  dsimp only
  split
  · simp
  · split <;> simp

@[simp] theorem standing_specTouch (key len : Nat) : standing (specTouch s key len) = standing s := by
  unfold specTouch
  extract_lets
  split <;> simp

@[simp] theorem standing_ghostTouch (key : Nat) : standing (ghostTouch s key) = standing s := by
  unfold ghostTouch
  split
  · rfl
  · split <;> simp

@[simp] theorem standing_ghostTouchAll (key len : Nat) : standing (ghostTouchAll s key len) = standing s := by
  unfold ghostTouchAll
  split
  · rfl
  · exact standing_foldl standing_ghostTouch _ s

@[simp] theorem standing_storeBytes (key : Nat) (data : List Byte) (pz : Nat → Bool) :
    standing (storeBytes s key data pz) = standing s := by simp [storeBytes]

@[simp] theorem standing_carryRead (key len : Nat) : standing (carryRead s key len) = standing s := by
  unfold carryRead
  extract_lets
  split <;> simp

/-! ### Die-to-die traffic (08) -/

@[simp] theorem standing_sendFlit (a b kind cls : Nat) (body : List Byte) :
    standing (sendFlit s a b kind cls body) = standing s := by simp [sendFlit]

@[simp] theorem standing_crossBody (a b fclass : Nat) (f : PktFlit) :
    standing (crossBody s a b fclass f).1 = standing s := by
  unfold crossBody
  dsimp only
  split <;> simp

@[simp] theorem standing_tellFrees (a b n : Nat) : standing (tellFrees a b n s) = standing s := by
  induction n generalizing s with
  | zero => rfl
  | succ n ih =>
    unfold tellFrees
    split <;> simp [ih]

@[simp] theorem standing_sendReady (a b : Nat) (f : Nat × Nat × List Byte) :
    standing (sendReady s a b f) = standing s := by
  simp [sendReady]

@[simp] theorem standing_sendCross (a b : Nat) (w : Nat × PktFlit) (x : Cross) :
    standing (sendCross s a b w x) = standing s := by simp [sendCross]

theorem standing_of_pumpOne {s t : State} {a b : Nat} (h : pumpOne s a b = some t) : standing t = standing s := by
  unfold pumpOne at h
  extract_lets s1 p at h
  split at h
  · cases h
  · split at h
    · cases h
      simp [s1]
    · split at h
      · cases h
      · cases h
        simp [s1]
      · cases h
        simp [s1]
      · cases h
        split <;> simp [s1]

@[simp] theorem standing_pumpN (a b n : Nat) : standing (pumpN a b n s) = standing s := by
  induction n generalizing s with
  | zero => rfl
  | succ n ih =>
    unfold pumpN
    split
    · rfl
    · rename_i t h
      exact (ih t).trans (standing_of_pumpOne h)

@[simp] theorem standing_pump (a b : Nat) : standing (pump s a b) = standing s := by simp [pump]

@[simp] theorem standing_sendHop (a : Nat) (m : D2dMsg) : standing (sendHop s a m) = standing s := by simp [sendHop]

@[simp] theorem standing_sendMsg (src dst : Nat) (m : D2dMsg) : standing (sendMsg s src dst m) = standing s := by
  unfold sendMsg
  extract_lets
  split <;> simp

/-! ### Packets on their way (09) -/

@[simp] theorem standing_nextFrees (f : Nat) : standing (nextFrees s f).2 = standing s := by
  unfold nextFrees
  split <;> simp

@[simp] theorem standing_leaveFlit (f kind fc : Nat) (p : PktFlit) : standing (leaveFlit s f kind fc p) = standing s :=
  standing_nextFrees s f

@[simp] theorem standing_fillTo (f lane n : Nat) : standing (fillTo f lane n s) = standing s := by
  induction n generalizing s with
  | zero => rfl
  | succ n ih =>
    unfold fillTo
    split <;> simp [ih]

@[simp] theorem standing_leavePkt (p : Packet) (f : Nat) (fl : PktFlit) :
    standing (leavePkt p f s fl) = standing s := by
  unfold leavePkt
  split <;> simp

@[simp] theorem standing_markLeft (p : Packet) : standing (markLeft s p) = standing s := by
  unfold markLeft
  split <;> simp

@[simp] theorem standing_launch (port : Nat) (x : PortSt) (p : Packet) : standing (launch s port x p) = standing s := by
  simp [launch, standing_foldl (fun t fl => standing_leavePkt t p (fibreOf s port) fl)]

/-- What a port answers to a packet: the packet has left, or the packet waits. -/
theorem standing_portTakes (port : Nat) (p : Packet) :
    (∀ t, (portTakes s port p).1 = some t → standing t = standing s) ∧ standing (portTakes s port p).2 = standing s := by
  unfold portTakes
  extract_lets
  split
  · simp
  · split
    · simp
    · split <;> simp

@[simp] theorem standing_sendPort (port : Nat) (p : Packet) : standing (sendPort s port p) = standing s := by
  obtain ⟨left, waits⟩ := standing_portTakes s port p
  unfold sendPort
  split
  · rfl
  · split
    · rename_i t _ h
      exact left t (by rw [h])
    · rename_i t h
      rw [h] at waits
      simpa using waits

@[simp] theorem standing_atSlice (plane : Nat) (p : Packet) : standing (atSlice s plane p) = standing s := by
  unfold atSlice
  split <;> simp

@[simp] theorem standing_crossPacket (a b : Nat) (p : Packet) : standing (crossPacket s a b p) = standing s := by
  simp [crossPacket]

@[simp] theorem standing_leaveOn (e plane : Nat) (p : Packet) : standing (leaveOn s e plane p).2 = standing s := by
  unfold leaveOn
  split
  · simp
  · split
    · simp
    · split <;> simp

@[simp] theorem standing_reply (p : Packet) (typ : BitVec 5) (f : Packet → Packet) :
    standing (reply s p typ f) = standing s := by
  unfold reply
  extract_lets
  split <;> simp

@[simp] theorem standing_sendOn (plane : Nat) (p : Packet) : standing (sendOn s plane p) = standing s := by
  unfold sendOn
  split
  · rfl
  · dsimp only
    split <;> simp [replyErr]

@[simp] theorem standing_sendDealt (k : Nat) (p : Packet) : standing (sendDealt s k p) = standing s := by
  unfold sendDealt
  split <;> simp

@[simp] theorem standing_selfErr (p : Packet) (status : Nat) : standing (selfErr s p status) = standing s := by
  simp [selfErr]

@[simp] theorem standing_freshTag : standing (freshTag s).2 = standing s := by simp [freshTag]

@[simp] theorem standing_request (q : Nat) (i : BitVec 32) (plane : Nat) (circuit : Option (BitVec 12)) (ghost : Bool)
    (p : Packet) : standing (request s q i plane circuit ghost p) = standing s :=
  (standing_sendOn _ _ _).trans (standing_freshTag s)

/-! ### Bells (06) -/

@[simp] theorem standing_notifyWatches (b : Nat) : standing (notifyWatches s b) = standing s := by
  simp [notifyWatches, standing_foldl]

@[simp] theorem standing_strike (b : Nat) (v : Word) : standing (strike s b v) = standing s := by
  unfold strike
  dsimp only
  split <;> simp

@[simp] theorem standing_packageStrike (d b : Nat) (v : Word) : standing (packageStrike s d b v) = standing s := by
  unfold packageStrike
  split <;> simp

@[simp] theorem standing_remoteStrike (q : Nat) (dst : BitVec 18) (b : Nat) (v : Word) (tick : Option Word) :
    standing (remoteStrike s q dst b v tick) = standing s := by
  unfold remoteStrike
  split <;> simp

@[simp] theorem standing_headerStrike (q : Nat) (l : List Word) : standing (headerStrike s q l) = standing s := by
  unfold headerStrike
  split
  · rfl
  · split <;> simp

/-! ### Write-backs (08 R197) -/

@[simp] theorem standing_writeBack (d : Nat) (l : RcLine) (use : D2dFor) :
    standing (writeBack s d l use).2 = standing s := by
  have fresh := standing_freshTag s
  unfold writeBack
  dsimp only
  split
  · rw [standing_sendMsg]
    simpa [standing] using fresh
  · split
    · rw [standing_sendOn]
      simpa [standing] using fresh
    · rw [standing_selfErr]
      simpa [standing] using fresh

@[simp] theorem standing_writeBackAll (d : Nat) (pick : RcLine → Bool) (use : D2dFor) :
    standing (writeBackAll s d pick use).2 = standing s := by
  have each : ∀ (l : List RcLine) (acc : List (BitVec 16) × State),
      standing (l.foldl (fun (acc : List (BitVec 16) × State) l =>
        let (tag, t) := writeBack acc.2 d l use
        (acc.1 ++ [tag], t)) acc).2 = standing acc.2 := by
    intro l
    induction l with
    | nil => intro acc; rfl
    | cons x r ih => intro acc; exact (ih _).trans (standing_writeBack acc.2 d x use)
  exact each _ ([], s)

@[simp] theorem standing_startRelease (d tag : Nat) (use : D2dFor) :
    standing (startRelease s d tag use).2 = standing s := by
  unfold startRelease
  split
  · rfl
  · exact standing_writeBackAll _ d _ use

/-! ### Queues and their descriptors (06) -/

@[simp] theorem standing_modJob (q : Nat) (i : BitVec 32) (f : Job → Job) : standing (s.modJob q i f) = standing s := by
  simp [State.modJob]

@[simp] theorem standing_finish (q : Nat) (i : BitVec 32) (status : Byte) (detail : Nat) :
    standing (finish s q i status detail) = standing s := by simp [finish]

@[simp] theorem standing_finishOk (q : Nat) (i : BitVec 32) : standing (finishOk s q i) = standing s := by
  unfold finishOk
  split <;> simp

@[simp] theorem standing_oneDone (q : Nat) (i : BitVec 32) : standing (oneDone s q i) = standing s := by
  unfold oneDone
  extract_lets t
  split
  · split <;> simp [t]
  · simp [t]

@[simp] theorem standing_dropRequests (q : Nat) (i : BitVec 32) : standing (dropRequests s q i) = standing s :=
  standing_foldl standing_spendTag _ _

@[simp] theorem standing_raiseNow (q : Nat) : standing (raiseNow s q) = standing s := by simp [raiseNow]

@[simp] theorem standing_raiseQueue (q : Nat) : standing (raiseQueue s q) = standing s := by
  unfold raiseQueue
  extract_lets
  split
  · split <;> simp
  · simp

@[simp] theorem standing_dropFetches (q : Nat) (pick : BitVec 32 → Bool) :
    standing (dropFetches s q pick) = standing s := by
  simp [dropFetches]

@[simp] theorem standing_dropWait (q : Nat) : standing (dropWait s q) = standing s := by
  unfold dropWait
  dsimp only
  split <;> simp [sendUnwatch]

@[simp] theorem standing_stopQueue (q : Nat) (i : BitVec 32) : standing (stopQueue s q i) = standing s := by
  unfold stopQueue
  split <;> simp

@[simp] theorem standing_ringSticky (cpu : Nat) (p : Place) : standing (ringSticky s cpu p) = standing s := by
  unfold ringSticky
  split
  · split <;> simp
  · unfold faultSticky
    split <;> simp

@[simp] theorem standing_putRecord (q : Nat) (j : Job) (base : Word) (log2 : Nat) (tail : BitVec 32) :
    standing (putRecord s q j base log2 tail) = standing s := by
  unfold putRecord
  dsimp only
  split
  · simp
  · split
    · simp
    · split <;> simp

@[simp] theorem standing_writeRecord (q : Nat) (j : Job) : standing (writeRecord s q j) = standing s := by
  unfold writeRecord
  split
  · split <;> simp
  · simp

@[simp] theorem standing_refuse (q : Nat) (f : Fetched) (status : Byte) (detail : Nat) :
    standing (refuse s q f status detail) = standing s := by simp [refuse]

@[simp] theorem standing_reachParked (q : Nat) : standing (reachParked s q) = standing s := by simp [reachParked]

@[simp] theorem standing_settleQueue (q : Nat) : standing (settleQueue s q) = standing s := by
  have released := standing_startRelease s (queueDie q) (queueLocal q) (.park q)
  unfold settleQueue
  dsimp only
  split
  · rfl
  · split
    · split <;> simp [released]
    · split
      · split <;> simp [released]
      · rfl
    · rfl

@[simp] theorem standing_tellReplay (j : Job) : standing (tellReplay s j) = standing s := by
  unfold tellReplay
  split <;> simp

@[simp] theorem standing_completeJob (q : Nat) (j : Job) : standing (completeJob s q j) = standing s := by
  unfold completeJob
  extract_lets s1 x s2 t s3 s4
  have h2 : standing s2 = standing s := by simp [s2, s1]
  have h3 : standing s3 = standing s := by
    dsimp only [s3]
    split
    · simp [h2]
    · split <;> simp [t, h2]
  have h4 : standing s4 = standing s := by
    dsimp only [s4]
    split <;> simp [h3]
  simp [h4]

@[simp] theorem standing_completeAll (q : Nat) (status : Byte) (detail : Nat) :
    standing (completeAll s q status detail) = standing s :=
  standing_foldl (fun t _ => standing_completeJob t q _) _ s

@[simp] theorem standing_loseQueues (d : Nat) (retired : Bool) : standing (loseQueues s d retired) = standing s := by
  refine standing_foldl (fun t q => ?_) _ s
  have dropped : ∀ (l : List (BitVec 32)) (v : State),
      standing (l.foldl (fun v i => dropRequests v q i) v) = standing v :=
    standing_foldl (fun v i => standing_dropRequests v q i)
  dsimp only
  split
  · simp [dropped]
  · split <;> simp [dropped]

/-! ### Collectives (11) -/

@[simp] theorem standing_dealColl (k mask : Nat) (p : Packet) : standing (dealColl s k mask p).2 = standing s := by
  unfold dealColl
  split
  · simp
  · rw [standing_leaveOn]
    dsimp only
    split <;> simp [standing]

@[simp] theorem standing_collSend (c : Coll) (p : Packet) : standing (collSend s c p).2 = standing s := by
  unfold collSend
  split <;> simp

@[simp] theorem standing_undefineElems (l : List Word) (r : Nat × Nat) :
    standing (undefineElems s l r) = standing s := by
  simp [undefineElems]

@[simp] theorem standing_tellPort (port n : Nat) : standing (tellPort port n s) = standing s := by
  induction n generalizing s with
  | zero => rfl
  | succ n ih =>
    unfold tellPort
    split <;> simp [ih]

@[simp] theorem standing_returnFrees (p : Packet) : standing (returnFrees p s) = standing s := by
  unfold returnFrees
  split <;> simp

@[simp] theorem standing_releasePacket (p : Packet) : standing (releasePacket s p) = standing s := by
  unfold releasePacket
  split
  · simp [countPort]
  · split <;> simp [countCross]

@[simp] theorem standing_collRelease (c : Coll) : standing (collRelease s c) = standing s := by
  unfold collRelease
  dsimp only
  split <;> simp

@[simp] theorem standing_closeColl (c : Coll) (status : Byte) (detail : Nat) :
    standing (closeColl s c status detail) = standing s := by
  unfold closeColl
  extract_lets e stale s0 s1 s2 s3
  have h0 : standing s0 = standing s :=
    (standing_foldl (fun t r => standing_undefineElems t c.words r) _ _).trans
      (standing_foldl (fun t p => by simp) _ s)
  have h1 : standing s1 = standing s := by simp [s1, h0]
  have h2 : standing s2 = standing s := by
    dsimp only [s2]
    split <;> simp [h1]
  have h3 : standing s3 = standing s := by
    dsimp only [s3]
    split
    · simp [h2]
    · split <;> simp [h2]
  split <;> simp [h3]

@[simp] theorem standing_collDieLost (d : Nat) : standing (collDieLost s d) = standing s := by
  refine standing_foldl (fun t c => ?_) _ s
  exact (standing_closeColl _ c _ _).trans (standing_foldl (fun u n => standing_collSend u c _) _ t)

/-! ### Requests of the dies (08) -/

@[simp] theorem standing_setVeRun (d : Nat) (upd : Bool) (r : VeRun) : standing (setVeRun s d upd r) = standing s := by
  simp [setVeRun]

@[simp] theorem standing_endUpdate (d : Nat) (status : Byte) (detail : Nat) :
    standing (endUpdate s d status detail) = standing s := by
  unfold endUpdate
  split <;> simp [nextUpdate]

@[simp] theorem standing_settleUpdate (d : Nat) : standing (settleUpdate s d) = standing s := by
  unfold settleUpdate
  split
  · rfl
  · split <;> simp

@[simp] theorem standing_failUpdate (d detail : Nat) (lost : Bool) :
    standing (failUpdate s d detail lost) = standing s := by
  unfold failUpdate
  split
  · rfl
  · extract_lets s1 v s2
    have h1 : standing s1 = standing s := by
      dsimp only [s1]
      split <;> simp [freeSlice]
    simp [s2, h1]

@[simp] theorem standing_failVe (d : Nat) (status : Byte) (detail : Nat) :
    standing (failVe s d status detail) = standing s := by
  unfold failVe
  dsimp only
  split <;> simp

@[simp] theorem standing_failJob (q : Nat) (i : BitVec 32) (status : Byte) (detail : Nat) :
    standing (failJob s q i status detail) = standing s := by simp [failJob]

@[simp] theorem standing_sendTear (c : Circuit) (waits : Bool) : standing (sendTear s c waits) = standing s := by
  unfold sendTear
  extract_lets new p s1
  have h1 : standing s1 = standing s := by
    dsimp only [s1]
    split <;> simp [dropLanes]
  split <;> simp [h1]

@[simp] theorem standing_tryClose (id : BitVec 12) : standing (tryClose s id) = standing s := by
  unfold tryClose
  split
  · rfl
  · split <;> simp [modCircuit]

@[simp] theorem standing_afterPut (j : Option Job) : standing (afterPut s j) = standing s := by
  unfold afterPut
  split
  · split <;> simp
  · rfl

@[simp] theorem standing_dropReq (r : D2dReq) : standing (dropReq s r) = standing s := by simp [dropReq]

@[simp] theorem standing_dropTag (d : Nat) (tag : BitVec 16) :
    standing (dropTag s d tag) = standing s := by simp [dropTag]

@[simp] theorem standing_rcDrop (d slot die line : Nat) : standing (rcDrop s d slot die line) = standing s := by
  simp [rcDrop]

@[simp] theorem standing_postedFailed (r : D2dReq) (tag q : Nat) (i : BitVec 32) (status : Byte) :
    standing (postedFailed s r tag q i status) = standing s := by
  unfold postedFailed
  split
  · split
    · split <;> simp
    · rfl
  · extract_lets v t
    have ht : standing t = standing s := by
      dsimp only [t]
      split <;> simp
    simp [ht]

@[simp] theorem standing_writeFailed (r : D2dReq) (status : Byte) : standing (writeFailed s r status) = standing s := by
  unfold writeFailed
  extract_lets s1 s2
  have h1 : standing s1 = standing s := by simp [s1]
  have h2 : standing s2 = standing s := by
    dsimp only [s2]
    split <;> simp [h1]
  split <;> simp [h1, h2]

@[simp] theorem standing_requestFailed (r : D2dReq) (status : Byte) :
    standing (requestFailed s r status) = standing s := by
  unfold requestFailed
  extract_lets detail s0 s1 s2
  have h0 : standing s0 = standing s := by
    dsimp only [s0]
    split <;> simp
  have h1 : standing s1 = standing s := by
    dsimp only [s1]
    split <;> simp [h0]
  have h2 : standing s2 = standing s := by simp [s2, h1]
  split
  · split
    · split
      · split <;> simp [h2]
      · exact h2
    · simp [h2]
  · simp [h1]
  · simp [h1]
  · simp [h1]

@[simp] theorem standing_loseRequests (d : Nat) : standing (loseRequests s d) = standing s :=
  standing_foldl (fun t r => standing_requestFailed t r 0x1B) _ s

/-! ### Waits, bells, lines, links and planes of a lost die (06 R153; 08 R197; 09 R200) -/

@[simp] theorem standing_loseHeadWait (d q : Nat) : standing (loseHeadWait s d q) = standing s := by
  unfold loseHeadWait
  dsimp only
  split
  · split <;> simp
  · rfl

@[simp] theorem standing_loseReplayWait (d q : Nat) : standing (loseReplayWait s d q) = standing s := by
  unfold loseReplayWait
  split
  · rfl
  · split
    · split
      · split <;> simp
      · rfl
    · rfl

@[simp] theorem standing_loseWaits (d : Nat) : standing (loseWaits s d) = standing s :=
  standing_foldl (fun t q => by simp) _ s

@[simp] theorem standing_loseBells (d : Nat) : standing (loseBells s d) = standing s := by
  simp only [standing, loseBells]

@[simp] theorem standing_loseLines (d : Nat) : standing (loseLines s d) = standing s := by
  refine standing_foldl (fun t h => ?_) _ s
  dsimp only
  split
  · rfl
  · split <;> simp

@[simp] theorem standing_losePlane (d : Nat) : standing (losePlane s d) = standing s := by
  refine (standing_foldl (fun t k => ?_) _ _).trans (standing_foldl (fun t k => by simp [portDown]) _ s)
  dsimp only
  split <;> simp

@[simp] theorem standing_reroute (a b : Nat) : standing (reroute s a b) = standing s :=
  standing_foldl (fun t m => standing_sendHop t a m) _ _

@[simp] theorem standing_saveLanes (a b : Nat) : standing (saveLanes s a b) = standing s := by simp [saveLanes]

@[simp] theorem standing_relayAgain (a b : Nat) : standing (relayAgain s a b) = standing s := by
  unfold relayAgain
  extract_lets
  split <;> simp [chooseRelay]

@[simp] theorem standing_relaysAgain : standing (relaysAgain s) = standing s :=
  standing_foldl (fun t _ => standing_relayAgain t _ _) _ s

@[simp] theorem standing_downPairs (d : Nat) : standing (downPairs s d) = standing s := by
  unfold downPairs
  extract_lets again t held keep
  have ht : standing t = standing s := standing_foldl (fun t b => by simp) _ s
  refine (standing_foldl (fun u m => standing_sendHop u _ m) _ _).trans ?_
  simp [ht]

@[simp] theorem standing_clearDie (d : Nat) : standing (clearDie s d) = standing s := by
  simp only [standing, clearDie]

/-- A lost die leaves the package as it stands (01 R27). -/
theorem standing_dieGone (d : Nat) (retired : Bool) : standing (dieGone s d retired) = standing s := by
  simp only [dieGone, standing_losePlane, standing_downPairs, standing_loseWaits, standing_loseBells, standing_loseLines,
    standing_loseRequests, standing_clearDie, standing_collDieLost, standing_loseQueues]
  simp only [standing]

end Sys2Proof.Machine
end

section
/-! The vertical layer in service (01 R14 to R29): what each of its operations does, and O54. -/

namespace Sys2Proof.Machine

/-! ### Single bits of a mask -/

theorem getLsbD_twoPow_self {w i : Nat} (h : i < w) : (BitVec.ofNat w (2 ^ i)).getLsbD i = true := by
  rw [BitVec.getLsbD_ofNat, Nat.testBit_two_pow_self, decide_eq_true h, Bool.and_self]

theorem getLsbD_clear_self {w i : Nat} (x : BitVec w) (h : i < w) :
    (x &&& ~~~(BitVec.ofNat w (2 ^ i))).getLsbD i = false := by
  rw [BitVec.getLsbD_and, BitVec.getLsbD_not, getLsbD_twoPow_self h, Bool.not_true, Bool.and_false, Bool.and_false]

/-! ### Retirement of a stack (01 R27) -/

@[simp] theorem standing_dropRecord (s : State) (d : Nat) : standing (dropRecord s d) = standing s := by
  unfold dropRecord
  dsimp only
  split <;> simp [memRecordWrite, standing]

@[simp] theorem standing_zeroTier (s : State) (d : Nat) : standing (zeroTier s d) = standing s := rfl

/-- A stack in service that is retired leaves the mask, its die goes into reset, and its three domains go off. -/
theorem retireStack_service {s : State} {n : Nat} (h : s.stackMask.getLsbD n = true) :
    (retireStack s n).stackMask = s.stackMask &&& ~~~(BitVec.ofNat 8 (2 ^ n))
      ∧ (retireStack s n).dieReset = s.dieReset ||| BitVec.ofNat 8 (2 ^ n)
      ∧ (retireStack s n).stage.domains = s.stage.domains &&& ~~~(BitVec.ofNat 30 (2 ^ n))
          &&& ~~~(BitVec.ofNat 30 (2 ^ (8 + n))) &&& ~~~(BitVec.ofNat 30 (2 ^ (16 + n))) := by
  unfold retireStack
  rw [if_neg (by simp [h])]
  extract_lets bit s1 s2 s3 init s4 dark s5 own on
  -- Each stage is forgotten once it is known how the package stands after it.
  have h1 : standing s1 = standing { s with stackMask := s.stackMask &&& ~~~bit, dieReset := s.dieReset ||| bit } :=
    standing_sticky _ _ _ _
  clear_value s1
  have h2 : standing s2 = standing s1 := standing_dieGone s1 n true
  clear_value s2
  have h3 : standing s3 = standing s2 := standing_zeroTier s2 n
  clear_value s3
  have h4 : standing s4 = standing (s3.setHbm n { init with retired := (s3.hbm n).retired, list := (s3.hbm n).list }) :=
    standing_dropRecord _ n
  clear_value s4
  have h5 : standing s5 = standing s4 := standing_foldl (fun t b => by simp) _ s4
  clear_value s5
  have before : standing s3 = standing { s with stackMask := s.stackMask &&& ~~~bit, dieReset := s.dieReset ||| bit } :=
    h3.trans (h2.trans h1)
  have after := h5.trans h4
  have stage : s5.stage = s.stage := (congrArg Standing.stage after).trans (congrArg Standing.stage before)
  refine ⟨(congrArg Standing.stackMask after).trans (congrArg Standing.stackMask before),
    (congrArg Standing.dieReset after).trans (congrArg Standing.dieReset before), ?_⟩
  rw [← stage]
  rfl

theorem retireStack_off {s : State} {n : Nat} (hn : n < 8) (h : s.stackMask.getLsbD n = true) :
    domainOn (retireStack s n) n = false ∧ domainOn (retireStack s n) (8 + n) = false
      ∧ domainOn (retireStack s n) (16 + n) = false := by
  obtain ⟨-, -, domains⟩ := retireStack_service h
  simp only [domainOn, domains]
  refine ⟨?_, ?_, getLsbD_clear_self _ (by omega)⟩
  · rw [BitVec.getLsbD_and, BitVec.getLsbD_and, getLsbD_clear_self _ (by omega)]
    simp
  · rw [BitVec.getLsbD_and, getLsbD_clear_self _ (by omega)]
    simp

/-! ### The module dead -/

theorem moduleDead_fails (s : State) :
    hubOn (moduleDead s) = false ∧ (moduleDead s).stage.moduleFailed = true ∧ (moduleDead s).boot.rom = 5 := by
  simp [moduleDead, hubOn]

/-! ### Tier ports and quadrants (01 R18, R20) -/

/-- `t` keeps of `s` what is stored and the queues. -/
def StoresKept (s t : State) : Prop := t.flash = s.flash ∧ t.mem = s.mem ∧ t.queues = s.queues

theorem StoresKept.trans {s t u : State} (h : StoresKept s t) (k : StoresKept t u) : StoresKept s u := by
  obtain ⟨flash, mem, queues⟩ := h
  obtain ⟨flash2, mem2, queues2⟩ := k
  exact ⟨flash2.trans flash, mem2.trans mem, queues2.trans queues⟩

theorem raiseVector_stores (s : State) (v : Nat) : StoresKept s (raiseVector s v) := by
  unfold raiseVector
  split <;> exact ⟨rfl, rfl, rfl⟩

theorem journal_stores (s : State) (idx sub bit : Nat) : StoresKept s (journal s idx sub bit) := by
  unfold journal
  extract_lets m fresh used
  split <;> exact ⟨rfl, rfl, rfl⟩

theorem sticky_stores (s : State) (idx sub bit : Nat) : StoresKept s (sticky s idx sub bit) := by
  unfold sticky
  split
  · exact ⟨rfl, rfl, rfl⟩
  · have noted := journal_stores (dputBit s idx sub bit true) idx sub bit
    exact noted.trans (raiseVector_stores _ _)

theorem sticky_tier (s : State) (idx sub bit d : Nat) : (sticky s idx sub bit).tier d = s.tier d :=
  congrArg (mget Tier.init · d) (congrArg Standing.tiers (standing_sticky s idx sub bit))

theorem sticky_swaps (s : State) (idx sub bit : Nat) : (sticky s idx sub bit).swaps = s.swaps :=
  congrArg Standing.swaps (standing_sticky s idx sub bit)

/-- A tier with a port out of service differs from a tier at its start, so it is listed where it is put. -/
theorem tier_setTier_portOut (s : State) (d : Nat) {p : Nat} {x : Tier} (hp : p < 8) (hx : x.ports.getLsbD p = false) :
    (s.setTier d x).tier d = x := by
  refine mget_mput_new s.tiers d (fun e => ?_)
  have allIn : ∀ p < 8, Tier.init.ports.getLsbD p = true := by decide
  rw [e, allIn p hp] at hx
  cases hx

/-- The tier with a port out of service. -/
def portOut (t : Tier) (p : Nat) : Tier := { t with ports := t.ports &&& ~~~(BitVec.ofNat 8 (2 ^ p)) }

/-- The tier with a quadrant out. -/
def quadOut (t : Tier) (q : Nat) : Tier := { t with out := t.out ||| BitVec.ofNat 4 (2 ^ q) }

/-- The swaps left when those of a tier port have ended. -/
def swapsBut (s : State) (d p : Nat) : List BumpGroup := s.swaps.filter (fun g => groupPort g != some (d, p))

theorem quadrantOut_stays {s : State} {d q : Nat}
    (h : (s.tier d).out.getLsbD q = true ∨ (s.tier d).quads.contains q = false) : quadrantOut s d q = s := by
  unfold quadrantOut
  exact if_pos (by rcases h with h | h <;> simp only [h, Bool.not_false, Bool.true_or, Bool.or_true])

theorem quadrantOut_goes {s : State} {d q : Nat} (hout : (s.tier d).out.getLsbD q = false)
    (hmap : (s.tier d).quads.contains q = true) :
    quadrantOut s d q = sticky (s.setTier d (quadOut (s.tier d) q)) 0xA010 3 (4 * d + q) := by
  unfold quadrantOut
  exact if_neg (by simp only [hout, hmap, Bool.not_true, Bool.or_false, Bool.false_eq_true, not_false_eq_true])

theorem tierPortRetired_eq {s : State} {d p : Nat} (h : (s.tier d).ports.getLsbD p = true) :
    tierPortRetired s d p =
      let s1 := sticky ({ s with swaps := swapsBut s d p }.setTier d (portOut (s.tier d) p)) 0xA010 2 (8 * d + p)
      if (s.tier d).ports.getLsbD (p / 2 * 2 + 1 - p % 2) then s1 else quadrantOut s1 d (p / 2) := by
  unfold tierPortRetired
  exact if_neg (by simp only [h, Bool.not_true, Bool.false_eq_true, not_false_eq_true])

/-- The loss of a quadrant keeps what is stored, the swaps and the tier's ports, and a quadrant of the map is out after
it. -/
theorem quadrantOut_spec (s : State) {d p q : Nat} (hp : p < 8) (hq : q < 4) (h : (s.tier d).ports.getLsbD p = false) :
    StoresKept s (quadrantOut s d q) ∧ (quadrantOut s d q).swaps = s.swaps
      ∧ ((quadrantOut s d q).tier d).ports.getLsbD p = false
      ∧ ((s.tier d).quads.contains q = true → ((quadrantOut s d q).tier d).out.getLsbD q = true) := by
  cases hout : (s.tier d).out.getLsbD q with
  | true =>
    rw [quadrantOut_stays (.inl hout)]
    exact ⟨⟨rfl, rfl, rfl⟩, rfl, h, fun _ => hout⟩
  | false =>
    cases hmap : (s.tier d).quads.contains q with
    | false =>
      rw [quadrantOut_stays (.inr hmap)]
      exact ⟨⟨rfl, rfl, rfl⟩, rfl, h, fun e => nomatch e⟩
    | true =>
      have tier : (s.setTier d (quadOut (s.tier d) q)).tier d = quadOut (s.tier d) q := tier_setTier_portOut s d hp h
      rw [quadrantOut_goes hout hmap, sticky_tier, tier, sticky_swaps]
      refine ⟨sticky_stores _ _ _ _, rfl, h, fun _ => ?_⟩
      rw [quadOut, BitVec.getLsbD_or, getLsbD_twoPow_self hq, Bool.or_true]

/-- A port in service is retired: its swaps end, what is stored stays, and with its partner out a quadrant of the map is
out. -/
theorem tierPortRetired_spec (s : State) {d p : Nat} (hp : p < 8) (h : (s.tier d).ports.getLsbD p = true) :
    StoresKept s (tierPortRetired s d p) ∧ (tierPortRetired s d p).swaps = swapsBut s d p
      ∧ ((tierPortRetired s d p).tier d).ports.getLsbD p = false
      ∧ ((s.tier d).ports.getLsbD (p / 2 * 2 + 1 - p % 2) = false → (s.tier d).quads.contains (p / 2) = true →
        ((tierPortRetired s d p).tier d).out.getLsbD (p / 2) = true) := by
  have cleared : (portOut (s.tier d) p).ports.getLsbD p = false := getLsbD_clear_self _ hp
  rw [tierPortRetired_eq h]
  extract_lets s1
  have tier : s1.tier d = portOut (s.tier d) p := (sticky_tier _ _ _ _ _).trans (tier_setTier_portOut _ d hp cleared)
  have stores : StoresKept s s1 := sticky_stores _ _ _ _
  have swaps : s1.swaps = swapsBut s d p := sticky_swaps _ _ _ _
  have port : (s1.tier d).ports.getLsbD p = false := by rw [tier]; exact cleared
  cases partner : (s.tier d).ports.getLsbD (p / 2 * 2 + 1 - p % 2) with
  | true => exact ⟨stores, swaps, port, fun e => nomatch e⟩
  | false =>
    obtain ⟨stores2, swaps2, port2, out⟩ := quadrantOut_spec s1 (q := p / 2) hp (by omega) port
    refine ⟨stores.trans stores2, swaps2.trans swaps, port2, fun _ inMap => out ?_⟩
    rw [tier]
    exact inMap

/-! ### Groups that are exhausted (01 R16, R19, Table 1.2) -/

/-- The repair map with an exhausted group entered, and its swap ended. -/
def entered (s : State) (g : BumpGroup) : State :=
  { s with flash := { s.flash with bumpDead := s.flash.bumpDead ++ [g] }, swaps := s.swaps.filter (· != g) }

variable {s : State} {g : BumpGroup}

theorem exhausted_again (h : s.flash.bumpDead.contains g = true) : exhausted s g = s := by
  unfold exhausted
  rw [if_pos h]

theorem exhausted_port {d p : Nat} (h : s.flash.bumpDead.contains g = false) (hg : groupPort g = some (d, p)) :
    exhausted s g = tierPortRetired (entered s g) d p := by
  unfold exhausted
  rw [if_neg (Bool.eq_false_iff.mp h)]
  cases g <;> cases hg <;> rfl

theorem exhausted_pc {d pc : Nat} (h : s.flash.bumpDead.contains g = false) (hg : groupPc g = some (d, pc)) :
    exhausted s g = triggerRetire (entered s g) d pc := by
  unfold exhausted
  rw [if_neg (Bool.eq_false_iff.mp h)]
  cases g <;> cases hg <;> rfl

theorem exhausted_hubCtl {k : Fin 4} {twin : Bool} (h : s.flash.bumpDead.contains (.hubCtl k twin) = false) :
    exhausted s (.hubCtl k twin) =
      if s.flash.bumpDead.contains (.hubCtl k (!twin)) then moduleDead (entered s (.hubCtl k twin))
      else entered s (.hubCtl k twin) := by
  have other : (s.flash.bumpDead ++ [BumpGroup.hubCtl k twin]).contains (.hubCtl k (!twin))
      = s.flash.bumpDead.contains (.hubCtl k (!twin)) := by
    cases twin <;> simp
  unfold exhausted
  rw [if_neg (Bool.eq_false_iff.mp h)]
  dsimp only
  rw [other]
  rfl

/-! ### A failed bump, the end of a swap (01 R16 to R19, Table 1.3) -/

theorem bumpFailed_spare (hub : hubOn s = true) (live : groupLive s g = true)
    (h : (s.flash.bumpSpared.contains g || spareless g) = false) :
    bumpFailed g s = sticky
      { s with flash := { s.flash with bumpSpared := s.flash.bumpSpared ++ [g] }, swaps := s.swaps ++ [g] }
      0xA010 1 (groupDie g) := by
  unfold bumpFailed
  rw [if_neg (by simp [hub, live]), if_neg (Bool.eq_false_iff.mp h)]

theorem bumpFailed_used (hub : hubOn s = true) (live : groupLive s g = true)
    (h : (s.flash.bumpSpared.contains g || spareless g) = true) : bumpFailed g s = exhausted s g := by
  unfold bumpFailed
  rw [if_neg (by simp [hub, live]), if_pos h]

theorem spareSwapEnd_behind (h : (swapsAhead g s.swaps).any (sameQuad g) = true) (pass : Bool) :
    spareSwapEnd g pass s = s := by
  unfold spareSwapEnd
  rw [if_pos (by simp only [h, Bool.or_true])]

theorem spareSwapEnd_first (hub : hubOn s = true) (swap : s.swaps.contains g = true)
    (h : (swapsAhead g s.swaps).any (sameQuad g) = false) (pass : Bool) :
    spareSwapEnd g pass s = if pass then { s with swaps := s.swaps.erase g } else exhausted s g := by
  unfold spareSwapEnd
  rw [if_neg (by simp only [hub, swap, h, Bool.not_true, Bool.or_false, Bool.false_eq_true, not_false_eq_true])]

/-! ### Clock vias (01 R26) -/

theorem clockViaLoss_cd {d : Die} (hub : hubOn s = true) (live : s.stackMask.getLsbD d.val = true) (twin : Bool) :
    clockViaLoss (.cd d) twin s =
      if twin || dcell s 0x3014 (d.val + 1) != 0 then retireStack (dset s 0x3014 (d.val + 1) 2) d.val
      else sticky (dset s 0x3014 (d.val + 1) 1) 0xA010 5 d.val := by
  unfold clockViaLoss
  rw [if_neg (by simp [hub])]
  exact if_neg (by simp [live])

theorem clockViaLoss_tier {d : Die} (hub : hubOn s = true) (live : s.stackMask.getLsbD d.val = true) (twin : Bool) :
    clockViaLoss (.tier d) twin s =
      if twin || (s.tier d.val).clkTwin then retireStack s d.val
      else sticky (s.setTier d.val { s.tier d.val with clkTwin := true }) 0xA010 5 d.val := by
  unfold clockViaLoss
  rw [if_neg (by simp [hub])]
  exact if_neg (by simp [live])

theorem clockViaLoss_hub (hub : hubOn s = true) (twin : Bool) :
    clockViaLoss .hub twin s =
      if twin || dcell s 0x3014 9 != 0 then moduleDead (sticky (dset s 0x3014 9 2) 0xA010 7 0)
      else sticky (dset s 0x3014 9 1) 0xA010 5 8 := by
  unfold clockViaLoss
  rw [if_neg (by simp [hub])]

/-- An exhausted group of a tier port in service (01 R18, R20). -/
theorem exhausted_tierPort {s : State} {g : BumpGroup} {d p : Nat} (dead : s.flash.bumpDead.contains g = false)
    (hg : groupPort g = some (d, p)) (hp : p < 8) (inUse : (s.tier d).ports.getLsbD p = true) :
    ((exhausted s g).tier d).ports.getLsbD p = false
      ∧ (exhausted s g).flash = { s.flash with bumpDead := s.flash.bumpDead ++ [g] }
      ∧ (exhausted s g).mem = s.mem ∧ (exhausted s g).queues = s.queues
      ∧ (∀ h, groupPort h = some (d, p) → (exhausted s g).swaps.contains h = false)
      ∧ ((s.tier d).ports.getLsbD (p / 2 * 2 + 1 - p % 2) = false → (s.tier d).quads.contains (p / 2) = true →
        ((exhausted s g).tier d).out.getLsbD (p / 2) = true) := by
  rw [exhausted_port dead hg]
  obtain ⟨⟨flash, mem, queues⟩, swaps, port, out⟩ := tierPortRetired_spec (entered s g) hp inUse
  refine ⟨port, flash, mem, queues, fun h hh => ?_, out⟩
  rw [swaps]
  simp [swapsBut, hh]

/-- Settles O54: each command's answer by the lemma of its case, and a retired stack by `retireStack_service`. -/
theorem bumpsAndClocksRepaired : Obligations.BumpsAndClocksRepaired := by
  unfold Obligations.BumpsAndClocksRepaired
  refine ⟨fun s g hub live => ?_, fun s g hub swap => ?_, fun s d hub => ?_, fun s n hn live => ?_⟩
  · intro used
    have spent : used = true → exec (.bumpFailed g) s = .next (exhausted s g) := fun h =>
      congrArg Host.Outcome.next (bumpFailed_used hub live h)
    refine ⟨fun h => congrArg Host.Outcome.next (bumpFailed_spare hub live h), fun h dead => ?_,
      fun h dead => ⟨?_, ?_, ?_, ?_⟩⟩
    · rw [spent h, exhausted_again dead]
    · intro d p hg _ hp inUse
      exact ⟨_, spent h, exhausted_tierPort dead hg hp inUse⟩
    · intro d pc hg
      rw [spent h, exhausted_pc dead hg]
      rfl
    · rintro k twin rfl twinDead
      obtain ⟨off, failed, -⟩ := moduleDead_fails (entered s (.hubCtl k twin))
      exact ⟨_, by rw [spent h, exhausted_hubCtl dead, if_pos twinDead], off, failed⟩
    · rintro k twin rfl twinLives
      rw [spent h, exhausted_hubCtl dead, if_neg (Bool.eq_false_iff.mp twinLives)]
      rfl
  · refine ⟨fun behind pass => congrArg Host.Outcome.next (spareSwapEnd_behind behind pass),
      fun first => ⟨?_, fun live spared => ?_⟩⟩
    · exact congrArg Host.Outcome.next (spareSwapEnd_first hub swap first true)
    · have used : (s.flash.bumpSpared.contains g || spareless g) = true := by rw [spared, Bool.true_or]
      exact congrArg Host.Outcome.next
        ((spareSwapEnd_first hub swap first false).trans (bumpFailed_used hub live used).symm)
  · refine ⟨fun live => ⟨fun first => ?_, fun again twin => ?_, fun first => ?_, fun again twin => ?_⟩, fun first => ?_,
      fun twin gone => ?_⟩
    · exact congrArg Host.Outcome.next ((clockViaLoss_cd hub live false).trans (if_neg (by simp [first])))
    · exact congrArg Host.Outcome.next ((clockViaLoss_cd hub live twin).trans (if_pos (by simp [again])))
    · exact congrArg Host.Outcome.next ((clockViaLoss_tier hub live false).trans (if_neg (by simp [first])))
    · exact congrArg Host.Outcome.next ((clockViaLoss_tier hub live twin).trans (if_pos (by simp [again])))
    · exact congrArg Host.Outcome.next ((clockViaLoss_hub hub false).trans (if_neg (by simp [first])))
    · exact ⟨_, congrArg Host.Outcome.next
        ((clockViaLoss_hub hub twin).trans (if_pos (by rcases gone with h | h <;> simp [h]))), moduleDead_fails _⟩
  · intro t
    obtain ⟨mask, reset, -⟩ := retireStack_service live
    have inReset : t.dieReset.getLsbD n = true := by
      rw [reset, BitVec.getLsbD_or, getLsbD_twoPow_self hn, Bool.or_true]
    exact ⟨mask, by simp [dieUp, inReset], inReset, retireStack_off hn live⟩

end Sys2Proof.Machine
end

section
/-! The tensor arrays in service (02 R30 to R56): a tile's chunks and its emit, the known-answer test, and O17 and O18. -/

namespace Sys2Proof.Machine

/-! ### A tile's chunks (02 R44, R47; 06 R132 to R134) -/

/-- The tile of an issued descriptor is the next that its array presents: its word is legal, an array is usable, nothing
holds it back, and its operands are mapped in the die's tier. -/
structure TileNext (s : State) (q : Nat) (i : BitVec 32) (j : Job) (a c : Nat) (t : TileCtx) : Prop where
  legal  : tileRefused j.words = false
  usable : usableArrays s (queueDie q) j.words ≠ 0
  unheld : (s.ve (queueDie q)).hold = none
  stored : kernelBefore s q i j.words = false
  array  : j.array = some a
  tile   : tileOf s q i a = some (c, t)
  noTest : (s.arr a).kat = false
  first  : ∀ e ∈ openTiles (s.arr a), e.2.done = false → t.seq ≤ e.2.seq
  mapped : ∀ r ∈ tileReads j.words, tierFault s (queueDie q) r.1 r.2 = none

/-- The state with a tile's operands read, its context full, and its descriptor waiting for the emit. -/
def tileFilled (s : State) (q a c : Nat) (i : BitVec 32) (l : List Word) (t : TileCtx) : State :=
  let seen := (tileReads l).foldl (fun u r => carryRead u (addrKey r.1) r.2) s
  (seen.setArr a { seen.arr a with tiles := mput none (seen.arr a).tiles c (some (fillTile s l t)) }).modJob q i
    (fun k => { k with phase := .working })

/-- With no buffer word in error, a tile of rows fills its context and waits. -/
theorem presentTile_plain {t : TileCtx} (plain : twDiag t.word = false) (s : State) (q a c : Nat) (i : BitVec 32)
    (l : List Word) : presentTile s q a c i l t [] = settleRows (tileFilled s q a c i l t) a :=
  if_neg (Bool.eq_false_iff.mp plain)

/-- With no buffer word in error, a diagonal tile is emitted as soon as it is full (02 R51). -/
theorem presentTile_diag {t : TileCtx} (diag : twDiag t.word = true) (s : State) (q a c : Nat) (i : BitVec 32)
    (l : List Word) : presentTile s q a c i l t [] = emitTile (tileFilled s q a c i l t) a c :=
  if_pos diag

/-- A tile that comes first on its array finds neither a test nor an earlier tile before it. -/
theorem TileNext.unblocked {s : State} {q : Nat} {i : BitVec 32} {j : Job} {a c : Nat} {t : TileCtx}
    (h : TileNext s q i j a c t) :
    ((s.arr a).kat || (openTiles (s.arr a)).any (fun e => !e.2.done && decide (e.2.seq < t.seq))) = false := by
  have none_earlier : (openTiles (s.arr a)).any (fun e => !e.2.done && decide (e.2.seq < t.seq)) = false := by
    rw [List.any_eq_false]
    intro e he earlier
    simp only [Bool.and_eq_true, Bool.not_eq_true', decide_eq_true_eq] at earlier
    obtain ⟨undone, before⟩ := earlier
    exact absurd (h.first e he undone) (by omega)
  rw [h.noTest, none_earlier, Bool.or_false]

section
variable {s : State} {q : Nat} {i : BitVec 32} {j : Job} {diag : Bool}

/-- A word that breaks a rule of the tile is refused (02 R30). -/
theorem runTile_refused (hj : s.job q i = some j) (matrix : descType j.words = 1) (ready : j.phase = .ready)
    (mode : twDiag (dword j.words 5) = diag) (refused : tileRefused j.words = true) (bufs : List BufErr) :
    runTile s q i diag bufs = refuseTile s q i := by
  unfold runTile
  simp [hj, matrix, ready, mode, refused]

/-- The next tile of an array is presented. -/
theorem runTile_next {a c : Nat} {t : TileCtx} (hj : s.job q i = some j) (matrix : descType j.words = 1)
    (ready : j.phase = .ready) (mode : twDiag (dword j.words 5) = diag) (h : TileNext s q i j a c t)
    (bufs : List BufErr) : runTile s q i diag bufs = presentTile s q a c i j.words t bufs := by
  have mapped : (tileReads j.words).findSome? (fun r => tierFault s (queueDie q) r.1 r.2) = none :=
    List.findSome?_eq_none_iff.mpr h.mapped
  unfold runTile
  simp [hj, matrix, ready, mode, h.legal, h.usable, h.unheld, h.stored, h.array, h.tile, h.unblocked, mapped]

end

/-! ### The emit of a tile (02 R46 to R48) -/

/-- A finished tile, no slice and with no digest, whose rows all land closes its context and ends its descriptor. -/
theorem emitTile_landed {s u : State} {a c : Nat} {t : TileCtx} {j : Job}
    (tile : mget none (s.arr a).tiles c = some t) (job : s.job t.queue t.idx = some j) (done : t.done = true)
    (noSlice : isSlice j.words = false) (noDigest : twDigest t.word = false)
    (landed : emitRows s (a / 8) j.words t (twRows t.word) 0 = (none, u)) :
    emitTile s a c = finishOk ((closeTile u a c).modJob t.queue t.idx (fun k =>
      { k with fp := emitFlags t (rowsOut s (a / 8) j.words t), poisoned := !t.poison.isEmpty })) t.queue t.idx := by
  unfold emitTile
  simp [tile, job, done, noSlice, noDigest, landed]

/-- Settles O17: the chunks by `runTile_next` and `runTile_refused`, the emit by `emitTile_landed`. -/
theorem tileComputedAndEmitted : Obligations.TileComputedAndEmitted := by
  unfold Obligations.TileComputedAndEmitted
  refine ⟨fun q i s j a c t => ?_, fun a c s u t j up tile job done noSlice noDigest landed => ?_⟩
  · intro d seen filled hj matrix ready
    refine ⟨fun legal usable unheld stored array tile word noTest first mapped => ?_,
      fun refused => ⟨fun plain => ?_, fun diag => ?_⟩⟩
    · have next : TileNext s q.val i j a c t := ⟨legal, usable, unheld, stored, array, tile, noTest, first, mapped⟩
      refine ⟨fun plain => congrArg Host.Outcome.next ?_, fun diag => congrArg Host.Outcome.next ?_⟩
      · exact (runTile_next hj matrix ready plain next []).trans (presentTile_plain (word ▸ plain) s q.val a c i j.words)
      · exact (runTile_next hj matrix ready diag next []).trans (presentTile_diag (word ▸ diag) s q.val a c i j.words)
    · exact congrArg Host.Outcome.next (runTile_refused hj matrix ready plain refused [])
    · exact congrArg Host.Outcome.next (runTile_refused hj matrix ready diag refused [])
  · exact congrArg Host.Outcome.next
      ((if_pos up).trans (emitTile_landed tile job done noSlice noDigest landed))

/-! ### The known-answer test (02 R53, R54, R56) -/

/-- The ticks since an array's last known-answer test. -/
def katAge (s : State) (k : Nat) : Nat := (clock s - (s.arr k).katTurn).toNat

/-- The ticks within which each array is tested once. -/
def katInterval (s : State) : Nat := dnum s 0x2020 1 * 2 ^ 20

/-- An array's turn has come: its interval has passed, and every other array in service was tested later, an even share of
the interval ago or longer. -/
def KatTurn (s : State) (a : Nat) : Prop :=
  katInterval s ≤ katAge s a
    ∧ ∀ k ∈ onesBelow 64 (inService s), k ≠ a →
      (katAge s k < katAge s a ∨ (katAge s k = katAge s a ∧ a < k))
        ∧ katInterval s / (onesBelow 64 (inService s)).length ≤ katAge s k

theorem katDue_iff (s : State) (a : Nat) : katDue s a = true ↔ KatTurn s a := by
  unfold katDue KatTurn
  simp only [Bool.and_eq_true, decide_eq_true_eq, List.all_eq_true, Bool.or_eq_true, beq_iff_eq, or_iff_not_imp_left,
    katAge, katInterval, ne_eq]

theorem sticky_tempo (s : State) (idx sub bit : Nat) : (sticky s idx sub bit).tempo = s.tempo :=
  congrArg Standing.tempo (standing_sticky s idx sub bit)

theorem sticky_beat (s : State) (idx sub bit : Nat) : beat (sticky s idx sub bit) = beat s := by
  unfold beat
  rw [sticky_tempo]

/-- The array taken from its owner for its test. -/
def katTaken (s : State) (a : Nat) : State :=
  s.setArr a { s.arr a with kat := true, owner := none, closing := false, katTurn := clock s }

/-- The array out of its test. -/
def katEnded (s : State) (a : Nat) : State := s.setArr a { s.arr a with kat := false }

section
variable {s : State} {a : ArrId}

theorem execArrayKatStart_boundary (up : loaded s = true) (live : (inService s).testBit a.val = true)
    (die : dieUp s (a.val / 8) = true) (noTest : (s.arr a.val).kat = false) (boundary : atBoundary s a.val = true) :
    execArrayKatStart a s = .next (if katDue s a.val then katTaken s a.val else s) := by
  unfold execArrayKatStart
  simp only [up, live, die, noTest, boundary, Bool.not_false, Bool.and_true, Bool.true_and]
  rfl

theorem arrayKatDone_pass (test : (s.arr a.val).kat = true) (again : Bool) :
    arrayKatDone a true again s = katPassed (katEnded s a.val) a.val := by
  unfold arrayKatDone
  simp [test, katEnded]

theorem arrayKatDone_mismatch (test : (s.arr a.val).kat = true) :
    arrayKatDone a false false s = retireArray (katEnded s a.val) a.val := by
  unfold arrayKatDone
  simp [test, katEnded]

/-- A mismatch whose repeat passes, with none before it, is marked and noted. -/
theorem arrayKatDone_repeatPass (test : (s.arr a.val).kat = true) (clean : (s.arr a.val).lastBad = []) :
    arrayKatDone a false true s =
      let t := sticky (katEnded s a.val) 0xA020 2 a.val
      katPassed (t.setArr a.val { t.arr a.val with lastBad := [clock s] }) a.val := by
  unfold arrayKatDone
  simp [test, clean, katEnded]

end

/-- Settles O18: the start by `katDue_iff`, the end by the lemma of its answer. -/
theorem arraySelfTest : Obligations.ArraySelfTest := by
  unfold Obligations.ArraySelfTest
  intro a s x ticks live age due
  refine ⟨fun up inUse die noTest boundary => ?_, fun test => ⟨fun again => ?_, ?_, fun clean => ?_⟩⟩
  · have start := execArrayKatStart_boundary up inUse die noTest boundary
    have turn : katDue s a.val = true ↔ due := katDue_iff s a.val
    exact ⟨fun h => start.trans (congrArg Host.Outcome.next (if_pos (turn.mpr h))),
      fun h => start.trans (congrArg Host.Outcome.next (if_neg (mt turn.mp h)))⟩
  · exact congrArg Host.Outcome.next (arrayKatDone_pass test again)
  · exact congrArg Host.Outcome.next (arrayKatDone_mismatch test)
  · refine congrArg Host.Outcome.next ((arrayKatDone_repeatPass test clean).trans ?_)
    have sameBeat : beat (sticky (katEnded s a.val) 0xA020 2 a.val) = beat s := sticky_beat _ _ _ _
    exact congrArg (fun b : Word => dset _ 0x3020 (a.val + 1) b.toNat) sameBeat

end Sys2Proof.Machine
end

section
/-! Bytes and numbers (03 R62; 15 R330): what the bytes of a number, the bits of a map and the fields of a header give back. -/

namespace Sys2Proof.Machine

/-! ### Bytes of a number -/

@[simp] theorem natLe_length (n v : Nat) : (natLe n v).length = n := by
  induction n generalizing v with
  | zero => rfl
  | succ n ih => simp [natLe, ih]

theorem leNat_natLe (n v : Nat) : leNat (natLe n v) = v % 256 ^ n := by
  induction n generalizing v with
  | zero => simp [natLe, leNat, Nat.mod_one]
  | succ n ih =>
    have split : v % 256 ^ (n + 1) = v % 256 + 256 * (v / 256 % 256 ^ n) := by rw [Nat.pow_succ', Nat.mod_mul]
    simp [natLe, leNat, ih, split]

theorem leNat_natLe_of_lt {n v : Nat} (h : v < 256 ^ n) : leNat (natLe n v) = v := by
  rw [leNat_natLe, Nat.mod_eq_of_lt h]

theorem natLe_drop (k n v : Nat) : (natLe n v).drop k = natLe (n - k) (v / 256 ^ k) := by
  induction k generalizing n v with
  | zero => simp
  | succ k ih =>
    cases n with
    | zero => simp [natLe]
    | succ n => simp [natLe, ih, Nat.pow_succ', Nat.div_div_eq_div_mul]

theorem natLe_take {k n : Nat} (v : Nat) (h : k ≤ n) : (natLe n v).take k = natLe k v := by
  induction k generalizing n v with
  | zero => rfl
  | succ k ih =>
    obtain ⟨n, rfl⟩ : ∃ m, n = m + 1 := ⟨n - 1, by omega⟩
    simp [natLe, ih _ (Nat.le_of_succ_le_succ h)]

theorem slice_natLe {at_ k n : Nat} (v : Nat) (h : at_ + k ≤ n) : slice (natLe n v) at_ k = natLe k (v / 256 ^ at_) := by
  rw [slice, natLe_drop, natLe_take _ (by omega)]

theorem byteAt_natLe {i n : Nat} (v : Nat) (h : i < n) : byteAt (natLe n v) i = BitVec.ofNat 8 (v / 256 ^ i) := by
  have one := slice_natLe v (show i + 1 ≤ n from h)
  rw [slice, List.take_one_drop_eq_of_lt_length (by simpa using h)] at one
  rw [byteAt, List.getD_eq_getElem _ _ (by simpa using h)]
  exact (List.cons.inj one).1

theorem byteAt_natLe_toNat {i n : Nat} (v : Nat) (h : i < n) : (byteAt (natLe n v) i).toNat = v / 2 ^ (8 * i) % 2 ^ 8 := by
  rw [byteAt_natLe v h, BitVec.toNat_ofNat, Nat.pow_mul]

theorem leNat_slice_natLe {at_ k n : Nat} (v : Nat) (h : at_ + k ≤ n) :
    leNat (slice (natLe n v) at_ k) = v / 2 ^ (8 * at_) % 2 ^ (8 * k) := by
  rw [slice_natLe v h, leNat_natLe, Nat.pow_mul, Nat.pow_mul]

/-! ### Pieces of lists -/

section
variable {α : Type}

theorem slice_append_left {n : Nat} (l r : List α) (h : l.length = n) : slice (l ++ r) 0 n = l := by
  subst h; simp [slice]

theorem slice_append_right {k : Nat} (l r : List α) (i n : Nat) (h : l.length = k) :
    slice (l ++ r) (k + i) n = slice r i n := by
  subst h; simp [slice, ← List.drop_drop]

theorem slice_append_next {k : Nat} (l r : List α) (n : Nat) (h : l.length = k) : slice (l ++ r) k n = slice r 0 n :=
  slice_append_right l r 0 n h

theorem slice_all {n : Nat} (l : List α) (h : l.length = n) : slice l 0 n = l := by
  subst h; simp [slice]

end

/-! ### Bits of a number -/

theorem testBit_eq_bitsOf (n i : Nat) : n.testBit i = (bitsOf n i i == 1) := by
  simp [bitsOf, Nat.testBit_eq_decide_div_mod_eq, beq_eq_decide]

theorem bitsOf_mod {n w hi lo : Nat} (h : hi < w) : bitsOf (n % 2 ^ w) hi lo = bitsOf n hi lo := by
  refine Nat.eq_of_testBit_eq fun i => ?_
  simp only [bitsOf, Nat.testBit_mod_two_pow, Nat.testBit_div_two_pow]
  by_cases inside : i < hi + 1 - lo
  · simp [inside, show i + lo < w by omega]
  · simp [inside]

/-- Bits of a piece of a number. -/
theorem bitsOf_piece {n s t lo b : Nat} (h : lo + b < t) :
    bitsOf (n / 2 ^ s % 2 ^ t) (lo + b) lo = n / 2 ^ (s + lo) % 2 ^ (b + 1) := by
  rw [bitsOf_mod h, bitsOf, Nat.div_div_eq_div_mul, ← Nat.pow_add, show lo + b + 1 - lo = b + 1 by omega]

/-! ### Elements at rising places -/

theorem packBits_lt (b : Nat) (l : List Nat) : packBits b l < 2 ^ (b * l.length) := by
  induction l with
  | nil => simp [packBits]
  | cons v r ih =>
    have low : v % 2 ^ b < 2 ^ b := Nat.mod_lt _ (Nat.two_pow_pos b)
    calc packBits b (v :: r) < 2 ^ b + 2 ^ b * packBits b r := by simpa [packBits] using low
      _ = 2 ^ b * (packBits b r + 1) := by ring
      _ ≤ 2 ^ b * 2 ^ (b * r.length) := Nat.mul_le_mul_left _ ih
      _ = 2 ^ (b * (v :: r).length) := by rw [← Nat.pow_add, List.length_cons]; ring_nf

theorem packBits_at (b : Nat) (l : List Nat) (i : Nat) : packBits b l / 2 ^ (b * i) % 2 ^ b = l.getD i 0 % 2 ^ b := by
  induction l generalizing i with
  | nil => simp [packBits]
  | cons v r ih =>
    cases i with
    | zero => simp [packBits]
    | succ i =>
      have tail : packBits b (v :: r) / 2 ^ b = packBits b r := by
        rw [packBits, Nat.add_mul_div_left _ _ (Nat.two_pow_pos b), Nat.div_eq_of_lt (Nat.mod_lt _ (Nat.two_pow_pos b)),
          Nat.zero_add]
      rw [Nat.mul_succ, Nat.add_comm, Nat.pow_add, ← Nat.div_div_eq_div_mul, tail, ih, List.getD_cons_succ]

/-! ### Bit maps and lane maps as elements of one and of five bits -/

theorem bitsNat_eq_packBits (l : List Bool) : bitsNat l = packBits 1 (l.map Bool.toNat) := by
  induction l with
  | nil => rfl
  | cons b r ih => cases b <;> simp [bitsNat, packBits, ih]

theorem mapBits_eq_packBits (l : List (BitVec 5)) : mapBits l = packBits 5 (l.map BitVec.toNat) := by
  induction l with
  | nil => rfl
  | cons c r ih => simp [mapBits, packBits, ih, Nat.mod_eq_of_lt c.isLt]

theorem bitsNat_lt (l : List Bool) : bitsNat l < 2 ^ l.length := by
  simpa [bitsNat_eq_packBits] using packBits_lt 1 (l.map Bool.toNat)

theorem mapBits_lt (l : List (BitVec 5)) : mapBits l < 2 ^ (5 * l.length) := by
  simpa [mapBits_eq_packBits] using packBits_lt 5 (l.map BitVec.toNat)

/-- The bits that a bit map spells are its marks. -/
theorem map_testBit_bitsNat (l : List Bool) : (List.range l.length).map (bitsNat l).testBit = l := by
  refine List.ext_getElem (by simp) fun i h _ => ?_
  have inside : i < l.length := by simpa using h
  have bit := packBits_at 1 (l.map Bool.toNat) i
  rw [← bitsNat_eq_packBits, Nat.one_mul, Nat.pow_one, List.getD_eq_getElem _ _ (by simpa using inside),
    List.getElem_map] at bit
  rw [List.getElem_map, List.getElem_range, Nat.testBit_eq_decide_div_mod_eq, bit]
  cases l[i] <;> rfl

/-- The codes that a lane map's bits spell are its codes. -/
theorem map_bitsOf_mapBits (l : List (BitVec 5)) :
    (List.range l.length).map (fun k => BitVec.ofNat 5 (bitsOf (mapBits l) (5 * k + 4) (5 * k))) = l := by
  refine List.ext_getElem (by simp) fun i h _ => ?_
  have inside : i < l.length := by simpa using h
  have code := packBits_at 5 (l.map BitVec.toNat) i
  rw [← mapBits_eq_packBits, List.getD_eq_getElem _ _ (by simpa using inside), List.getElem_map,
    Nat.mod_eq_of_lt (BitVec.isLt _)] at code
  rw [List.getElem_map, List.getElem_range, bitsOf, show 5 * i + 4 + 1 - 5 * i = 5 by omega, code, BitVec.ofNat_toNat,
    BitVec.setWidth_eq]

/-! ### Fields of a number, the lowest first -/

/-- The number that fields of given widths make, the first of them lowest. -/
def fieldsNat : List ((w : Nat) × BitVec w) → Nat
  | [] => 0
  | ⟨w, v⟩ :: r => v.toNat + 2 ^ w * fieldsNat r

theorem fieldsNat_lt (l : List ((w : Nat) × BitVec w)) : fieldsNat l < 2 ^ (l.map Sigma.fst).sum := by
  induction l with
  | nil => simp [fieldsNat]
  | cons f r ih =>
    obtain ⟨w, v⟩ := f
    calc v.toNat + 2 ^ w * fieldsNat r < 2 ^ w + 2 ^ w * fieldsNat r := Nat.add_lt_add_right v.isLt _
      _ = 2 ^ w * (fieldsNat r + 1) := by ring
      _ ≤ 2 ^ w * 2 ^ (r.map Sigma.fst).sum := Nat.mul_le_mul_left _ ih
      _ = 2 ^ ((⟨w, v⟩ :: r : List ((w : Nat) × BitVec w)).map Sigma.fst).sum := by simp [Nat.pow_add]

section
variable {w hi lo : Nat} (v : BitVec w) (r : List ((w : Nat) × BitVec w))

theorem fieldsNat_div : fieldsNat (⟨w, v⟩ :: r) / 2 ^ w = fieldsNat r := by
  rw [fieldsNat, Nat.add_mul_div_left _ _ (Nat.two_pow_pos w), Nat.div_eq_of_lt v.isLt, Nat.zero_add]

theorem fieldsNat_mod : fieldsNat (⟨w, v⟩ :: r) % 2 ^ w = v.toNat := by
  rw [fieldsNat, Nat.add_mul_mod_self_left, Nat.mod_eq_of_lt v.isLt]

/-- The lowest field. -/
theorem bitsOf_fieldsNat_first (h : hi + 1 = w) : bitsOf (fieldsNat (⟨w, v⟩ :: r)) hi 0 = v.toNat := by
  subst h
  simp only [bitsOf, Nat.pow_zero, Nat.div_one, Nat.sub_zero, fieldsNat_mod]

/-- A field above the lowest. -/
theorem bitsOf_fieldsNat_above (h : w ≤ lo) (hl : lo ≤ hi) :
    bitsOf (fieldsNat (⟨w, v⟩ :: r)) hi lo = bitsOf (fieldsNat r) (hi - w) (lo - w) := by
  obtain ⟨k, rfl⟩ := Nat.exists_eq_add_of_le h
  have width : hi + 1 - (w + k) = hi - w + 1 - k := by omega
  rw [bitsOf, bitsOf, Nat.pow_add, ← Nat.div_div_eq_div_mul, fieldsNat_div, Nat.add_sub_cancel_left, width]

theorem bitsOf_fieldsNat_within (h : hi < w) : bitsOf (fieldsNat (⟨w, v⟩ :: r)) hi lo = bitsOf v.toNat hi lo := by
  rw [← bitsOf_mod h, fieldsNat_mod]

theorem ofNat_fieldsNat_first : BitVec.ofNat w (fieldsNat (⟨w, v⟩ :: r)) = v := by
  refine BitVec.eq_of_toNat_eq ?_
  rw [BitVec.toNat_ofNat, fieldsNat_mod]

end

/-- Fields that fill whole bytes come back from those bytes. -/
theorem leNat_natLe_fieldsNat {n : Nat} (l : List ((w : Nat) × BitVec w)) (width : (l.map Sigma.fst).sum = 8 * n) :
    leNat (natLe n (fieldsNat l)) = fieldsNat l := by
  have bound := fieldsNat_lt l
  rw [width, Nat.pow_mul] at bound
  exact leNat_natLe_of_lt bound

end Sys2Proof.Machine
end

section
/-! Packed elements, instruction words and requests as bytes (02 Table 2.2; 03 R62; 04 R87; 15 R332), and what they give back. -/

namespace Sys2Proof.Machine

/-! ### Packed elements (02 Table 2.2; 03 R62) -/

/-- The formats by the widths of their elements and groups: two elements of four bits in a byte, four of six bits in three
bytes, or elements of whole bytes. -/
theorem fmt_cases (f : Nat) : (fmtBits f = 4 ∧ fmtGroup f = 2) ∨ (fmtBits f = 6 ∧ fmtGroup f = 4) ∨
    (8 ≤ fmtBits f ∧ 8 ∣ fmtBits f ∧ fmtGroup f = 1) := by
  unfold fmtBits fmtGroup
  split_ifs <;> omega

theorem packElems_length (f : Nat) (l : List Nat) : (packElems f l).length = fmtBytes f l.length := natLe_length _ _

section
variable {f i : Nat} {l : List Nat}

/-- Two elements in a byte. -/
theorem unpackElem_packElems_four (bits : fmtBits f = 4) (group : fmtGroup f = 2) (h : i < l.length) :
    unpackElem f (packElems f l) i = packBits 4 l / 2 ^ (4 * i) % 2 ^ 4 := by
  have inside : i / 2 < fmtBytes f l.length := by simp only [fmtBytes, bits, group]; omega
  calc unpackElem f (packElems f l) i
      = bitsOf (byteAt (packElems f l) (i / 2)).toNat (4 * (i % 2) + 3) (4 * (i % 2)) := by simp [unpackElem, bits]
    _ = bitsOf (packBits 4 l / 2 ^ (8 * (i / 2)) % 2 ^ 8) (4 * (i % 2) + 3) (4 * (i % 2)) := by
        rw [packElems, bits, byteAt_natLe_toNat _ inside]
    _ = packBits 4 l / 2 ^ (8 * (i / 2) + 4 * (i % 2)) % 2 ^ 4 := bitsOf_piece (b := 3) (by omega)
    _ = packBits 4 l / 2 ^ (4 * i) % 2 ^ 4 := by rw [show 8 * (i / 2) + 4 * (i % 2) = 4 * i by omega]

/-- Four elements in three bytes. -/
theorem unpackElem_packElems_six (bits : fmtBits f = 6) (group : fmtGroup f = 4) (h : i < l.length) :
    unpackElem f (packElems f l) i = packBits 6 l / 2 ^ (6 * i) % 2 ^ 6 := by
  have inside : i / 4 * 3 + 3 ≤ fmtBytes f l.length := by simp only [fmtBytes, bits, group]; omega
  calc unpackElem f (packElems f l) i
      = bitsOf (leNat (slice (packElems f l) (i / 4 * 3) 3)) (6 * (i % 4) + 5) (6 * (i % 4)) := by simp [unpackElem, bits]
    _ = bitsOf (packBits 6 l / 2 ^ (8 * (i / 4 * 3)) % 2 ^ (8 * 3)) (6 * (i % 4) + 5) (6 * (i % 4)) := by
        rw [packElems, bits, leNat_slice_natLe _ inside]
    _ = packBits 6 l / 2 ^ (8 * (i / 4 * 3) + 6 * (i % 4)) % 2 ^ 6 := bitsOf_piece (b := 5) (by omega)
    _ = packBits 6 l / 2 ^ (6 * i) % 2 ^ 6 := by rw [show 8 * (i / 4 * 3) + 6 * (i % 4) = 6 * i by omega]

/-- An element of whole bytes. -/
theorem unpackElem_packElems_bytes {k : Nat} (bits : fmtBits f = 8 * k) (one : 1 ≤ k) (group : fmtGroup f = 1)
    (h : i < l.length) : unpackElem f (packElems f l) i = packBits (8 * k) l / 2 ^ (8 * k * i) % 2 ^ (8 * k) := by
  have size : fmtBytes f l.length = l.length * k := by
    simp only [fmtBytes, bits, group, Nat.div_one, Nat.mul_one, Nat.add_sub_cancel]
    rw [show l.length * (8 * k) = 8 * (l.length * k) by ring, Nat.mul_div_cancel_left _ (by norm_num)]
  have inside : i * k + k ≤ fmtBytes f l.length := by rw [size, ← Nat.succ_mul]; exact Nat.mul_le_mul_right k h
  have place : 8 * (i * k) = 8 * k * i := by ring
  simp only [unpackElem, packElems, bits, Nat.mul_div_cancel_left k (show 0 < 8 by norm_num)]
  rw [if_neg (show 8 * k ≠ 4 by omega), if_neg (show 8 * k ≠ 6 by omega)]
  split
  case isTrue byte =>
    obtain rfl : k = 1 := by omega
    rw [byteAt_natLe_toNat _ (by omega)]
  case isFalse => rw [leNat_slice_natLe _ inside, place]

theorem unpackElem_packElems (h : i < l.length) : unpackElem f (packElems f l) i = l.getD i 0 % 2 ^ fmtBits f := by
  rw [← packBits_at]
  obtain ⟨bits, group⟩ | ⟨bits, group⟩ | ⟨least, ⟨k, bits⟩, group⟩ := fmt_cases f
  · rw [unpackElem_packElems_four bits group h, bits]
  · rw [unpackElem_packElems_six bits group h, bits]
  · rw [unpackElem_packElems_bytes bits (by omega) group h, bits]

end

/-! ### Words of the vector engine (04 R87, Table 4.2) -/

theorem toNat_append_eq_add {v w : Nat} (x : BitVec v) (y : BitVec w) : (x ++ y).toNat = y.toNat + 2 ^ w * x.toNat := by
  rw [BitVec.toNat_append, ← Nat.shiftLeft_add_eq_or_of_lt y.isLt, Nat.shiftLeft_eq]
  ring

theorem extractLsb'_eq_ofNat_bitsOf {n : Nat} (w : BitVec n) (lo len : Nat) :
    w.extractLsb' lo (len + 1) = BitVec.ofNat (len + 1) (bitsOf w.toNat (lo + len) lo) := by
  refine BitVec.eq_of_toNat_eq ?_
  simp [bitsOf, Nat.shiftRight_eq_div_pow, show lo + len + 1 - lo = len + 1 by omega]

theorem veEncode_toNat (v : VeWord) : (veEncode v).toNat = fieldsNat [⟨16, v.imm⟩, ⟨5, v.arith⟩, ⟨4, v.sfmt⟩, ⟨4, v.dfmt⟩,
    ⟨3, v.mask⟩, ⟨6, v.vc⟩, ⟨6, v.vb⟩, ⟨6, v.va⟩, ⟨6, v.vd⟩, ⟨8, v.op⟩] := by
  unfold veEncode
  iterate 9 rw [toNat_append_eq_add]
  simp [fieldsNat]

theorem veDecode_veEncode (v : VeWord) : veDecode (veEncode v) = v := by
  simp only [veDecode, extractLsb'_eq_ofNat_bitsOf, veEncode_toNat]
  simp [bitsOf_fieldsNat_first, bitsOf_fieldsNat_above]

theorem veEncode_veDecode (w : Word) : veEncode (veDecode w) = w := by
  unfold veEncode veDecode
  dsimp only
  iterate 9 rw [BitVec.extractLsb'_append_extractLsb'_eq_extractLsb']
  exact BitVec.extractLsb'_eq_self
  all_goals rfl

/-! ### Requests of the management protocol (15 R332, R341, Table 15.2) -/

@[simp] theorem bdpHeader_length (op : Byte) (q : BitVec 32) (len flags result : Nat) :
    (bdpHeader op q len flags result).length = 16 := by simp [bdpHeader]

section
variable {m : BdpMsg} {op : Byte} {q : BitVec 32} {len flags result : Nat} {rest : List Byte}
variable (h : m.bytes = bdpHeader op q len flags result ++ rest)
include h

theorem isBdp_of_header : isBdp m = true := by
  simp [isBdp, h, bdpHeader, natLe, leNat, byteAt]

theorem msgOp_of_header : msgOp m = op := by simp [msgOp, h, bdpHeader, natLe, byteAt]

theorem msgFlags_of_header : msgFlags m = BitVec.ofNat 8 flags := by simp [msgFlags, h, bdpHeader, natLe, byteAt]

theorem msgSeq_of_header : msgSeq m = q := by
  have field : slice m.bytes 4 4 = natLe 4 q.toNat := by simp [h, bdpHeader, natLe, slice]
  rw [msgSeq, field, leNat_natLe_of_lt q.isLt, BitVec.ofNat_toNat, BitVec.setWidth_eq]

theorem msgLen_of_header (short : len < 65536) : msgLen m = len := by
  have field : slice m.bytes 8 2 = natLe 2 len := by simp [h, bdpHeader, natLe, slice]
  rw [msgLen, field, leNat_natLe_of_lt short]

end

/-- The bytes that follow a request's body. -/
def trailerTail (t : Option Trailer) : List Byte := t.elim [] trailerBytes

theorem bdpRequest_bytes (src : Source) (op : Byte) (q : BitVec 32) (body : List Byte) (t : Option Trailer) :
    (bdpRequest src op q body t).bytes = bdpHeader op q body.length t.isSome.toNat 0 ++ (body ++ trailerTail t) := by
  cases t <;> simp [bdpRequest, trailerTail]

section
variable (src : Source) (op : Byte) (q : BitVec 32) (t : Option Trailer) {body : List Byte}

theorem msgSigned_bdpRequest : msgSigned (bdpRequest src op q body t) = t.isSome := by
  rw [msgSigned, msgFlags_of_header (bdpRequest_bytes src op q body t)]
  cases t <;> simp

theorem msgBody_bdpRequest (short : body.length < 65536) : msgBody (bdpRequest src op q body t) = body := by
  have bytes := bdpRequest_bytes src op q body t
  rw [msgBody, msgLen_of_header bytes short, bytes]
  exact (slice_append_next _ _ _ (bdpHeader_length ..)).trans (slice_append_left _ _ rfl)

theorem msgTrailer_bdpRequest {x : Trailer} (short : body.length < 65536) (sig : x.sig.length = 64) :
    msgTrailer (bdpRequest src op q body (some x)) = trailerBytes x := by
  have bytes := bdpRequest_bytes src op q body (some x)
  rw [msgTrailer, msgLen_of_header bytes short, bytes]
  calc _ = slice (body ++ trailerBytes x) body.length 88 := slice_append_right _ _ _ _ (bdpHeader_length ..)
    _ = slice (trailerBytes x) 0 88 := slice_append_next _ _ _ rfl
    _ = trailerBytes x := slice_all _ (by simp [trailerBytes, sig])

theorem bdpRequest_length (sig : ∀ x, t = some x → x.sig.length = 64) :
    (bdpRequest src op q body t).bytes.length = 16 + body.length + (if t.isSome then 88 else 0) := by
  rw [bdpRequest_bytes]
  cases t with
  | none => simp [trailerTail]
  | some x => simp [trailerTail, trailerBytes, sig x rfl]; omega

end

section
variable {x : Trailer}

theorem trailerBytes_keyId : leNat ((trailerBytes x).take 8) = x.keyId.toNat := by
  rw [trailerBytes, List.append_assoc, List.take_left' (natLe_length _ _)]
  exact leNat_natLe_of_lt x.keyId.isLt

theorem trailerBytes_nonce : leNat (slice (trailerBytes x) 8 16) = x.nonce.toNat := by
  rw [trailerBytes, List.append_assoc, slice_append_next _ _ _ (natLe_length _ _),
    slice_append_left _ _ (natLe_length _ _)]
  exact leNat_natLe_of_lt x.nonce.isLt

theorem trailerBytes_sig (sig : x.sig.length = 64) : slice (trailerBytes x) 24 64 = x.sig := by
  rw [trailerBytes, slice_append_next _ _ _ (by simp), slice_all _ sig]

end

end Sys2Proof.Machine
end

section
/-! Packets and lane-control messages as bytes (09 R207; 10 R246), with the poison maps that packets and messages carry. -/

namespace Sys2Proof.Machine

/-! ### Poison maps (08 R183; 09 R207; log 71) -/

section
variable (behind : Prop) [Decidable behind]

/-- The bytes of a poison map whose marks stand behind eight bits where `behind`. -/
def poisonBytes (marks : List Bool) : List Byte :=
  natLe (((if behind then 8 else 0) + marks.length + 7) / 8) (bitsNat marks * (if behind then 256 else 1))

theorem leNat_poisonBytes (marks : List Bool) :
    leNat (poisonBytes behind marks) / (if behind then 256 else 1) = bitsNat marks := by
  have fits : bitsNat marks * (if behind then 256 else 1) < 256 ^ (((if behind then 8 else 0) + marks.length + 7) / 8) := by
    calc bitsNat marks * (if behind then 256 else 1)
        < 2 ^ marks.length * 2 ^ (if behind then 8 else 0) := by
          have marksFit := bitsNat_lt marks
          split <;> simpa using marksFit
      _ ≤ 2 ^ (8 * (((if behind then 8 else 0) + marks.length + 7) / 8)) := by
          rw [← Nat.pow_add]; exact Nat.pow_le_pow_right (by norm_num) (by omega)
      _ = _ := Nat.pow_mul 2 8 _
  rw [poisonBytes, leNat_natLe_of_lt fits]
  exact Nat.mul_div_cancel _ (by split <;> norm_num)

/-- The bytes that hold the marks with PX = 1, and none with PX = 0. -/
def markMap (px : Bool) (marks : List Bool) : List Byte := if px then poisonBytes behind marks else []

variable {px : Bool} {n : Nat} {marks : List Bool} (count : marks.length = if px then n else 0)
include count

theorem markMap_eq : (if px then natLe (((if behind then 8 else 0) + n + 7) / 8) (bitsNat marks * (if behind then 256 else 1))
    else []) = markMap behind px marks := by
  cases px with
  | false => rfl
  | true => simp only [if_true] at count; simp only [markMap, poisonBytes, count]

theorem markMap_length : (markMap behind px marks).length = if px then ((if behind then 8 else 0) + n + 7) / 8 else 0 := by
  rw [← markMap_eq behind count]
  split <;> simp

/-- The marks that the bytes spell. -/
theorem marks_of_markMap : (if px then (List.range n).map
    (leNat (markMap behind px marks) / (if behind then 256 else 1)).testBit else []) = marks := by
  cases px with
  | false => exact (List.eq_nil_of_length_eq_zero count).symm
  | true =>
    simp only [if_true] at count
    simp only [markMap, if_true, leNat_poisonBytes, ← count, map_testBit_bitsNat]

end

/-! ### Packets (09 R207, Tables 9.1, 9.2) -/

/-- The fields of a packet header, the lowest first (09 Table 9.2). -/
def pktFields (p : Packet) : List ((w : Nat) × BitVec w) :=
  [⟨16, 0#16⟩, ⟨64, p.aux⟩, ⟨48, p.offset⟩, ⟨9, 0#9⟩, ⟨5, p.mcSpan⟩, ⟨1, .ofBool p.mcDir⟩, ⟨2, p.mcAxis⟩, ⟨1, .ofBool p.mcast⟩,
    ⟨1, .ofBool p.px⟩, ⟨13, p.len⟩, ⟨16, p.tag⟩, ⟨16, p.epoch⟩, ⟨12, p.id⟩, ⟨4, p.dstDie⟩, ⟨4, p.srcDie⟩, ⟨5, p.typ⟩,
    ⟨3, p.cls⟩, ⟨18, p.src⟩, ⟨18, p.dst⟩]

theorem pktHead_eq_fieldsNat (p : Packet) : pktHead p = fieldsNat (pktFields p) := by
  have px : (if p.px then 2 ^ 146 else 0) = 2 ^ 146 * p.px.toNat := by cases p.px <;> rfl
  have mcast : (if p.mcast then 2 ^ 145 else 0) = 2 ^ 145 * p.mcast.toNat := by cases p.mcast <;> rfl
  have mcDir : (if p.mcDir then 2 ^ 142 else 0) = 2 ^ 142 * p.mcDir.toNat := by cases p.mcDir <;> rfl
  simp only [pktHead, px, mcast, mcDir, pktFields, fieldsNat, BitVec.toNat_ofBool, BitVec.toNat_zero]
  omega

theorem ofBool_toNat_eq_one (b : Bool) : ((BitVec.ofBool b).toNat == 1) = b := by cases b <;> rfl

/-- The header that a packet's bytes begin with reads as its fields. -/
theorem readPktHead_packetBytes (p : Packet) (rest : List Byte) :
    readPktHead (natLe 32 (pktHead p) ++ rest) p.plane p.inPort p.lane = some { p with data := [], poison := [] } := by
  have number : leNat ((natLe 32 (pktHead p) ++ rest).take 32) = fieldsNat (pktFields p) := by
    rw [List.take_left' (natLe_length _ _), pktHead_eq_fieldsNat]
    exact leNat_natLe_fieldsNat _ (by simp [pktFields])
  simp only [readPktHead, number, pktFields, testBit_eq_bitsOf, bitsOf_fieldsNat_first, bitsOf_fieldsNat_above, le_refl,
    Nat.reduceLeDiff, Nat.reduceAdd, Nat.reduceSub, Nat.sub_self, BitVec.ofNat_toNat, BitVec.setWidth_eq, ofBool_toNat_eq_one]
  simp

section
variable {p : Packet} (marks : p.poison.length = if p.px then pktMarks p else 0)
include marks

theorem packetBytes_eq : packetBytes p = natLe 32 (pktHead p) ++ (markMap (p.typ = 3) p.px p.poison ++ p.data) := by
  have map : (if p.px then natLe (pktMapLen p) (bitsNat p.poison * (if p.typ = 3 then 256 else 1)) else []) =
      markMap (p.typ = 3) p.px p.poison := by
    rw [← markMap_eq _ marks]
    split
    case isTrue px => rw [pktMapLen, if_pos px]
    case isFalse => rfl
  rw [packetBytes, List.append_assoc, map]

theorem packetBytes_length (data : p.data.length = pktData p) :
    (packetBytes p).length = 32 + pktMapLen p + pktData p := by
  rw [packetBytes_eq marks, List.length_append, List.length_append, natLe_length, markMap_length _ marks, data,
    ← Nat.add_assoc]
  rfl

theorem readPacket_packetBytes (data : p.data.length = pktData p) :
    readPacket (packetBytes p) p.plane p.inPort p.lane = some p := by
  have length : (markMap (p.typ = 3) p.px p.poison).length = pktMapLen p := markMap_length _ marks
  have map : slice (packetBytes p) 32 (pktMapLen p) = markMap (p.typ = 3) p.px p.poison := by
    rw [packetBytes_eq marks, slice_append_next _ _ _ (natLe_length _ _), slice_append_left _ _ length]
  have rest : slice (packetBytes p) (32 + pktMapLen p) (pktData p) = p.data := by
    rw [packetBytes_eq marks, slice_append_right _ _ _ _ (natLe_length _ _),
      slice_append_next _ _ _ length, slice_all _ data]
  have head : readPktHead (packetBytes p) p.plane p.inPort p.lane = some { p with data := [], poison := [] } := by
    rw [packetBytes_eq marks, readPktHead_packetBytes]
  rw [readPacket, head]
  show some { p with
      data := slice (packetBytes p) (32 + pktMapLen p) (pktData p),
      poison := if p.px then (List.range (pktMarks p)).map
        (leNat (slice (packetBytes p) 32 (pktMapLen p)) / (if p.typ = 3 then 256 else 1)).testBit else [] } = some p
  rw [map, rest, marks_of_markMap _ marks]

end

/-! ### Lane-control messages (10 R246, Table 10.6) -/

/-- The fields of a lane-control message, the lowest first. -/
def laneFields (m : LaneMsg) : List ((w : Nat) × BitVec w) :=
  [⟨90, BitVec.ofNat 90 (mapBits m.map)⟩, ⟨64, m.cw⟩, ⟨64, m.tick⟩, ⟨26, 0#26⟩, ⟨4, m.reason⟩, ⟨8, m.op⟩]

section
variable {m : LaneMsg} (codes : m.map.length = 18)
include codes

theorem mapBits_toNat : (BitVec.ofNat 90 (mapBits m.map)).toNat = mapBits m.map := by
  have bound := mapBits_lt m.map
  rw [codes] at bound
  exact Nat.mod_eq_of_lt bound

theorem laneBytes_eq_fieldsNat : laneBytes m = natLe 32 (fieldsNat (laneFields m)) := by
  simp only [laneBytes, laneFields, fieldsNat, mapBits_toNat codes, BitVec.toNat_zero]
  congr 1
  omega

theorem leNat_laneBytes : leNat (laneBytes m) = fieldsNat (laneFields m) := by
  rw [laneBytes_eq_fieldsNat codes]
  exact leNat_natLe_fieldsNat _ (by simp [laneFields])

theorem readLane_laneBytes (low : m.op ≠ 0) (high : m.op ≤ 6) : readLane (laneBytes m) = some m := by
  have code : ∀ k < 18,
      bitsOf (fieldsNat (laneFields m)) (5 * k + 4) (5 * k) = bitsOf (mapBits m.map) (5 * k + 4) (5 * k) := fun k inside => by
    rw [laneFields, bitsOf_fieldsNat_within _ _ (by omega), mapBits_toNat codes]
  have map : (List.range 18).map (fun k => BitVec.ofNat 5 (bitsOf (fieldsNat (laneFields m)) (5 * k + 4) (5 * k))) =
      m.map := by
    conv_rhs => rw [← map_bitsOf_mapBits m.map, codes]
    exact List.map_congr_left fun k inside => by rw [code k (List.mem_range.mp inside)]
  have op : ¬ m.op.toNat = 0 ∧ m.op.toNat ≤ 6 := by bv_omega
  simp only [readLane, leNat_laneBytes codes, map]
  simpa [laneFields, bitsOf_fieldsNat_first, bitsOf_fieldsNat_above] using op

end

end Sys2Proof.Machine
end

section
/-! Messages between dies (08 R183, Tables 8.2, 8.3): what a receiver reads of the flits that carry them, and O60. -/

namespace Sys2Proof.Machine

/-! ### Headers -/

/-- The fields of a message header, the lowest first. -/
def headFields (m : D2dMsg) : List ((w : Nat) × BitVec w) :=
  [⟨48, m.addr⟩, ⟨34, 0#34⟩, ⟨1, .ofBool !m.poison.isEmpty⟩, ⟨13, m.len⟩, ⟨16, m.tag⟩, ⟨4, BitVec.ofNat 4 m.dst.val⟩,
    ⟨4, BitVec.ofNat 4 m.src.val⟩, ⟨8, m.typ⟩]

/-- The header that a message's header reads as. -/
def headOf (m : D2dMsg) : MsgHead := { msg := { m with data := [], poison := [] }, px := !m.poison.isEmpty }

@[simp] theorem headBytes_length (m : D2dMsg) : (headBytes m).length = 16 := natLe_length _ _

theorem headBytes_eq_fieldsNat (m : D2dMsg) : headBytes m = natLe 16 (fieldsNat (headFields m)) := by
  have px : (if m.poison.isEmpty then 0 else 2 ^ 82) = 2 ^ 82 * (!m.poison.isEmpty).toNat := by
    cases m.poison.isEmpty <;> rfl
  have src := m.src.isLt
  have dst := m.dst.isLt
  simp only [headBytes, px, headFields, fieldsNat, BitVec.toNat_ofBool, BitVec.toNat_ofNat]
  congr 1
  omega

theorem dieField_val (d : Die9) : dieField d.val = d := by simp [dieField]

theorem readHead_headBytes (m : D2dMsg) : readHead (headBytes m) = headOf m := by
  have number : leNat (headBytes m) = fieldsNat (headFields m) := by
    rw [headBytes_eq_fieldsNat]
    exact leNat_natLe_fieldsNat _ (by simp [headFields])
  simp only [readHead, number]
  simp [headFields, headOf, testBit_eq_bitsOf, bitsOf_fieldsNat_first, bitsOf_fieldsNat_above, ofNat_fieldsNat_first,
    Nat.mod_eq_of_lt (Nat.lt_trans m.src.isLt (show 9 < 16 by norm_num)), dieField_val,
    Nat.mod_eq_of_lt (Nat.lt_trans m.dst.isLt (show 9 < 16 by norm_num))]

/-- A place past the last header has TYPE 0. -/
theorem readHead_zeros : (readHead (List.replicate 16 0#8)).msg.typ = 0#8 := by decide

/-- A message as it is sent: of a type, its marks in canonical form, with its LEN bytes. -/
def AsSent (m : D2dMsg) : Prop :=
  m.typ ≠ 0 ∧ normMsg m = m ∧ m.data.length = (if carriesData m.typ then m.len.toNat else 0)

/-- The places of a header flit give the headers that stand in it, up to the first place with TYPE 0. -/
theorem heads_of_places (ms : List D2dMsg) (n j : Nat) (types : ∀ m ∈ ms, m.typ ≠ 0) (room : ms.length ≤ n)
    (size : 16 * n ≤ 16 * ms.length + j) :
    ((List.range n).map (fun k => readHead (slice (ms.flatMap headBytes ++ List.replicate j 0#8) (16 * k) 16))).takeWhile
      (fun h => h.msg.typ != 0#8) = ms.map headOf := by
  induction ms generalizing n with
  | nil =>
    cases n with
    | zero => rfl
    | succ n =>
      have zeros : slice (List.replicate j 0#8) 0 16 = List.replicate 16 0#8 := by
        simp [slice, show 16 ≤ j by simp at size; omega]
      have place : (readHead (slice (List.replicate j 0#8) 0 16)).msg.typ = 0#8 := by rw [zeros, readHead_zeros]
      simp [List.range_succ_eq_map, place]
  | cons m r ih =>
    obtain ⟨n, rfl⟩ : ∃ k, n = k + 1 := ⟨n - 1, by simp at room; omega⟩
    have first : slice (headBytes m ++ (r.flatMap headBytes ++ List.replicate j 0#8)) 0 16 = headBytes m :=
      slice_append_left _ _ (headBytes_length m)
    have next : ∀ k, slice (headBytes m ++ (r.flatMap headBytes ++ List.replicate j 0#8)) (16 * (k + 1)) 16 =
        slice (r.flatMap headBytes ++ List.replicate j 0#8) (16 * k) 16 := fun k => by
      rw [Nat.mul_succ, Nat.add_comm, slice_append_right _ _ _ _ (headBytes_length m)]
    have rest := ih n (fun x hx => types x (List.mem_cons_of_mem _ hx)) (by simpa using room)
      (by simp only [List.length_cons] at size; omega)
    have typ : (headOf m).msg.typ ≠ 0#8 := types m (List.mem_cons_self ..)
    simp [List.range_succ_eq_map, first, next, readHead_headBytes, typ, Function.comp_def, rest]

theorem readHeads_flatMap (ms : List D2dMsg) (few : ms.length ≤ 15) (types : ∀ m ∈ ms, m.typ ≠ 0) :
    readHeads (padTo 0 244 (ms.flatMap headBytes)) = ms.map headOf := by
  have size : (ms.flatMap headBytes).length = 16 * ms.length := by simp [List.length_flatMap, Nat.mul_comm]
  rw [readHeads, padTo, List.take_of_length_le (by omega), size]
  exact heads_of_places ms 15 _ types few (by omega)

/-! ### What a message adds to the data of its class (08 R183) -/

theorem padTo_of_le {α : Type} (d : α) {n : Nat} {l : List α} (h : l.length ≤ n) :
    padTo d n l = l ++ List.replicate (n - l.length) d := by
  rw [padTo, List.take_of_length_le h]

theorem padTo_length {α : Type} (d : α) (n : Nat) (l : List α) : (padTo d n l).length = n := by
  simp [padTo]; omega

/-- The bytes of a message's poison map. -/
def msgMap (m : D2dMsg) : List Byte := markMap (m.typ = 3) (!m.poison.isEmpty) m.poison

section
variable {m : D2dMsg} (sent : AsSent m)
include sent

/-- A message with PX = 1 has as many marks as words. -/
theorem marks_of_sent : m.poison.length = if (!m.poison.isEmpty) then msgMarks m else 0 := by
  obtain ⟨-, norm, -⟩ := sent
  have marks : (if m.poison.any (· == true) then padTo false (msgMarks m) m.poison else []) = m.poison :=
    congrArg D2dMsg.poison norm
  cases empty : m.poison.isEmpty with
  | true => simp [List.isEmpty_iff.mp empty]
  | false =>
    split at marks
    case isTrue => rw [← marks, padTo_length]; rfl
    case isFalse => simp [← marks] at empty

theorem data_of_sent (none : ¬ carriesData m.typ = true) : m.data = [] := by
  obtain ⟨-, -, size⟩ := sent
  rw [if_neg none] at size
  exact List.eq_nil_of_length_eq_zero size

theorem streamBytes_eq : streamBytes m = msgMap m ++ m.data := by
  have map : (if m.poison.isEmpty then [] else natLe (mapLen m) (bitsNat m.poison * (if m.typ = 3 then 256 else 1)))
      = msgMap m := by
    rw [msgMap, ← markMap_eq _ (marks_of_sent sent)]
    cases m.poison.isEmpty <;> rfl
  have data : (if carriesData m.typ then m.data else []) = m.data := by
    split
    case isTrue => rfl
    case isFalse none => exact (data_of_sent sent none).symm
  rw [streamBytes, map, data]

theorem msgMap_length : (msgMap m).length = if (headOf m).px then mapLen m else 0 :=
  markMap_length _ (marks_of_sent sent)

theorem streamBytes_length : (streamBytes m).length = headNeed (headOf m) := by
  obtain ⟨-, -, size⟩ := id sent
  rw [streamBytes_eq sent, List.length_append, msgMap_length sent, size]
  rfl

theorem withStream_streamBytes (rest : List Byte) : withStream (headOf m) (streamBytes m ++ rest) = m := by
  have bytes : streamBytes m ++ rest = msgMap m ++ (m.data ++ rest) := by rw [streamBytes_eq sent, List.append_assoc]
  have map : (streamBytes m ++ rest).take (msgMap m).length = msgMap m := by rw [bytes, List.take_left]
  have data : (if carriesData m.typ then slice (streamBytes m ++ rest) (msgMap m).length m.len.toNat else []) = m.data := by
    obtain ⟨-, -, size⟩ := id sent
    split
    case isTrue carries =>
      rw [if_pos carries] at size
      rw [bytes, slice_append_next _ _ _ rfl, slice_append_left _ _ size]
    case isFalse none => exact (data_of_sent sent none).symm
  have marks : (if (headOf m).px then (List.range (msgMarks m)).map
      (leNat (msgMap m) / (if m.typ = 3 then 256 else 1)).testBit else []) = m.poison :=
    marks_of_markMap _ (marks_of_sent sent)
  calc withStream (headOf m) (streamBytes m ++ rest)
      = { m with
          data := if carriesData m.typ then slice (streamBytes m ++ rest) (msgMap m).length m.len.toNat else [],
          poison := if (headOf m).px then (List.range (msgMarks m)).map
            (leNat ((streamBytes m ++ rest).take (msgMap m).length) / (if m.typ = 3 then 256 else 1)).testBit else [] } := by
        rw [msgMap_length sent]; rfl
    _ = m := by rw [map, data, marks]

end

/-- Headers and the data of their messages give the messages. -/
theorem wholeOf_streamBytes (ms : List D2dMsg) (sent : ∀ m ∈ ms, AsSent m) :
    wholeOf (ms.map headOf) (ms.flatMap streamBytes) = ms := by
  induction ms with
  | nil => rfl
  | cons m r ih =>
    have first := sent m (List.mem_cons_self ..)
    have length := streamBytes_length first
    have rest := ih fun x hx => sent x (List.mem_cons_of_mem _ hx)
    rw [List.map_cons, List.flatMap_cons, wholeOf, if_pos (by rw [← length]; simp), withStream_streamBytes first, ← length,
      List.drop_left, rest]

theorem headNeed_sum (ms : List D2dMsg) (sent : ∀ m ∈ ms, AsSent m) :
    ((ms.map headOf).map headNeed).foldl (· + ·) 0 = (ms.flatMap streamBytes).length := by
  rw [← List.sum_eq_foldl, List.length_flatMap, List.map_map]
  exact congrArg List.sum (List.map_congr_left fun m hm => (streamBytes_length (sent m hm)).symm)

/-! ### Data flits (08 R183) -/

/-- Data cut into pieces, each filled with zeros, begins with the data. -/
theorem pieces_take (data : List Byte) (n : Nat) (room : data.length ≤ 244 * n) :
    (((List.range n).map fun k => padTo 0 244 (slice data (244 * k) 244)).flatten).take data.length = data := by
  induction n generalizing data with
  | zero => simp [List.eq_nil_of_length_eq_zero (Nat.le_zero.mp room)]
  | succ n ih =>
    have next : ∀ k, slice data (244 * (k + 1)) 244 = slice (data.drop 244) (244 * k) 244 := fun k => by
      rw [slice, slice, List.drop_drop, Nat.mul_succ, Nat.add_comm]
    have rest := ih (data.drop 244) (by simp; omega)
    have cut : ((List.range (n + 1)).map fun k => padTo 0 244 (slice data (244 * k) 244)).flatten =
        padTo 0 244 (data.take 244) ++
          ((List.range n).map fun k => padTo 0 244 (slice (data.drop 244) (244 * k) 244)).flatten := by
      simp only [List.range_succ_eq_map, List.map_cons, List.map_map, List.flatten_cons, Function.comp_def, next]
      rfl
    rw [cut]
    rcases Nat.le_total data.length 244 with short | long
    · rw [List.take_of_length_le short, padTo_of_le 0 short, List.append_assoc, List.take_left]
    · have whole : (data.take 244).length = 244 := by simp [long]
      rw [padTo_of_le 0 whole.le, whole, Nat.sub_self, List.replicate_zero, List.append_nil,
        List.take_append, whole, List.take_of_length_le (by omega), ← List.length_drop, rest, List.take_append_drop]

theorem take_take_append {α : Type} (n : Nat) (l r : List α) : (l.take n ++ r).take n = (l ++ r).take n := by
  rw [List.take_append, List.take_append, List.take_take, Nat.min_self, List.length_take,
    show n - min n l.length = n - l.length by omega]

/-- Data flits are drained into the stream, up to what the headers before them call for. -/
theorem drain_data (heads : List MsgHead) (bodies : List (List Byte)) (stream : List Byte) (need : Nat)
    (total : (heads.map headNeed).foldl (· + ·) 0 = need) (fits : stream.length ≤ need) :
    (bodies.map fun b => (2, b)).foldl (fun x _ => drainOne x) ⟨bodies.map fun b => (2, b), heads, stream⟩ =
      ⟨[], heads, (stream ++ bodies.flatten).take need⟩ := by
  induction bodies generalizing stream with
  | nil => simp [List.take_of_length_le fits]
  | cons b r ih =>
    have step : drainOne ⟨(2, b) :: r.map fun b => (2, b), heads, stream⟩ =
        ⟨r.map fun b => (2, b), heads, (stream ++ b).take need⟩ := by
      simp [drainOne, total]
    rw [List.map_cons, List.foldl_cons, step, ih _ (by simp), take_take_append, List.flatten_cons, List.append_assoc]

/-- What a receiver that held nothing has drained of the flits of some messages: their headers and all their data. -/
theorem drainAll_batchBodies {ms : List D2dMsg} (few : ms.length ≤ 15) (sent : ∀ m ∈ ms, AsSent m) :
    drainAll { buf := batchBodies ms, heads := [], stream := [] } =
      { buf := [], heads := ms.map headOf, stream := ms.flatMap streamBytes } := by
  have heads := readHeads_flatMap ms few fun m hm => (sent m hm).1
  have drained := drain_data (ms.map headOf)
    ((List.range (((ms.flatMap streamBytes).length + 243) / 244)).map
      fun k => padTo 0 244 (slice (ms.flatMap streamBytes) (244 * k) 244)) [] _ (headNeed_sum ms sent) (Nat.zero_le _)
  rw [List.nil_append, pieces_take _ _ (by omega), List.map_map] at drained
  rw [drainAll, batchBodies, List.foldl_cons, ← drained, ← heads]
  rfl

theorem heldMsgs_batchBodies {ms : List D2dMsg} (few : ms.length ≤ 15) (sent : ∀ m ∈ ms, AsSent m) :
    heldMsgs { buf := batchBodies ms, heads := [], stream := [] } = ms := by
  rw [heldMsgs, drainAll_batchBodies few sent]
  exact wholeOf_streamBytes ms sent

/-- Settles O60, each form by the lemma of its own reading. -/
theorem packedFormsRoundTrip : Obligations.PackedFormsRoundTrip := by
  unfold Obligations.PackedFormsRoundTrip
  refine ⟨fun f l => ⟨packElems_length f l, fun i h => unpackElem_packElems h⟩, veDecode_veEncode, veEncode_veDecode,
    fun src op q body trailer short sig => ?_, fun ms few sent => heldMsgs_batchBodies few sent,
    fun p data marks => ⟨readPacket_packetBytes marks data, packetBytes_length marks data⟩,
    fun m low high codes => ⟨readLane_laneBytes codes low high, natLe_length _ _⟩⟩
  have bytes := bdpRequest_bytes src op q body trailer
  refine ⟨isBdp_of_header bytes, msgOp_of_header bytes, msgSeq_of_header bytes, msgBody_bdpRequest src op q trailer short,
    msgSigned_bdpRequest src op q trailer, ?_, bdpRequest_length src op q trailer sig⟩
  rintro x rfl
  have tail := msgTrailer_bdpRequest src op q short (sig x rfl)
  exact ⟨tail ▸ trailerBytes_keyId, tail ▸ trailerBytes_nonce, tail ▸ trailerBytes_sig (sig x rfl)⟩

end Sys2Proof.Machine
end

section
/-! The results of vector-engine instructions (04 R88 to R95): what an issued word does to its context, and O42 and O43. -/

namespace Sys2Proof.Machine

/-! ### A context's cycles are its issue's alone -/

section
variable (r : VeRun)

@[simp] theorem VeRun.putElems_cycles (f n : Nat) (vals : List (Option Nat)) (p : Bool) :
    (r.putElems f n vals p).cycles = r.cycles := by
  unfold VeRun.putElems
  split <;> rfl

@[simp] theorem VeRun.putScalar_cycles (n : Nat) (v : Word) (p : Bool) : (r.putScalar n v p).cycles = r.cycles := rfl

@[simp] theorem VeRun.putMask_cycles (n : Nat) (vals : List (Option Bool)) (p : Bool) :
    (r.putMask n vals p).cycles = r.cycles := by
  unfold VeRun.putMask
  split <;> rfl

@[simp] theorem VeRun.raise_cycles (f : Nat) : (r.raise f).cycles = r.cycles := rfl

@[simp] theorem writeLanes_cycles (v : VeWord) (f : Nat → Nat) (p : Bool) : (writeLanes r v f p).cycles = r.cycles :=
  VeRun.putElems_cycles ..

end

/-! ### An issued word -/

/-- A word that issues as a command's, and whose operation answers a context with the cycles it had, leaves the context at the
next index with the instruction's cycles counted. -/
theorem veStep_of_issues {s u : State} {d : Die} {x : VeCtx} {w : Word} {r y : VeRun} {op : Nat} {cost : VeWord → Nat}
    {act : State → VeRun → Bool → Word → VeWord → VeAct} (issued : Issues s d x w u r) (opcode : (veDecode w).op.toNat = op)
    (room : r.pc + 1 < progLimit x.upd) (acts : act u r x.upd w (veDecode w) = .done u y) (same : y.cycles = r.cycles) :
    veStep s d x op cost act = setVeRun (countCycles u d.val x.upd (cost (veDecode w))) d.val x.upd
      { y with pc := r.pc + 1, cycles := r.cycles + cost (veDecode w), lines := [] } := by
  obtain ⟨t, v, p, fetch, legal, errors, rfl⟩ := issued
  have start : veStart t d.val x p w = (v, r) := errors
  have done := veStep_done (cost := cost) (act := act) (t := setVeRun v d.val x.upd r) (y := y) fetch legal opcode
    (by rw [start]; exact acts) (by rw [start]; exact room)
  rw [done, start, same]

/-! ### Element-wise instructions (04 R88) -/

/-- A command, its opcode, its cycles, its sources and its operation: it is the element-wise instruction of these. -/
def RunsElementwise (s : State) (d : Die) (x : VeCtx)
    (row : Instr × Nat × Nat × Nat × (VeWord → Nat → Nat → Nat → Res)) : Prop :=
  let (c, op, cost, n, f) := row
  exec c s = .next (veStep s d x op (fun _ => cost) (elementwise n f))

/-- Settles O42: each row of the table is an element-wise instruction, and an issued one is done at the next index. -/
theorem veElementsComputed : Obligations.VeElementsComputed := by
  unfold Obligations.VeElementsComputed
  intro d x s u w r c op cost n f v k src poison out done row issued opcode room
  have runs : RunsElementwise s d x (c, op, cost, n, f) := by
    -- one goal for each row of the table
    refine List.forall_iff_forall_mem.mp ?_ _ row
    repeat' apply And.intro
    all_goals rfl
  have acts : elementwise n f u r x.upd w v = .done u done := rfl
  have same : done.cycles = r.cycles := by simp [done]
  rw [runs, veStep_of_issues issued opcode room acts same]

/-! ### Instructions of one result (04 R89 to R95) -/

/-- A command, its opcode and what it makes of a context: it takes one cycle, which it leaves to the issue to count, and
changes nothing but the context. -/
def WritesResult (s : State) (d : Die) (x : VeCtx) (w : Word) (row : Instr × Nat × (VeWord → VeRun → VeRun)) : Prop :=
  let (c, op, f) := row
  ∃ act, exec c s = .next (veStep s d x op oneCycle act)
    ∧ (∀ u r, act u r x.upd w (veDecode w) = .done u (f (veDecode w) r)) ∧ ∀ r, (f (veDecode w) r).cycles = r.cycles

/-- Settles O43: each row of the table answers its one result, and an issued one is done at the next index. -/
theorem veRegistersWritten : Obligations.VeRegistersWritten := by
  unfold Obligations.VeRegistersWritten
  intro d x s u w r c op f v pairs both compare reduce scal row issued opcode room
  have writes : WritesResult s d x w (c, op, f) := by
    -- one goal for each row of the table
    refine List.forall_iff_forall_mem.mp ?_ _ row
    repeat' apply And.intro
    all_goals
      refine ⟨_, rfl, fun _ _ => rfl, fun _ => ?_⟩
      simp only [compare, reduce, scal, VeRun.raise_cycles, VeRun.putElems_cycles, VeRun.putScalar_cycles,
        VeRun.putMask_cycles, writeLanes_cycles]
  obtain ⟨act, runs, acts, same⟩ := writes
  rw [runs, veStep_of_issues issued opcode room (acts u r) (same r)]
  rfl

end Sys2Proof.Machine
end

section
/-! What vector-engine reads leave alone, and what an issued word does to its context (04 R88 to R95). -/

namespace Sys2Proof.Machine

/-! ### Entries before the counters and the sticky bits -/

/-- A key written with a value that is listed leaves every other key as it was, on any list. -/
theorem mfind_mput_other {α : Type} [DecidableEq α] {d : α} (m : SMap α) {i j : Nat} {v : α} (listed : v ≠ d)
    (other : j ≠ i) : mfind (mput d m i v) j = mfind m j := by
  induction m with
  | nil =>
    have apart : ¬i = j := fun e => other e.symm
    simp [mput, listed, mfind, apart]
  | cons e r ih =>
    obtain ⟨k, w⟩ := e
    rcases Nat.lt_trichotomy k i with before | rfl | after
    · simp [mput, before, mfind, ih]
    · have apart : ¬k = j := fun e => other e.symm
      simp [mput, listed, mfind, apart]
    · have late : ¬k < i := by omega
      have differ : ¬k = i := by omega
      by_cases place : i < j
      · simp [mput, late, differ, listed, mfind, place]
      · have past : ¬k < j := by omega
        have apart : ¬k = j := by omega
        have new : ¬i = j := by omega
        simp [mput, late, differ, listed, mfind, place, past, apart, new]

section
variable {s : State} {idx sub i k : Nat}

theorem dnum_dset_other {v : Nat} (listed : v ≠ dictAbsent) (low : dkey i k < dkey idx sub) :
    dnum (dset s idx sub v) i k = dnum s i k := by
  simp only [dnum, dset, mfind_mput_other s.dict listed (Nat.ne_of_lt low)]

theorem dnum_bump_other (n : Nat) (low : dkey i k < dkey idx sub) : dnum (bump s idx sub n) i k = dnum s i k :=
  dnum_dset_other (Nat.ne_of_lt (Nat.lt_trans (Nat.mod_lt _ (by decide)) (by decide))) low

/-- An entry before the counters and the sticky bits, whose indices start at 0x8000 and at 0xA000. -/
def BeforeCounters (i k : Nat) : Prop := dkey i k < 0x8000 * 256

theorem BeforeCounters.lt (low : BeforeCounters i k) (high : 0x8000 ≤ idx) : dkey i k < dkey idx sub := by
  simp only [BeforeCounters, dkey] at *
  omega

theorem dnum_bump_high (low : BeforeCounters i k) (high : 0x8000 ≤ idx) (n : Nat) : dnum (bump s idx sub n) i k = dnum s i k :=
  dnum_bump_other n (low.lt high)

/-- VE_PROGRAM_LIMIT is such an entry (04 R94). -/
theorem beforeCounters_limit : BeforeCounters 0x2040 1 := by
  unfold BeforeCounters
  decide

theorem dnum_raiseVector (low : BeforeCounters i k) (v : Nat) : dnum (raiseVector s v) i k = dnum s i k := by
  unfold raiseVector
  split
  · exact dnum_bump_high low (by decide) 1
  · rfl

theorem dnum_journal (low : BeforeCounters i k) (bit : Nat) : dnum (journal s idx sub bit) i k = dnum s i k := by
  unfold journal
  extract_lets m fresh used at_
  split
  · rfl
  · exact dnum_bump_high (idx := 0xA0FF) low (by decide) 1

theorem putBit_true_testBit (n i : Nat) : (putBit n i true).testBit i = true := by
  unfold putBit
  split
  · assumption
  · rename_i clear
    simpa [Nat.add_comm n, Nat.testBit_two_pow_add_eq] using clear

/-- A bit of a map is set by a number that is listed: the number has this bit, and the one for "not listed" has not. -/
theorem putBit_true_listed {n i : Nat} (small : i < 65) : putBit n i true ≠ dictAbsent := by
  intro same
  have set := putBit_true_testBit n i
  rw [same, dictAbsent, Nat.testBit_two_pow, decide_eq_true_eq] at set
  omega

theorem dnum_sticky (low : BeforeCounters i k) (high : 0x8000 ≤ idx) {bit : Nat} (small : bit < 65) :
    dnum (sticky s idx sub bit) i k = dnum s i k := by
  unfold sticky
  split
  · rfl
  · calc dnum (raiseError (addDebt (journal (dputBit s idx sub bit true) idx sub bit) (debtOf idx sub))) i k
        = dnum (addDebt (journal (dputBit s idx sub bit true) idx sub bit) (debtOf idx sub)) i k := dnum_raiseVector low _
      _ = dnum (dputBit s idx sub bit true) i k := dnum_journal low bit
      _ = dnum s i k := dnum_dset_other (putBit_true_listed small) (low.lt high)

end

/-! ### What reads leave alone -/

/-- What each step of a fold keeps, the fold keeps. -/
theorem foldl_keeps {σ α β : Type} (f : σ → β) {g : σ → α → σ} (each : ∀ t x, f (g t x) = f t) (l : List α)
    (s : σ) : f (l.foldl g s) = f s :=
  List.foldlRecOn (motive := fun t => f t = f s) l g rfl fun t kept x _ => (each t x).trans kept

/-- A read that has all its bytes changes counters of the dictionary and the region's lines. -/
theorem veTouch_keeps {β : Type} (f : State → β) (counts : ∀ t idx sub n, 0x8000 ≤ idx → f (bump t idx sub n) = f t)
    (lines : ∀ t d x, f (t.setRc d x) = f t) (s : State) (d : Nat) (upd : Bool) (ranges : List (Nat × Nat)) :
    f (veTouch s d upd ranges) = f s := by
  have own (t : State) (key len : Nat) : f (carryRead t key len) = f t := by
    unfold carryRead
    extract_lets n e
    split
    · rfl
    · exact counts _ _ _ _ (by decide)
  unfold veTouch
  refine (foldl_keeps f ?_ _ _).trans (foldl_keeps f (fun t g => own t _ _) _ s)
  intro t x
  split
  · dsimp only
    split
    · exact (lines ..).trans (counts _ _ _ _ (by decide))
    · rfl
  · rfl

section
variable (s : State) (d : Nat) (upd : Bool) (ranges : List (Nat × Nat))

@[simp] theorem veTouch_ves : (veTouch s d upd ranges).ves = s.ves :=
  veTouch_keeps State.ves (fun _ _ _ _ _ => rfl) (fun _ _ _ => rfl) s d upd ranges

@[simp] theorem veTouch_lanes : (veTouch s d upd ranges).lanes = s.lanes :=
  veTouch_keeps State.lanes (fun _ _ _ _ _ => rfl) (fun _ _ _ => rfl) s d upd ranges

@[simp] theorem veRun_veTouch (e : Nat) (c : Bool) : veRun (veTouch s d upd ranges) e c = veRun s e c := by
  simp only [veRun, State.ve, veTouch_ves]

@[simp] theorem lane_veTouch (e : Nat) : (veTouch s d upd ranges).lane e = s.lane e := by
  simp only [State.lane, veTouch_lanes]

theorem dnum_veTouch {i k : Nat} (low : BeforeCounters i k) : dnum (veTouch s d upd ranges) i k = dnum s i k :=
  veTouch_keeps (dnum · i k) (fun _ _ _ n high => dnum_bump_high low high n) (fun _ _ _ => rfl) s d upd ranges

end

/-- Words of the register file in error are counted or set a sticky bit. -/
theorem dnum_fileErrs {i k : Nat} (low : BeforeCounters i k) (d : Die) (regs : List RegErr) (s : State) :
    dnum (fileErrs d.val regs s).1 i k = dnum s i k := by
  unfold fileErrs
  refine foldl_keeps (fun acc : State × Bool => dnum acc.1 i k) (fun acc e => ?_) regs (s, false)
  split
  · exact dnum_bump_high low (by decide) 1
  · exact dnum_sticky low (by decide) (by omega)

/-! ### A fetched word (04 R94) -/

/-- A word is fetched by a read, of a context within its limit. -/
theorem veFetch_word {s t : State} {d : Nat} {upd p : Bool} {w : Word} (fetch : veFetch s d upd = .word t w p) :
    (upd = false → overLimit s (veRun s d upd) = false) ∧ ∃ ranges, t = veTouch s d upd ranges := by
  unfold veFetch at fetch
  dsimp only at fetch
  split at fetch
  · cases fetch
  · rename_i may
    split at fetch
    · cases fetch
      refine ⟨fun main => ?_, _, rfl⟩
      subst main
      simp only [Bool.not_false, Bool.true_and, Bool.or_eq_true, not_or, Bool.not_eq_true] at may
      exact may.2
    · cases fetch
    · cases fetch

/-! ### What an operation's answer does to its context (04 R88, R94) -/

/-- The program of a context ends of itself, its last instruction's cycles counted. -/
def veEnds (t : State) (d : Nat) (upd : Bool) (x : VeRun) (cost : Nat) : State :=
  let z := { x with cycles := x.cycles + cost }
  let u := countCycles t d upd cost
  if upd then setVeRun u d true { z with active := false, lines := [] } else endOk u d z

/-- What an issued instruction leaves, by what its operation answers. -/
def veOutcome (u : State) (d : Nat) (upd : Bool) (r : VeRun) (cost : Nat) : VeAct → State
  | .done t x => veNext t d upd x cost (r.pc + 1)
  | .jump t x goal => veNext t d upd x cost goal
  | .over t x => veEnds t d upd x cost
  | .wait t => t
  | .bad a p => faultVe u d upd r a p
  | .refuse => refuseVe u d upd r r.pc

/-- A word that issues as a command's leaves what its operation's answer says. -/
theorem veStep_issued {s u : State} {d : Die} {x : VeCtx} {w : Word} {r : VeRun} {op : Nat} (issued : Issues s d x w u r)
    (opcode : (veDecode w).op.toNat = op) (cost : VeWord → Nat) (act : State → VeRun → Bool → Word → VeWord → VeAct) :
    veStep s d x op cost act = veOutcome u d.val x.upd r (cost (veDecode w)) (act u r x.upd w (veDecode w)) := by
  obtain ⟨t, v, p, fetch, legal, errors, rfl⟩ := issued
  have start : veStart t d.val x p w = (v, r) := errors
  rw [veStep_word fetch legal opcode, start]
  dsimp only
  cases act (setVeRun v d.val x.upd r) r x.upd w (veDecode w) <;> rfl

/-- Before the last index a program may hold, an instruction that is done leaves its context at the next one. -/
theorem veOutcome_done {u t : State} {d : Nat} {upd : Bool} {r y : VeRun} {cost : Nat} (room : r.pc + 1 < progLimit upd)
    (same : y.cycles = r.cycles) : veOutcome u d upd r cost (.done t y) = setVeRun (countCycles t d upd cost) d upd
      { y with pc := r.pc + 1, cycles := r.cycles + cost, lines := [] } := by
  simp only [veOutcome, veNext, Nat.not_le.mpr room, if_false, same]

section
variable {s u : State} {d : Die} {w : Word} {r : VeRun} (issued : Issues s d .main w u r)
include issued

/-- The main context issues on what the fetch of its word leaves, with its own registers. -/
theorem Issues.fetched : overLimit s (veRun s d.val false) = false
    ∧ ∃ ranges p, r = veSeen s d.val false p ∧ u = setVeRun (veTouch s d.val false ranges) d.val false r := by
  obtain ⟨t, v, p, fetch, -, errors, rfl⟩ := issued
  obtain ⟨within, ranges, rfl⟩ := veFetch_word fetch
  obtain ⟨rfl, rfl⟩ := Prod.mk.inj errors
  refine ⟨within rfl, ranges, p, ?_, rfl⟩
  simp only [veSeen, veRun_veTouch]
  rfl

/-- It issues within its limit (04 R94). -/
theorem Issues.within : r.cycles ≤ dnum u 0x2040 1 := by
  obtain ⟨within, ranges, p, rfl, rfl⟩ := issued.fetched
  rw [overLimit, decide_eq_false_iff_not, Nat.not_lt] at within
  calc (veSeen s d.val false p).cycles = (veRun s d.val false).cycles := by cases p <;> rfl
    _ ≤ dnum s 0x2040 1 := within
    _ = dnum (veTouch s d.val false ranges) 0x2040 1 := (dnum_veTouch _ _ _ _ beforeCounters_limit).symm

/-- It issues for its program's descriptor. -/
theorem Issues.descriptor : r.queue = (veRun s d.val false).queue ∧ r.idx = (veRun s d.val false).idx := by
  obtain ⟨-, ranges, p, rfl, -⟩ := issued.fetched
  cases p <;> exact ⟨rfl, rfl⟩

end

end Sys2Proof.Machine
end

section
/-! Loads and stores of the vector engine (04 R90, R91), and O44. -/

namespace Sys2Proof.Machine

section
variable (strided : Bool) (r : VeRun) (w : Word) (v : VeWord)

/-! ### Pieces of an access (04 R90) -/

/-- The elements of a piece, and its bytes. -/
def pieceElems : Nat := (memPieces strided r v).2
def pieceBytes : Nat := fmtBytes v.df (pieceElems strided r v)

/-- The ranges of the pieces. -/
def accessRanges : List (Nat × Nat) := (memPieces strided r v).1.map (fun q => (q.1, pieceBytes strided r v))

/-- The elements that a load brings to VD, none where one is masked. -/
def loadElems (data : List Byte) : List (Option Nat) :=
  ((memPieces strided r v).1.zipIdx.flatMap (fun q => unpackElems v.df (pieceElems strided r v)
    (slice data (q.2 * pieceBytes strided r v) (pieceBytes strided r v)))).zipIdx.map
      (fun e => if r.on v.mask.toNat e.2 then some e.1 else none)

/-- Is an element of the piece that begins with element `first` stored? -/
def pieceOn (first i : Nat) : Bool := decide (i < pieceElems strided r v) && r.on v.mask.toNat (first + i)

/-- The bytes of a piece that a store merges, and the ranges of the pieces that have any. -/
def pieceMerged (first : Nat) : List Nat := mergedBytes v.df (pieceElems strided r v) (pieceOn strided r v first)
def mergedRanges : List (Nat × Nat) :=
  ((memPieces strided r v).1.filter (fun q => !(pieceMerged strided r v q.2).isEmpty)).map
    (fun q => (q.1, pieceBytes strided r v))

/-- The context, poisoned where what an instruction moves is. -/
def VeRun.joined (pz : Bool) : VeRun := { r with poison := r.poison || pz }

@[simp] theorem VeRun.joined_cycles (pz : Bool) : (r.joined pz).cycles = r.cycles := rfl

/-- Does the register, an address or the mask poison what a store writes? -/
def storePoison : Bool := r.vecPoison v.df v.va.toNat || addrPoison strided r v || r.maskPoison v.mask.toNat

/-- One piece of a store, by its address and first element. -/
def storeMoved (d : Nat) (upd : Bool) (t : State) (q : Nat × Nat) : State :=
  let old := match veGet t d upd q.1 (pieceBytes strided r v) with
    | .bytes b _ => b
    | _ => []
  let kept := keptMarks t d upd q.1 (pieceMerged strided r v q.2)
  (byteRuns 0 (storeMerge v.df (slice (r.elems v.df v.va.toNat) q.2 (pieceElems strided r v)) (pieceOn strided r v q.2) old)
    none).foldl (fun t run => vePutMarked t d (writerTag r upd) (r.queue, r.idx) (q.1 + run.1) run.2
      (fun place => storePoison strided r v || kept.contains place)) t

/-- The ranges of the elements that a half load moves. -/
def halfRanges : List (Nat × Nat) :=
  ((List.range 2048).filter (Config.halfMoves w)).map
    (fun i => ((memAddr r v + Config.halfOffset w i) % 2 ^ 56, fmtBytes v.df 1))

/-- The elements that it brings to VD. -/
def halfElems (data : List Byte) : List (Option Nat) :=
  let es := (List.range 2048).filter (Config.halfMoves w)
  (List.range 2048).map (fun i => if es.contains i && r.on v.mask.toNat i
    then some (unpackElem v.df (slice data (es.idxOf i * fmtBytes v.df 1) (fmtBytes v.df 1)) 0) else none)

/-- The elements that a half store moves. -/
def halfStored : List Nat := (List.range 2048).filter (fun i => Config.halfMoves w i && r.on v.mask.toNat i)

end

section
variable {strided upd poison : Bool} {d a : Nat} {s t : State} {r : VeRun} {w : Word} {v : VeWord} {data : List Byte} {p : Place}

/-! ### What each access answers -/

theorem veLoad_bytes (there : veGetAll s d upd (accessRanges strided r v) = .bytes data poison) :
    veLoad strided d s r upd w v = .done (veTouch s d upd (accessRanges strided r v))
      (r.putElems v.df v.vd.toNat (loadElems strided r v data)
        (poison || addrPoison strided r v || r.maskPoison v.mask.toNat)) := by
  unfold accessRanges pieceBytes pieceElems at there
  simp only [veLoad, there]
  rfl

theorem veLoad_bad (bad : veGetAll s d upd (accessRanges strided r v) = .bad a p) :
    veLoad strided d s r upd w v = .bad a p := by
  unfold accessRanges pieceBytes pieceElems at bad
  simp only [veLoad, bad]

theorem veStore_bytes (clear : (memPieces strided r v).1.findSome? (fun q => slotFault s q.1 (pieceBytes strided r v)) = none)
    (there : veGetAll s d upd (mergedRanges strided r v) = .bytes data poison) :
    veStore strided d s r upd w v = .done ((memPieces strided r v).1.foldl (storeMoved strided r v d upd)
      (veTouch s d upd (mergedRanges strided r v))) (r.joined (storePoison strided r v)) := by
  unfold pieceBytes pieceElems at clear
  unfold mergedRanges pieceMerged pieceOn pieceBytes pieceElems at there
  simp only [veStore, clear, there]
  rfl

theorem veStore_bad
    (fault : (memPieces strided r v).1.findSome? (fun q => slotFault s q.1 (pieceBytes strided r v)) = some (a, p)) :
    veStore strided d s r upd w v = .bad a p := by
  unfold pieceBytes pieceElems at fault
  simp only [veStore, fault]

theorem veHalfLoad_bytes (there : veGetAll s d upd (halfRanges r w v) = .bytes data poison) :
    veHalfLoad d s r upd w v = .done (veTouch s d upd (halfRanges r w v))
      (r.putElems v.df v.vd.toNat (halfElems r w v data) (poison || addrPoison false r v || r.maskPoison v.mask.toNat)) := by
  unfold veHalfLoad
  extract_lets es len rs
  rw [show veGetAll s d upd rs = _ from there]
  rfl

theorem veHalfLoad_wait (wait : veGetAll s d upd (halfRanges r w v) = .wait t) : veHalfLoad d s r upd w v = .wait t := by
  unfold veHalfLoad
  extract_lets es len rs
  rw [show veGetAll s d upd rs = _ from wait]

theorem veHalfLoad_bad (bad : veGetAll s d upd (halfRanges r w v) = .bad a p) : veHalfLoad d s r upd w v = .bad a p := by
  unfold veHalfLoad
  extract_lets es len rs
  rw [show veGetAll s d upd rs = _ from bad]

theorem veHalfStore_clear (clear : (halfStored r w v).findSome? (fun i =>
      slotFault s ((memAddr r v + Config.halfOffset w i) % 2 ^ 56) (fmtBytes v.df 1)) = none) :
    veHalfStore d s r upd w v = .done ((halfStored r w v).foldl (fun t i => vePut t d (writerTag r upd) (r.queue, r.idx)
      ((memAddr r v + Config.halfOffset w i) % 2 ^ 56) (packElems v.df [(r.elems v.df v.va.toNat).getD i 0])
      (storePoison false r v)) s) (r.joined (storePoison false r v)) := by
  unfold veHalfStore
  extract_lets k es at_ len
  rw [show es.findSome? (fun i => slotFault s (at_ i) len) = none from clear]
  rfl

theorem veHalfStore_bad (fault : (halfStored r w v).findSome? (fun i =>
      slotFault s ((memAddr r v + Config.halfOffset w i) % 2 ^ 56) (fmtBytes v.df 1)) = some (a, p)) :
    veHalfStore d s r upd w v = .bad a p := by
  unfold veHalfStore
  extract_lets k es at_ len
  rw [show es.findSome? (fun i => slotFault s (at_ i) len) = some (a, p) from fault]

end

/-- Settles O44: the command of each access issues it, and what its reads and its faults are decides its answer. -/
theorem veMemoryMoved : Obligations.VeMemoryMoved := by
  unfold Obligations.VeMemoryMoved
  intro d x s u w r upd v k go fault one half issued room
  have done (t : State) {y : VeRun} (same : y.cycles = r.cycles) : veOutcome u d.val upd r 1 (.done t y) = go t y :=
    veOutcome_done room same
  have step {op : Nat} (opcode : v.op.toNat = op) (act : State → VeRun → Bool → Word → VeWord → VeAct) :
      veStep s d x op oneCycle act = veOutcome u d.val upd r 1 (act u r upd w v) := veStep_issued issued opcode oneCycle act
  refine ⟨?_, ?_, ?_⟩
  · intro strided load store ps n len on merging pz forms
    refine ⟨fun opcode => ?_, fun opcode => ?_⟩
    · have runs : exec load s = .next (veStep s d x (if strided then 5 else 1) oneCycle (veLoad strided d.val)) := by
        rcases forms with ⟨rfl, rfl, rfl⟩ | ⟨rfl, rfl, rfl⟩ <;> rfl
      rw [runs, step opcode]
      refine ⟨fun data poison there => ?_, fun a q bad => ?_⟩
      · rw [veLoad_bytes there, done _ (VeRun.putElems_cycles ..)]
        rfl
      · rw [veLoad_bad bad]
        rfl
    · have runs : exec store s = .next (veStep s d x (if strided then 6 else 2) oneCycle (veStore strided d.val)) := by
        rcases forms with ⟨rfl, rfl, rfl⟩ | ⟨rfl, rfl, rfl⟩ <;> rfl
      rw [runs, step opcode]
      refine ⟨fun data poison clear there => ?_, fun a q bad => ?_⟩
      · rw [veStore_bytes clear there, done _ (VeRun.joined_cycles ..)]
        rfl
      · rw [veStore_bad bad]
        rfl
  · intro opcode es
    have runs : exec (.vldh d x) s = .next (veStep s d x 3 oneCycle (veHalfLoad d.val)) := rfl
    rw [runs, step opcode]
    split
    case h_1 there => rw [veHalfLoad_bytes there, done _ (VeRun.putElems_cycles ..)]; rfl
    case h_2 wait => rw [veHalfLoad_wait wait]; rfl
    case h_3 bad => rw [veHalfLoad_bad bad]; rfl
  · intro opcode es pz
    have runs : exec (.vsth d x) s = .next (veStep s d x 4 oneCycle (veHalfStore d.val)) := rfl
    rw [runs, step opcode]
    split
    case h_1 clear =>
      rw [veHalfStore_clear clear, done _ (VeRun.joined_cycles ..)]
      rfl
    case h_2 bad => rw [veHalfStore_bad bad]; rfl

end Sys2Proof.Machine
end

section
/-! Programs of the vector engine (04 R87, R88, R91, R94; 06 R135), and O45. -/

namespace Sys2Proof.Machine

/-! ### Contexts -/

section
variable {s : State} (canonical : mwf Ve.init 0 s.ves = true) (d : Nat) (upd : Bool) (r : VeRun)
include canonical

theorem veRun_setVeRun_same : veRun (setVeRun s d upd r) d upd = r := by
  have same (x : Ve) : (s.setVe d x).ve d = x := mget_mput_same x canonical
  cases upd <;> simp [veRun, setVeRun, same]

theorem veRun_setVeRun_other : veRun (setVeRun s d upd r) d (!upd) = veRun s d (!upd) := by
  have same (x : Ve) : (s.setVe d x).ve d = x := mget_mput_same x canonical
  cases upd <;> simp [veRun, setVeRun, same]

end

@[simp] theorem veRun_modJob (s : State) (q : Nat) (i : BitVec 32) (f : Job → Job) (d : Nat) (upd : Bool) :
    veRun (s.modJob q i f) d upd = veRun s d upd := rfl

/-! ### Scalars and arguments of a program (04 R87; 06 R135) -/

section
variable {r : VeRun} {n m : Nat}

theorem VeRun.scalar_putScalar_same (canonical : mwf 0 0 r.s = true) (v : Word) (p : Bool) :
    (r.putScalar n v p).scalar n = v := by
  simp only [VeRun.scalar, VeRun.putScalar, mget_mput_new r.sw n (show true ≠ false by decide), if_true,
    mget_mput_same v canonical]

theorem VeRun.scalar_putScalar_other (canonical : mwf 0 0 r.s = true) (v : Word) (p : Bool) (other : m ≠ n) :
    (r.putScalar n v p).scalar m = r.scalar m := by
  have written : mget false (mput false r.sw n true) m = mget false r.sw m := by
    simp only [mget, mfind_mput_other r.sw (show true ≠ false by decide) other]
  simp only [VeRun.scalar, VeRun.putScalar, written, mget_mput_other v canonical other]

end

/-- A context whose first scalars are the arguments of a descriptor. -/
def withArgs (words : List Word) (n : Nat) (r : VeRun) : VeRun :=
  (List.range n).foldl (fun x k => x.putScalar k (dword words (6 + k)) false) r

section
variable (words : List Word) (n : Nat) {r : VeRun}

theorem withArgs_succ : withArgs words (n + 1) r = (withArgs words n r).putScalar n (dword words (6 + n)) false := by
  simp only [withArgs, List.range_succ, List.foldl_append, List.foldl_cons, List.foldl_nil]

/-- Arguments are written to scalars alone. -/
theorem withArgs_eq :
    withArgs words n r = { r with s := (withArgs words n r).s, sw := (withArgs words n r).sw, sp := (withArgs words n r).sp } := by
  induction n with
  | zero => rfl
  | succ n ih =>
    rw [withArgs_succ, ih]
    simp only [VeRun.putScalar, Bool.or_false]

theorem withArgs_canonical (canonical : mwf 0 0 r.s = true) : mwf 0 0 (withArgs words n r).s = true := by
  induction n with
  | zero => exact canonical
  | succ n ih =>
    rw [withArgs_succ]
    exact mwf_mput _ ih (Nat.zero_le n)

theorem withArgs_scalar (canonical : mwf 0 0 r.s = true) (fresh : r.sw = []) (k : Nat) :
    (withArgs words n r).scalar k = if k < n then dword words (6 + k) else 0 := by
  induction n with
  | zero => simp [withArgs, VeRun.scalar, fresh, mget, mfind]
  | succ n ih =>
    rw [withArgs_succ]
    by_cases last : k = n
    · subst last
      simp [VeRun.scalar_putScalar_same (withArgs_canonical words k canonical)]
    · rw [VeRun.scalar_putScalar_other (withArgs_canonical words n canonical) _ _ last, ih]
      have same : k < n + 1 ↔ k < n := by omega
      simp only [same]

end

/-- A context in which nothing is written yet, at the start of a descriptor's program. -/
def veFresh (r : VeRun) (q : Nat) (i : BitVec 32) (words : List Word) : VeRun :=
  { r with active := true, queue := q, idx := i, prog := wbits (dword words 5) 55 0, pc := 0, cycles := 0, fp := 0,
           poison := false, vw := [], sw := [], mw := [], loops := [], pubs := [], lines := [] }

/-- A ready descriptor starts its program on an idle engine of a die in service. -/
theorem veDescriptor_starts {q : QId} {i : BitVec 32} {s : State} {j : Job} (job : s.job q.val i = some j)
    (typ : descType j.words = 2) (ready : j.phase = .ready) (idle : (veRun s (queueDie q.val) false).active = false)
    (unheld : (s.ve (queueDie q.val)).hold = none) (up : dieUp s (queueDie q.val) = true) :
    veDescriptor q i s = (setVeRun s (queueDie q.val) false
      (withArgs j.words 8 (veFresh (veRun s (queueDie q.val) false) q.val i j.words))).modJob q.val i
        (fun j => { j with phase := .working }) := by
  unfold veDescriptor
  simp [job, typ, ready, idle, unheld, up]
  rfl

/-- A fresh context with its arguments: they stand in its first scalars, and nothing else is written. -/
theorem withArgs_fresh {r : VeRun} (canonical : mwf 0 0 r.s = true) (q : Nat) (i : BitVec 32) (words : List Word) :
    let y := withArgs words 8 (veFresh r q i words)
    y.active = true ∧ y.pc = 0 ∧ y.cycles = 0 ∧ y.prog = wbits (dword words 5) 55 0 ∧ y.poison = false ∧ y.queue = q
      ∧ y.idx = i ∧ (∀ n, n < 8 → y.scalar n = dword words (6 + n)) ∧ (∀ n, 8 ≤ n → y.scalar n = 0)
      ∧ (∀ n, y.reg n = VReg.zero)
      ∧ ∀ k e, 0 < k → y.on k e = false := by
  intro y
  have kept : y = _ := withArgs_eq words 8 (r := veFresh r q i words)
  have scalars := withArgs_scalar words 8 (r := veFresh r q i words) canonical rfl
  have registers : y.vw = [] := by rw [kept]; rfl
  have masks : y.mw = [] := by rw [kept]; rfl
  refine ⟨?_, ?_, ?_, ?_, ?_, ?_, ?_, fun n low => ?_, fun n high => ?_, fun n => ?_, fun k e named => ?_⟩
  iterate 7 rw [kept]; rfl
  · rw [scalars, if_pos low]
  · rw [scalars, if_neg (Nat.not_lt.mpr high)]
  · simp [VeRun.reg, registers, mget, mfind]
  · simp [VeRun.on, masks, mget, mfind, Nat.ne_of_gt named]

/-! ### Branches, the end and the limit (04 R91, R94) -/

/-- A program that ends: one of the main context past its limit, or OK, or POISONED where anything in it was. -/
theorem veEnds_eq (t : State) (d : Nat) (upd : Bool) (x : VeRun) (cost : Nat) : veEnds t d upd x cost =
    let u := countCycles t d upd cost
    let z := { x with cycles := x.cycles + cost }
    if upd then setVeRun u d true { z with active := false, lines := [] }
    else if dnum u 0x2040 1 < z.cycles then endMain (sticky u 0xA040 3 d) d z 0x14 0
    else endMain u d z (if z.poison then 1 else 0) 0 := by
  simp only [veEnds, endOk, overLimit, endLimit, decide_eq_true_eq]

/-- Settles O45: the start of a program; its branches and its end, by what their operations answer; a word that is refused
whichever command meets it; and the limit. -/
theorem veProgramsRun : Obligations.VeProgramsRun := by
  unfold Obligations.VeProgramsRun
  refine ⟨?_, ?_, ?_, ?_⟩
  · intro q i s j d job typ ready idle unheld up inv canonical
    obtain ⟨-, -, -, -, -, -, -, ves, -⟩ := inv.parts
    let y := withArgs j.words 8 (veFresh (veRun s d false) q.val i j.words)
    have starts : exec (.veDescriptor q i) s = .next _ :=
      congrArg Host.Outcome.next (veDescriptor_starts job typ ready idle unheld up)
    have main : veRun (setVeRun s d false y) d false = y := veRun_setVeRun_same ves d false y
    have update : veRun (setVeRun s d false y) d true = veRun s d true := veRun_setVeRun_other ves d false y
    obtain ⟨active, pc, cycles, prog, poison, queue, idx, args, others, regs, masks⟩ :=
      withArgs_fresh canonical q.val i j.words
    refine ⟨_, starts, rfl, ?_⟩
    rw [veRun_modJob, veRun_modJob, main, update]
    exact ⟨active, pc, cycles, prog, poison, queue, idx, args, others, regs, masks, rfl⟩
  · intro d x s u w r upd v n goal go ends issued
    have step {op : Nat} (opcode : v.op.toNat = op) (act : State → VeRun → Bool → Word → VeWord → VeAct) :
        (.next (veStep s d x op oneCycle act) : Host.Outcome State Fault Refusal) =
          .next (veOutcome u d.val upd r 1 (act u r upd w v)) :=
      congrArg Host.Outcome.next (veStep_issued issued opcode oneCycle act)
    have ending (y : VeRun) (same : y.cycles = r.cycles) : veOutcome u d.val upd r 1 (.over u y) = ends y := by
      rw [veOutcome, veEnds_eq, same]
    refine ⟨fun opcode => step opcode _, fun opcode sound => ?_, fun opcode spoiled => ?_, fun opcode => ?_, fun opcode => ?_⟩
    · refine (step opcode _).trans ?_
      rw [sound, if_neg Bool.false_ne_true]
      split
      · rfl
      · rfl
    · refine (step opcode _).trans ?_
      rw [spoiled, if_pos rfl, ending { r with poison := true } rfl]
    · refine (step opcode _).trans ?_
      extract_lets
      split
      · rfl
      · rfl
    · exact (step opcode _).trans (congrArg Host.Outcome.next (ending r rfl))
  · intro d x s t w p r fetch refused
    have ended (op : Nat) (act : State → VeRun → Bool → Word → VeWord → VeAct) :
        (.next (veStep s d x op oneCycle act) : Host.Outcome State Fault Refusal) = .next (refuseVe t d.val x.upd r r.pc) :=
      congrArg Host.Outcome.next (veStep_refused fetch refused)
    exact ⟨ended _ _, ended _ _, ended _ _⟩
  · intro d s r active past
    refine congrArg Host.Outcome.next (if_pos ?_)
    rw [show (veRun s d.val false).active = true from active, Bool.true_and]
    exact decide_eq_true past

end Sys2Proof.Machine
end

section
/-! The fixed kernels of the vector engine (04 R96 to R99): what a row, the rows and a kernel's word answer, and O46. -/

namespace Sys2Proof.Machine

/-! ### Rows (04 R96, R97) -/

section
variable {k : Kernel} {b : KBlock} {d row : Nat} {pz : Bool} {s : State} {r : VeRun}

/-- A row's operands are there, and nothing it writes faults. -/
def RowReady (k : Kernel) (b : KBlock) (d row : Nat) (s : State) : Prop :=
  (∃ data q, veGetAll s d false (kReads k b row) = .bytes data q)
    ∧ (kWrites k b row).findSome? (fun e => slotFault s e.1 e.2) = none

/-- What the row stores, with its flags and whether it is poisoned. -/
def rowStored (k : Kernel) (b : KBlock) (d row : Nat) (pz : Bool) (s : State) (r : VeRun) : State × Nat × Bool :=
  kPut k b (veTouch s d false (kReads k b row)) d (writerTag r false) (r.queue, r.idx) row pz (kRow k b s d row)

/-- The state and the context after the row, its cycles and flags counted. -/
def rowState (k : Kernel) (b : KBlock) (d row : Nat) (pz : Bool) (s : State) (r : VeRun) : State :=
  (countCycles (rowStored k b d row pz s r).1 d false (kCycles k b)).modJob r.queue r.idx
    (fun j => { j with nextOff := row + 1 })
def rowRun (k : Kernel) (b : KBlock) (d row : Nat) (pz : Bool) (s : State) (r : VeRun) : VeRun :=
  { r with cycles := r.cycles + kCycles k b, lines := [],
           poison := r.poison || (rowStored k b d row pz s r).2.2 }.raise (rowStored k b d row pz s r).2.1

theorem kernelRow_done (ready : RowReady k b d row s) : kernelRow k b d row pz s r =
    .done (countCycles (rowStored k b d row pz s r).1 d false (kCycles k b)) (rowRun k b d row pz s r) := by
  obtain ⟨⟨data, q, there⟩, clear⟩ := ready
  simp only [kernelRow, there, clear]
  rfl

/-- With every row stored, the kernel is over. -/
theorem kernelRows_over (all : b.rows ≤ row) (n : Nat) : kernelRows k b d pz n row s r = .over s r := by
  cases n <;> exact if_pos all

/-- With rows left and none to run, it waits. -/
theorem kernelRows_wait (left : row < b.rows) : kernelRows k b d pz 0 row s r = .wait (setVeRun s d false r) :=
  if_neg (Nat.not_le.mpr left)

/-- The last row, within the program's limit, is run, and the kernel is over. -/
theorem kernelRows_last (last : b.rows = row + 1) (within : overLimit s r = false) (ready : RowReady k b d row s) (n : Nat) :
    kernelRows k b d pz (n + 1) row s r = .over (rowState k b d row pz s r) (rowRun k b d row pz s r) := by
  have left : ¬b.rows ≤ row := by omega
  simp only [kernelRows, left, if_false, within, Bool.false_eq_true, kernelRow_done ready]
  exact kernelRows_over (Nat.le_of_eq last) n

end

/-! ### The word of a kernel (04 R96, R99) -/

section
variable {k : Kernel} {d limit : Nat} {chained spoiled : Bool} {s : State} {r : VeRun} {w : Word} {v : VeWord}

/-- A kernel is the first instruction of its program, and its block lies in the die's own tier at a multiple of 64, named by
one of S0 to S7. -/
def KernelPlaced (d : Nat) (s : State) (r : VeRun) (v : VeWord) : Prop :=
  r.pc = 0 ∧ v.vc.toNat ≤ 7 ∧ memAddr r v % 64 = 0 ∧ tierFault s d (memAddr r v) 64 = none

/-- The number that its block holds, the block, and whether a word of it or its scalar is poisoned. -/
def kernelNumber (s : State) (r : VeRun) (v : VeWord) : Nat := leNat (readBytes s (addrKey (memAddr r v)) 64)
def kernelBlock (chained : Bool) (n : Nat) : KBlock := if chained then { kBlock n with xFmt := 9 } else kBlock n
def kernelPoison (spoiled : Bool) (s : State) (r : VeRun) (v : VeWord) : Bool :=
  spoiled || rangePoison s (addrKey (memAddr r v)) 64 || r.scalarPoison v.vc.toNat

/-- The first row not stored. -/
def kernelNext (s : State) (r : VeRun) : Nat := ((s.job r.queue r.idx).map Job.nextOff).getD 0

theorem kernelAct_placed (placed : KernelPlaced d s r v) : kernelAct k d limit chained spoiled s r false w v =
    if kRefused k (kernelNumber s r v) then .refuse
    else kernelRows k (kernelBlock chained (kernelNumber s r v)) d (kernelPoison spoiled s r v) limit (kernelNext s r)
      (veTouch s d false [(memAddr r v, 64)]) (r.joined (kernelPoison spoiled s r v)) := by
  obtain ⟨first, scalar, aligned, own⟩ := placed
  have here : (false || r.pc != 0 || decide (7 < v.vc.toNat) || memAddr r v % 64 != 0) = false := by
    simp [first, scalar, aligned]
  simp only [kernelAct, here, own, Bool.false_eq_true, if_false]
  rfl

theorem kernelAct_refused (placed : KernelPlaced d s r v) (refused : kRefused k (kernelNumber s r v) = true) :
    kernelAct k d limit chained spoiled s r false w v = .refuse :=
  (kernelAct_placed placed).trans (if_pos refused)

theorem kernelAct_legal (placed : KernelPlaced d s r v) (legal : kRefused k (kernelNumber s r v) = false) :
    kernelAct k d limit chained spoiled s r false w v =
      kernelRows k (kernelBlock chained (kernelNumber s r v)) d (kernelPoison spoiled s r v) limit (kernelNext s r)
        (veTouch s d false [(memAddr r v, 64)]) (r.joined (kernelPoison spoiled s r v)) :=
  (kernelAct_placed placed).trans (if_neg (ne_true_of_eq_false legal))

theorem kernelOf_op (k : Kernel) : kernelOf k.op = k := by cases k <;> rfl

theorem kernelOp_inRange (k : Kernel) : ¬(k.op < 0x80 ∨ 0x83 < k.op) := by cases k <;> decide

end

/-! ### A kernel's word issued -/

section
variable {k : Kernel} {d : Die} {regs : List RegErr} {s u : State} {w : Word} {r : VeRun}
  (issued : Issues s d .main w u r) (opcode : (veDecode w).op.toNat = k.op)
include issued

/-- A kernel's rows run within the limit of its program. -/
theorem overLimit_of_issued_kernel (ranges : List (Nat × Nat)) (pz : Bool) :
    overLimit (veTouch (fileErrs d.val regs u).1 d.val false ranges) (r.joined pz) = false := by
  have limit : dnum (veTouch (fileErrs d.val regs u).1 d.val false ranges) 0x2040 1 = dnum u 0x2040 1 :=
    (dnum_veTouch _ _ _ _ beforeCounters_limit).trans (dnum_fileErrs beforeCounters_limit d regs u)
  rw [overLimit, limit, decide_eq_false_iff_not]
  exact Nat.not_lt.mpr issued.within

include opcode

/-- A kernel's word leaves what its act answers, no cycle counted for the word itself. -/
theorem kernelIssue_issued (limit : Nat) (chained : Bool) : kernelIssue k limit chained regs s d = veOutcome u d.val false r 0
    (kernelAct k d.val limit chained (fileErrs d.val regs u).2 (fileErrs d.val regs u).1 r false w (veDecode w)) :=
  veStep_issued issued opcode _ _

/-- CHAINED_BLOCK_START runs at least one row of a chained kernel whose rows have been emitted (04 R99). -/
theorem chainedBlock_issues (chained : kernelChained s d.val = true) (emitted : rowsEmitted s r.queue r.idx = true) :
    ∃ n, chainedBlock d regs s = kernelIssue k (n + 1) true regs s d := by
  obtain ⟨queue, idx⟩ := issued.descriptor
  obtain ⟨t, v, p, fetch, -⟩ := issued
  have fetched : veFetch s d.val false = .word t w p := fetch
  rw [queue, idx] at emitted
  have rows (row : Nat) : 128 - row % 128 = 127 - row % 128 + 1 := by omega
  simp only [chainedBlock, chained, emitted, fetched, opcode, kernelOp_inRange, kernelOf_op, rows, Bool.not_true, Bool.or_self,
    Bool.false_eq_true, if_false]
  exact ⟨_, rfl⟩

end

/-- Settles O46: a kernel's command and CHAINED_BLOCK_START issue its word, and its rows decide what it answers: refused,
over with the last one run, or waiting where none is to run. -/
theorem kernelRowsRun : Obligations.KernelRowsRun := by
  unfold Obligations.KernelRowsRun
  intro d errs regs s u w r k c s0 chained t v a n b pz r' t0 row res m counted ended command issued opcode first scalar
    aligned own
  have issues : Issues s0 d .main w u r := issued
  have placed : KernelPlaced d.val t r v := ⟨first, scalar, aligned, own⟩
  have issue (limit : Nat) : kernelIssue k limit chained regs s0 d = _ := kernelIssue_issued issues opcode limit chained
  have runs : exec c s = .next (kernelIssue k (if chained then 0 else 4096) chained regs s0 d) := by
    rcases command with ⟨rfl, rfl⟩ | ⟨rfl, rfl⟩ | ⟨rfl, rfl⟩ | ⟨rfl, rfl⟩ <;> rfl
  rw [runs]
  refine ⟨fun refused => ?_, fun legal last data q there clear => ?_⟩
  · rw [issue, kernelAct_refused placed refused, veOutcome, first]
  · have within : overLimit t0 r' = false := overLimit_of_issued_kernel issues [(a, 64)] pz
    have ready : RowReady k b d.val row t0 := ⟨⟨data, q, there⟩, clear⟩
    have act (limit : Nat) : kernelAct k d.val limit chained (fileErrs d.val regs u).2 (fileErrs d.val regs u).1 r false w
        (veDecode w) = kernelRows k b d.val pz limit row t0 r' := kernelAct_legal placed legal
    have whole (n : Nat) : kernelIssue k (n + 1) chained regs s0 d = ended := by
      rw [issue, act, kernelRows_last last within ready]
      rfl
    refine ⟨fun alone => ?_, fun chain emitted => ⟨?_, ?_⟩⟩
    · rw [alone, if_neg Bool.false_ne_true, ← alone, whole 4095]
    · rw [if_pos chain, issue, act, kernelRows_wait (by omega)]
      rfl
    · obtain ⟨n, block⟩ := chainedBlock_issues (regs := regs) issues opcode chain emitted
      exact congrArg _ (block.trans (chain ▸ whole n))

end Sys2Proof.Machine
end

section
/-! The update lane (04 R100 to R103; 05 R116, R117, R119): the start of a request, its blocks and its wait, and O47. -/

namespace Sys2Proof.Machine

/-! ### The start of a request and the end of its wait (04 R100, R102, R103) -/

section
variable {d : Die} {s : State} {u : UpdReq} {rest : List UpdReq}

/-- The next request of a lane may start: its bell has reached its value. -/
def UpdDue (s : State) (d : Nat) (u : UpdReq) (rest : List UpdReq) : Prop :=
  s.lane d = u :: rest ∧ u.running = false ∧ (s.ve d).hold = none ∧ dieUp s d = true ∧ updValue u ≤ s.bell (updBell u)

theorem updateRequestStart_poisoned (due : UpdDue s d.val u rest) (poisoned : u.poisoned = true) : updateRequestStart d s =
    finish (sticky (freeSlice (nextUpdate (acquire s d.val) d.val rest) d.val) 0xA040 5 d.val) u.queue u.idx 0x01 0 := by
  obtain ⟨lane, waits, unheld, up, reached⟩ := due
  have struck : ¬s.bell (updBell u) < updValue u := BitVec.not_lt.mpr reached
  simp [updateRequestStart, lane, waits, unheld, up, struck, poisoned]

/-- A whole slice's block is judged once its bytes are there. -/
theorem updateRequestStart_judged (due : UpdDue s d.val u rest) (sound : u.poisoned = false) {data : List Byte} {pz : Bool}
    (there : updParam (acquire s d.val) d.val u = .bytes data pz) : updateRequestStart d s =
    let t := veTouch (acquire s d.val) d.val true [(updParamAddr u, 128)]
    if uRefused (leNat data) then failUpdate (sticky t 0xA040 2 d.val) d.val 0 false
    else if (updTensors u (uBlock (leNat data)) (List.range (min 128 u.rows))).any (meetsFrozen t) then
      failUpdate (sticky t 0xA050 3 d.val) d.val 0 false
    else t.setLane d.val ({ u with running := true, block := 0, loaded := false } :: rest) := by
  obtain ⟨lane, waits, unheld, up, reached⟩ := due
  have struck : ¬s.bell (updBell u) < updValue u := BitVec.not_lt.mpr reached
  simp [updateRequestStart, lane, waits, unheld, up, struck, sound, there]

theorem updateWaitTimeout_past (lane : s.lane d.val = u :: rest) (waits : u.running = false)
    (short : s.bell (updBell u) < updValue u) (past : dnum s 0x2060 2 * 1024 ≤ (clock s - u.at_).toNat) :
    updateWaitTimeout d s =
      finish (sticky (freeSlice (nextUpdate s d.val rest) d.val) 0xA060 2 d.val) u.queue u.idx 0x1A (updBell u) := by
  simp only [updateWaitTimeout, lane, waits, short, Nat.not_lt.mpr past, decide_true, decide_false, Bool.not_true, Bool.or_self,
    Bool.false_eq_true, if_false]

end

/-! ### A running request (04 R101) -/

@[simp] theorem lane_setVeRun (s : State) (d : Nat) (upd : Bool) (r : VeRun) (e : Nat) :
    (setVeRun s d upd r).lane e = s.lane e := rfl

section
variable {d : Nat} {s : State} {u : UpdReq} {rest : List UpdReq} {b : UBlock} {data : List Byte} {pz : Bool}

/-- The first request of a lane runs, and its parameter block can be read. -/
def UpdRuns (s : State) (d : Nat) (u : UpdReq) (rest : List UpdReq) (data : List Byte) (pz : Bool) : Prop :=
  s.lane d = u :: rest ∧ u.running = true ∧ (s.ve d).hold = none ∧ dieUp s d = true ∧ u.block < 32
    ∧ updParam s d u = .bytes data pz

/-- The operands of its next block are there, and nothing the block writes faults. -/
def UpdReady (s : State) (d : Nat) (u : UpdReq) (b : UBlock) : Prop :=
  (∃ rd q, veGetAll s d true (updReads u b) = .bytes rd q)
    ∧ (updWrites u b).findSome? (fun e => slotFault s e.1 e.2) = none

/-- The state once its parameter block has been read. -/
def paramRead (s : State) (d : Nat) (u : UpdReq) : State := veTouch s d true [(updParamAddr u, 128)]

theorem withUpdate_runs (runs : UpdRuns s d u rest data pz) (act : State → UpdReq → UBlock → Bool → State) :
    withUpdate d act s = act (paramRead s d u) u (uBlock (leNat data)) pz := by
  obtain ⟨lane, running, unheld, up, more, there⟩ := runs
  simp [withUpdate, paramRead, lane, running, unheld, up, Nat.not_le.mpr more, there]

theorem updBlock_of_lane (lane : s.lane d = u :: rest) : updBlock s d = u.block := by
  rw [updBlock, lane]
  rfl

/-! ### Blocks of a fixed algorithm (04 R101) -/

/-- The block applied: its results stored, all of them poisoned where any operand or a word of the register file is. -/
def updApplied (s : State) (d : Nat) (u : UpdReq) (b : UBlock) (pz : Bool) : State :=
  let x := updData s d u b
  let out := updCompute b x
  let bad := pz || x.pg || x.pw || x.pm || x.pv
  updPut (veTouch s d true (updReads u b)) d u b (out.map (List.map UElem.w)) (out.map (List.map UElem.m))
    (out.map (List.map UElem.v)) bad bad bad (out.foldl (fun f row => row.foldl (fun f e => f ||| e.fp) f) x.fp) (updCycles b)

theorem updBlockStep_ready (ready : UpdReady s d u b) (pz : Bool) : updBlockStep s d u b pz = updApplied s d u b pz := by
  obtain ⟨⟨rd, q, there⟩, clear⟩ := ready
  simp only [updBlockStep, there, clear]
  rfl

theorem lane_setLane_cons (s : State) (d : Nat) (u : UpdReq) (rest : List UpdReq) :
    (s.setLane d (u :: rest)).lane d = u :: rest := mget_mput_new s.lanes d (List.cons_ne_nil u rest)

/-- A request after a block: the lane goes on from its next one, and after the last its release starts (04 R103). -/
def updAfter (s : State) (d : Nat) (freed : Bool) (u : UpdReq) : State :=
  let rest := (s.lane d).drop 1
  if u.block < 32 then s.setLane d (u :: rest)
  else
    let (tags, t) := startRelease (if freed then s else freeSlice s d) d 64 .update
    settleUpdate (t.setLane d ({ u with wrTags := tags, freed := true } :: rest)) d

/-- Whatever a block stores, its request then has one block more: the stores of `updPut` only name the state in which it
ends. -/
theorem updPut_after (s : State) (d : Nat) (u : UpdReq) (b : UBlock) (w m v : List (List Nat)) (pw pm pv : Bool)
    (fp cycles : Nat) : ∃ t f, updPut s d u b w m v pw pm pv fp cycles =
      updAfter t d u.freed { u with block := u.block + 1, loaded := false, fp := f } := ⟨_, _, rfl⟩

/-- Before its last block, it is the first of its lane, at the next block. -/
theorem updApplied_goesOn (more : u.block < 31) (b : UBlock) (pz : Bool) :
    ∃ x l, (updApplied s d u b pz).lane d = x :: l ∧ x.block = u.block + 1 := by
  obtain ⟨t, f, same⟩ := updPut_after ..
  rw [updApplied, same, updAfter, if_pos (Nat.succ_lt_succ more)]
  exact ⟨_, _, lane_setLane_cons .., rfl⟩

theorem updBlock_updApplied (more : u.block < 31) (b : UBlock) (pz : Bool) :
    updBlock (updApplied s d u b pz) d = u.block + 1 := by
  obtain ⟨x, l, lane, next⟩ := updApplied_goesOn (s := s) (d := d) more b pz
  rw [updBlock_of_lane lane, next]

section
variable {algo : Nat} {spoiled : Bool} (runs : UpdRuns s d u rest data pz) (fixed : (uBlock (leNat data)).algo = algo)
  (ready : UpdReady (paramRead s d u) d u (uBlock (leNat data)))
include runs fixed ready

/-- A running request whose operands are there has its next block applied. -/
theorem withUpdate_applies : withUpdate d (fun s u b pz => if b.algo = algo then updBlockStep s d u b (spoiled || pz) else s) s =
    updApplied (paramRead s d u) d u (uBlock (leNat data)) (spoiled || pz) := by
  rw [withUpdate_runs runs, if_pos fixed, updBlockStep_ready ready]

theorem updBlocks_last :
    updBlocks d algo spoiled 1 s = updApplied (paramRead s d u) d u (uBlock (leNat data)) (spoiled || pz) := by
  simp only [updBlocks, withUpdate_applies runs fixed ready, ite_self]

theorem updBlocks_goesOn (more : u.block < 31) (n : Nat) : updBlocks d algo spoiled (n + 1) s =
    updBlocks d algo spoiled n (updApplied (paramRead s d u) d u (uBlock (leNat data)) (spoiled || pz)) := by
  obtain ⟨x, l, lane, next⟩ := updApplied_goesOn (s := paramRead s d u) (d := d) more (uBlock (leNat data)) (spoiled || pz)
  have before : updBlock s d = u.block := updBlock_of_lane runs.1
  have applied := updBlock_updApplied (s := paramRead s d u) (d := d) more (uBlock (leNat data)) (spoiled || pz)
  simp only [updBlocks, withUpdate_applies runs fixed ready, lane, applied, before, List.isEmpty_cons, Bool.false_or,
    Nat.succ_ne_self, decide_false, Bool.false_eq_true, if_false]

end

/-! ### Blocks of a user program (04 R101) -/

/-- The context in which a user program starts: V48 to V51 hold the block's g, w, m and v, and nothing else is written. -/
def updLoaded (s : State) (d : Nat) (u : UpdReq) (b : UBlock) (pz : Bool) : VeRun :=
  let x := updData s d u b
  let clean : VeRun :=
    { veRun s d true with
      active := true, queue := u.queue, idx := u.idx, prog := b.prog, pc := 0, cycles := 0, fp := BitVec.ofNat 8 x.fp,
      poison := false, vw := [], sw := [], mw := [], loops := [], pubs := [], lines := [] }
  updReg (updReg (updReg (updReg clean 48 x.g (pz || x.pg)) 49 x.w (pz || x.pw)) 50 x.m (pz || x.pm)) 51 x.v (pz || x.pv)

/-- The state in which it starts. -/
def updStarted (s : State) (d : Nat) (u : UpdReq) (b : UBlock) (pz : Bool) : State :=
  setVeRun (veTouch s d true (updReads u b)) d true (updLoaded s d u b pz)

section
variable (user : b.algo = 3) (idle : (veRun s d true).active = false) (ready : UpdReady s d u b)
include user idle ready

theorem updUserProgram_stores (loaded : u.loaded = true) (pz : Bool) : updUserProgram d s u b pz =
    let r := veRun s d true
    updPut s d u b (updUnreg u r 49) (updUnreg u r 50) (updUnreg u r 51) (pz || r.vecPoison 9 49) (pz || r.vecPoison 9 50)
      (pz || r.vecPoison 9 51) r.fp.toNat 0 := by
  obtain ⟨⟨rd, q, there⟩, clear⟩ := ready
  simp only [updUserProgram, user, idle, there, clear, loaded, ne_eq, not_true_eq_false, Bool.false_eq_true, or_self, if_false,
    if_true]

theorem updUserProgram_starts (lane : s.lane d = u :: rest) (waits : u.loaded = false) (pz : Bool) :
    updUserProgram d s u b pz =
      (if u.block = 31 then freeSlice (updStarted s d u b pz) d else updStarted s d u b pz).setLane d
        ({ u with loaded := true, freed := decide (u.block = 31) } :: rest) := by
  obtain ⟨⟨rd, q, there⟩, clear⟩ := ready
  simp only [updUserProgram, user, idle, there, clear, waits, ne_eq, not_true_eq_false, Bool.false_eq_true, or_self, if_false,
    decide_eq_true_eq, lane_setVeRun, lane_veTouch, lane, List.drop_succ_cons, List.drop_zero]
  rfl

end

end

/-- Settles O47: a request at its bell, its wait, the blocks of a fixed algorithm, and those of a user program. -/
theorem updatesApplied : Obligations.UpdatesApplied := by
  unfold Obligations.UpdatesApplied
  refine ⟨?_, ?_, ?_, ?_⟩
  · intro d errs s u rest s0 t lane waits unheld up reached
    have due : UpdDue s0 d.val u rest := ⟨lane, waits, unheld, up, reached⟩
    refine ⟨fun poisoned => congrArg Host.Outcome.next (updateRequestStart_poisoned due poisoned), ?_⟩
    intro data pz sound there n t2 frozen
    have runs : exec (.updateRequestStart ⟨d, errs⟩) s = .next (updateRequestStart d s0) := rfl
    rw [runs, updateRequestStart_judged due sound there]
    refine ⟨fun refused => ?_, fun legal meets => ?_, fun legal free => ?_⟩
    · exact congrArg _ (if_pos refused)
    · exact congrArg _ ((if_neg (ne_true_of_eq_false legal)).trans (if_pos meets))
    · exact congrArg _ ((if_neg (ne_true_of_eq_false legal)).trans (if_neg (ne_true_of_eq_false free)))
  · intro d s u rest lane waits short past
    exact congrArg Host.Outcome.next (updateWaitTimeout_past lane waits short past)
  · intro d errs regs s u rest data rd pz q c again algo s0 t spoiled t2 b x out bad after lane running unheld up more there
      reads clear command fixed
    have runs : UpdRuns t d.val u rest data pz := ⟨lane, running, unheld, up, more, there⟩
    have ready : UpdReady (paramRead t d.val u) d.val u b := ⟨⟨rd, q, reads⟩, clear⟩
    obtain ⟨first, next⟩ : exec c s = .next (updBlocks d.val algo spoiled (32 - updBlock t d.val) t)
        ∧ exec again after = .next (updBlocks d.val algo false (32 - updBlock after d.val) after) := by
      rcases command with ⟨rfl, rfl, rfl⟩ | ⟨rfl, rfl, rfl⟩ | ⟨rfl, rfl, rfl⟩ <;> exact ⟨rfl, rfl⟩
    rw [first, updBlock_of_lane lane]
    have goesOn (early : u.block < 31) : updBlocks d.val algo spoiled (32 - u.block) t
        = updBlocks d.val algo spoiled (31 - u.block) after := by
      rw [show 32 - u.block = 31 - u.block + 1 by omega]
      exact updBlocks_goesOn runs fixed ready early _
    refine ⟨fun last => ?_, fun early => congrArg _ (goesOn early), fun early clean => ?_⟩
    · rw [last]
      exact congrArg _ (updBlocks_last runs fixed ready)
    · have applied : updBlock after d.val = u.block + 1 := updBlock_updApplied early b (spoiled || pz)
      rw [goesOn early, next, applied, clean, Nat.add_sub_add_right 31 1 u.block]
  · intro d errs s u rest data rd pz q t t2 b r x lane running unheld up more there reads clear user idle
    have runs : UpdRuns t d.val u rest data pz := ⟨lane, running, unheld, up, more, there⟩
    have ready : UpdReady t2 d.val u b := ⟨⟨rd, q, reads⟩, clear⟩
    have front : t2.lane d.val = u :: rest := (lane_veTouch ..).trans lane
    have acts : exec (.updateUserProgram ⟨d, errs⟩) s = .next (updUserProgram d.val t2 u b pz) :=
      congrArg Host.Outcome.next (withUpdate_runs runs _)
    rw [acts]
    refine ⟨fun loaded => congrArg _ (updUserProgram_stores user idle ready loaded pz), fun waits => ?_⟩
    rw [updUserProgram_starts user idle ready front waits pz]
    intro clean started
    refine ⟨fun early => ?_, fun last => ?_⟩
    · simp only [Nat.ne_of_lt early, if_false, decide_false]
      rfl
    · simp only [last, if_true, decide_true]
      rfl

end Sys2Proof.Machine
end

section
/-! The start of a replay (05 R121), the step phase (05 R113, R114, R119) and arrays between queues (06 R145), and O16. -/

namespace Sys2Proof.Machine

/-! ### The start of a replay (05 R121, R122) -/

/-- The entry of the block table that a REPLAY on a queue names. -/
def replayBlock (s : State) (q : Nat) (j : Job) : Block :=
  mget Block.init (s.cp (queueDie q)).blocks (trainBlock j.words)

/-- A ready REPLAY on a die in service is decided by its block's entry, and then by the queue that the entry names. -/
theorem replayStep_ready {s : State} {q : QId} {i : BitVec 32} {j : Job} (job : s.job q.val i = some j)
    (replay : descType j.words = 3) (ready : j.phase = .ready) (up : dieUp s (queueDie q.val) = true) : replayStep q i s =
      if (replayBlock s q.val j).record = false then
        finish (sticky s 0xA050 2 (queueDie q.val)) q.val i 0x17 (trainBlock j.words)
      else if (replayOn s (replayBlock s q.val j).queue).isSome then s
      else s.modJob q.val i (fun k =>
        { k with phase := .working, need := 1, nextOff := 0, outcomes := (replayBlock s q.val j).outcomes }) := by
  have goesOn : ¬(descType j.words ≠ 3 ∨ j.phase = .finished ∨ dieUp s (queueDie q.val) = false) := by
    simp [replay, ready, up]
  simp only [replayStep, job, Bool.not_eq_true', if_neg goesOn, if_pos ready]
  rfl

/-! ### The step phase (05 R113, R114, R119) -/

/-- Dropping the recordings of phase 1 and opening waits touch no part of the training state. -/
theorem setPhase_train (s : State) (p : BitVec 2) : (setPhase s p).train =
    { phase := p, held := 0, ranges := if p = 1 then frozenRanges s else s.train.ranges } := by
  unfold setPhase
  by_cases leaving : s.train.phase = 1
  · simp only [if_pos leaving, bump_train]
  · simp only [if_neg leaving, bump_train]

theorem execPhaseSwitch_idle {s : State} (held : s.train.held ≠ 0) (idle : phaseBusy s = false) :
    execPhaseSwitch s = .next (setPhase s s.train.held) := by
  have changes : ¬(s.train.held = 0 ∨ phaseBusy s = true) := not_or.mpr ⟨held, ne_true_of_eq_false idle⟩
  rw [execPhaseSwitch, if_neg changes]

/-! ### Arrays between queues (06 R145) -/

section
variable {s : State} {a : ArrId} {o : Nat}

/-- The owner gives up its turn: it has no MATRIX ready, or its turn is closing. -/
def TurnSpent (s : State) (a o : Nat) : Prop := matrixReady s o none = false ∨ (s.arr a).closing = true

/-- The array of an owner whose turn is over, given to the next waiting queue or to none. -/
def passArray (s : State) (a o : Nat) : State :=
  match nextOwner s a o with
  | some w => takeArray s a w
  | none => s.setArr a { s.arr a with owner := none, closing := false }

theorem arrayHandover_passes (owned : (s.arr a.val).owner = some o) (noTest : (s.arr a.val).kat = false)
    (up : dieUp s (a.val / 8) = true) (boundary : atBoundary s a.val = true) (spent : TurnSpent s a.val o) :
    arrayHandover a s = passArray s a.val o := by
  have given : (matrixReady s o none && !(s.arr a.val).closing) = false := by
    rcases spent with unready | closing
    · rw [unready, Bool.false_and]
    · rw [closing, Bool.not_true, Bool.and_false]
  have passes : ((s.arr a.val).kat || !dieUp s (a.val / 8) || !atBoundary s a.val
      || (matrixReady s o none && !(s.arr a.val).closing)) = false := by
    rw [noTest, up, boundary, given]
    rfl
  simp only [arrayHandover, owned, passes, Bool.false_eq_true, if_false]
  rfl

theorem arrayQuantumExpiry_closes (owned : (s.arr a.val).owner = some o) (up : dieUp s (a.val / 8) = true)
    (past : dnum s 0x2060 1 ≤ (clock s - (s.arr a.val).since).toNat / 2 ^ 20)
    (waited : (nextOwner s a.val o).isSome = true) :
    arrayQuantumExpiry a s = s.setArr a.val { s.arr a.val with closing := true } := by
  simp only [arrayQuantumExpiry, owned, up, past, waited, decide_true, Bool.and_self, if_true]

end

/-- Settles O16: a ready REPLAY by its block's entry, the change of phase, and the passing and the closing of an owner's
turn. -/
theorem replayAndPhases : Obligations.ReplayAndPhases := by
  unfold Obligations.ReplayAndPhases
  refine ⟨fun q i s j => ?_, fun s held idle => ⟨execPhaseSwitch_idle held idle, setPhase_train s _⟩,
    fun a s o owned noTest up => ⟨fun boundary spent => ?_, fun past waited => ?_⟩⟩
  · intro e job replay ready up
    refine ⟨fun record free => congrArg Host.Outcome.next ?_, fun missing => congrArg Host.Outcome.next ?_⟩
    · have alone : ¬(replayOn s e.queue).isSome = true := by simp [free]
      exact (replayStep_ready job replay ready up).trans ((if_neg (ne_false_of_eq_true record)).trans (if_neg alone))
    · exact (replayStep_ready job replay ready up).trans (if_pos missing)
  · exact congrArg Host.Outcome.next (arrayHandover_passes owned noTest up boundary spent)
  · exact congrArg Host.Outcome.next (arrayQuantumExpiry_closes owned up past waited)

end Sys2Proof.Machine
end

section
/-! The registers of a queue (06 Tables 6.2 to 6.4, R127, R128): what each write does in each state, and O6. -/

namespace Sys2Proof.Machine

/-! ### QCTL (06 Tables 6.3, 6.4) -/

section
variable {s : State} {q : Nat} {v : Word}

@[simp] theorem qctlFields_state (x : Queue) (v : Word) : (qctlFields x v).state = x.state := by
  unfold qctlFields
  split <;> rfl

@[simp] theorem qctlFields_jobs (x : Queue) (v : Word) : (qctlFields x v).jobs = x.jobs := by
  unfold qctlFields
  split <;> rfl

@[simp] theorem qctlFields_head (x : Queue) (v : Word) : (qctlFields x v).head = x.head := by
  unfold qctlFields
  split <;> rfl

/-- Outside DISABLED and PARKED no field of QCTL changes (06 R127). -/
theorem qctlFields_active {x : Queue} (active : quiet x = false) (v : Word) : qctlFields x v = x :=
  if_neg (ne_true_of_eq_false active)

theorem quiet_running {x : Queue} (running : x.state = .running) : quiet x = false := by
  rw [quiet, running]
  rfl

theorem quiet_error {x : Queue} (error : x.state = .error) : quiet x = false := by
  rw [quiet, error]
  rfl

theorem qctlWrite_enables (disabled : (s.queue q).state = .disabled) (complete : s.boot.complete = true)
    (idle : (s.queue q).jobs = []) (up : unitUp s (queueDie q) = true) (en : v.getLsbD 2 = true)
    (stays : v.getLsbD 3 = false) :
    qctlWrite s q v = s.setQueue q { qctlFields (s.queue q) v with
      park := false, state := .running, inputs := [0, 0, 0, 0], fetched := [], fetchAt := (s.queue q).head } := by
  simp only [qctlWrite, qctlFields_state, qctlFields_jobs, qctlFields_head, disabled, complete, idle, up, en, stays,
    Bool.not_false, List.isEmpty_nil, Bool.and_self, if_true]

theorem qctlWrite_parks (running : (s.queue q).state = .running) (park : v.getLsbD 3 = true) :
    qctlWrite s q v = settleQueue (discardDecoded
      (s.setQueue q { s.queue q with park := true, state := .parking }) q) q := by
  simp [qctlWrite, qctlFields_active (quiet_running running), running, park]

theorem qctlWrite_resumes (parked : (s.queue q).state = .parked) (en : v.getLsbD 2 = true) (stays : v.getLsbD 3 = false) :
    qctlWrite s q v = s.setQueue q { qctlFields (s.queue q) v with
      park := false, state := .running, fetchAt := (s.queue q).head, fetched := [] } := by
  simp only [qctlWrite, qctlFields_state, qctlFields_head, parked, en, stays, Bool.not_true, Bool.not_false,
    Bool.false_eq_true, if_false, if_true]

/-- No held size of a region: the last queue to be disabled resizes nothing (07 R159). -/
theorem rcResize_unheld {d : Nat} (unheld : (s.tier d).rcHeld = none) : rcResize s d = s := by
  rw [rcResize, unheld]

theorem qctlWrite_disables (parked : (s.queue q).state = .parked) (unheld : (s.tier (queueDie q)).rcHeld = none)
    (off : v.getLsbD 2 = false) :
    qctlWrite s q v = s.setQueue q { qctlFields (s.queue q) v with park := v.getLsbD 3, state := .disabled } := by
  simp only [qctlWrite, qctlFields_state, parked, off, Bool.not_false, if_true]
  exact rcResize_unheld unheld

theorem qctlWrite_acknowledges (error : (s.queue q).state = .error) (ack : v.getLsbD 4 = true) :
    qctlWrite s q v = settleQueue (s.setQueue q { s.queue q with ackHeld := true }) q := by
  simp [qctlWrite, qctlFields_active (quiet_error error), error, ack]

end

/-! ### The bits that a command's write forces -/

section
variable {v set clear : Word} {i : Nat}

theorem withBits_getLsbD : (withBits v set clear).getLsbD i =
    ((v.getLsbD i || set.getLsbD i) && (decide (i < 64) && !clear.getLsbD i)) := by
  rw [withBits, BitVec.getLsbD_and, BitVec.getLsbD_or, BitVec.getLsbD_not]

theorem withBits_one (low : i < 64 := by decide) (one : set.getLsbD i = true := by decide)
    (kept : clear.getLsbD i = false := by decide) :
    (withBits v set clear).getLsbD i = true := by
  rw [withBits_getLsbD, one, kept, decide_eq_true low, Bool.or_true, Bool.not_false, Bool.and_self, Bool.and_self]

theorem withBits_zero (zero : clear.getLsbD i = true := by decide) : (withBits v set clear).getLsbD i = false := by
  rw [withBits_getLsbD, zero, Bool.not_true, Bool.and_false, Bool.and_false]

theorem withBits_kept (low : i < 64 := by decide) (free : set.getLsbD i = false := by decide)
    (kept : clear.getLsbD i = false := by decide) :
    (withBits v set clear).getLsbD i = v.getLsbD i := by
  rw [withBits_getLsbD, free, kept, decide_eq_true low, Bool.or_false, Bool.not_false, Bool.and_self, Bool.and_true]

end

/-! ### The other registers (06 Table 6.2) -/

/-- The word of BAR0 in which a register of a queue stands. -/
theorem bar0Write_queueReg (s : State) (q : QId) {reg : Nat} (inside : reg < 64) (aligned : reg % 8 = 0) (v : Word) :
    bar0Write s (BitVec.ofNat 24 (0x10000 + 64 * q.val + reg)).toNat true v = queueReg s q.val reg v := by
  have small := q.isLt
  have off : (BitVec.ofNat 24 (0x10000 + 64 * q.val + reg)).toNat = 0x10000 + 64 * q.val + reg := by
    rw [BitVec.toNat_ofNat]
    omega
  have base : (0x10000 + 64 * q.val + reg) / 8 * 8 = 0x10000 + 64 * q.val + reg := by omega
  have queue : (0x10000 + 64 * q.val + reg - 0x10000) / 64 = q.val := by omega
  have place : (0x10000 + 64 * q.val + reg - 0x10000) % 64 = reg := by omega
  have first : ¬0x10000 + 64 * q.val + reg = 0x10 := by omega
  have second : ¬0x10000 + 64 * q.val + reg = 0x18 := by omega
  have queues : 0x10000 ≤ 0x10000 + 64 * q.val + reg ∧ 0x10000 + 64 * q.val + reg < 0x18400 := by omega
  simp only [bar0Write, off, base, if_neg first, if_neg second, if_pos queues, queue, place, if_true]

theorem execQueueRegisterWrite_reg {s : State} (on : hubOn s = true) (q : QId) {reg : Nat} (inside : reg < 64)
    (aligned : reg % 8 = 0) (v : Word) :
    execQueueRegisterWrite (BitVec.ofNat 24 (0x10000 + 64 * q.val + reg)) true v s = .next (queueReg s q.val reg v) := by
  rw [execQueueRegisterWrite, if_pos on, bar0Write_queueReg s q inside aligned]

section
variable {s : State} {q : Nat} {v : Word}

theorem queueReg_quiet (still : quiet (s.queue q) = true) :
    queueReg s q 0x08 v = s.setQueue q
        { s.queue q with ringBase := (v &&& 0x8000000000000000) ||| (v &&& 0x00FFFFFFFFFFFF80) }
      ∧ queueReg s q 0x18 v = s.setQueue q { s.queue q with head := v.setWidth 32, fetchAt := v.setWidth 32 }
      ∧ queueReg s q 0x20 v = s.setQueue q
        { s.queue q with cqBase := (v &&& 0x8000000000000000) ||| (v &&& 0x00FFFFFFFFFFFFE0) } :=
  ⟨if_pos still, if_pos still, if_pos still⟩

theorem queueReg_active (active : quiet (s.queue q) = false) :
    queueReg s q 0x08 v = s ∧ queueReg s q 0x18 v = s ∧ queueReg s q 0x20 v = s ∧ queueReg s q 0x28 v = s := by
  have moves : ¬quiet (s.queue q) = true := ne_true_of_eq_false active
  exact ⟨if_neg moves, if_neg moves, if_neg moves, if_neg fun h => moves h.1⟩

/-- TAIL takes all 32 bits that a doorbell carries. -/
theorem doorbell_whole (v : BitVec 32) : BitVec.ofNat 32 (BitVec.ofNat 64 v.toNat).toNat = v := by
  apply BitVec.eq_of_toNat_eq
  simp only [BitVec.toNat_ofNat]
  omega

theorem setWidth_four (v : Word) : v.setWidth 4 = BitVec.ofNat 4 (wbits v 3 0) := by
  apply BitVec.eq_of_toNat_eq
  simp [wbits, bitsOf]

theorem queueReg_cqCtl_fits (still : quiet (s.queue q) = true) (fits : wbits v 3 0 ≤ 8) :
    queueReg s q 0x28 v = s.setQueue q { s.queue q with cqLog2 := v.setWidth 4 } := by
  rw [setWidth_four]
  exact if_pos ⟨still, fits⟩

theorem queueReg_cqCtl_large (large : 8 < wbits v 3 0) : queueReg s q 0x28 v = s :=
  if_neg fun h => Nat.not_le.mpr large h.2

end

/-- Settles O6: each event of Table 6.4 by the state it starts from, and each other register by its row of Table 6.2. -/
theorem queueRegistersWritten : Obligations.QueueRegistersWritten := by
  unfold Obligations.QueueRegistersWritten
  refine ⟨fun q s on => ⟨fun v => ?_, fun v disabled complete idle up => ?_, fun v running => ?_, fun v parked => ?_,
    fun v parked unheld => ?_, fun v error => ?_⟩, fun q v s on => ?_⟩
  · refine congrArg Host.Outcome.next ((if_pos on).trans ?_)
    exact congrArg (fun t => s.setQueue q.val { s.queue q.val with tail := t }) (doorbell_whole v)
  · exact congrArg Host.Outcome.next ((if_pos on).trans (qctlWrite_enables disabled complete idle up withBits_one
      withBits_zero))
  · exact congrArg Host.Outcome.next ((if_pos on).trans (qctlWrite_parks running withBits_one))
  · have resumes : (hubOn s && (s.queue q.val).state == .parked) = true := by rw [on, parked]; rfl
    exact congrArg Host.Outcome.next ((if_pos resumes).trans (qctlWrite_resumes parked withBits_one withBits_zero))
  · have disables : (hubOn s && (s.queue q.val).state == .parked) = true := by rw [on, parked]; rfl
    have park : (withBits v 0 0x14).getLsbD 3 = v.getLsbD 3 := withBits_kept
    have clears : withBits v 0 0x14 = v &&& ~~~0x14 := congrArg (· &&& ~~~0x14) BitVec.or_zero
    have written := qctlWrite_disables parked unheld (v := withBits v 0 0x14) withBits_zero
    rw [park, clears] at written
    refine congrArg Host.Outcome.next ((if_pos disables).trans ?_)
    rw [clears]
    exact written
  · exact congrArg Host.Outcome.next ((if_pos on).trans (qctlWrite_acknowledges error withBits_one))
  · intro write x
    have wrote (reg : Nat) (inside : reg < 64) (aligned : reg % 8 = 0) : write reg = .next (queueReg s q.val reg v) :=
      execQueueRegisterWrite_reg on q inside aligned v
    rw [wrote 0x08 (by decide) (by decide), wrote 0x18 (by decide) (by decide), wrote 0x20 (by decide) (by decide),
      wrote 0x28 (by decide) (by decide), wrote 0x30 (by decide) (by decide), wrote 0x38 (by decide) (by decide)]
    refine ⟨fun still => ?_, fun active => ?_, rfl, rfl⟩
    · obtain ⟨ringBase, head, cqBase⟩ := queueReg_quiet still (v := v)
      exact ⟨congrArg _ ringBase, congrArg _ head, congrArg _ cqBase, fun fits => congrArg _ (queueReg_cqCtl_fits still fits),
        fun large => congrArg _ (queueReg_cqCtl_large large)⟩
    · obtain ⟨ringBase, head, cqBase, cqCtl⟩ := queueReg_active active (v := v)
      exact ⟨congrArg _ ringBase, congrArg _ head, congrArg _ cqBase, congrArg _ cqCtl⟩

end Sys2Proof.Machine
end

section
/-! The life of a descriptor in its queue (06 R139 to R142, R149, R396; 05 R113, R118): its fetch, its issue or refusal, its
wait, its completion, and O7 to O10. -/

namespace Sys2Proof.Machine

/-! ### What a counted read and a write of a queue leave alone -/

section
variable (s : State)

@[simp] theorem carryRead_queues (key len : Nat) : (carryRead s key len).queues = s.queues := by
  unfold carryRead
  extract_lets n d
  split <;> rfl

theorem carryRead_setQueue (key len q : Nat) (x : Queue) :
    carryRead (s.setQueue q x) key len = (carryRead s key len).setQueue q x := by
  unfold carryRead
  dsimp only
  rw [State.setQueue_poison]
  split <;> rfl

theorem rangeFault_setQueue (q : Nat) (x : Queue) (die off n : Nat) :
    rangeFault (s.setQueue q x) die off n = rangeFault s die off n := by
  induction n generalizing off with
  | zero => rfl
  | succ n ih =>
    have place : placeOf (s.setQueue q x) die off = placeOf s die off := rfl
    rw [rangeFault, rangeFault, place]
    simp only [ih]

theorem faultIn_setQueue (q : Nat) (x : Queue) (die off len : Nat) :
    faultIn (s.setQueue q x) die off len = faultIn s die off len := by
  rw [faultIn, faultIn, rangeFault_setQueue]

/-- Writes of a queue change the queues alone. -/
theorem setQueue_twice_frame (q : Nat) (x y : Queue) :
    (s.setQueue q x).setQueue q y = { s with queues := ((s.setQueue q x).setQueue q y).queues } := rfl

end

/-! ### Fetch (06 R142, R396; 14 R322) -/

section
variable {s : State} {q : QId}

/-- The ring address of the next fetch. -/
def fetchAddr (x : Queue) : Nat :=
  bitsOf x.ringBase.toNat 55 0 + x.fetchAt.toNat % (256 * 2 ^ x.ringLog2.toNat) * 128

/-- Its place in a store of the package. -/
def fetchKey (x : Queue) : Nat := cellKey (addrDie (fetchAddr x)) (addrOff (fetchAddr x))

/-- The descriptor that stands there. -/
def ringDesc (s : State) (x : Queue) : Fetched :=
  { idx := x.fetchAt, words := wordsFrom 16 (readBytes s (fetchKey x) 128),
    poison := firstMark (fun k => poisoned s (fetchKey x + 8 * k)) }

/-- The queue may fetch its next descriptor: it runs, TAIL lies ahead, and RUN_AHEAD leaves room. -/
structure Fetches (s : State) (q : QId) : Prop where
  on : hubOn s = true
  up : unitUp s (queueDie q.val) = true
  running : (s.queue q.val).state = .running
  below : (s.queue q.val).fetchAt ≠ (s.queue q.val).tail
  room : ((s.queue q.val).fetchAt - oldest (s.queue q.val)).toNat < min 256 (dnum s 0x2060 4)

/-- The fetch index has passed one descriptor. -/
def fetchPassed (s : State) (q : QId) : State :=
  s.setQueue q.val { s.queue q.val with fetchAt := (s.queue q.val).fetchAt + 1 }

theorem Fetches.unblocked (h : Fetches s q) : (!hubOn s || !unitUp s (queueDie q.val)
      || (s.queue q.val).state != .running || (s.queue q.val).fetchAt == (s.queue q.val).tail
      || decide (((s.queue q.val).fetchAt - oldest (s.queue q.val)).toNat ≥ min 256 (dnum s 0x2060 4))) = false := by
  obtain ⟨on, up, running, below, room⟩ := h
  rw [on, up, running, beq_false_of_ne below, decide_eq_false (Nat.not_le.mpr room)]
  rfl

theorem descriptorFetch_host (h : Fetches s q) (host : (s.queue q.val).ringBase.getLsbD 63 = true)
    (ready : hostReady s = true) (room : s.host.reads.length < 1024) : descriptorFetch q s =
      hostRead (fetchPassed s q) (fetchAddr (s.queue q.val)) 128 (.fetch q.val (s.queue q.val).fetchAt) := by
  have sent : (!hostReady s || decide (s.host.reads.length ≥ 1024)) = false := by
    rw [ready, decide_eq_false (Nat.not_le.mpr room)]
    rfl
  exact (if_neg (ne_true_of_eq_false h.unblocked)).trans ((if_pos host).trans (if_neg (ne_true_of_eq_false sent)))

theorem takeDescriptor_sound {p : Nat} {x : Queue} {f : Fetched} (queue : s.queue p = x) (running : x.state = .running)
    (sound : f.poison = none) :
    takeDescriptor s p f = s.setQueue p { x with fetched := insertFetched x.head f x.fetched } := by
  subst queue
  have goes : ¬((s.queue p).state ≠ .running ∧ replayNext s p ≠ some f.idx) := fun h => h.1 running
  rw [takeDescriptor, if_neg goes, sound]

theorem fetchPassed_queue (wf : mwf Queue.init 0 s.queues = true) (key len : Nat) :
    (carryRead (fetchPassed s q) key len).queue q.val
      = { s.queue q.val with fetchAt := (s.queue q.val).fetchAt + 1 } := by
  rw [State.queue, carryRead_queues]
  exact queue_setQueue wf q.val _

/-- A descriptor read whole from a mapped ring, without poison, stands among those fetched. -/
theorem descriptorFetch_store (wf : mwf Queue.init 0 s.queues = true) (h : Fetches s q)
    (device : (s.queue q.val).ringBase.getLsbD 63 = false) (own : addrSlot (fetchAddr (s.queue q.val)) = ownSlot s)
    (mapped : faultIn s (addrDie (fetchAddr (s.queue q.val))) (addrOff (fetchAddr (s.queue q.val))) 128 = none)
    (clean : (ringDesc s (s.queue q.val)).poison = none) :
    descriptorFetch q s = (carryRead (fetchPassed s q) (fetchKey (s.queue q.val)) 128).setQueue q.val
      { s.queue q.val with
        fetchAt := (s.queue q.val).fetchAt + 1,
        fetched := insertFetched (s.queue q.val).head (ringDesc s (s.queue q.val)) (s.queue q.val).fetched } := by
  refine (if_neg (ne_true_of_eq_false h.unblocked)).trans ((if_neg (ne_true_of_eq_false device)).trans
    ((if_neg (not_not.mpr own)).trans ?_))
  split
  case h_1 fault => exact absurd (mapped.symm.trans fault) (by simp)
  case h_2 => exact takeDescriptor_sound (fetchPassed_queue wf _ _) h.running clean

end

/-- Settles O7: a ring in device memory is read in place, one in host memory by a request. -/
theorem descriptorFetched : Obligations.DescriptorFetched := by
  unfold Obligations.DescriptorFetched
  intro q s x a key canonical on up running below room
  have fetches : Fetches s q := ⟨on, up, running, below, room⟩
  refine ⟨fun device own mapped clean => ?_, fun host ready free => congrArg _ (descriptorFetch_host fetches host ready free)⟩
  have wf := canonical.queues
  have kept : mwf Queue.init 0 (carryRead (fetchPassed s q) key 128).queues = true := by
    rw [carryRead_queues]
    exact queues_setQueue wf q.val _
  have read : ringDesc s x = { idx := x.fetchAt, words := wordsFrom 16 (readBytes s key 128), poison := none } :=
    congrArg (Fetched.mk _ _) clean
  refine ⟨_, congrArg Host.Outcome.next (descriptorFetch_store wf fetches device own mapped clean), ?_, ?_, fun p other => ?_⟩
  · rw [fetchPassed, carryRead_setQueue]
    exact setQueue_twice_frame _ _ _ _
  · rw [← read]
    exact queue_setQueue kept q.val _
  · refine (queue_setQueue_other kept _ other).trans ?_
    rw [State.queue, carryRead_queues]
    exact queue_setQueue_other wf _ other

/-! ### Issue (06 R139; 05 R113, R118) -/

section
variable {s : State} {q : QId} {f : Fetched} {rest : List Fetched}

/-- A descriptor stands at the head of a queue that may issue. -/
structure Heads (s : State) (q : QId) (f : Fetched) (rest : List Fetched) : Prop where
  fetched : (s.queue q.val).fetched = f :: rest
  may : mayIssue s q.val = true
  next : f.idx = (s.queue q.val).head

theorem Heads.unblocked (h : Heads s q f rest) : (!mayIssue s q.val || f.idx != (s.queue q.val).head) = false := by
  rw [h.may, h.next, bne_self_eq_false]
  rfl

theorem descriptorIssue_refused (h : Heads s q f rest) {r : Byte × Nat × Nat × Nat}
    (refused : refusal s q.val f f.words = some r) : descriptorIssue q s = refuseWith s q.val f r := by
  simp only [descriptorIssue, h.fetched, h.unblocked, Bool.false_eq_true, if_false, refused]

theorem descriptorIssue_waits (h : Heads s q f rest) (legal : refusal s q.val f f.words = none) {t : State}
    (waits : waitStep s q.val f.words = .wait t) : descriptorIssue q s = t := by
  simp only [descriptorIssue, h.fetched, h.unblocked, Bool.false_eq_true, if_false, legal, waits]

theorem descriptorIssue_free (h : Heads s q f rest) (legal : refusal s q.val f f.words = none)
    (free : waitEn f.words = false) : descriptorIssue q s = issueReady s q.val f f.words none false := by
  have met : waitStep s q.val f.words = .met := if_pos (by rw [free]; rfl)
  simp only [descriptorIssue, h.fetched, h.unblocked, Bool.false_eq_true, if_false, legal, met, free, Bool.false_and]

/-- The queue after its head has issued: HEAD passes it, and it joins those in flight. -/
def issued (s : State) (q : Nat) (f : Fetched) (rest : List Fetched) : State :=
  let x := s.queue q
  s.setQueue q { x with
    jobs := x.jobs ++ [newJob f.idx f.words], head := f.idx + 1, fetched := rest, waitAt := none, watch := none,
    notified := false, waitOpen := false }

/-- The rules that follow the wait hold of a descriptor: its fence, its phase, no fencing, and its resource. -/
structure Passes (s : State) (q : Nat) (l : List Word) : Prop where
  fence : descFence l = true → (s.queue q).jobs = []
  phase : phaseMay s (trainPhase l) (s.queue q).waitOpen = true
  shut : isShut s l = false
  takes : takes s q l = .yes

theorem issueReady_commits {q : Nat} {l : List Word} (h : Passes s q l) :
    issueReady s q f l none false = commit s q f l none .yes := by
  obtain ⟨fence, phase, shut, takes⟩ := h
  have clear : (descFence l && !fenceClear (s.queue q) q none) = false := by
    cases fenced : descFence l with
    | false => rfl
    | true => simp [fenceClear, fence fenced]
  simp only [issueReady, Option.map_none, clear, Option.isNone_none, Bool.true_and, phase, shut, takes, Bool.not_true,
    Bool.false_eq_true, if_false]

/-- What an issue that takes no array comes to. -/
theorem commit_plain {q : Nat} (fetched : (s.queue q).fetched = f :: rest) :
    commit s q f f.words none .yes =
      let t := noteBlock (phaseStart (issued s q f rest) (trainPhase f.words)) q f.idx f.words
      if isFrozen f.words then finish (bump t 0x8050 3 1) q f.idx 0x02 0
      else if descType f.words = 5 ∧ (nextEntry f.words 0).isNone then finishOk t q f.idx
      else t := by
  obtain rfl : rest = (s.queue q).fetched.drop 1 := by
    rw [fetched]
    rfl
  rfl

end

/-- Settles O8: the head without a wait passes each rule of R139 in turn, and a rule that refuses it comes first. -/
theorem descriptorIssued : Obligations.DescriptorIssued := by
  unfold Obligations.DescriptorIssued
  intro q s f rest x fetched may next
  have heads : Heads s q f rest := ⟨fetched, may, next⟩
  refine ⟨fun legal plain free unfenced noPhase shut resource other => congrArg Host.Outcome.next ?_,
    fun r refused => congrArg Host.Outcome.next (descriptorIssue_refused heads refused)⟩
  have passes : Passes s q.val f.words :=
    ⟨fun fenced => absurd (unfenced.symm.trans fenced) (by decide), by rw [noPhase]; rfl, shut, resource⟩
  have unrecorded : noteBlock (issued s q.val f rest) q.val f.idx f.words = issued s q.val f rest :=
    if_pos (.inl (by rw [noPhase]; decide))
  calc descriptorIssue q s
    _ = commit s q.val f f.words none .yes := (descriptorIssue_free heads legal free).trans (issueReady_commits passes)
    _ = noteBlock (phaseStart (issued s q.val f rest) 0) q.val f.idx f.words := by
      rw [commit_plain fetched, if_neg (ne_true_of_eq_false plain), if_neg fun h => other h.1, noPhase]
    _ = issued s q.val f rest := unrecorded

/-! ### Waits (06 R149) and frozen work (05 R118) -/

section
variable {s : State} {q : QId} {f : Fetched} {rest : List Fetched}

/-- A wait on a bell of the die's own that is short begins at the head (06 R149). -/
theorem waitStep_begins {q : Nat} {l : List Word} (wait : waitEn l = true) (own : bellDie (waitBell l) = queueDie q)
    (short : s.bell (waitBell l) < waitValue l) (arrives : (s.queue q).waitAt = none)
    (up : dieUp s (bellDie (waitBell l)) = true) (noPhase : trainPhase l = 0) :
    waitStep s q l = .wait (s.setQueue q
      { s.queue q with waitAt := some (clock s), watch := none, notified := false, waitOpen := false }) := by
  have unmet : ¬waitValue l ≤ s.bell (waitBell l) := BitVec.not_le.mpr short
  simp only [waitStep, wait, arrives, up, noPhase, if_pos own, if_neg unmet, Option.isNone_none, Bool.not_true,
    Bool.false_eq_true, if_false, if_true, bne_self_eq_false, Bool.false_and]

/-- A wait that stays unmet in its time fails with BELL_TIMEOUT (06 R149). -/
theorem bellWaitTimeout_expires {t : Word} (fetched : (s.queue q.val).fetched = f :: rest)
    (next : f.idx = (s.queue q.val).head) (wait : waitEn f.words = true) (unmet : waitMet s q.val f.words = false)
    (running : (s.queue q.val).state = .running) (since : (s.queue q.val).waitAt = some t)
    (past : waitTicks s f.words ≤ (clock s - t).toNat) : bellWaitTimeout q s =
      sticky (refuse (dropWait s q.val) q.val f 0x1A (waitBell f.words)) 0xA060 2 (queueDie q.val) := by
  simp only [bellWaitTimeout, fetched, since, running, next, wait, unmet, decide_eq_true past, beq_self_eq_true, Bool.not_false,
    Bool.and_self, if_true]

theorem waitMet_short {q : Nat} {l : List Word} (wait : waitEn l = true) (own : bellDie (waitBell l) = queueDie q)
    (short : s.bell (waitBell l) < waitValue l) : waitMet s q l = false := by
  rw [waitMet, wait, if_pos own, decide_eq_false (BitVec.not_le.mpr short)]
  rfl

end

/-- Settles O10: a short wait begins, ends in its timeout, and frozen work ends where it would have issued. -/
theorem waitingAndFrozenHeads : Obligations.WaitingAndFrozenHeads := by
  unfold Obligations.WaitingAndFrozenHeads
  refine ⟨fun q s f rest => ?_, fun q s f rest => ?_⟩
  · intro x fetched next wait own short
    refine ⟨fun may legal arrives up noPhase => congrArg Host.Outcome.next ?_,
      fun t running since past => congrArg Host.Outcome.next ?_⟩
    · exact descriptorIssue_waits ⟨fetched, may, next⟩ legal (waitStep_begins wait own short arrives up noPhase)
    · exact bellWaitTimeout_expires fetched next wait (waitMet_short wait own short) running since past
  · intro x started fetched next may legal free fence phase shut role frozen
    have ends : isFrozen f.words = true := by rw [isFrozen, role, frozen]; rfl
    have passes : Passes s q.val f.words := ⟨fence, phase, shut, if_pos ends⟩
    refine congrArg Host.Outcome.next ?_
    calc descriptorIssue q s
      _ = commit s q.val f f.words none .yes :=
        (descriptorIssue_free ⟨fetched, may, next⟩ legal free).trans (issueReady_commits passes)
      _ = finish (bump (noteBlock (phaseStart started (trainPhase f.words)) q.val f.idx f.words) 0x8050 3 1) q.val
          f.idx 0x02 0 := by
        rw [commit_plain fetched, if_pos ends]
        rfl

/-! ### What a store of bytes leaves alone (07 R171; 06 R142; 13 R301) -/

/-- A state but for what a store of bytes may change: the memory, its marks, the speculative lines, the ghost tracking. -/
def unstored (s : State) : State := { s with mem := [], poison := [], cps := [], res := State.reset.res }

theorem unstored_markWrite (s : State) (key len : Nat) (pz : Nat → Bool) :
    unstored (markWrite s key len pz) = unstored s := by
  unfold markWrite
  refine foldl_keeps unstored (fun t w => ?_) _ s
  dsimp only
  split
  · rfl
  · split <;> rfl

theorem unstored_writeBytes (s : State) (key : Nat) (data : List Byte) :
    unstored (writeBytes s key data) = unstored s := by
  induction data generalizing s key with
  | nil => rfl
  | cons b r ih => exact ih (writeByte s key b) (key + 1)

theorem unstored_ghostTouchAll (s : State) (key len : Nat) : unstored (ghostTouchAll s key len) = unstored s := by
  unfold ghostTouchAll
  split
  · rfl
  · refine foldl_keeps unstored (fun t k => ?_) _ s
    unfold ghostTouch
    split
    · rfl
    · split <;> rfl

theorem unstored_specTouch (s : State) (key len : Nat) : unstored (specTouch s key len) = unstored s := by
  unfold specTouch
  extract_lets d c
  split <;> rfl

theorem unstored_storeBytes (s : State) (key : Nat) (data : List Byte) (pz : Nat → Bool) :
    unstored (storeBytes s key data pz) = unstored s := by
  rw [storeBytes, unstored_writeBytes, unstored_markWrite, unstored_specTouch, unstored_ghostTouchAll]

@[simp] theorem storeBytes_queues (s : State) (key : Nat) (data : List Byte) (pz : Nat → Bool) :
    (storeBytes s key data pz).queues = s.queues := by
  have kept := congrArg State.queues (unstored_storeBytes s key data pz)
  exact kept

/-! ### Completion (06 R139, R140, Table 6.13) -/

section
variable {s : State} {q : Nat} {j : Job}

/-- A running queue has nothing to settle: it neither parks nor waits for ERR_ACK (06 Table 6.4). -/
theorem settleQueue_running (running : (s.queue q).state = .running) : settleQueue s q = s := by
  unfold settleQueue
  extract_lets x
  split
  · rfl
  · rw [show x.state = .running from running]

/-- The place of a queue's next record, and its PASS bit. -/
def nextRecord (x : Queue) : Nat × Bool := recordAt x.cqBase x.cqLog2.toNat x.cqTail

/-- CQ_TAIL has passed one record. -/
def recorded (s : State) (q : Nat) : State := s.setQueue q { s.queue q with cqTail := (s.queue q).cqTail + 1 }

/-- A record whose ring is mapped in device memory is stored there. -/
theorem writeRecord_stores (current : j.cqOld = none) (device : (s.queue q).cqBase.getLsbD 63 = false)
    (own : addrSlot (nextRecord (s.queue q)).1 = ownSlot s)
    (mapped : faultIn s (addrDie (nextRecord (s.queue q)).1) (addrOff (nextRecord (s.queue q)).1) 32 = none) :
    writeRecord s q j = storeBytes (recorded s q)
      (cellKey (addrDie (nextRecord (s.queue q)).1) (addrOff (nextRecord (s.queue q)).1))
      (recordBytes s j (nextRecord (s.queue q)).2) (fun _ => false) := by
  have there := (faultIn_setQueue s q { s.queue q with cqTail := (s.queue q).cqTail + 1 } _ _ _).trans mapped
  rw [writeRecord, current]
  refine (if_neg (ne_true_of_eq_false device)).trans ((if_neg (not_not.mpr own)).trans ?_)
  split
  case h_1 => rfl
  case h_2 fault => exact absurd (there.symm.trans fault) (by simp)

/-- A completion with a status that does not stop the queue, without a strike, a raise or a REPLAY to tell. -/
theorem completeJob_quiet {x : Queue} (queue : (writeRecord s q j).queue q = x) (fine : isStopping j.status = false)
    (still : strikeEn j.words = false) (silent : descIrq j.words = false) (other : descType j.words ≠ 3)
    (alone : j.replay = none) (running : x.state = .running)
    (wf : mwf Queue.init 0 (writeRecord s q j).queues = true) :
    completeJob s q j = (writeRecord s q j).setQueue q
      { x with jobs := x.jobs.filter (fun k => !(k.idx == j.idx && k.replay == j.replay)) } := by
  have unstruck (t : State) : headerStrike t q j.words = t := if_pos (by rw [still]; rfl)
  have untold (t : State) : tellReplay t j = t := by rw [tellReplay, alone]
  subst queue
  simp only [completeJob, fine, silent, unstruck, untold, if_neg other, Bool.false_eq_true, if_false]
  refine settleQueue_running ?_
  rw [queue_setQueue wf]
  exact running

/-- A finished descriptor that neither strikes nor raises completes without a release (08 R194). -/
theorem descriptorComplete_unreleased {s : State} {q : QId} {i : BitVec 32} (job : s.job q.val i = some j)
    (finished : j.phase = .finished) (free : collHeld s j = false) (still : strikeEn j.words = false)
    (silent : descIrq j.words = false) : descriptorComplete q i s = completeJob s q.val j := by
  have ends : ¬(decide (j.phase ≠ .finished) || collHeld s j) = true := by simp [finished, free]
  have unreleased : (!completionReleases j.words) = true := by rw [completionReleases, still, silent]; rfl
  simp only [descriptorComplete, job, if_neg ends, if_pos unreleased]

end

/-! ### Held raises (06 R139) -/

section
variable {s : State} {q : QId} {t : Word}

theorem execIrqHoldoffExpiry_past (since : (s.queue q.val).lastRaise = some t) (held : (s.queue q.val).raiseHeld = true)
    (past : (s.queue q.val).holdoff.toNat * 1000 ≤ (clock s - t).toNat) :
    execIrqHoldoffExpiry q s = .next (raiseNow s q.val) := by
  simp only [execIrqHoldoffExpiry, since, held, decide_eq_true past, Bool.and_self, if_true]

theorem execIrqHoldoffExpiry_early (since : (s.queue q.val).lastRaise = some t)
    (early : (clock s - t).toNat < (s.queue q.val).holdoff.toNat * 1000) : execIrqHoldoffExpiry q s = .next s := by
  simp only [execIrqHoldoffExpiry, since, decide_eq_false (Nat.not_le.mpr early), Bool.and_false, Bool.false_eq_true,
    if_false]

end

/-- Settles O9: a quiet completion stores its record, and a held raise waits for its hold-off. -/
theorem descriptorCompletes : Obligations.DescriptorCompletes := by
  unfold Obligations.DescriptorCompletes
  refine ⟨fun q i s j => ?_, fun q s t => ?_⟩
  · intro x place canonical job finished free fine still silent other alone current running device own mapped
    have stored : writeRecord s q.val j = _ := writeRecord_stores current device own mapped
    have queue : (writeRecord s q.val j).queue q.val = { x with cqTail := x.cqTail + 1 } := by
      rw [stored, State.queue, storeBytes_queues]
      exact queue_setQueue canonical.queues q.val _
    have wf : mwf Queue.init 0 (writeRecord s q.val j).queues = true := by
      rw [stored, storeBytes_queues]
      exact queues_setQueue canonical.queues q.val _
    have done := completeJob_quiet queue fine still silent other alone running wf
    rw [stored] at done
    exact congrArg Host.Outcome.next ((descriptorComplete_unreleased job finished free still silent).trans done)
  · intro x since
    exact ⟨execIrqHoldoffExpiry_past since, execIrqHoldoffExpiry_early since⟩

end Sys2Proof.Machine
end

section
/-! The descriptors that end at the command processor (06 R136, R143, R144, Tables 6.6, 6.9): a NOP, a branch and its
resolution, and O11 and O12. -/

namespace Sys2Proof.Machine

/-! ### NOP and the start of a branch -/

section
variable {s : State} {q : QId} {i : BitVec 32} {j : Job}

theorem finishOk_of_job {q : Nat} (job : s.job q i = some j) :
    finishOk s q i = finish s q i (if j.poisoned then 1 else 0) 0 := by
  rw [finishOk, job]

theorem execDescNop_ready (job : s.job q.val i = some j) (ready : j.phase = .ready) (nop : descType j.words = 0) :
    execDescNop q i s = .next (finish s q.val i (if j.poisoned then 1 else 0) 0) := by
  simp only [execDescNop, job, nop, ready, beq_self_eq_true, Bool.and_self, if_true, finishOk_of_job job]

/-- The branch of a descriptor has been taken, and its work has ended. -/
def branchEnded (s : State) (q : Nat) (i : BitVec 32) (taken : Bool) : State :=
  finishOk (s.modJob q i (fun k => { k with taken := taken })) q i

theorem branchStart_always (job : s.job q.val i = some j) (ready : j.phase = .ready) (branch : descType j.words = 4)
    (always : wbits (dword j.words 5) 55 53 = 7) (alone : j.replay = none)
    (covered : skipCovered (s.queue q.val) i j.words = true) :
    branchStart q i s = takeSkip (branchEnded s q.val i true) q.val i j.words := by
  have starts : ¬(descType j.words ≠ 4 ∨ j.phase ≠ .ready) := by simp [branch, ready]
  simp only [branchStart, job, if_neg starts, if_pos always, alone, Option.isSome_none, Bool.false_eq_true, if_false,
    covered, if_true, branchEnded]

/-- Any other branch takes its prediction, or the outcome its replay recorded, and waits. -/
theorem branchStart_predicts (job : s.job q.val i = some j) (ready : j.phase = .ready) (branch : descType j.words = 4)
    (compares : wbits (dword j.words 5) 55 53 ≠ 7) : branchStart q i s = s.modJob q.val i (fun k =>
      { k with
        phase := .working,
        predicted := if k.outcomes.isEmpty then some (decide (2 ≤ predCount s q.val i)) else k.outcomes.head? }) := by
  have starts : ¬(descType j.words ≠ 4 ∨ j.phase ≠ .ready) := by simp [branch, ready]
  simp only [branchStart, job, if_neg starts, if_neg compares]

end

/-- Settles O11: a NOP ends at once, and a branch by its predicate. -/
theorem nopAndBranchIssue : Obligations.NopAndBranchIssue := by
  unfold Obligations.NopAndBranchIssue
  intro q i s j job ready
  refine ⟨execDescNop_ready job ready, fun branch always alone covered => congrArg Host.Outcome.next ?_,
    fun branch compares _ => congrArg Host.Outcome.next ?_⟩
  · exact branchStart_always job ready branch always alone covered
  · exact branchStart_predicts job ready branch compares

/-! ### Resolution (06 R136, R143, R144; 05 R120) -/

section
variable {s : State} {q : QId} {i : BitVec 32} {j : Job}

/-- A branch has resolved: it has ended, its counter and its block have the outcome, and the branches count by one. -/
def branchNoted (s : State) (q : Nat) (i : BitVec 32) (taken : Bool) : State :=
  bump (recordOutcome (trainPred (branchEnded s q i taken) q i taken) q taken) 0x8060 (queueDie q + 1) 1

/-- A branch waits to resolve, outside a replay, with no earlier VE descriptor of its queue running. -/
structure Resolves (s : State) (q : QId) (i : BitVec 32) (j : Job) : Prop where
  job : s.job q.val i = some j
  waits : j.phase = .working
  branch : descType j.words = 4
  clear : veBefore (s.queue q.val) i = false
  alone : j.replay = none

/-- How a branch resolves outside a replay, by its outcome and by what was predicted. -/
theorem branchResolve_eq (h : Resolves s q i j)
    (covered : branchTaken j.words (s.queue q.val).inputs = true → skipCovered (s.queue q.val) i j.words = true) :
    branchResolve q i s =
      let taken := branchTaken j.words (s.queue q.val).inputs
      let t := if j.predicted = some taken then branchNoted s q.val i taken else squash (branchNoted s q.val i taken) q.val
      if taken then takeSkip t q.val i j.words else t := by
  obtain ⟨job, waits, branch, clear, alone⟩ := h
  have goes : ¬(descType j.words ≠ 4 ∨ j.phase ≠ .working ∨ veBefore (s.queue q.val) i = true) := by
    simp [branch, waits, clear]
  have resolves : ¬(branchTaken j.words (s.queue q.val).inputs && !skipCovered (s.queue q.val) i j.words
      && (s.queue q.val).state == .running) = true := by
    cases taken : branchTaken j.words (s.queue q.val).inputs with
    | false => simp
    | true => simp [covered taken]
  simp only [branchResolve, job, if_neg goes, alone, if_neg resolves]
  rfl

end

/-! ### Where a queue goes on (06 R136, R144) -/

section
variable (s : State) (q : Nat)

@[simp] theorem dropSpecs_queues (pick : SpecFill → Bool) : (dropSpecs s q pick).queues = s.queues := by
  unfold dropSpecs
  extract_lets d c gone
  split <;> rfl

@[simp] theorem dropFetches_queues (pick : BitVec 32 → Bool) : (dropFetches s q pick).queues = s.queues := rfl

/-- A misprediction has been counted, and what the predicted path held or asked for is given up. -/
def pathDropped : State :=
  dropFetches (dropSpecs (bump s 0x8061 (queueDie q + 1) 1) q (fun _ => true)) q (fun _ => true)

theorem pathDropped_queues : (pathDropped s q).queues = s.queues := by simp [pathDropped]

end

section
variable {u : State} {q : Nat} (wf : mwf Queue.init 0 u.queues = true)
  (active : (u.queue q).state = .running ∨ (u.queue q).state = .parking)
include wf active

theorem takeSkip_head (i : BitVec 32) (l : List Word) :
    ((takeSkip u q i l).queue q).head = i + 1 + BitVec.ofNat 32 (wbits (dword l 5) 63 56) := by
  have wf' (pick : SpecFill → Bool) (test : BitVec 32 → Bool) :
      mwf Queue.init 0 (dropFetches (dropSpecs u q pick) q test).queues = true := by simpa using wf
  unfold takeSkip
  extract_lets goal inSkip
  rcases active with state | state <;> rw [state] <;> exact congrArg Queue.head (queue_setQueue (wf' _ _) q _)

theorem squash_queue : (squash u q).queue q = { u.queue q with fetched := [], fetchAt := (u.queue q).head } := by
  have queues := pathDropped_queues u q
  have kept : (pathDropped u q).queue q = u.queue q := congrArg (mget Queue.init · q) queues
  have squashed : squash u q = (pathDropped u q).setQueue q { u.queue q with fetched := [], fetchAt := (u.queue q).head } := by
    rw [← kept] at active ⊢
    rw [squash]
    dsimp only
    split
    case h_1 => rfl
    case h_2 => rfl
    case h_3 runs parks => exact absurd active (not_or.mpr ⟨runs, parks⟩)
  rw [squashed]
  exact queue_setQueue (queues ▸ wf) q _

end

/-- Settles O12: the four ways a branch resolves, and where its queue then goes on. -/
theorem branchResolution : Obligations.BranchResolution := by
  unfold Obligations.BranchResolution
  intro q i s j x d taken done job waits branch clear alone
  have resolves : Resolves s q i j := ⟨job, waits, branch, clear, alone⟩
  have mispredicts {b c : Bool} (outcome : taken = c) (differs : b ≠ c) (wrong : j.predicted = some b) :
      ¬j.predicted = some taken := fun right =>
    differs (Option.some.inj (wrong.symm.trans (right.trans (congrArg some outcome))))
  refine ⟨fun falls right => congrArg Host.Outcome.next ?_, fun falls wrong => congrArg Host.Outcome.next ?_,
    fun goes covered right => congrArg Host.Outcome.next ?_, fun goes covered wrong => congrArg Host.Outcome.next ?_,
    fun u canonical active => ?_⟩
  · refine (branchResolve_eq resolves fun goes => absurd (falls.symm.trans goes) (by decide)).trans ?_
    exact (if_neg (ne_true_of_eq_false falls)).trans (if_pos (right.trans (congrArg some falls.symm)))
  · refine (branchResolve_eq resolves fun goes => absurd (falls.symm.trans goes) (by decide)).trans ?_
    exact (if_neg (ne_true_of_eq_false falls)).trans (if_neg (mispredicts falls (by decide) wrong))
  · refine (branchResolve_eq resolves fun _ => covered).trans ((if_pos goes).trans ?_)
    exact congrArg (takeSkip · q.val i j.words) (if_pos (right.trans (congrArg some goes.symm)))
  · refine (branchResolve_eq resolves fun _ => covered).trans ((if_pos goes).trans ?_)
    exact congrArg (takeSkip · q.val i j.words) (if_neg (mispredicts goes (by decide) wrong))
  · have wf := canonical.queues
    exact ⟨takeSkip_head wf active i j.words, congrArg Queue.fetched (squash_queue wf active),
      congrArg Queue.fetchAt (squash_queue wf active)⟩

end Sys2Proof.Machine
end

section
/-! What a message between dies leaves alone (08 R182 to R189), and the bells (06 R147 to R151): their arithmetic, the entries
of BELL descriptors, the messages and frames that act on them, and O13, O14, O15 and O26. -/

namespace Sys2Proof.Machine

/-! ### What sending a message leaves alone (08 R182 to R186) -/

/-- A state but for what sending between dies may change: the pairs, the messages in flight, and what leaves the device. -/
def unsent (s : State) : State := { s with pairs := [], flight := [], out := [] }

section
variable (s : State) (a b : Nat)

@[simp] theorem unsent_setPair (x : Pair) : unsent (s.setPair a b x) = unsent s := rfl
@[simp] theorem unsent_flight (x : List Flying) : unsent { s with flight := x } = unsent s := rfl
@[simp] theorem unsent_sendFlit (kind cls : Nat) (body : List Byte) : unsent (sendFlit s a b kind cls body) = unsent s := rfl
@[simp] theorem unsent_sendReady (f : Nat × Nat × List Byte) : unsent (sendReady s a b f) = unsent s := rfl

@[simp] theorem unsent_crossBody (fclass : Nat) (f : PktFlit) : unsent (crossBody s a b fclass f).1 = unsent s := by
  unfold crossBody
  dsimp only
  split <;> rfl

@[simp] theorem unsent_sendCross (w : Nat × PktFlit) (x : Cross) : unsent (sendCross s a b w x) = unsent s := by
  simp [sendCross]

@[simp] theorem unsent_tellFrees (n : Nat) : unsent (tellFrees a b n s) = unsent s := by
  induction n generalizing s with
  | zero => rfl
  | succ n ih =>
    unfold tellFrees
    split <;> simp [ih]

theorem unsent_of_pumpOne {t : State} (sends : pumpOne s a b = some t) : unsent t = unsent s := by
  unfold pumpOne at sends
  extract_lets s1 p at sends
  split at sends
  · cases sends
  split at sends
  · cases sends
    simp [s1]
  split at sends
  · cases sends
  · cases sends
    simp [s1]
  · cases sends
    simp [s1]
  · cases sends
    split <;> simp [s1]

@[simp] theorem unsent_pumpN (n : Nat) : unsent (pumpN a b n s) = unsent s := by
  induction n generalizing s with
  | zero => rfl
  | succ n ih =>
    unfold pumpN
    split
    case h_1 => rfl
    case h_2 t sends => exact (ih t).trans (unsent_of_pumpOne s a b sends)

@[simp] theorem unsent_sendMsg (m : D2dMsg) : unsent (sendMsg s a b m) = unsent s := by
  unfold sendMsg
  extract_lets n
  split <;> simp [sendHop, pump]

end

/-! ### Bells (06 R147) -/

section
variable (s : State)

@[simp] theorem sendMsg_bells (a b : Nat) (m : D2dMsg) : (sendMsg s a b m).bells = s.bells := by
  have kept := congrArg State.bells (unsent_sendMsg s a b m)
  exact kept

@[simp] theorem notifyWatches_bells (b : Nat) : (notifyWatches s b).bells = s.bells :=
  foldl_keeps State.bells (fun t _ => sendMsg_bells t _ _ _) _ _

@[simp] theorem raiseVector_bells (v : Nat) : (raiseVector s v).bells = s.bells := by
  unfold raiseVector
  split <;> rfl

@[simp] theorem journal_bells (idx sub bit : Nat) : (journal s idx sub bit).bells = s.bells := by
  unfold journal
  extract_lets m fresh used
  split <;> rfl

@[simp] theorem sticky_bells (idx sub bit : Nat) : (sticky s idx sub bit).bells = s.bells := by
  unfold sticky
  split
  · rfl
  · simp [raiseError]

theorem strike_bells (b : Nat) (v : Word) : (strike s b v).bells = mput 0 s.bells b (s.bell b + v) := by
  unfold strike
  extract_lets old s1 s2
  have kept : s2.bells = s1.bells := by
    dsimp only [s2]
    split
    · exact sticky_bells ..
    · rfl
  exact (notifyWatches_bells s2 b).trans kept

theorem setBell_bells (b : Nat) (v : Word) : (setBell s b v).bells = mput 0 s.bells b v := notifyWatches_bells _ b

/-- Without a watch there is nobody to notify. -/
theorem notifyWatches_unwatched {b : Nat} (unwatched : s.watches = []) : notifyWatches s b = s := by
  obtain ⟨⟩ := s
  subst unwatched
  rfl

theorem strike_alone {b : Nat} {v : Word} (unwatched : s.watches = []) (small : s.bell b ≤ s.bell b + v) :
    strike s b v = s.setBell b (s.bell b + v) := by
  have stays : ¬s.bell b + v < s.bell b := BitVec.not_lt.mpr small
  simp only [strike, if_neg stays]
  exact notifyWatches_unwatched _ unwatched

end

/-- Settles O13: what a strike and a SET leave in the map of bells, read at the bell and at any other. -/
theorem bellArithmetic : Obligations.BellArithmetic := by
  unfold Obligations.BellArithmetic
  intro s b v canonical
  have wf := canonical.bells
  have struck (c : Nat) : (strike s b v).bell c = mget 0 (mput 0 s.bells b (s.bell b + v)) c :=
    congrArg (mget 0 · c) (strike_bells s b v)
  have set (c : Nat) : (setBell s b v).bell c = mget 0 (mput 0 s.bells b v) c := congrArg (mget 0 · c) (setBell_bells s b v)
  refine ⟨(struck b).trans (mget_mput_same _ wf), (set b).trans (mget_mput_same _ wf), fun c other => ⟨?_, ?_⟩,
    strike_alone s⟩
  · exact (struck c).trans (mget_mput_other _ wf other)
  · exact (set c).trans (mget_mput_other _ wf other)

/-! ### The entries of a BELL descriptor (06 R137, R150, R151, Table 6.10) -/

section
variable {s t : State} {q : QId} {i : BitVec 32} {e : Fin 3} {j : Job}

/-- An entry is a BELL descriptor's next, and in `t` the descriptor's release is done. -/
structure EntryDue (s : State) (q : QId) (i : BitVec 32) (e : Fin 3) (j : Job) (t : State) : Prop where
  job : s.job q.val i = some j
  bell : descType j.words = 5
  works : j.phase ≠ .finished
  next : nextEntry j.words j.entries = some e.val
  released : bellReady s q.val i j = (true, t)

theorem withEntry_due (h : EntryDue s q i e j t) {want : Word → Bool}
    {act : State → Word → Word → Word → Option (Bool × State)} {late : Bool} {u : State}
    (wanted : want (dword j.words (5 + 3 * e.val)) = true)
    (acts : act t (dword j.words (5 + 3 * e.val)) (dword j.words (6 + 3 * e.val)) (dword j.words (7 + 3 * e.val))
      = some (late, u)) :
    withEntry q i e want act s = entryDone u q.val i e.val late := by
  obtain ⟨job, bell, works, next, released⟩ := h
  have due : ¬(descType j.words ≠ 5 ∨ j.phase = .finished ∨ nextEntry j.words j.entries ≠ some e.val
      ∨ (!want (dword j.words (5 + 3 * e.val))) = true) := by
    simp [bell, works, next, wanted]
  simp only [withEntry, job, if_neg due, released, Bool.not_true, Bool.false_eq_true, if_false, acts]

/-- A strike whose tick has not passed is entered (06 R151). -/
theorem enterSched_ahead {d : Nat} {x : Sched} (ahead : now t ≤ x.tick) :
    enterSched t d x = (false, { t with scheds := t.scheds ++ [(d, x)] }) :=
  if_neg (BitVec.not_lt.mpr ahead)

/-- One whose tick has passed is performed at once, and counts as late. -/
theorem enterSched_late {d : Nat} {x : Sched} (late : x.tick < now t) :
    enterSched t d x = (true, strike (bump t 0x8065 (d + 1) 1) x.bell x.add) := if_pos late

end

/-- Settles O14: what each form of an entry does, its bell on the same die, another die or another device. -/
theorem bellEntriesPerformed : Obligations.BellEntriesPerformed := by
  unfold Obligations.BellEntriesPerformed
  intro q i e s t j w add tick b d job bell works next released
  have due : EntryDue s q i e j t := ⟨job, bell, works, next, released⟩
  refine ⟨fun now strikes near own => ?_, fun now strikes near other => ?_, fun now strikes far => ?_,
    fun now sets own => ?_, fun now sets other => ?_, fun sched far => ?_, fun sched near other room => ?_,
    fun sched near own ahead room => ?_, fun sched near own late => ?_⟩
  · refine congrArg Host.Outcome.next (withEntry_due due (by rw [now, strikes]; rfl) ?_)
    exact (if_neg (ne_true_of_eq_false near)).trans (congrArg (fun u => some (false, u)) (if_pos own))
  · refine congrArg Host.Outcome.next (withEntry_due due (by rw [now, strikes]; rfl) ?_)
    exact (if_neg (ne_true_of_eq_false near)).trans (congrArg (fun u => some (false, u)) (if_neg other))
  · exact congrArg Host.Outcome.next (withEntry_due due (by rw [now, strikes]; rfl) (if_pos far))
  · exact congrArg Host.Outcome.next (withEntry_due due (by rw [now, sets]; rfl) (if_pos own))
  · exact congrArg Host.Outcome.next (withEntry_due due (by rw [now, sets]; rfl) (if_neg other))
  · exact congrArg Host.Outcome.next (withEntry_due due sched (if_pos far))
  · refine congrArg Host.Outcome.next (withEntry_due due sched ?_)
    exact (if_neg (ne_true_of_eq_false near)).trans ((if_neg other).trans (if_pos room))
  · refine congrArg Host.Outcome.next (withEntry_due due sched ?_)
    exact (if_neg (ne_true_of_eq_false near)).trans ((if_pos own).trans ((if_pos (.inr room)).trans
      (congrArg some (enterSched_ahead ahead))))
  · refine congrArg Host.Outcome.next (withEntry_due due sched ?_)
    exact (if_neg (ne_true_of_eq_false near)).trans ((if_pos own).trans ((if_pos (.inl late)).trans
      (congrArg some (enterSched_late late))))

/-! ### The host's windows, messages between dies, and the tables (06 R149 to R151; 14 R319; 08 R184) -/

section
variable {s u : State} {m : D2dMsg}

theorem bellWindow_sends {b : Nat} (on : hubOn s = true) (up : dieUp s (bellDie b) = true) (typ : Byte) (v : Word) :
    bellWindow s typ b v
      = sendMsg s 8 (bellDie b) (dataMsg typ 8 (bellDie b) 0 (b % 512) (natLe 8 v.toNat) []) := by
  simp only [bellWindow, on, up, Bool.not_true, Bool.false_eq_true, if_false]

theorem onMsg_taken (taken : takeMsg s m = some u) (up : unitUp s m.dst.val = true) (act : State → State) :
    onMsg s m act = act u := by
  simp only [onMsg, taken, if_pos up]

theorem onMsg_untaken (untaken : takeMsg s m = none) (act : State → State) : onMsg s m act = s := by
  rw [onMsg, untaken]

/-- A queue of the notice's die holds the watch of its tag, at its head or for a REPLAY. -/
def holdsWatch (m : D2dMsg) (e : Nat × Queue) : Bool :=
  queueDie e.1 == m.dst.val && (e.2.watch == some m.tag || e.2.jobs.any (fun j => j.watch == some m.tag))

theorem holdsWatch_iff (e : Nat × Queue) : holdsWatch m e = true ↔ queueDie e.1 = m.dst.val
    ∧ (e.2.watch == some m.tag || e.2.jobs.any (fun j => j.watch == some m.tag)) = true := by
  rw [holdsWatch, Bool.and_eq_true, beq_iff_eq]

theorem takeNotify_discarded (none : s.queues.any (holdsWatch m) = false) : takeNotify m s = s :=
  if_neg (ne_true_of_eq_false none)

theorem scheduledStrike_due {d : Die} {k : Nat} {x : Nat × Sched} (remote : Bool) (up : dieUp s d.val = true)
    (come : x.2.tick ≤ now s)
    (entry : ((if remote then s.remScheds else s.scheds).filter (fun y => y.1 == d.val))[k]? = some x) :
    scheduledStrike d remote k s = strike
      (if remote then { s with remScheds := s.remScheds.erase x } else { s with scheds := s.scheds.erase x })
      x.2.bell x.2.add := by
  have acts : ¬(now s < x.2.tick ∨ (!dieUp s d.val) = true) := by
    rw [up]
    exact not_or.mpr ⟨BitVec.not_lt.mpr come, by decide⟩
  simp only [scheduledStrike, entry, if_neg acts]
  rfl

end

/-- Settles O15: each message acts once it is taken and not before, and an entered strike once its tick has come. -/
theorem bellMessagesAndSchedule : Obligations.BellMessagesAndSchedule := by
  unfold Obligations.BellMessagesAndSchedule
  refine fun s => ⟨fun b v wide on up => ?_, fun m u taken up => ?_, fun m c untaken row => ?_, fun d k x up come => ?_⟩
  · exact ⟨congrArg Host.Outcome.next (bellWindow_sends on up _ _), congrArg Host.Outcome.next (bellWindow_sends on up _ _)⟩
  · intro rest holds tell
    have takes (act : State → State) : onMsg s m act = act u := onMsg_taken taken up act
    refine ⟨congrArg Host.Outcome.next (takes _), congrArg Host.Outcome.next (takes _),
      fun ahead => congrArg Host.Outcome.next ?_, fun late => congrArg Host.Outcome.next ?_,
      congrArg Host.Outcome.next (takes _), congrArg Host.Outcome.next (takes _),
      fun ⟨e, listed, die, held⟩ => congrArg Host.Outcome.next ?_, fun unheld => congrArg Host.Outcome.next ?_⟩
    · exact (takes _).trans (congrArg Prod.snd (enterSched_ahead ahead))
    · exact (takes _).trans (congrArg Prod.snd (enterSched_late late))
    · have hit : u.queues.any (holdsWatch m) = true := List.any_eq_true.mpr ⟨e, listed, holdsWatch_iff e |>.mpr ⟨die, held⟩⟩
      exact (takes _).trans (if_pos hit)
    · have miss : u.queues.any (holdsWatch m) = false := List.any_eq_false.mpr fun e listed held =>
        have ⟨die, holder⟩ := (holdsWatch_iff e).mp held
        absurd ((unheld e listed die).symm.trans holder) (by decide)
      exact (takes _).trans (takeNotify_discarded miss)
  · have nothing (act : State → State) : Host.Outcome.next (onMsg s m act) = .next (φ := Fault) (ρ := Refusal) s :=
      congrArg _ (onMsg_untaken untaken act)
    simp only [List.mem_cons, List.not_mem_nil, or_false] at row
    rcases row with rfl | rfl | rfl | rfl | rfl | rfl <;> exact nothing _
  · exact ⟨fun own => congrArg Host.Outcome.next (scheduledStrike_due false up come own),
      fun held => congrArg Host.Outcome.next (scheduledStrike_due true up come held)⟩

/-! ### Bell frames (06 R150, R151; 13 R295, R296) -/

section
variable {p : Packet} {s u : State}

/-- A packet for this device is taken, and `u` is the state in which it has been taken. -/
structure Ejects (s : State) (p : Packet) (u : State) : Prop where
  live : fabricLive s = true
  here : s.fab.coord = some p.dst
  credit : replyCredit s p = true
  taken : takePacket s p = some u

theorem eject_taken (h : Ejects s p u) (act : State → State) : eject p act s = returnFrees p (ejected p act u) := by
  obtain ⟨live, here, credit, taken⟩ := h
  have ejects : ¬(!fabricLive s || s.fab.coord != some p.dst || !replyCredit s p) = true := by simp [live, here, credit]
  simp only [eject, if_neg ejects, taken]

theorem ejected_accepted (free : isFenced u p.src = false) (ok : epochOk u p = true) (act : State → State) :
    ejected p act u = act u :=
  (if_neg (ne_true_of_eq_false free)).trans (if_pos (by rw [ok]; rfl))

/-- A bell frame of an unaccepted epoch is counted and discarded (13 R295). -/
theorem ejected_stale (free : isFenced u p.src = false) (stale : epochOk u p = false) (other : isFencedErr p = false)
    (bell : p.cls = 5) (act : State → State) : ejected p act u = discardFrame (bump u 0x80C0 1 1) p :=
  (if_neg (ne_true_of_eq_false free)).trans ((if_neg (by rw [stale, other]; decide)).trans (if_pos (by rw [bell]; rfl)))

/-- A packet of a fenced device is counted, and answered where it asks (13 R296). -/
theorem ejected_fenced (fenced : isFenced u p.src = true) (act : State → State) : ejected p act u =
    if p.cls == 0 || p.cls == 2 then replyErr (bump u 0x80C0 1 1) p 0x1C else bump u 0x80C0 1 1 := if_pos fenced

end

/-- Settles O26: a bell frame by its source, its epoch, its tick and the room of the table. -/
theorem bellFramesApplied : Obligations.BellFramesApplied := by
  unfold Obligations.BellFramesApplied
  intro p s u d tick x room live here credit taken
  have takes (act : State → State) : eject p act s = returnFrees p (ejected p act u) :=
    eject_taken ⟨live, here, credit, taken⟩ act
  refine ⟨fun free ok up => ?_, fun free stale other bell => congrArg Host.Outcome.next ?_, fun fenced =>
    ⟨fun request => congrArg Host.Outcome.next ?_, fun bell => congrArg Host.Outcome.next ?_⟩⟩
  · have acts (act : State → State) {t : State} (done : act u = t) : eject p act s = returnFrees p t :=
      (takes act).trans (congrArg _ ((ejected_accepted free ok act).trans done))
    have out : ¬(!dieUp u d) = true := by rw [up]; decide
    have enters (sync : unsync u = false) (fits : room = true) :
        ¬(unsync u || decide (256 ≤ (u.remScheds.filter (fun y => y.1 == d)).length)) = true := by
      rw [sync, decide_eq_false (Nat.not_le.mpr (of_decide_eq_true fits))]
      decide
    refine ⟨congrArg Host.Outcome.next (acts _ (if_pos up)), fun sync fits ahead => ?_, fun sync fits late => ?_,
      fun lost => ?_⟩
    · exact congrArg Host.Outcome.next (acts _ ((if_neg out).trans ((if_neg (enters sync fits)).trans
        (if_neg (BitVec.not_lt.mpr ahead)))))
    · exact congrArg Host.Outcome.next (acts _ ((if_neg out).trans ((if_neg (enters sync fits)).trans (if_pos late))))
    · refine congrArg Host.Outcome.next (acts _ ((if_neg out).trans (if_pos ?_)))
      rcases lost with unsynced | full
      · rw [unsynced, Bool.true_or]
      · rw [decide_eq_true (Nat.not_lt.mp (of_decide_eq_false full)), Bool.or_true]
  · exact (takes _).trans (congrArg _ (ejected_stale free stale other bell _))
  · refine (takes _).trans (congrArg _ ((ejected_fenced fenced _).trans (if_pos ?_)))
    rw [request]
    rfl
  · refine (takes _).trans (congrArg _ ((ejected_fenced fenced _).trans (if_neg ?_)))
    rw [bell]
    decide

end Sys2Proof.Machine
end

section
/-! Copies (06 R137, R142, R152; 07 R171; 08 R192): speculative fills, a copy's ends, a copy within the die's own store, one to
the host, and O19 and O20. -/

namespace Sys2Proof.Machine

/-! ### Speculative fills (06 R142; 08 R192) -/

section
variable {s : State} {q : QId} {i : BitVec 32} {f : Fetched}

/-- The address lies in the map of a die of this device. -/
def OwnPlace (s : State) (d a : Nat) : Prop := a < 2 ^ 56 ∧ addrSlot a = ownSlot s ∧ addrDie a = d

/-- A fetched descriptor of a compute die's queue that may be filled: a legal, unpoisoned SPEC copy of a mapped range of the
die's own stack to its own tier. -/
structure Fillable (s : State) (q : QId) (f : Fetched) : Prop where
  compute : queueDie q.val ≠ 8
  running : (s.queue q.val).state = .running
  copy : descType f.words = 6
  spec : descSpec f.words = true
  bytes : wbits (dword f.words 7) 47 0 ≠ 0
  src : OwnPlace s (queueDie q.val) (dword f.words 5).toNat
  dst : OwnPlace s (queueDie q.val) (dword f.words 6).toNat
  stack : 0x1000000000 ≤ addrOff (dword f.words 5).toNat
  tier : addrOff (dword f.words 6).toNat < 0x18000000
  sound : f.poison = none
  legal : issueFault s q.val f.words = none
  mapped : faultIn s (queueDie q.val) (addrOff (dword f.words 5).toNat) (wbits (dword f.words 7) 47 0) = none

/-- A fill of the descriptor stands. -/
def filled (s : State) (q : QId) (i : BitVec 32) : Bool :=
  (s.cp (queueDie q.val)).specs.any (fun g => g.queue == q.val && g.idx == i)

/-- The lines of the die's speculative fills. -/
def specHeld (s : State) (d : Nat) : Nat := ((s.cp d).specs.map (fun g => g.lines.length)).foldl (· + ·) 0

/-- The lines that a fill reads: the leading ones of its source, up to the room under the die's limit. -/
def fillLines (s : State) (q : QId) (l : List Word) : List Nat :=
  (sourceLines (dword l 5).toNat (wbits (dword l 7) 47 0)).take
    (specLimit s (queueDie q.val) - specHeld s (queueDie q.val))

/-- A fill has begun, with no line yet. -/
def fillBegun (s : State) (q : QId) (i : BitVec 32) (l : List Word) : State :=
  let d := queueDie q.val
  let key := cellKey d (addrOff (dword l 5).toNat)
  s.setCp d { s.cp d with specs := (s.cp d).specs ++
    [{ queue := q.val, idx := i, lo := key, hi := key + wbits (dword l 7) 47 0, lines := [], ways := [], data := [],
       marks := [], stale := [] }] }

theorem ownPlace_test {d a : Nat} (own : OwnPlace s d a) :
    (decide (a < 2 ^ 56) && addrSlot a == ownSlot s && addrDie a == d) = true := by
  obtain ⟨small, slot, die⟩ := own
  rw [decide_eq_true small, slot, die, beq_self_eq_true, beq_self_eq_true]
  rfl

theorem speculativeFill_fills (fetched : (s.queue q.val).fetched.find? (fun g => g.idx == i) = some f) (fit : Fillable s q f)
    (fresh : filled s q i = false) (path : onPredicted s q.val i = true) (room : fillLines s q f.words ≠ []) :
    speculativeFill q i s = (fillLines s q f.words).foldl (specLine q.val i)
      (carryRead (fillBegun s q i f.words) ((fillLines s q f.words).headD 0 * 512) (512 * (fillLines s q f.words).length)) := by
  obtain ⟨compute, running, copy, spec, bytes, src, dst, stack, tier, sound, legal, mapped⟩ := fit
  have lines : (fillLines s q f.words).isEmpty = false := by
    rw [← Bool.not_eq_true, List.isEmpty_iff]
    exact room
  have fills : ¬(queueDie q.val = 8 ∨ (s.queue q.val).state ≠ .running ∨ descType f.words ≠ 6 ∨ (!descSpec f.words) = true
      ∨ wbits (dword f.words 7) 47 0 = 0 ∨ (!(decide ((dword f.words 5).toNat < 2 ^ 56)
        && addrSlot (dword f.words 5).toNat == ownSlot s && addrDie (dword f.words 5).toNat == queueDie q.val)) = true
      ∨ (!(decide ((dword f.words 6).toNat < 2 ^ 56) && addrSlot (dword f.words 6).toNat == ownSlot s
        && addrDie (dword f.words 6).toNat == queueDie q.val)) = true
      ∨ addrOff (dword f.words 5).toNat < 0x1000000000 ∨ 0x18000000 ≤ addrOff (dword f.words 6).toNat
      ∨ f.poison.isSome = true ∨ (issueFault s q.val f.words).isSome = true
      ∨ (faultIn s (queueDie q.val) (addrOff (dword f.words 5).toNat) (wbits (dword f.words 7) 47 0)).isSome = true
      ∨ filled s q i = true ∨ (!onPredicted s q.val i) = true) := by
    rw [ownPlace_test src, ownPlace_test dst]
    simp [compute, running, copy, spec, bytes, stack, tier, sound, legal, mapped, fresh, path]
  simp only [speculativeFill, fetched]
  refine (if_neg fills).trans ((if_neg (ne_true_of_eq_false lines)).trans rfl)

/-- One off the predicted path, or whose fill stands, is left. -/
theorem speculativeFill_left (fetched : (s.queue q.val).fetched.find? (fun g => g.idx == i) = some f)
    (left : onPredicted s q.val i = false ∨ filled s q i = true) : speculativeFill q i s = s := by
  simp only [speculativeFill, fetched]
  refine if_pos ?_
  iterate 12 refine .inr ?_
  rcases left with off | stands
  · exact .inr (by rw [off]; rfl)
  · exact .inl stands

/-- A fill that takes a line, in a way of its set, with what the stack holds of it and the marks of its words. -/
def lineTaken (s : State) (p : Nat) (i : BitVec 32) (k w : Nat) (g : SpecFill) : SpecFill :=
  if g.queue = p ∧ g.idx = i then
    { g with
      lines := g.lines ++ [k], ways := g.ways ++ [w], data := g.data ++ readBytes s (k * 512) 512,
      marks := g.marks ++ ((List.range 64).map (k * 64 + ·)).filter s.poison.contains }
  else g

/-- A line takes the lowest free way of its set (08 R192). -/
theorem specLine_takes {p k w : Nat} (way : freeWay s (queueDie p) (specSet s (queueDie p) k) = some w) :
    specLine p i s k = s.setCp (queueDie p)
      { s.cp (queueDie p) with specs := (s.cp (queueDie p)).specs.map (lineTaken s p i k w) } := by
  -- Unfolded as a function: of an application, the kernel would evaluate the free way before it unfolds `specLine`.
  have body : specLine = specLine := rfl
  conv at body =>
    rhs
    delta specLine
  rw [body]
  simp only [way]
  rfl

end

/-- Settles O19: a fill begins and takes its lines one by one, each in a free way. -/
theorem speculativeFillRuns : Obligations.SpeculativeFillRuns := by
  unfold Obligations.SpeculativeFillRuns
  intro q i s f x d l src dst len key room lines fresh begun fetched
  refine ⟨fun compute running copy spec bytes srcLow srcSlot srcDie dstLow dstSlot dstDie stack tier sound legal mapped new
    path takes => ⟨congrArg Host.Outcome.next ?_, fun u k w way => specLine_takes way⟩,
    fun left => congrArg Host.Outcome.next (speculativeFill_left fetched left)⟩
  exact speculativeFill_fills fetched ⟨compute, running, copy, spec, bytes, ⟨srcLow, srcSlot, srcDie⟩,
    ⟨dstLow, dstSlot, dstDie⟩, stack, tier, sound, legal, mapped⟩ new path takes

/-! ### What a copy leaves alone -/

/-- A state but for what a copy within the die's own store may change: what a store of bytes changes, the queues, and the
entries of the dictionary. -/
def outsideCopy (s : State) : State := { unstored s with queues := [], dict := [] }

theorem outsideCopy_eq {s t : State} (same : outsideCopy t = outsideCopy s) : t =
    { s with mem := t.mem, poison := t.poison, queues := t.queues, cps := t.cps, dict := t.dict, res := t.res } := by
  calc t
    _ = { outsideCopy t with
          mem := t.mem, poison := t.poison, queues := t.queues, cps := t.cps, dict := t.dict, res := t.res } := rfl
    _ = { outsideCopy s with
          mem := t.mem, poison := t.poison, queues := t.queues, cps := t.cps, dict := t.dict, res := t.res } := by rw [same]
    _ = _ := rfl

section
variable (s : State) (q : Nat) (i : BitVec 32)

@[simp] theorem outsideCopy_modJob (f : Job → Job) : outsideCopy (s.modJob q i f) = outsideCopy s := rfl

@[simp] theorem outsideCopy_finishOk : outsideCopy (finishOk s q i) = outsideCopy s := by
  unfold finishOk
  split <;> rfl

@[simp] theorem outsideCopy_carryRead (key len : Nat) : outsideCopy (carryRead s key len) = outsideCopy s := by
  unfold carryRead
  extract_lets n d
  split <;> rfl

@[simp] theorem outsideCopy_useSpecs : outsideCopy (useSpecs s q i) = outsideCopy s := by
  unfold useSpecs
  extract_lets d c
  split <;> rfl

@[simp] theorem outsideCopy_storeBytes (key : Nat) (data : List Byte) (pz : Nat → Bool) :
    outsideCopy (storeBytes s key data pz) = outsideCopy s :=
  congrArg (fun u : State => { u with queues := [], dict := [] }) (unstored_storeBytes s key data pz)

/-! ### The memory and the queues -/

@[simp] theorem carryRead_mem (key len : Nat) : (carryRead s key len).mem = s.mem := by
  unfold carryRead
  extract_lets n d
  split <;> rfl

@[simp] theorem useSpecs_mem : (useSpecs s q i).mem = s.mem := by
  unfold useSpecs
  extract_lets d c
  split <;> rfl

@[simp] theorem finishOk_mem : (finishOk s q i).mem = s.mem := by
  unfold finishOk
  split <;> rfl

@[simp] theorem useSpecs_queues : (useSpecs s q i).queues = s.queues := by
  unfold useSpecs
  extract_lets d c
  split <;> rfl

theorem writeBytes_mem {s t : State} (same : s.mem = t.mem) (key : Nat) (data : List Byte) :
    (writeBytes s key data).mem = (writeBytes t key data).mem := by
  induction data generalizing s t key with
  | nil => exact same
  | cons b r ih => exact ih (congrArg (mput 0 · key b) same) (key + 1)

/-- What a store leaves in memory depends on nothing but the memory. -/
theorem storeBytes_mem {s t : State} (same : s.mem = t.mem) (key : Nat) (data : List Byte) (pz mark : Nat → Bool) :
    (storeBytes s key data pz).mem = (storeBytes t key data mark).mem :=
  writeBytes_mem (by simpa using same) key data

theorem storeBytes_nil_mem (key : Nat) (pz : Nat → Bool) : (storeBytes s key [] pz).mem = s.mem := by
  simp [storeBytes, writeBytes]

end

/-! ### The job of a descriptor in flight -/

section
variable {s : State} {q : Nat} {i : BitVec 32} {j : Job}

theorem job_idx (job : s.job q i = some j) : (j.idx == i) = true := List.find?_some (p := fun k : Job => k.idx == i) job

theorem job_congr {t : State} (same : t.queues = s.queues) : t.job q i = s.job q i := by
  unfold State.job State.queue
  rw [same]

/-- A descriptor in flight that is changed is found changed: its queue lists it, so it is not a queue at reset. -/
theorem job_modJob {f : Job → Job} (same : ∀ k, (f k).idx = k.idx) (job : s.job q i = some j) :
    (s.modJob q i f).job q i = some (f j) := by
  have listed : (s.queue q).jobs ≠ [] := fun none => by simp [State.job, none] at job
  have put : (s.modJob q i f).queue q
      = { s.queue q with jobs := (s.queue q).jobs.map (fun k => if k.idx == i then f k else k) } := by
    refine mget_mput_new _ q fun reset => listed (List.map_eq_nil_iff.mp (congrArg Queue.jobs reset))
  have found : ((fun k : Job => k.idx == i) ∘ fun k => if k.idx == i then f k else k) = fun k => k.idx == i := by
    funext k
    dsimp only [Function.comp]
    split <;> simp only [same]
  rw [State.job, put, List.find?_map, found]
  change Option.map _ (s.job q i) = _
  rw [job, Option.map_some, if_pos (job_idx job)]

end

/-! ### The delivery of a copy that its die reads -/

/-- A state in which a copy is at work. -/
def copyBegun (s : State) (q : Nat) (i : BitVec 32) : State :=
  useSpecs (s.modJob q i fun k => { k with phase := .working }) q i

/-- A state in which a copy has read its source whole, from its die's own store. -/
def copyHasRead (s : State) (q : Nat) (i : BitVec 32) (key n : Nat) : State :=
  carryRead ((copyBegun s q i).modJob q i fun k => { k with nextOff := n }) key n

section
variable {s : State} {q : Nat} {i : BitVec 32} {j : Job} {key n : Nat}

theorem copyBegun_job (job : s.job q i = some j) : (copyBegun s q i).job q i = some { j with phase := .working } :=
  (job_congr (useSpecs_queues ..)).trans (job_modJob (fun _ => rfl) job)

theorem copyHasRead_job (job : s.job q i = some j) :
    (copyHasRead s q i key n).job q i = some { j with phase := .working, nextOff := n } :=
  (job_congr (carryRead_queues ..)).trans
    (job_modJob (f := fun k => { k with nextOff := n }) (fun _ => rfl) (copyBegun_job job))

@[simp] theorem outsideCopy_copyHasRead : outsideCopy (copyHasRead s q i key n) = outsideCopy s := by
  simp [copyHasRead, copyBegun]

@[simp] theorem copyHasRead_mem : (copyHasRead s q i key n).mem = s.mem := by
  simp [copyHasRead, copyBegun, State.modJob, State.setQueue]

theorem copyHasRead_stage : (copyHasRead s q i key n).stage = s.stage := by
  change (outsideCopy (copyHasRead s q i key n)).stage = (outsideCopy s).stage
  rw [outsideCopy_copyHasRead]

theorem copyHasRead_own (d a : Nat) : isOwnAddr (copyHasRead s q i key n) d a = isOwnAddr s d a := by
  simp only [isOwnAddr, ownSlot, copyHasRead_stage]

/-- What a die reads of its own store does not come from outside the package. -/
theorem copyHasRead_fromOut {d : Nat} (dev : isHost (copySrc j.words) = false)
    (own : isOwnAddr s d (wbits (copySrc j.words) 55 0) = true) :
    copyFromOut (copyHasRead s q i key n) j.words = false := by
  obtain ⟨slot, -⟩ : addrSlot (wbits (copySrc j.words) 55 0) = ownSlot s ∧ addrDie (wbits (copySrc j.words) 55 0) = d := by
    simpa [isOwnAddr] using own
  simp [copyFromOut, dev, slot, ownSlot, copyHasRead_stage]

theorem length_readBytes : (readBytes s key n).length = n := by
  induction n generalizing key with
  | zero => rfl
  | succ n ih => exact congrArg (· + 1) ih

/-- The whole of a copy to host memory is written there in payloads. -/
theorem copyDeliver_host {data : List Byte} {pz : Nat → Bool} (job : s.job q i = some j)
    (inside : copyFromOut s j.words = false) (host : isHost (copyDst j.words) = true) :
    copyDeliver s q i 0 data pz = hostWrite s q i pz (data.length + 1) (wbits (copyDst j.words) 55 0) 0 data := by
  simp [copyDeliver, job, inside, host]

/-- The whole of a copy to the die's own store is stored there at once, under the marks of its words; of no bytes,
nothing is. -/
theorem copyDeliver_own {data : List Byte} {pz : Nat → Bool} (job : s.job q i = some j)
    (inside : copyFromOut s j.words = false) (dev : isHost (copyDst j.words) = false)
    (own : isOwnAddr s (queueDie q) (wbits (copyDst j.words) 55 0) = true) :
    let key := cellKey (queueDie q) (addrOff (wbits (copyDst j.words) 55 0))
    copyDeliver s q i 0 data pz = if data.isEmpty then s
      else storeBytes s key data (wordMarks key data.length fun k => pz (0 + k)) := by
  simp [copyDeliver, job, inside, dev, devWrite, own]

/-- What is delivered to the die's own store stands there, and only a copy's own effects change. -/
theorem copyDeliver_own_stores {data : List Byte} {pz : Nat → Bool} (job : s.job q i = some j)
    (inside : copyFromOut s j.words = false) (dev : isHost (copyDst j.words) = false)
    (own : isOwnAddr s (queueDie q) (wbits (copyDst j.words) 55 0) = true) :
    (copyDeliver s q i 0 data pz).mem
        = (storeBytes s (cellKey (queueDie q) (addrOff (wbits (copyDst j.words) 55 0))) data fun _ => false).mem
      ∧ outsideCopy (copyDeliver s q i 0 data pz) = outsideCopy s := by
  rw [copyDeliver_own job inside dev own]
  cases data with
  | nil => exact ⟨(storeBytes_nil_mem ..).symm, rfl⟩
  | cons b r => exact ⟨storeBytes_mem rfl _ _ _ _, outsideCopy_storeBytes ..⟩

end

/-! ### The start of a copy -/

section
variable {s : State} {q : QId} {i : BitVec 32} {j : Job}

/-- A ready COPY, which has its host where it needs one: what the start of a copy asks for first. -/
structure CopyReady (s : State) (q : QId) (i : BitVec 32) (j : Job) : Prop where
  job : s.job q.val i = some j
  copy : descType j.words = 6
  ready : j.phase = .ready
  host : (isHost (copySrc j.words) || isHost (copyDst j.words)) = true → hostReady s = true

/-- None of the start's first refusals holds of a ready copy. -/
theorem CopyReady.starts (c : CopyReady s q i j) : ¬(descType j.words ≠ 6 ∨ j.phase ≠ .ready
    ∨ ((isHost (copySrc j.words) || isHost (copyDst j.words)) = true ∧ (!hostReady s) = true)) := by
  obtain ⟨-, copy, ready, host⟩ := c
  rintro (other | other | ⟨needs, away⟩)
  · exact other copy
  · exact other ready
  · simp [host needs] at away

/-- A copy whose source faults ends with that fault. -/
theorem copyStart_sourceFault {x : Nat} {p : Place} (c : CopyReady s q i j)
    (fault : endFault s (copySrc j.words) (copyLen j.words) = some (x, p)) :
    copyStart q i s = faultJob s q.val i x p := by
  simp only [copyStart, c.job, if_neg c.starts, fault]

/-- A copy whose destination alone faults ends with that fault. -/
theorem copyStart_destinationFault {x : Nat} {p : Place} (c : CopyReady s q i j)
    (src : endFault s (copySrc j.words) (copyLen j.words) = none)
    (fault : endFault s (copyDst j.words) (copyLen j.words) = some (x, p)) :
    copyStart q i s = faultJob s q.val i x p := by
  simp only [copyStart, c.job, if_neg c.starts, src, fault]

/-- Does a copy read its die's own store, and write it or the host? It is then made at once. -/
def copyAtOnce (s : State) (d : Nat) (l : List Word) : Bool :=
  !isHost (copySrc l) && isOwnAddr s d (wbits (copySrc l) 55 0)
    && (isHost (copyDst l) || isOwnAddr s d (wbits (copyDst l) 55 0))

/-- A copy with mapped ends that is not made at once issues its pieces. -/
theorem copyStart_pieces (c : CopyReady s q i j) (src : endFault s (copySrc j.words) (copyLen j.words) = none)
    (dst : endFault s (copyDst j.words) (copyLen j.words) = none)
    (pieces : copyAtOnce s (queueDie q.val) j.words = false) :
    copyStart q i s = copyPump q.val i 2048 (copyBegun s q.val i) := by
  unfold copyAtOnce at pieces
  simp only [copyStart, c.job, if_neg c.starts, src, dst, pieces]
  rfl

/-- A copy with mapped ends that is made at once delivers what its source holds. -/
theorem copyStart_atOnce (c : CopyReady s q i j) (src : endFault s (copySrc j.words) (copyLen j.words) = none)
    (dst : endFault s (copyDst j.words) (copyLen j.words) = none)
    (atOnce : copyAtOnce s (queueDie q.val) j.words = true) :
    let key := cellKey (queueDie q.val) (addrOff (wbits (copySrc j.words) 55 0))
    copyStart q i s = finishOk (copyDeliver (copyHasRead s q.val i key (copyLen j.words)) q.val i 0
      (readBytes s key (copyLen j.words))
      fun k => poisoned s (key + k) || (specMarks s q.val i).contains ((key + k) / 8)) q.val i := by
  unfold copyAtOnce at atOnce
  simp only [copyStart, c.job, if_neg c.starts, src, dst, atOnce, if_true]
  rfl

end

/-- Settles O20: a ready copy ends with its fault, is delivered at once, or issues its pieces. -/
theorem copyMovesBytes : Obligations.CopyMovesBytes := by
  unfold Obligations.CopyMovesBytes
  intro q i s j l d a b begun job copy ready host
  have c : CopyReady s q i j := ⟨job, copy, ready, host⟩
  refine ⟨fun src dst => ⟨fun _ srcDev srcOwn dstDev dstOwn => ?_, fun srcDev srcOwn dstHost => ?_, fun pieces =>
    congrArg Host.Outcome.next (copyStart_pieces c src dst pieces)⟩,
    fun x p fault => congrArg Host.Outcome.next (copyStart_sourceFault c fault),
    fun x p src fault => congrArg Host.Outcome.next (copyStart_destinationFault c src fault)⟩
  · have atOnce : copyAtOnce s d l = true := by
      change (!isHost (copySrc l) && isOwnAddr s d a && (isHost (copyDst l) || isOwnAddr s d b)) = true
      rw [srcDev, srcOwn, dstOwn, Bool.or_true]
      rfl
    obtain ⟨stored, kept⟩ := copyDeliver_own_stores (copyHasRead_job job) (copyHasRead_fromOut srcDev srcOwn) dstDev
      ((copyHasRead_own ..).trans dstOwn)
    refine ⟨_, congrArg Host.Outcome.next (copyStart_atOnce c src dst atOnce), ?_, ?_⟩
    · rw [finishOk_mem]
      exact stored.trans (storeBytes_mem copyHasRead_mem ..)
    · exact outsideCopy_eq ((outsideCopy_finishOk ..).trans (kept.trans outsideCopy_copyHasRead))
  · intro key
    have atOnce : copyAtOnce s d l = true := by
      change (!isHost (copySrc l) && isOwnAddr s d a && (isHost (copyDst l) || isOwnAddr s d b)) = true
      rw [srcDev, srcOwn, dstHost]
      rfl
    refine congrArg Host.Outcome.next ((copyStart_atOnce c src dst atOnce).trans ?_)
    rw [copyDeliver_host (copyHasRead_job job) (copyHasRead_fromOut srcDev srcOwn) dstHost, length_readBytes]
    rfl

end Sys2Proof.Machine
end

section
/-! Requests between dies and through the fabric (08 R184 to R197; 09 R221, R225): the owner's side, the requester's side, the
timeouts, and O28 and O29. -/

namespace Sys2Proof.Machine

/-! ### A request at its owner (08 R186, R191, R193, R197) -/

section
variable {m : D2dMsg} {s u : State}

theorem onReq_taken (room : hasRoom s m.dst.val m.src.val 1 = true) (taken : takeMsg s m = some u)
    (up : unitUp s m.dst.val = true) (act : State → State) : onReq s m act = act u :=
  (if_pos room).trans (onMsg_taken taken up act)

/-- Without credit for the reply, or where it is not the oldest whole message, a request stays. -/
theorem onReq_stays (h : hasRoom s m.dst.val m.src.val 1 = false ∨ takeMsg s m = none) (act : State → State) :
    onReq s m act = s := by
  unfold onReq
  split
  case isTrue room => exact onMsg_untaken (h.resolve_left (by simp [room])) act
  case isFalse => rfl

theorem serveRd_mapped (mapped : faultIn u m.dst.val m.addr.toNat m.len.toNat = none) :
    serveRd m u =
      sendMsg (carryRead u (cellKey m.dst.val m.addr.toNat) m.len.toNat) m.dst.val m.src.val
        (dataMsg 0x10 m.dst.val m.src.val m.tag m.addr.toNat
          (readBytes u (cellKey m.dst.val m.addr.toNat) m.len.toNat)
          ((wordsOf (cellKey m.dst.val m.addr.toNat) m.len.toNat).map u.poison.contains)) := by
  simp only [serveRd, mapped]

theorem serveRd_bad {o : Nat} (fault : faultIn u m.dst.val m.addr.toNat m.len.toNat = some (o, .bad)) :
    serveRd m u = errReply u m 0x19 := by
  simp only [serveRd, fault, ownerFault]

theorem serveWr_mapped (mapped : faultIn u m.dst.val m.addr.toNat m.data.length = none) :
    serveWr m u = sendMsg (storeBytes u (cellKey m.dst.val m.addr.toNat) m.data (msgMark m)) m.dst.val m.src.val
      (bareMsg 0x11 m.dst.val m.src.val m.tag 0) := by
  simp only [serveWr, mapped]

theorem serveWrm_mapped (mapped : faultIn u m.dst.val m.addr.toNat 512 = none) :
    serveWrm m u = sendMsg (storeMasked u (cellKey m.dst.val m.addr.toNat) (leNat (m.data.take 64)) (m.data.drop 64)
      (msgMark m)) m.dst.val m.src.val (bareMsg 0x11 m.dst.val m.src.val m.tag 0) := by
  simp only [serveWrm, mapped]

/-! ### A reply at its requester (08 R193, R194, R197) -/

theorem onReply_ends {r : D2dReq} (taken : takeMsg s m = some u) (up : unitUp s m.dst.val = true)
    (found : findReq u m.dst.val m.tag = some r) (act : State → D2dReq → State) : onReply s m act = act u r := by
  simp only [onReply, onMsg_taken taken up, found]

theorem onReply_dropped (taken : takeMsg s m = some u) (up : unitUp s m.dst.val = true)
    (unclaimed : findReq u m.dst.val m.tag = none) (act : State → D2dReq → State) : onReply s m act = u := by
  simp only [onReply, onMsg_taken taken up, unclaimed]

end

/-- Settles O28: a request by `onReq_taken` and its owner's answer, a reply by whether its tag names a request. -/
theorem dieRequestsServed : Obligations.DieRequestsServed := by
  unfold Obligations.DieRequestsServed
  intro m s u d key
  refine ⟨fun up taken => ⟨fun room => ?_, fun r found => ?_, fun unclaimed => ?_⟩, fun h => ?_, fun untaken => ?_⟩
  · have acts (act : State → State) {t : State} (done : act u = t) :
        Host.Outcome.next (onReq s m act) = .next (φ := Fault) (ρ := Refusal) t :=
      congrArg _ ((onReq_taken room taken up act).trans done)
    exact ⟨fun mapped => acts _ (serveRd_mapped mapped), fun mapped => acts _ (serveWr_mapped mapped),
      fun mapped => acts _ (serveWrm_mapped mapped), fun o fault => acts _ (serveRd_bad fault)⟩
  · have ends (act : State → D2dReq → State) :
        Host.Outcome.next (onReply s m act) = .next (φ := Fault) (ρ := Refusal) (act u r) :=
      congrArg _ (onReply_ends taken up found act)
    exact ⟨ends _, ends _, ends _⟩
  · have drops (act : State → D2dReq → State) :
        Host.Outcome.next (onReply s m act) = .next (φ := Fault) (ρ := Refusal) u :=
      congrArg _ (onReply_dropped taken up unclaimed act)
    exact ⟨drops _, drops _, drops _⟩
  · have stays (act : State → State) : Host.Outcome.next (onReq s m act) = .next (φ := Fault) (ρ := Refusal) s :=
      congrArg _ (onReq_stays h act)
    exact ⟨stays _, stays _, stays _⟩
  · have nothing (act : State → D2dReq → State) :
        Host.Outcome.next (onReply s m act) = .next (φ := Fault) (ρ := Refusal) s :=
      congrArg _ (onMsg_untaken untaken _)
    exact ⟨nothing _, nothing _, nothing _⟩

/-! ### Requests with no reply (08 R197; 09 R221, R225) -/

section
variable {s : State} {tag : BitVec 16}

/-- A request within the package has 1 ms (08 R197). -/
theorem d2dRequestTimeout_found {d : Die9} {r : D2dReq} (found : findReq s d.val tag = some r) (own : r.slot = ownSlot s) :
    exec (.d2dRequestTimeout d tag) s =
      .next (if 1000000 ≤ (clock s - r.at_).toNat then requestFailed s r 0x1B else s) := by
  change execD2dRequestTimeout d tag s = _
  simp only [execD2dRequestTimeout, found, own, beq_self_eq_true, Bool.true_and, decide_eq_true_eq]

theorem fabReqTimeout_found {r : Req} (found : fabReq s tag = some r) :
    fabReqTimeout tag s =
      if dnum s 0x9004 1 * 1000 ≤ (clock s - r.at_).toNat then fabFailed (sticky s 0xA090 6 r.die) r 0x34 0 else s := by
  simp only [fabReqTimeout, found]

/-- The request is noted as sent again, with its last flit still to leave. -/
def resentOnce (s : State) (r : Req) : State :=
  { s with fab := { s.fab with reqs := s.fab.reqs.map (fun (x : Req) =>
    if x == r then { x with resent := true, leftAt := none } else x) } }

theorem circuitResendExpiry_due {r : Req} {t : Word} (found : fabReq s tag = some r) (circuit : r.circuit.isSome = true)
    (left : r.leftAt = some t) (due : dnum s 0x9004 2 * 1000 ≤ (clock s - t).toNat) :
    circuitResendExpiry tag s =
      if r.resent then fabFailed (sticky s 0xA090 7 r.packet.plane.val) r 0x36 0
      else sendOn (resentOnce s r) r.packet.plane.val r.packet := by
  have acts : ¬(r.circuit.isNone = true ∨ (clock s - t).toNat < dnum s 0x9004 2 * 1000) := by
    rw [← Option.not_isSome, circuit]
    exact not_or.mpr ⟨by decide, Nat.not_lt.mpr due⟩
  simp only [circuitResendExpiry, found, left, if_neg acts]
  rfl

end

/-- Settles O29: each timeout by its comparison with the clock, a circuit packet by whether it has been sent again. -/
theorem requestTimeouts : Obligations.RequestTimeouts := by
  unfold Obligations.RequestTimeouts
  intro s tag
  refine ⟨fun d r found own => ?_, fun r found => ⟨fun due => ?_, fun early => ?_, fun t circuit left due => ?_⟩⟩
  · rw [d2dRequestTimeout_found found own]
    exact ⟨fun due => congrArg Host.Outcome.next (if_pos due),
      fun early => congrArg Host.Outcome.next (if_neg (Nat.not_le.mpr early))⟩
  · exact congrArg Host.Outcome.next ((fabReqTimeout_found found).trans (if_pos due))
  · exact congrArg Host.Outcome.next ((fabReqTimeout_found found).trans (if_neg (Nat.not_le.mpr early)))
  · have acts := circuitResendExpiry_due found circuit left due
    exact ⟨fun again => congrArg Host.Outcome.next (acts.trans (if_pos again)),
      fun first => congrArg Host.Outcome.next (acts.trans (if_neg (ne_true_of_eq_false first)))⟩

end Sys2Proof.Machine
end

section
/-! The links between dies (08 R182 to R190): a flit and its judgement, what an acknowledgement frees and sends again, the
move of a lane to its spare, retraining, and O30. -/

namespace Sys2Proof.Machine

/-! ### A flit at its receiver (08 R182, R184, R187) -/

/-- The number, the kind and the CRC of a flit (08 Table 8.1). -/
def flitSeq (f : D2dFlit) : BitVec 12 := BitVec.ofNat 12 (bitsOf (leNat (f.bytes.take 8)) 63 52)
def flitKind (f : D2dFlit) : Nat := bitsOf (leNat (f.bytes.take 8)) 38 36
def flitSound (f : D2dFlit) : Bool := crc32 (f.bytes.take 252) == leNat (slice f.bytes 252 4)

/-- Flits of a pair arrive: its receiver is in service, and the pair has a lane and does not retrain. -/
structure PairListens (s : State) (a b : Die9) : Prop where
  up : unitUp s b.val = true
  trained : (s.pair a.val b.val).retrain = false
  lanes : pairLanes (s.pair a.val b.val) ≠ 0

/-- What the receiver's judgement of a flit with a number of its own leaves. -/
def flitJudged (s : State) (a b : Die9) (f : D2dFlit) : State :=
  if !flitSound f then badFlit s a.val b.val f.bytes
  else if flitSeq f = (s.pair a.val b.val).expect then acceptFlit s a.val b.val f.bytes
  else s.setPair a.val b.val { s.pair a.val b.val with nak := true }

/-- The receiver answers with an idle flit where the reverse pair can send one. -/
def flitAnswered (t : State) (a b : Nat) : State :=
  if pairLanes (t.pair b a) = 0 || (t.pair b a).retrain then t else sendIdle t b a

section
variable {s : State} {a b : Die9} {f : D2dFlit}

theorem d2dFlitReceived_lost (h : (s.pair a.val b.val).retrain = true ∨ pairLanes (s.pair a.val b.val) = 0) :
    d2dFlitReceived a b f s = s := by
  have lost : (!unitUp s b.val || (s.pair a.val b.val).retrain || pairLanes (s.pair a.val b.val) == 0) = true := by
    rcases h with retrains | laneless
    · rw [retrains, Bool.or_true, Bool.true_or]
    · rw [laneless, beq_self_eq_true, Bool.or_true]
  exact if_pos lost

theorem PairListens.arrives (l : PairListens s a b) :
    ¬(!unitUp s b.val || (s.pair a.val b.val).retrain || pairLanes (s.pair a.val b.val) == 0) = true := by
  simp [l.up, l.trained, l.lanes]

/-- An idle flit only brings its header, where that is sound. -/
theorem d2dFlitReceived_idle (l : PairListens s a b) (idle : flitKind f = 0) :
    d2dFlitReceived a b f s =
      if flitSound f then relayAll (pairReadAck s b.val a.val (leNat (f.bytes.take 8))) b.val else s :=
  (if_neg l.arrives).trans (if_pos (beq_iff_eq.mpr idle))

theorem d2dFlitReceived_numbered (l : PairListens s a b) (numbered : flitKind f ≠ 0) :
    d2dFlitReceived a b f s = flitAnswered (flitJudged s a b f) a.val b.val :=
  (if_neg l.arrives).trans (if_neg (mt beq_iff_eq.mp numbered))

theorem flitJudged_spoilt (spoilt : flitSound f = false) : flitJudged s a b f = badFlit s a.val b.val f.bytes :=
  if_pos (by rw [spoilt]; rfl)

theorem flitJudged_inSequence (sound : flitSound f = true) (next : flitSeq f = (s.pair a.val b.val).expect) :
    flitJudged s a b f = acceptFlit s a.val b.val f.bytes :=
  (if_neg (by rw [sound]; decide)).trans (if_pos next)

theorem flitJudged_outOfSequence (sound : flitSound f = true) (other : flitSeq f ≠ (s.pair a.val b.val).expect) :
    flitJudged s a b f = s.setPair a.val b.val { s.pair a.val b.val with nak := true } :=
  (if_neg (by rw [sound]; decide)).trans (if_neg other)

/-- An accepted flit that had no discarded copy charges no lane. -/
theorem acceptFlit_uncharged (copies : (s.pair a.val b.val).bad = []) (charges : (s.pair a.val b.val).charges = []) :
    acceptFlit s a.val b.val f.bytes =
      let p := s.pair a.val b.val
      let h := leNat (f.bytes.take 8)
      let s1 := s.setPair a.val b.val
        { p with expect := p.expect + 1, nak := false, bad := [], flits := p.flits + 1, charges := [] }
      let t := relayAll (judgePair (pairReadAck (takeBody s1 a.val b.val (flitKind f) (bitsOf h 35 34) (slice f.bytes 8 244))
        b.val a.val h) a.val b.val) b.val
      if b.val < 8 then slicePump t b.val else t := by
  simp only [acceptFlit, copies, charges, List.flatMap_nil, List.filter_nil, List.append_nil]
  rfl

end

/-! ### A flit that fails its CRC (08 R187) -/

section
variable {s : State} {a b : Nat} {bytes : List Byte}

/-- The discarded copies of the flit expected, with this one where it is another. -/
def badCopies (p : Pair) (bytes : List Byte) : List (List Byte) :=
  if !p.nak || BitVec.ofNat 12 (bitsOf (leNat (bytes.take 8)) 63 52) == p.expect then p.bad ++ [bytes] else p.bad

theorem badFlit_kept (few : (badCopies (s.pair a b) bytes).length < 16) :
    badFlit s a b bytes = s.setPair a b { s.pair a b with nak := true, bad := badCopies (s.pair a b) bytes } :=
  if_neg (Nat.not_le.mpr few)

/-- The pair has begun to retrain in its own direction, which is noted. -/
def oneWayRetrain (s : State) (a b : Nat) : State :=
  sticky (s.setPair a b { s.pair a b with nak := true, bad := [], retrain := true }) 0xA080 4 b

theorem badFlit_retrains (many : 16 ≤ (badCopies (s.pair a b) bytes).length) :
    badFlit s a b bytes =
      (oneWayRetrain s a b).setPair b a { (oneWayRetrain s a b).pair b a with retrain := true } := if_pos many

theorem raiseVector_pairs (s : State) (v : Nat) : (raiseVector s v).pairs = s.pairs := by
  unfold raiseVector
  split <;> rfl

theorem journal_pairs (s : State) (idx sub bit : Nat) : (journal s idx sub bit).pairs = s.pairs := by
  unfold journal
  extract_lets m fresh used
  split <;> rfl

theorem sticky_pairs (s : State) (idx sub bit : Nat) : (sticky s idx sub bit).pairs = s.pairs := by
  unfold sticky
  split
  · rfl
  · rw [raiseError, raiseVector_pairs, addDebt_pairs, journal_pairs, dputBit_pairs]

theorem Inv.pairs (h : Inv s) : mwf Pair.init 0 s.pairs = true := by
  obtain ⟨-, -, -, -, -, -, -, -, -, -, -, -, pairs, -⟩ := h.parts
  exact pairs

theorem pairs_setPair (wf : mwf Pair.init 0 s.pairs = true) (x : Pair) :
    mwf Pair.init 0 (s.setPair a b x).pairs = true := mwf_mput x wf (Nat.zero_le _)

theorem pair_setPair_same (wf : mwf Pair.init 0 s.pairs = true) (x : Pair) : (s.setPair a b x).pair a b = x :=
  mget_mput_same x wf

theorem pair_setPair_reverse {a b : Die9} (wf : mwf Pair.init 0 s.pairs = true) (distinct : a ≠ b) (x : Pair) :
    (s.setPair b.val a.val x).pair a.val b.val = s.pair a.val b.val :=
  mget_mput_other x wf (fun same => distinct (Fin.ext (by omega)))

/-- The sixteenth failure in a row retrains both directions, and the number expected stays. -/
theorem badFlit_retrains_both {a b : Die9} (canonical : Inv s) (distinct : a ≠ b)
    (many : 16 ≤ (badCopies (s.pair a.val b.val) bytes).length) :
    ((badFlit s a.val b.val bytes).pair a.val b.val).retrain = true
      ∧ ((badFlit s a.val b.val bytes).pair b.val a.val).retrain = true
      ∧ ((badFlit s a.val b.val bytes).pair a.val b.val).expect = (s.pair a.val b.val).expect := by
  have pairs := sticky_pairs (s.setPair a.val b.val
    { s.pair a.val b.val with nak := true, bad := [], retrain := true }) 0xA080 4 b.val
  have wf : mwf Pair.init 0 (oneWayRetrain s a.val b.val).pairs = true :=
    (congrArg (mwf Pair.init 0) pairs).trans (pairs_setPair canonical.pairs _)
  have forward : (oneWayRetrain s a.val b.val).pair a.val b.val
      = { s.pair a.val b.val with nak := true, bad := [], retrain := true } :=
    (congrArg (mget Pair.init · (9 * a.val + b.val)) pairs).trans (pair_setPair_same canonical.pairs _)
  rw [badFlit_retrains many, pair_setPair_same wf, pair_setPair_reverse wf distinct, forward]
  exact ⟨rfl, rfl, rfl⟩

theorem flitAnswered_pairs (t : State) (a b : Nat) : (flitAnswered t a b).pairs = t.pairs := by
  unfold flitAnswered
  split <;> rfl

theorem flitAnswered_pair (t : State) (a b c d : Nat) : (flitAnswered t a b).pair c d = t.pair c d :=
  congrArg (mget Pair.init · (9 * c + d)) (flitAnswered_pairs t a b)

end

/-! ### Acknowledgements (08 R184, R185) -/

section
variable {s : State} {a b h n : Nat}

/-- The running counts of frees in a link header, by class. -/
def freesTold (h : Nat) : List Nat := [bitsOf h 31 24, bitsOf h 23 16, bitsOf h 15 8, bitsOf h 7 0]

/-- The sender's side of a pair once an ACK that covers `n` of its flits, and the frees with it, have been read. -/
def ackRead (p : Pair) (h n : Nat) : Pair :=
  { p with
    acked := BitVec.ofNat 12 (bitsOf h 51 40), replay := p.replay.drop n, seen := (freesTold h).map (BitVec.ofNat 8),
    sent := (List.range 4).map (fun c =>
      natAt p.sent c - natAt ((List.range 4).map (fun k =>
        (natAt (freesTold h) k + 256 - (p.seen.getD k 0).toNat) % 256)) c) }

/-- The state in which that ACK has been read. -/
def withAck (s : State) (a b h n : Nat) : State := s.setPair a b (ackRead (s.pair a b) h n)

theorem pairReadAck_covered (count : (BitVec.ofNat 12 (bitsOf h 51 40) - (s.pair a b).acked).toNat = n)
    (covered : n ≤ (s.pair a b).replay.length) :
    pairReadAck s a b h =
      let left := ((withAck s a b h n).pair a b).replay.length
      pump (if h.testBit 39 && left != 0 then bump (resendAll (withAck s a b h n) a b) 0x8080 (a + 1) left
        else withAck s a b h n) a b := by
  simp only [pairReadAck, count, decide_eq_true covered, if_true, Bool.and_true]
  rfl

theorem pairReadAck_ack (count : (BitVec.ofNat 12 (bitsOf h 51 40) - (s.pair a b).acked).toNat = n)
    (covered : n ≤ (s.pair a b).replay.length) (ack : h.testBit 39 = false) :
    pairReadAck s a b h = pump (withAck s a b h n) a b :=
  (pairReadAck_covered count covered).trans (congrArg (pump · a b) (if_neg (by simp [ack])))

/-- A NAK sends again what is still held. -/
theorem pairReadAck_nak (count : (BitVec.ofNat 12 (bitsOf h 51 40) - (s.pair a b).acked).toNat = n)
    (covered : n ≤ (s.pair a b).replay.length) (nak : h.testBit 39 = true)
    (held : ((withAck s a b h n).pair a b).replay ≠ []) :
    pairReadAck s a b h = pump (bump (resendAll (withAck s a b h n) a b) 0x8080 (a + 1)
      ((withAck s a b h n).pair a b).replay.length) a b :=
  (pairReadAck_covered count covered).trans (congrArg (pump · a b) (if_pos (by
    rw [nak, Bool.true_and, bne_iff_ne]
    exact mt List.length_eq_zero_iff.mp held)))

end

/-! ### Lane swaps and retraining (08 R187 to R190, Table 8.4) -/

section
variable {s t : State} {a b : Die9}

/-- The switch of a swap that its sender has been asked for is fixed. -/
def switchFixed (lane spare : Lam) (k : BitVec 12) (w : Swap) : Swap :=
  if w.lane = lane.val ∧ w.spare = spare.val then { w with at_ := some k } else w

theorem d2dSwap_held {lane spare : Lam} (held : takeCtl s b.val a.val (laneBody 1 lane.val spare.val 0) = some t) :
    d2dSwap a b lane spare s =
      let x := t.pair a.val b.val
      sendLaneFlit (t.setPair a.val b.val { x with swaps := x.swaps.map (switchFixed lane spare (x.next + 32)) })
        a.val b.val (laneBody 2 lane.val spare.val (x.next + 32).toNat) := by
  simp only [d2dSwap, held]
  rfl

/-- A swap whose switch at `k` is acknowledged. -/
def switchAcked (lane : Lam) (k : BitVec 12) (w : Swap) : Swap :=
  if w.lane = lane.val ∧ w.at_ = some k then { w with acked := true } else w

theorem d2dSwapAck_held {lane spare : Lam} {k : BitVec 12}
    (held : takeCtl s a.val b.val (laneBody 2 lane.val spare.val k.toNat) = some t) :
    d2dSwapAck a b lane spare k s = t.setPair a.val b.val
      { t.pair a.val b.val with swaps := (t.pair a.val b.val).swaps.map (switchAcked lane k) } := by
  simp only [d2dSwapAck, held]
  rfl

/-- The pair with a swap's lane on its spare, which has left the pool; the lane's charges are forgotten. -/
def laneOnSpare (p : Pair) (w : Swap) : Pair :=
  { p with lanes := { p.lanes with
             map := p.lanes.map.set w.lane (some (lamField w.spare)),
             spares := p.lanes.spares.filter (fun k => k.val != w.spare) },
           swaps := p.swaps.erase w, charges := p.charges.filter (fun c => c.1 != w.lane) }

/-- A vacate of the λ that a lane of die `a` has left may go on in its bank (10 R260). -/
def vacateFreed (t : State) (a : Nat) : Option Lam → State
  | some l => if a < 8 then bankSettle t (bankOf a) l.val else t
  | none => t

theorem d2dLaneSwitch_due {w : Swap}
    (due : (s.pair a.val b.val).swaps.find? (fun x => x.acked && x.at_ == some (s.pair a.val b.val).next) = some w) :
    d2dLaneSwitch a b s =
      let p := s.pair a.val b.val
      pump (vacateFreed (sticky (saveLanes (s.setPair a.val b.val (laneOnSpare p w)) a.val b.val) 0xA080 1 b.val) a.val
        (p.lanes.map.getD w.lane none)) a.val b.val := by
  simp only [d2dLaneSwitch, due]
  rfl

end

/-- Settles O30: a flit by its kind, CRC and number; an ACK by what it covers; a swap by the body held. -/
theorem dieLinkFlitsAndLanes : Obligations.DieLinkFlitsAndLanes := by
  unfold Obligations.DieLinkFlitsAndLanes
  intro a b s p answered
  refine ⟨fun up trained lanes f => ?_, fun lost f => congrArg Host.Outcome.next (d2dFlitReceived_lost lost),
    fun h n count covered => ?_, fun lane spare t held => congrArg Host.Outcome.next (d2dSwap_held held),
    fun lane spare k t held => congrArg Host.Outcome.next (d2dSwapAck_held held),
    fun w due => congrArg Host.Outcome.next (d2dLaneSwitch_due due),
    fun retrains => ⟨congrArg Host.Outcome.next (if_pos retrains), rfl⟩, fun l on => ?_⟩
  · intro h seq kind bad
    have listens : PairListens s a b := ⟨up, trained, lanes⟩
    have judged (numbered : kind ≠ 0) {t : State} (judge : flitJudged s a b f = t) :
        d2dFlitReceived a b f s = answered t :=
      (d2dFlitReceived_numbered listens numbered).trans (congrArg answered judge)
    refine ⟨fun crc => ?_, fun crc => ?_⟩
    · have spoilt : flitSound f = false := beq_false_of_ne crc
      refine ⟨fun idle => congrArg Host.Outcome.next ?_, fun numbered few => congrArg Host.Outcome.next ?_,
        fun numbered many => ⟨_, congrArg Host.Outcome.next (judged numbered (flitJudged_spoilt spoilt)),
          fun canonical distinct => ?_⟩⟩
      · exact (d2dFlitReceived_idle listens idle).trans (if_neg (ne_true_of_eq_false spoilt))
      · exact judged numbered ((flitJudged_spoilt spoilt).trans (badFlit_kept few))
      · have pair (c d : Nat) : (answered (badFlit s a.val b.val f.bytes)).pair c d
            = (badFlit s a.val b.val f.bytes).pair c d := flitAnswered_pair _ a.val b.val c d
        rw [pair, pair]
        exact badFlit_retrains_both canonical distinct many
    · have sound : flitSound f = true := beq_iff_eq.mpr crc
      refine ⟨fun idle => congrArg Host.Outcome.next ?_, fun numbered other => congrArg Host.Outcome.next ?_,
        fun numbered next copies charges => congrArg Host.Outcome.next ?_⟩
      · exact (d2dFlitReceived_idle listens idle).trans (if_pos sound)
      · exact judged numbered (flitJudged_outOfSequence sound other)
      · exact judged numbered ((flitJudged_inSequence sound next).trans (acceptFlit_uncharged copies charges))
  · exact ⟨fun ack => pairReadAck_ack count covered ack, fun nak held => pairReadAck_nak count covered nak held⟩
  · have live : ¬(!hubOn s) = true := by rw [on]; decide
    exact ⟨congrArg Host.Outcome.next (if_pos on), congrArg Host.Outcome.next (if_neg live),
      fun f => ⟨congrArg Host.Outcome.next (if_neg live), congrArg Host.Outcome.next (if_neg live)⟩⟩

end Sys2Proof.Machine
end

section
/-! The fabric's descriptors (09 R211, R221, R222, R230 to R232): the start of a PUT, PULL, multicast put, circuit put or
SEND, the fabric's tables, the opening and closing of circuits, and O21, O22 and O23. -/

namespace Sys2Proof.Machine

/-- A put that goes in its circuit's lanes. -/
def inCircuit (l : List Word) : Bool := putCirc l && !isSend l

/-- A descriptor that begins to issue its pieces: at its queue's plane of the round-robin, with every member of its
multicast awaited. -/
def putBegun (s : State) (q : Nat) (i : BitVec 32) (l : List Word) : State :=
  putPump q i 2048 (s.modJob q i fun k =>
    { k with phase := .working, plane := queueLocal q % 8,
             bitmap := BitVec.ofNat 32 (if putMcast l && !isSend l then mcastAll l else 0) })

/-- The source of a descriptor's bytes is sound: it pulls them, or they have the host that they need, and are mapped in the
device's own map where it names any. -/
def SoundSource (s : State) (l : List Word) : Prop :=
  (putPull l && !isSend l) = true ∨ ((isHost (dword l 5) = true → hostReady s = true)
    ∧ (putLen l = 0 ∨ endFault s (dword l 5) (putLen l) = none)
    ∧ (isHost (dword l 5) = true ∨ addrSlot (dword l 5).toNat = ownSlot s))

section
variable {s : State} {l : List Word}

theorem SoundSource.host (h : SoundSource s l) :
    (!(putPull l && !isSend l) && isHost (dword l 5) && !hostReady s) = false := by
  rcases h with pulls | ⟨host, -, -⟩
  · rw [pulls]; rfl
  · cases needs : isHost (dword l 5)
    · rw [Bool.and_false, Bool.false_and]
    · rw [host needs, Bool.not_true, Bool.and_false]

theorem SoundSource.mapped (h : SoundSource s l) :
    (if (putPull l && !isSend l) || putLen l == 0 then none else endFault s (dword l 5) (putLen l)) = none := by
  rcases h with pulls | ⟨-, empty | mapped, -⟩
  · exact if_pos (by rw [pulls]; rfl)
  · exact if_pos (by rw [empty, beq_self_eq_true, Bool.or_true])
  · rw [mapped, ite_self]

theorem SoundSource.own (h : SoundSource s l) :
    (!(putPull l && !isSend l) && !isHost (dword l 5) && addrSlot (dword l 5).toNat != ownSlot s) = false := by
  rcases h with pulls | ⟨-, -, host | own⟩
  · rw [pulls]; rfl
  · rw [host, Bool.not_true, Bool.and_false, Bool.false_and]
  · rw [own, bne_self_eq_false, Bool.and_false]

end

/-- A ready descriptor that a test picks, with a sound source: what the start of a put or of a send asks for first. -/
structure PutReady (s : State) (q : QId) (i : BitVec 32) (j : Job) (want : List Word → Bool) : Prop where
  job : s.job q.val i = some j
  picked : want j.words = true
  ready : j.phase = .ready
  source : SoundSource s j.words

section
variable {s : State} {q : QId} {i : BitVec 32} {j : Job} {want : List Word → Bool}

/-- With a sound source, what remains is the way: the circuit of a circuit put, a plane for any other. -/
theorem putStart_sound (h : PutReady s q i j want) : putStart q i want s =
    if inCircuit j.words && (openCircuit s (putCircuit j.words)).isNone then
      finish s q.val i 0x35 (s.fab.coord.getD 0).toNat
    else if !inCircuit j.words && (allowedPlanes s (putDst s j.words) (putMask j.words)).isEmpty then
      finish s q.val i 0x30 (s.fab.coord.getD 0).toNat
    else putBegun s q.val i j.words := by
  obtain ⟨job, picked, ready, source⟩ := h
  have starts : (!want j.words || j.phase != .ready
      || (!(putPull j.words && !isSend j.words) && isHost (dword j.words 5) && !hostReady s)) = false := by
    rw [picked, ready, source.host]; rfl
  simp only [putStart, job, starts, source.mapped, source.own, Bool.false_eq_true, if_false]
  rfl

theorem putStart_begins (h : PutReady s q i j want)
    (circuit : inCircuit j.words = true → (openCircuit s (putCircuit j.words)).isSome = true)
    (planes : inCircuit j.words = false → allowedPlanes s (putDst s j.words) (putMask j.words) ≠ []) :
    putStart q i want s = putBegun s q.val i j.words := by
  rw [putStart_sound h]
  cases way : inCircuit j.words
  · exact (if_neg Bool.false_ne_true).trans (if_neg (mt List.isEmpty_iff.mp (planes way)))
  · have isOpen : (openCircuit s (putCircuit j.words)).isNone = false := by rw [← Option.not_isSome, circuit way]; rfl
    exact (if_neg (ne_true_of_eq_false isOpen)).trans (if_neg Bool.false_ne_true)

/-- A circuit put without its circuit is refused (09 R221). -/
theorem putStart_noCircuit (h : PutReady s q i j want) (circuit : inCircuit j.words = true)
    (closed : openCircuit s (putCircuit j.words) = none) :
    putStart q i want s = finish s q.val i 0x35 (s.fab.coord.getD 0).toNat :=
  (putStart_sound h).trans (if_pos (by rw [circuit, closed]; rfl))

/-- A descriptor without a plane to take ends UNREACHABLE (09 R211). -/
theorem putStart_noPlane (h : PutReady s q i j want) (plain : inCircuit j.words = false)
    (none : allowedPlanes s (putDst s j.words) (putMask j.words) = []) :
    putStart q i want s = finish s q.val i 0x30 (s.fab.coord.getD 0).toNat :=
  (putStart_sound h).trans ((if_neg (by rw [plain]; exact Bool.false_ne_true)).trans (if_pos (by rw [plain, none]; rfl)))

end

/-- Each of the five forms starts what its own test picks. -/
theorem putForm_starts {s : State} {q : QId} {i : BitVec 32} {l : List Word} {c : Instr}
    (form : (c = .put q ⟨i, []⟩ ∧ descType l = 7 ∧ putPull l = false ∧ putMcast l = false ∧ putCirc l = false)
      ∨ (c = .pull q i ∧ descType l = 7 ∧ putPull l = true)
      ∨ (c = .mcastPut q ⟨i, []⟩ ∧ descType l = 7 ∧ putMcast l = true ∧ putPull l = false)
      ∨ (c = .circuitPut q ⟨i, []⟩ ∧ descType l = 7 ∧ putCirc l = true ∧ putPull l = false ∧ putMcast l = false)
      ∨ (c = .send q ⟨i, []⟩ ∧ descType l = 8)) :
    ∃ want : List Word → Bool, want l = true ∧ exec c s = .next (putStart q i want s) := by
  rcases form with ⟨rfl, put, pull, mcast, circuit⟩ | ⟨rfl, put, pull⟩ | ⟨rfl, put, mcast, pull⟩
    | ⟨rfl, put, circuit, pull, mcast⟩ | ⟨rfl, send⟩
  · exact ⟨_, by simp [put, pull, mcast, circuit], rfl⟩
  · exact ⟨_, by simp [put, pull], rfl⟩
  · exact ⟨_, by simp [put, pull, mcast], rfl⟩
  · exact ⟨_, by simp [put, pull, mcast, circuit], rfl⟩
  · exact ⟨_, by simp [send], rfl⟩

/-- Settles O21: the form by `putForm_starts`, the start by its way. -/
theorem putsAndSendsStart : Obligations.PutsAndSendsStart := by
  unfold Obligations.PutsAndSendsStart
  intro q i s j c l pull circ begun me job ready form source
  obtain ⟨want, picked, starts⟩ := putForm_starts (s := s) form
  have h : PutReady s q i j want := ⟨job, picked, ready, source⟩
  rw [starts]
  exact ⟨fun circuit planes => congrArg Host.Outcome.next (putStart_begins h circuit planes),
    fun circuit closed => congrArg Host.Outcome.next (putStart_noCircuit h circuit closed),
    fun plain none => congrArg Host.Outcome.next (putStart_noPlane h plain none)⟩

/-! ### The tables (09 R204, R205, R211, R232) -/

/-- A ready FABRIC descriptor whose turn it is in its queue (09 R232). -/
structure FabricTurn (s : State) (q : QId) (i : BitVec 32) (j : Job) : Prop where
  job : s.job q.val i = some j
  fabric : descType j.words = 17
  ready : j.phase = .ready
  turn : fabricBefore s q.val i = false

section
variable {s : State} {q : QId} {i : BitVec 32} {j : Job}

theorem fabricOp_acts {op : Nat} (h : FabricTurn s q i j) (named : fabOp j.words = op) (act : List Word → State → State) :
    fabricOp q i op act s = act j.words s := by
  obtain ⟨job, fabric, ready, turn⟩ := h
  simp only [fabricOp, job]
  exact if_pos ⟨fabric, named, ready, turn⟩

/-- The window that a registration's body describes (09 R204, Table 9.10). -/
def bodyWindow (l : List Word) : Window :=
  { base := wbits (dword l 6) 55 0, len := (dword l 7).toNat, put := (wbits (dword l 5) 39 32).testBit 0,
    pull := (wbits (dword l 5) 39 32).testBit 1,
    filter := if (wbits (dword l 5) 39 32).testBit 2 then some (BitVec.ofNat 18 (wbits (dword l 8) 17 0)) else none }

/-- The receive queue that a registration's body describes (09 R205, Table 9.10). -/
def bodyQueue (l : List Word) : RecvQ :=
  { base := wbits (dword l 6) 55 0, slotLog2 := wbits (dword l 5) 31 28, slotsLog2 := wbits (dword l 5) 27 24,
    ctrl := wbits (dword l 7) 55 0, bell := if (dword l 5).getLsbD 32 then some (wbits (dword l 8) 11 0) else none }

/-- The state with a window, or a receive queue, entered under its number or taken out. -/
def putWindowOf (s : State) (id : Nat) (w : Option Window) : State :=
  { s with fab := { s.fab with windows := mput none s.fab.windows id w } }
def putQueueOf (s : State) (id : Nat) (r : Option RecvQ) : State :=
  { s with fab := { s.fab with rqs := mput none s.fab.rqs id r } }

theorem windowReg_mapped (h : FabricTurn s q i j) (op : fabOp j.words = 4) (mapped : regFault s (dword j.words 6) = none) :
    windowReg q i s = finishOk (putWindowOf s (fabId j.words) (some (bodyWindow j.words))) q.val i := by
  refine (fabricOp_acts h op _).trans ?_
  simp only [mapped]
  rfl

theorem windowDereg_unnamed (h : FabricTurn s q i j) (op : fabOp j.words = 5)
    (unnamed : s.fab.ends.any (fun e => e.2.2.toNat == fabId j.words) = false) :
    windowDereg q i s = finishOk (putWindowOf s (fabId j.words) none) q.val i :=
  (fabricOp_acts h op _).trans (if_neg (ne_true_of_eq_false unnamed))

theorem windowDereg_named (h : FabricTurn s q i j) (op : fabOp j.words = 5)
    (named : s.fab.ends.any (fun e => e.2.2.toNat == fabId j.words) = true) :
    windowDereg q i s = finish s q.val i 0x31 (fabId j.words) :=
  (fabricOp_acts h op _).trans (if_pos named)

theorem rqReg_mapped (h : FabricTurn s q i j) (op : fabOp j.words = 6) (ring : regFault s (dword j.words 6) = none)
    (ctrl : regFault s (dword j.words 7) = none) :
    rqReg q i s = finishOk (putQueueOf s (fabId j.words) (some (bodyQueue j.words))) q.val i := by
  refine (fabricOp_acts h op _).trans ?_
  simp only [ring, ctrl]
  rfl

theorem rqDereg_goes (h : FabricTurn s q i j) (op : fabOp j.words = 7) :
    rqDereg q i s = finishOk (putQueueOf s (fabId j.words) none) q.val i :=
  fabricOp_acts h op _

/-- The state with another detour table. -/
def putDetours (s : State) (es : List Detour) : State := { s with fab := { s.fab with detours := es } }

theorem detourLoad_empty (h : FabricTurn s q i j) (op : fabOp j.words = 3) (none : wbits (dword j.words 7) 6 0 = 0) :
    detourLoad q i s = finishOk (putDetours s []) q.val i :=
  (fabricOp_acts h op _).trans (if_pos none)

theorem detourLoad_clean {n key : Nat} (h : FabricTurn s q i j) (op : fabOp j.words = 3)
    (count : wbits (dword j.words 7) 6 0 = n) (some : n ≠ 0)
    (place : cellKey (addrDie (wbits (dword j.words 6) 55 0)) (addrOff (wbits (dword j.words 6) 55 0)) = key)
    (own : addrSlot (wbits (dword j.words 6) 55 0) = ownSlot s) (mapped : endFault s (dword j.words 6) (16 * n) = none)
    (clean : rangePoison s key (16 * n) = false) :
    detourLoad q i s
      = finishOk (putDetours s ((List.range n).map fun k => detourFrom (readBytes s (key + 16 * k) 16))) q.val i := by
  subst count place
  refine (fabricOp_acts h op _).trans ((if_neg some).trans ((if_neg (not_not.mpr own)).trans ?_))
  simp only [mapped, clean]
  rfl

end

/-- Settles O22: each operation acts by `fabricOp_acts`, and its table by its own lemma. -/
theorem fabricTablesWritten : Obligations.FabricTablesWritten := by
  unfold Obligations.FabricTablesWritten
  intro q i s j l acc key n job fabric ready turn
  have h : FabricTurn s q i j := ⟨job, fabric, ready, turn⟩
  exact ⟨fun op mapped => congrArg Host.Outcome.next (windowReg_mapped h op mapped),
    fun op unnamed => congrArg Host.Outcome.next (windowDereg_unnamed h op unnamed),
    fun op named => congrArg Host.Outcome.next (windowDereg_named h op named),
    fun op ring ctrl => congrArg Host.Outcome.next (rqReg_mapped h op ring ctrl),
    fun op => congrArg Host.Outcome.next (rqDereg_goes h op),
    fun op none => congrArg Host.Outcome.next (detourLoad_empty h op none),
    fun op some own mapped clean => congrArg Host.Outcome.next (detourLoad_clean h op rfl some rfl own mapped clean)⟩

/-! ### Circuits at their source (09 R220, R221) -/

/-- The circuit that a CIRCUIT_OPEN describes, not open yet. -/
def bodyCircuit (q : Nat) (i : BitVec 32) (l : List Word) : Circuit :=
  { id := BitVec.ofNat 12 (fabId l), queue := q, idx := i, dst := BitVec.ofNat 18 (wbits (dword l 6) 47 30),
    window := BitVec.ofNat 12 (wbits (dword l 6) 11 0), plane := wbits (dword l 5) 19 16,
    lanes := BitVec.ofNat 16 (wbits (dword l 7) 15 0), isOpen := false, closing := false }

/-- The state with a circuit noted, its lanes on the source's own port taken. -/
def circuitNoted (s : State) (port : Nat) (c : Circuit) : State :=
  let t := takeLanes s port c.lanes
  { t with fab := { t.fab with circuits := t.fab.circuits ++ [c] } }

/-- The packet that sets a circuit up. -/
def setupPacket (s : State) (c : Circuit) : Packet :=
  { newPacket s 8 c.dst 0 0x07 with id := c.id, len := 8, data := natLe 8 (c.window.toNat * 2 ^ 48 + c.lanes.toNat) }

/-- A descriptor that waits for one answer. -/
def awaitingOne (k : Job) : Job := { k with phase := .working, need := 1 }

section
variable {s : State} {q : QId} {i : BitVec 32} {j : Job}

theorem circuitOpen_asks {port : Nat} {c : Circuit} (h : FabricTurn s q i j) (op : fabOp j.words = 1)
    (asked : bodyCircuit q.val i j.words = c) (hop : nextPort s c.dst c.plane = some port)
    (up : dieUp s c.plane = true) (room : s.fab.circuits.length < 256)
    (new : s.fab.circuits.any (fun x => x.id == c.id) = false) (free : lanesFree s port c.lanes = true) :
    circuitOpen q i s = request ((circuitNoted s port c).modJob q.val i awaitingOne) q.val i c.plane none false
      (setupPacket s c) := by
  subst asked
  refine (fabricOp_acts h op _).trans ?_
  have opens : (decide (256 ≤ s.fab.circuits.length) || s.fab.circuits.any (fun x => x.id == BitVec.ofNat 12 (fabId j.words))
      || !lanesFree s port (BitVec.ofNat 16 (wbits (dword j.words 7) 15 0))) = false := by
    simp only [bodyCircuit] at new free
    rw [new, free, decide_eq_false (Nat.not_le.mpr room)]
    rfl
  simp only [bodyCircuit] at hop up
  simp only [hop, up, opens, Bool.not_true, Bool.false_eq_true, if_false]
  rfl

/-- A circuit that its CIRCUIT_CLOSE has marked: it closes, and answers to that descriptor. -/
def circuitClosing (s : State) (q : Nat) (i : BitVec 32) (id : BitVec 12) : State :=
  modCircuit (s.modJob q i awaitingOne) id fun x => some { x with closing := true, queue := q, idx := i }

theorem circuitClose_marks {o : Circuit} {id : BitVec 12} (h : FabricTurn s q i j) (op : fabOp j.words = 2)
    (named : BitVec.ofNat 12 (fabId j.words) = id) (opened : openCircuit s id = some o) (stays : o.closing = false) :
    circuitClose q i s = tryClose (circuitClosing s q.val i id) id := by
  subst named
  refine (fabricOp_acts h op _).trans ?_
  simp only [opened, stays, Bool.false_eq_true, if_false]
  rfl

end

/-! ### Circuits at a hop (09 R220) -/

section
variable {p : Packet} {s u v : State}

theorem atPort_leaves {act : State → Option State} (live : fabricLive s = true) (taken : takeAtPort s p = some u)
    (acts : act u = some v) : atPort p act s = returnFrees p v := by
  simp only [atPort, live, taken, acts, Bool.not_true, Bool.false_eq_true, if_false]

theorem atPort_stays {act : State → Option State} (live : fabricLive s = true) (taken : takeAtPort s p = some u)
    (waits : act u = none) : atPort p act s = s := by
  simp only [atPort, live, taken, waits, Bool.not_true, Bool.false_eq_true, if_false]

/-- A setup has reserved its lanes on its outgoing port, one entry for each, and is counted. -/
def hopEntered (u : State) (p : Packet) (inp : Port) (port : Nat) : State :=
  let t := takeLanes u port (setupLanes p)
  bump { t with fab := { t.fab with hops := t.fab.hops ++ (laneList (setupLanes p)).map fun k =>
    ({ inPort := inp, lane := laneField k, outPort := portField port } : HopEntry) } }
    0x8090 (p.plane.val + 1) (packetFlits p)

theorem hopSetup_enters {inp : Port} {port : Nat} (came : p.inPort = some inp)
    (next : nextPort u p.dst p.plane.val = some port) (before : stepsPast u p.dst port = false)
    (free : lanesFree u port (setupLanes p) = true)
    (unused : (laneList (setupLanes p)).any (fun k => (hopOf u inp.val k).isSome) = false) :
    hopSetup p u = (portTakes (hopEntered u p inp port) port { p with inPort := none }).1 := by
  simp only [hopSetup, came, next, before, free, unused, Bool.false_eq_true, if_false, Bool.not_false, Bool.and_self,
    if_true]
  rfl

/-- Is a hop's entry one that a CTEAR releases? -/
def tornBy (p : Packet) (inp : Port) (e : HopEntry) : Bool :=
  e.inPort == inp && (BitVec.ofNat 16 (wbits p.aux 15 0)).getLsbD e.lane.val

/-- A CTEAR has released its entries and their lanes on the port of one of them, and is counted. -/
def hopTorn (u : State) (p : Packet) (inp : Port) (e : HopEntry) : State :=
  bump (dropLanes { u with fab := { u.fab with hops := u.fab.hops.filter (fun h => !tornBy p inp h) } }
    e.outPort.val (BitVec.ofNat 16 (wbits p.aux 15 0))) 0x8090 (p.plane.val + 1) (packetFlits p)

theorem hopTear_releases {inp : Port} {e : HopEntry} {r : List HopEntry} (came : p.inPort = some inp)
    (entries : u.fab.hops.filter (tornBy p inp) = e :: r) (up : (u.port e.outPort.val).state = 2) :
    hopTear p u = (portTakes (hopTorn u p inp e) e.outPort.val { p with inPort := none }).1 := by
  have found : u.fab.hops.filter (fun h => h.inPort == inp && (BitVec.ofNat 16 (wbits p.aux 15 0)).getLsbD h.lane.val)
    = e :: r := entries
  simp only [hopTear, came, found, up, ne_eq, not_true_eq_false, if_false]
  rfl

theorem fabCsetup_away (away : s.fab.coord ≠ some p.dst) : fabCsetup p s = atPort p (hopSetup p) s :=
  if_neg (mt beq_iff_eq.mp away)

theorem fabCtear_away (away : s.fab.coord ≠ some p.dst) : fabCtear p s = atPort p (hopTear p) s :=
  if_neg (mt beq_iff_eq.mp away)

/-! ### Circuits at their end (09 R220, R221) -/

/-- An accepted packet acts, and its frees go back. -/
theorem eject_accepted (h : Accepts s p u) (act : State → State) : eject p act s = returnFrees p (act u) := by
  obtain ⟨live, here, credit, taken, free, ok⟩ := h
  rw [eject_taken ⟨live, here, credit, taken⟩, ejected_accepted free ok]

theorem Accepts.here (h : Accepts s p u) : (s.fab.coord == some p.dst) = true := beq_iff_eq.mpr h.2.1

theorem fabCsetup_accepted (h : Accepts s p u)
    (admits : (windowRange u (setupWindow p).toNat 0 0 p.src true).isSome = true) :
    fabCsetup p s = returnFrees p
      (reply { u with fab := { u.fab with ends := u.fab.ends ++ [(p.src, p.id, setupWindow p)] } } p 0x14 id) := by
  obtain ⟨a, range⟩ := Option.isSome_iff_exists.mp admits
  refine (if_pos h.here).trans ((eject_accepted h _).trans ?_)
  simp only [range]

theorem fabCtear_accepted (h : Accepts s p u) :
    fabCtear p s = returnFrees p
      (reply { u with fab := { u.fab with ends := u.fab.ends.filter (fun e => !(e.1 == p.src && e.2.1 == p.id)) } }
        p 0x14 id) :=
  (if_pos h.here).trans (eject_accepted h _)

theorem fabCack_opens {r : Req} (h : Accepts s p u) (named : fabReq u p.tag = some r) (setup : r.typ = 0x07) :
    fabCack p s = returnFrees p
      (oneDone (modCircuit (endReq u r) r.packet.id fun c => some { c with isOpen := true }) r.queue r.idx) := by
  refine (eject_accepted h _).trans ?_
  simp only [named, if_pos setup]

theorem fabCack_closes {r : Req} (h : Accepts s p u) (named : fabReq u p.tag = some r) (tear : r.typ = 0x08) :
    fabCack p s = returnFrees p (oneDone (modCircuit (endReq u r) r.packet.id fun _ => none) r.queue r.idx) := by
  have other : r.typ ≠ 0x07 := by rw [tear]; decide
  refine (eject_accepted h _).trans ?_
  simp only [named, if_neg other, if_pos tear]

end

/-- Settles O23: the source's descriptors act in their turn, a hop's packet by what its port takes, the end's is accepted. -/
theorem circuitsOpenAndClose : Obligations.CircuitsOpenAndClose := by
  unfold Obligations.CircuitsOpenAndClose
  refine ⟨fun q i s j port => ?_, fun p s u port inp live away came taken => ?_, fun p s u h => ?_⟩
  · intro l id dst m plane c noted job fabric ready turn
    have h : FabricTurn s q i j := ⟨job, fabric, ready, turn⟩
    exact ⟨fun op hop up room new free => congrArg Host.Outcome.next (circuitOpen_asks h op rfl hop up room new free),
      fun o op opened stays => congrArg Host.Outcome.next (circuitClose_marks h op rfl opened stays)⟩
  · intro m set torn
    refine ⟨fun next before free unused => ?_, fun e r v w entries up takes => congrArg Host.Outcome.next ?_⟩
    · have setup := hopSetup_enters came next before free unused
      exact ⟨fun v w takes => congrArg Host.Outcome.next
          ((fabCsetup_away away).trans (atPort_leaves live taken (setup.trans (congrArg Prod.fst takes)))),
        fun w full => congrArg Host.Outcome.next
          ((fabCsetup_away away).trans (atPort_stays live taken (setup.trans (congrArg Prod.fst full))))⟩
    · exact (fabCtear_away away).trans
        (atPort_leaves live taken ((hopTear_releases came entries up).trans (congrArg Prod.fst takes)))
  · exact ⟨fun admits => congrArg Host.Outcome.next (fabCsetup_accepted h admits),
      congrArg Host.Outcome.next (fabCtear_accepted h),
      fun r named setup => congrArg Host.Outcome.next (fabCack_opens h named setup),
      fun r named tear => congrArg Host.Outcome.next (fabCack_closes h named tear)⟩

end Sys2Proof.Machine
end

section
/-! Packets for this device (09 R202 to R206, R217, R221, R225, R226; 13 R297): the requests that read or write its stores,
the replies that end its own requests, and O24 and O25. -/

namespace Sys2Proof.Machine

/-! ### Requests served (09 R202, R204 to R206) -/

/-- A reply that carries the bytes of a range and their poison. -/
def carrying (u : State) (key : Nat) (len : BitVec 13) (r : Packet) : Packet :=
  let marks := (wordsOf key len.toNat).map u.poison.contains
  { r with len := len, data := readBytes u key len.toNat, px := marks.any (· == true),
           poison := if marks.any (· == true) then marks else [] }

/-- Pulled data goes to the window and the offset that its pull's data names. -/
def pulledTo (p r : Packet) : Packet :=
  { r with cls := 2, id := BitVec.ofNat 12 (bitsOf (leNat p.data) 59 48),
           offset := BitVec.ofNat 48 (bitsOf (leNat p.data) 47 0) }

section
variable {p : Packet} {s u : State}

/-- A request whose reply has no credit stays (09 R217 item 4). -/
theorem eject_uncredited (full : replyCredit s p = false) (act : State → State) : eject p act s = s :=
  if_pos (by rw [full, Bool.not_false, Bool.or_true])

theorem putBytes_mapped {a : Nat} (mapped : faultIn u (addrDie a) (addrOff a) p.data.length = none) :
    putBytes u a p = .ok (storeBytes u (addrKey a) p.data (packetMark p)) := by
  rw [putBytes, mapped]
  rfl

theorem fabLd_mapped (h : Accepts s p u) (mapped : faultIn u p.dstDie.toNat p.offset.toNat p.len.toNat = none) :
    fabLd p s = returnFrees p (reply (carryRead u (cellKey p.dstDie.toNat p.offset.toNat) p.len.toNat) p 0x10
      (carrying u (cellKey p.dstDie.toNat p.offset.toNat) p.len)) := by
  refine (eject_accepted h _).trans ?_
  simp only [mapped]
  rfl

theorem fabSt_mapped (h : Accepts s p u) (mapped : faultIn u p.dstDie.toNat p.offset.toNat p.data.length = none) :
    fabSt p s = returnFrees p
      (reply (storeBytes u (cellKey p.dstDie.toNat p.offset.toNat) p.data (packetMark p)) p 0x11 id) := by
  refine (eject_accepted h _).trans ?_
  simp only [mapped]

theorem fabStm_mapped (h : Accepts s p u) (mapped : faultIn u p.dstDie.toNat p.offset.toNat 512 = none) :
    fabStm p s = returnFrees p (reply (storeMasked u (cellKey p.dstDie.toNat p.offset.toNat) (leNat (p.data.take 64))
      (p.data.drop 64) (packetMark p)) p 0x11 id) := by
  refine (eject_accepted h _).trans ?_
  simp only [mapped]

theorem fabPut_admitted {a : Nat} (h : Accepts s p u) (single : p.mcast = false)
    (admits : windowRange u p.id.toNat p.offset.toNat p.data.length p.src true = some a)
    (mapped : faultIn u (addrDie a) (addrOff a) p.data.length = none) :
    fabPut p s = returnFrees p (reply (ghostTaken (storeBytes u (addrKey a) p.data (packetMark p))
      p.id.toNat p.offset.toNat p.src) p 0x12 fun r => { r with aux := ackAux 1 0 }) := by
  refine (if_neg (ne_true_of_eq_false single)).trans ((eject_accepted h _).trans ?_)
  simp only [admits, putBytes_mapped mapped]

theorem fabPut_refused (h : Accepts s p u) (single : p.mcast = false)
    (refuses : windowRange u p.id.toNat p.offset.toNat p.data.length p.src true = none) :
    fabPut p s = returnFrees p (replyErr (sticky u 0xA090 5 0) p 0x31) := by
  refine (if_neg (ne_true_of_eq_false single)).trans ((eject_accepted h _).trans ?_)
  simp only [refuses, refusePacket]

theorem fabPull_admitted {a : Nat} (h : Accepts s p u)
    (admits : windowRange u p.id.toNat p.offset.toNat p.len.toNat p.src false = some a)
    (mapped : faultIn u (addrDie a) (addrOff a) p.len.toNat = none) :
    fabPull p s = returnFrees p (reply (carryRead u (addrKey a) p.len.toNat) p 0x09
      fun r => carrying u (addrKey a) p.len (pulledTo p r)) := by
  refine (eject_accepted h _).trans ?_
  simp only [admits, mapped]
  rfl

/-! ### Messages received (09 R205) -/

/-- PRODUCED of a receive queue, and the address of the slot that it names. -/
def producedOf (u : State) (r : RecvQ) : Nat := leNat (readBytes u (addrKey r.ctrl) 8)
def slotAddr (u : State) (r : RecvQ) : Nat := r.base + producedOf u r % 2 ^ r.slotsLog2 * 2 ^ r.slotLog2

/-- The slot is filled, its header and then its payload, and PRODUCED advances. -/
def slotFilled (u : State) (r : RecvQ) (p : Packet) : State :=
  let key := addrKey (slotAddr u r)
  let head := natLe 8 p.aux.toNat ++ natLe 4 p.data.length ++ natLe 4 p.src.toNat
  storeBytes (storeBytes (storeBytes u key head fun _ => false) (key + 32) p.data (packetMark p))
    (addrKey r.ctrl) (natLe 8 (producedOf u r + 1)) fun _ => false

/-- The queue's bell is struck, where it has one. -/
def recvRings (u : State) (r : RecvQ) : State :=
  match r.bell with
  | some b => packageStrike u 8 b 1
  | none => u

theorem fabSend_received {r : RecvQ} (h : Accepts s p u) (queue : recvOf u p.id.toNat = some r) (serves : refusing u = false)
    (fits : p.data.length + 32 ≤ 2 ^ r.slotLog2) (ctrl : faultIn u (addrDie r.ctrl) (addrOff r.ctrl) 16 = none)
    (room : (producedOf u r + 2 ^ 64 - leNat (readBytes u (addrKey r.ctrl + 8) 8)) % 2 ^ 64 < 2 ^ r.slotsLog2)
    (mapped : faultIn u (addrDie (slotAddr u r)) (addrOff (slotAddr u r)) (32 + p.data.length) = none) :
    fabSend p s = returnFrees p (reply (recvRings (slotFilled u r p) r) p 0x13 id) := by
  refine (eject_accepted h _).trans ?_
  have admits : (refusing u || decide (2 ^ r.slotLog2 < p.data.length + 32)) = false := by
    rw [serves, decide_eq_false (Nat.not_lt.mpr fits)]
    rfl
  simp only [producedOf, slotAddr, addrKey] at room mapped
  simp only [queue, admits, ctrl, if_neg (Nat.not_le.mpr room), mapped, Bool.false_eq_true, if_false]
  rfl

end

/-- Settles O24: an accepted request by its own lemma; without credit it stays, whatever it is. -/
theorem fabricRequestsServed : Obligations.FabricRequestsServed := by
  unfold Obligations.FabricRequestsServed
  intro p s u here marks
  refine ⟨fun h => ⟨fun mapped => congrArg Host.Outcome.next (fabLd_mapped h mapped),
    fun mapped => congrArg Host.Outcome.next (fabSt_mapped h mapped),
    fun mapped => congrArg Host.Outcome.next (fabStm_mapped h mapped),
    fun a single admits mapped => congrArg Host.Outcome.next (fabPut_admitted h single admits mapped),
    fun single refuses => congrArg Host.Outcome.next (fabPut_refused h single refuses),
    fun a admits mapped => congrArg Host.Outcome.next (fabPull_admitted h admits mapped),
    fun r queue serves fits control room mapped =>
      congrArg Host.Outcome.next (fabSend_received h queue serves fits control room mapped)⟩, fun live here full => ?_⟩
  have stays (act : State → State) : Host.Outcome.next (eject p act s) = .next (φ := Fault) (ρ := Refusal) s :=
    congrArg _ (eject_uncredited full act)
  exact ⟨stays _, stays _, stays _⟩

/-! ### Replies (09 R206, R221, R225, R226; 13 R297) -/

section
variable {p : Packet} {s u : State} {r : Req}

theorem fabSenda_ends (h : Accepts s p u) (named : fabReq u p.tag = some r) (send : r.typ = 0x05) :
    fabSenda p s = returnFrees p (putOne (endReq u r) r.queue r.idx) := by
  refine (eject_accepted h _).trans ?_
  simp only [named, if_pos send]

theorem fabPulld_ends {a : Nat} (h : Accepts s p u) (named : fabReq u p.tag = some r) (pull : r.typ = 0x06)
    (plain : r.ghost = false)
    (admits : windowRange (endReq u r) p.id.toNat p.offset.toNat p.data.length p.src true = some a)
    (mapped : faultIn (endReq u r) (addrDie a) (addrOff a) p.data.length = none)
    (clean : (List.range p.poison.length).any (packetMark p) = false) :
    fabPulld p s = returnFrees p
      (putOne (storeBytes (endReq u r) (addrKey a) p.data (packetMark p)) r.queue r.idx) := by
  refine (eject_accepted h _).trans ?_
  simp only [named, pull, ne_eq, not_true_eq_false, if_false, plain, Bool.false_eq_true, admits, putBytes_mapped mapped, clean]

/-- A plain put's acknowledgement covers its own packet only: no circuit's packets before it. -/
theorem fabPuta_ends (h : Accepts s p u) (named : fabReq u p.tag = some r) (plain : r.ghost = false)
    (loose : r.circuit = none) (single : r.packet.mcast = false)
    (alone : u.fab.reqs.filter (fun x => x.tag == p.tag) = [r]) :
    fabPuta p s = returnFrees p (putOne (endReq u r) r.queue r.idx) := by
  refine (eject_accepted h _).trans ?_
  have none (x : Req) : (x.circuit.isSome && x.circuit == none) = false := by cases x.circuit <;> rfl
  simp only [named, loose, none, Bool.false_and, Bool.or_false, alone, plain, single, Bool.false_eq_true, if_false,
    List.foldl_cons, List.foldl_nil]

/-- The status that an ERR carries is FENCED only where its byte is 0x1C. -/
theorem errStatus_ne_fenced (other : wbits p.aux 7 0 ≠ 0x1C) : BitVec.ofNat 8 (wbits p.aux 7 0) ≠ 0x1C := by
  intro same
  have byte : wbits p.aux 7 0 < 256 := Nat.mod_lt _ (by decide)
  exact other (by simpa [Nat.mod_eq_of_lt byte] using congrArg BitVec.toNat same)

theorem fabErr_fails (h : Accepts s p u) (other : wbits p.aux 7 0 ≠ 0x1C) (named : fabReq u p.tag = some r) :
    fabErr p s = returnFrees p (fabFailed u r (BitVec.ofNat 8 (wbits p.aux 7 0)) (wbits p.aux 25 8)) := by
  refine (eject_accepted h _).trans ?_
  simp only [if_neg (errStatus_ne_fenced other), named]

theorem fabErr_failsBoard {b : D2dReq} (h : Accepts s p u) (other : wbits p.aux 7 0 ≠ 0x1C)
    (unclaimed : fabReq u p.tag = none) (named : boardReq u p.tag = some b) :
    fabErr p s = returnFrees p (requestFailed u b (BitVec.ofNat 8 (wbits p.aux 7 0))) := by
  refine (eject_accepted h _).trans ?_
  simp only [if_neg (errStatus_ne_fenced other), unclaimed, named]

end

/-- Settles O25: a reply by the request that its tag names, or by there being none. -/
theorem fabricRepliesEndRequests : Obligations.FabricRepliesEndRequests := by
  unfold Obligations.FabricRepliesEndRequests
  intro p s u h
  have acts (act : State → State) {t : State} (done : act u = t) :
      Host.Outcome.next (eject p act s) = .next (φ := Fault) (ρ := Refusal) (returnFrees p t) :=
    congrArg _ ((eject_accepted h act).trans (congrArg _ done))
  refine ⟨fun r named => ⟨fun send => congrArg Host.Outcome.next (fabSenda_ends h named send),
      fun a pull plain admits mapped clean =>
        congrArg Host.Outcome.next (fabPulld_ends h named pull plain admits mapped clean),
      fun plain loose single alone => congrArg Host.Outcome.next (fabPuta_ends h named plain loose single alone),
      fun other => congrArg Host.Outcome.next (fabErr_fails h other named)⟩,
    fun b named => ⟨acts _ (by simp only [named]), acts _ (by simp only [named]),
      fun unclaimed other => congrArg Host.Outcome.next (fabErr_failsBoard h other unclaimed named)⟩,
    fun unclaimed => ?_, fun unclaimed => ⟨acts _ (by simp only [unclaimed]), acts _ (by simp only [unclaimed])⟩⟩
  exact ⟨acts _ (by simp only [unclaimed]), acts _ (by simp only [unclaimed]), acts _ (by simp only [unclaimed]),
    acts _ (by simp only [unclaimed])⟩

end Sys2Proof.Machine
end

section
/-! Packets in transit (09 R200, R209, R210, R212, R214, R219, R222): a hop, the crossing to the die of ejection, the drop of
what would step past its destination, a member of a multicast, and O27. -/

namespace Sys2Proof.Machine

/-- A packet in transit: the device takes part in the fabric, the packet's plane is in service, and `u` is the state in
which it has been taken at its port. -/
structure Transits (s : State) (p : Packet) (u : State) : Prop where
  live : fabricLive s = true
  up : dieUp s p.plane.val = true
  taken : takeAtPort s p = some u

/-- The state in which a packet that leaves its plane's slice has been counted. -/
def transitCounted (u : State) (p : Packet) : State := bump u 0x8090 (p.plane.val + 1) (packetFlits p)

/-- The port by which a packet goes on: of its circuit's entry in a lane, else of its plane's order. -/
def passPort (u : State) (p : Packet) : Option Nat :=
  match p.lane, p.inPort with
  | some l, some inp => (hopOf u inp.val l.val).map fun e => e.outPort.val
  | _, _ => nextPort u p.dst p.plane.val

section
variable {p : Packet} {s u v : State} {port : Nat}

/-! ### Packets for another device (09 R200, R210, R212, R219) -/

theorem passPort_lane {l : Fin 16} {inp : Port} {e : HopEntry} (lane : p.lane = some l) (came : p.inPort = some inp)
    (entry : hopOf u inp.val l.val = some e) : passPort u p = some e.outPort.val := by
  simp only [passPort, lane, came, entry, Option.map_some]

theorem passPort_order (loose : p.lane = none) : passPort u p = nextPort u p.dst p.plane.val := by
  simp only [passPort, loose]

/-- The hop of a packet outside circuits would step past its destination. -/
def overshoots (u : State) (p : Packet) (port : Nat) : Bool := p.lane.isNone && stepsPast u p.dst port

/-- What becomes of a packet by the port that it has. -/
def passBy (p : Packet) (u : State) : Option Nat → Option State
  | none => some u
  | some port =>
    if overshoots u p port then some (dropPacket p u)
    else if (u.port port).state ≠ 2 then some (transitCounted u p)
    else (portTakes (transitCounted u p) port { p with inPort := none }).1

theorem passOn_eq : passOn p u = passBy p u (passPort u p) := rfl

theorem packetTransit_away (h : Transits s p u) (single : p.mcast = false) (away : s.fab.coord ≠ some p.dst) :
    packetTransit p s = atPort p (passOn p) s := by
  have other : (s.fab.coord == some p.dst) = false := beq_false_of_ne away
  simp only [packetTransit, h.up, single, other, Bool.not_true, Bool.false_eq_true, if_false]

/-- A packet with a way leaves as soon as its port takes it and stays until then; for a port that is down it is lost, and
counted. -/
theorem packetTransit_leaves (h : Transits s p u) (single : p.mcast = false) (away : s.fab.coord ≠ some p.dst)
    (way : passPort u p = some port) (ahead : overshoots u p port = false) :
    (∀ v w, (u.port port).state = 2 → portTakes (transitCounted u p) port { p with inPort := none } = (some v, w) →
      packetTransit p s = returnFrees p v)
    ∧ (∀ w, (u.port port).state = 2 → portTakes (transitCounted u p) port { p with inPort := none } = (none, w) →
      packetTransit p s = s)
    ∧ ((u.port port).state ≠ 2 → packetTransit p s = returnFrees p (transitCounted u p)) := by
  have passes : passOn p u = passBy p u (some port) := passOn_eq.trans (congrArg _ way)
  have hop := passes.trans (if_neg (ne_true_of_eq_false ahead))
  rw [packetTransit_away h single away]
  exact ⟨fun v w up takes => atPort_leaves h.live h.taken
      (hop.trans ((if_neg (not_not.mpr up)).trans (congrArg Prod.fst takes))),
    fun w up full => atPort_stays h.live h.taken
      (hop.trans ((if_neg (not_not.mpr up)).trans (congrArg Prod.fst full))),
    fun down => atPort_leaves h.live h.taken (hop.trans (if_pos down))⟩

/-- A request that is dropped is answered UNREACHABLE (09 R212). -/
theorem packetTransit_drops (h : Transits s p u) (single : p.mcast = false) (away : s.fab.coord ≠ some p.dst)
    (way : passPort u p = some port) (past : overshoots u p port = true) (request : p.cls = 0) :
    packetTransit p s = returnFrees p
      (replyErr (sticky (bump u 0x8091 (p.plane.val + 1) 1) 0xA090 1 p.plane.val) p 0x30) := by
  have answered : dropPacket p u
      = replyErr (sticky (bump u 0x8091 (p.plane.val + 1) 1) 0xA090 1 p.plane.val) p 0x30 :=
    if_pos (by rw [request]; rfl)
  rw [packetTransit_away h single away,
    atPort_leaves h.live h.taken (passOn_eq.trans ((congrArg _ way).trans (if_pos past))), answered]

/-! ### Packets for another die of this device (09 R209) -/

theorem packetTransit_crosses (h : Transits s p u) (single : p.mcast = false) (here : s.fab.coord = some p.dst)
    (loose : p.lane = none) (other : ejectDie u p ≠ p.plane.val)
    (first : (u.pair p.plane.val (ejectDie u p)).cross.wait.any (fun w => w.1 == p.cls.toNat) = false) :
    packetTransit p s = returnFrees p (crossPacket u p.plane.val (ejectDie u p) { p with inPort := none }) := by
  have ejects : packetTransit p s = atPort p (ejectCross p) s := by
    simp only [packetTransit, h.up, single, here, beq_self_eq_true, Bool.not_true, Bool.false_eq_true, if_false, if_true]
  rw [ejects]
  refine atPort_leaves h.live h.taken ?_
  simp only [ejectCross, loose, Option.isSome_none, Bool.false_eq_true, if_false, other, first, or_self]

/-! ### Members of a multicast (09 R222) -/

/-- How far a coordinate stands from the source on the line of a multicast. -/
def lineDist (p : Packet) (c : BitVec 18) : Nat :=
  if p.mcDir then coordOn p.src p.mcAxis.toNat - coordOn c p.mcAxis.toNat
  else coordOn c p.mcAxis.toNat - coordOn p.src p.mcAxis.toNat

/-- The port that leads on along the line. -/
def linePort (p : Packet) : Nat := 6 * p.plane.val + 2 * p.mcAxis.toNat + (if p.mcDir then 1 else 0)

/-- The members that a packet has been written by, with the one at a coordinate. -/
def membersWith (p : Packet) (c : BitVec 18) : Nat := wbits p.aux 31 0 + 2 ^ (lineDist p c - 1)

/-- The onward packet of a member, and the acknowledgement of the last one (09 R222). -/
def lineOn (p : Packet) (members : Nat) : Packet := { p with aux := ackAux 0 members, inPort := none }
def lineAck (members : Nat) (r : Packet) : Packet := { r with aux := ackAux 1 members }

/-- What a member that has written the packet does with it. -/
theorem mcastMember_writes {a : Nat} (me : BitVec 18) (own : u.fab.coord.getD 0 = me)
    (admits : windowRange u p.id.toNat p.offset.toNat p.data.length p.src true = some a)
    (mapped : faultIn u (addrDie a) (addrOff a) p.data.length = none) :
    mcastMember u p true =
      let wrote := storeBytes u (addrKey a) p.data (packetMark p)
      if (wrote.port (linePort p)).state = 2 ∧ lineDist p (wrote.port (linePort p)).peer ≤ p.mcSpan.toNat + 1 then
        (portTakes (transitCounted wrote p) (linePort p) (lineOn p (membersWith p me))).1
      else if replyCredit wrote p then some (reply wrote p 0x12 (lineAck (membersWith p me)))
      else none := by
  subst own
  simp only [mcastMember, Bool.not_true, Bool.false_eq_true, if_false, admits, putBytes_mapped mapped, if_true]
  rfl

theorem packetTransit_member (h : Transits s p u) (many : p.mcast = true) (free : isFenced u p.src = false)
    (ok : epochOk u p = true) (acts : mcastMember u p true = some v) : packetTransit p s = returnFrees p v := by
  have arrives : packetTransit p s = mcastArrive s p := by
    simp only [packetTransit, h.up, many, Bool.not_true, Bool.false_eq_true, if_false, if_true]
  refine arrives.trans (atPort_leaves h.live h.taken ?_)
  simp only [free, ok, Bool.not_false, Bool.and_self, if_true]
  exact acts

end

/-- Settles O27: a packet for another device by its port, one for another die by its crossing, a multicast one by its member. -/
theorem transitForwards : Obligations.TransitForwards := by
  unfold Obligations.TransitForwards
  intro p s u live up taken counted leaves
  have h : Transits s p u := ⟨live, up, taken⟩
  have goes (port : Nat) (single : p.mcast = false) (away : s.fab.coord ≠ some p.dst)
      (way : passPort u p = some port) (ahead : overshoots u p port = false) : leaves port := by
    obtain ⟨takes, full, down⟩ := packetTransit_leaves h single away way ahead
    exact ⟨fun v w on ready => congrArg Host.Outcome.next (takes v w on ready),
      fun w on waits => congrArg Host.Outcome.next (full w on waits), fun off => congrArg Host.Outcome.next (down off)⟩
  refine ⟨fun single away => ⟨fun l inp e lane came entry => ?_, fun port loose next ahead => ?_,
      fun port loose next past request => congrArg Host.Outcome.next ?_⟩,
    fun single here loose other first => congrArg Host.Outcome.next (packetTransit_crosses h single here loose other first),
    fun a => ?_⟩
  · exact goes _ single away (passPort_lane lane came entry) (by rw [overshoots, lane]; rfl)
  · exact goes port single away ((passPort_order loose).trans next) (by rw [overshoots, loose]; exact ahead)
  · exact packetTransit_drops h single away ((passPort_order loose).trans next) (by rw [overshoots, loose]; exact past) request
  · intro me axis dist wrote members port on many same free ok admits mapped
    have acts := mcastMember_writes me (congrArg (Option.getD · 0) same) admits mapped
    exact ⟨fun v w linked member takes => congrArg Host.Outcome.next (packetTransit_member h many free ok
        (acts.trans ((if_pos ⟨linked, member⟩).trans (congrArg Prod.fst takes)))),
      fun last credit => congrArg Host.Outcome.next (packetTransit_member h many free ok
        (acts.trans ((if_neg fun ⟨linked, member⟩ => last.elim (· linked) (Nat.not_lt.mpr member)).trans
          (if_pos credit))))⟩

end Sys2Proof.Machine
end

section
/-! The fibres (09 R214, R215, R227; 10 R239 to R243): a flit by its codewords, kind and number, old flits sent again, BELL
credits restored, a dark port, and O34. -/

namespace Sys2Proof.Machine

/-! ### What the decoder gives (10 R241, R242) -/

/-- A symbol at which no place of an error stands keeps its value. -/
theorem foldl_set_getD {value : Nat × Nat → Nat → Nat} {k : Nat} {places : List (Nat × Nat)} (l : List Nat)
    (apart : ∀ e ∈ places, e.1 ≠ k) :
    (places.foldl (fun m e => m.set e.1 (value e (m.getD e.1 0))) l).getD k 0 = l.getD k 0 := by
  induction places generalizing l with
  | nil => rfl
  | cons e r ih =>
    have first : e.1 ≠ k := apart e List.mem_cons_self
    rw [List.foldl_cons, ih _ fun x listed => apart x (List.mem_cons_of_mem _ listed)]
    simp [List.getD_eq_getElem?_getD, first]

/-- What the decoder gives is what came in, or that with the values at most 7 places changed (t = 7). -/
theorem decodeSymbols_changes {r c : List Nat} (given : decodeSymbols r = some c) :
    ∃ (places : List (Nat × Nat)) (value : Nat × Nat → Nat → Nat), places.length ≤ 7
      ∧ c = places.foldl (fun m e => m.set e.1 (value e (m.getD e.1 0))) r := by
  unfold decodeSymbols at given
  extract_lets syn x places fixed at given
  split at given
  · exact ⟨[], fun _ v => v, by decide, (Option.some.inj given).symm⟩
  · split at given
    · cases given
    · rename_i _ few
      split at given
      · rename_i whole
        exact ⟨places, fun e v => v ^^^ errorValue syn x.now e.2, by omega, (Option.some.inj given).symm⟩
      · cases given

theorem decodeSymbols_near {r c : List Nat} (given : decodeSymbols r = some c) :
    ((List.range 272).filter (fun k => r.getD k 0 != c.getD k 0)).length ≤ 7 := by
  obtain ⟨places, value, few, rfl⟩ := decodeSymbols_changes given
  have changed : (List.range 272).filter (fun k => r.getD k 0 !=
      (places.foldl (fun m e => m.set e.1 (value e (m.getD e.1 0))) r).getD k 0) ⊆ places.map Prod.fst := by
    intro k differs
    by_contra apart
    refine bne_iff_ne.mp (List.mem_filter.mp differs).2 (foldl_set_getD r fun e listed here => ?_).symm
    exact apart (List.mem_map.mpr ⟨e, listed, here⟩)
  calc _ ≤ (places.map Prod.fst).length := (List.nodup_range.filter _).length_le_of_subset changed
    _ = places.length := List.length_map _
    _ ≤ 7 := few

/-! ### The codewords of a flit (10 R242) -/

section
variable {s : State} {f : Nat} {d : FlitRead} {c : Word}

/-- What the corrected bits of a codeword charge to their lanes. -/
def chargeLanes (m : SMap Nat) (lanes : List Nat) : SMap Nat := lanes.foldl (fun m k => mput 0 m k (mget 0 m k + 1)) m

/-- A new codeword counts: what was corrected in it is charged. -/
theorem readFec_corrected {lanes : List Nat} (word : d.words = [(c, some lanes)]) (new : (s.fibre f).counted ≤ c) :
    readFec s f d = bump (bump (s.setFibre f
      { s.fibre f with counted := c + 1, charged := chargeLanes (s.fibre f).charged lanes })
      0x80A0 (f + 1) lanes.length) 0x80A1 (f + 1) 0 := by
  simp [readFec, word, new, chargeLanes]

theorem readFec_lost (word : d.words = [(c, none)]) (new : (s.fibre f).counted ≤ c) :
    readFec s f d = bump (bump (s.setFibre f { s.fibre f with counted := c + 1 }) 0x80A0 (f + 1) 0) 0x80A1 (f + 1) 1 := by
  simp [readFec, word, new]

/-- A codeword that has counted before counts no more. -/
theorem readFec_counted {l : Option (List Nat)} (word : d.words = [(c, l)]) (old : c < (s.fibre f).counted) :
    readFec s f d = bump (bump (s.setFibre f (s.fibre f)) 0x80A0 (f + 1) 0) 0x80A1 (f + 1) 0 := by
  simp [readFec, word, BitVec.not_le.mpr old]

end

/-! ### The fields of a flit (09 R208; 10 R239, R240) -/

def FlitRead.link (d : FlitRead) : Nat := leNat (slice d.bytes 0 8)
def FlitRead.tag (d : FlitRead) : Nat := leNat (slice d.bytes 8 8)
def FlitRead.body (d : FlitRead) : List Byte := slice d.bytes 16 240
def FlitRead.kind (d : FlitRead) : Nat := bitsOf d.link 36 34
def FlitRead.seq (d : FlitRead) : BitVec 13 := BitVec.ofNat 13 (bitsOf d.link 63 51)
def FlitRead.ack (d : FlitRead) : BitVec 13 := BitVec.ofNat 13 (bitsOf d.link 50 38)
/-- The codewords are all good, and so is the CRC. -/
def FlitRead.sound (d : FlitRead) : Bool :=
  d.words.all (·.2.isSome) && crc32 (slice d.bytes 4 252) == bitsOf d.link 31 0
/-- Its kind carries a sequence number. -/
def FlitRead.carries (d : FlitRead) : Bool := d.kind == 1 || d.kind == 3
/-- It cannot be taken from a transceiver: it is not sound, or not the next of its sequence. -/
def FlitRead.unfit (d : FlitRead) (x : Fibre) : Bool := !d.sound || (d.carries && d.seq != x.expect)

/-- A flit that carries something is answered with an idle flit. -/
def flitReplied (f kind : Nat) (t : State) : State := if kind = 0 ∨ kind = 4 then t else leaveFlit t f 0 7 noBytes

/-- A flit has been taken into its sequence: EXPECT moves on, and NAK clears. -/
def flitCounted (s : State) (f : Nat) (d : FlitRead) : State :=
  if d.carries then s.setFibre f { s.fibre f with expect := (s.fibre f).expect + 1, nak := false } else s

/-- Its lane-control messages join those held, and its ACK and NAK are read. -/
def flitRead (s : State) (f : Nat) (d : FlitRead) : State :=
  let t := flitCounted s f d
  readAck (if d.kind = 3 then t.setFibre f { t.fibre f with laneIn := (t.fibre f).laneIn ++ laneMsgs d.body } else t)
    f d.ack (d.link.testBit 37)

/-- Its frees come back to the port, if its transceiver serves one, and its packet bytes to the port's pool. -/
def flitPort (t : State) (f : Nat) (d : FlitRead) : Option Nat → State
  | some p =>
    let told := readTag (hear t p) p d.tag
    flitReplied f d.kind (if d.kind = 1 ∨ d.kind = 2 then takeFlit told p d.tag d.seq.toNat d.body else told)
  | none => flitReplied f d.kind t

/-! ### A flit received (10 R239 to R243) -/

section
variable {s t : State} {f : Xcvr} {fl : FibreFlit} {d : FlitRead}

/-- A trained transceiver that runs reads a flit as `d`; `t` is the state in which its codewords have counted. -/
structure FlitArrives (s : State) (f : Xcvr) (fl : FibreFlit) (d : FlitRead) (t : State) : Prop where
  up : fibreUp s f.val = true
  read : readWords (activeLanes (s.fibre f.val).rxMap) fl = d
  counted : readFec s f.val d = t

theorem linkFlitReceived_judged (h : FlitArrives s f fl d t) : linkFlitReceived f fl s =
    if d.unfit (t.fibre f.val) then flitReplied f.val d.kind (discardFlit t f.val d.kind d.body)
    else if 5 ≤ d.kind then t
    else flitPort (flitRead t f.val d) f.val d (portOf s f.val) := by
  obtain ⟨up, rfl, rfl⟩ := h
  have runs : ¬(!fibreUp s f.val) = true := by rw [up]; decide
  refine (if_neg runs).trans ?_
  cases portOf s f.val <;> rfl

theorem FlitRead.fit (sound : d.sound = true) (next : d.carries = true → d.seq = (t.fibre f.val).expect) :
    d.unfit (t.fibre f.val) = false := by
  cases numbered : d.carries
  · simp [FlitRead.unfit, sound, numbered]
  · simp [FlitRead.unfit, sound, next numbered]

theorem linkFlitReceived_taken (h : FlitArrives s f fl d t) (sound : d.sound = true) (known : d.kind < 5)
    (next : d.carries = true → d.seq = (t.fibre f.val).expect) :
    linkFlitReceived f fl s = flitPort (flitRead t f.val d) f.val d (portOf s f.val) :=
  (linkFlitReceived_judged h).trans ((if_neg (ne_true_of_eq_false (FlitRead.fit sound next))).trans
    (if_neg (Nat.not_le.mpr known)))

/-- A good flit of a reserved kind is let go. -/
theorem linkFlitReceived_reserved (h : FlitArrives s f fl d t) (sound : d.sound = true) (reserved : 5 ≤ d.kind) :
    linkFlitReceived f fl s = t := by
  have unnumbered : d.carries = true → d.seq = (t.fibre f.val).expect := by
    intro numbered
    simp only [FlitRead.carries, Bool.or_eq_true, beq_iff_eq] at numbered
    omega
  exact (linkFlitReceived_judged h).trans ((if_neg (ne_true_of_eq_false (FlitRead.fit sound unnumbered))).trans
    (if_pos reserved))

theorem linkFlitReceived_discarded (h : FlitArrives s f fl d t)
    (unfit : d.sound = false ∨ (d.carries = true ∧ d.seq ≠ (t.fibre f.val).expect)) :
    linkFlitReceived f fl s = flitReplied f.val d.kind (discardFlit t f.val d.kind d.body) := by
  refine (linkFlitReceived_judged h).trans (if_pos ?_)
  rcases unfit with spoilt | ⟨numbered, other⟩
  · rw [FlitRead.unfit, spoilt]; rfl
  · rw [FlitRead.unfit, numbered, bne_iff_ne.mpr other, Bool.and_self, Bool.or_true]

section
variable (t : State) (f p : Nat)

/-- What an accepted flit does at the port of its transceiver, by its kind. -/
theorem flitPort_bare (bare : d.kind = 0 ∨ d.kind = 4) : flitPort t f d (some p) = readTag (hear t p) p d.tag := by
  have plain : ¬(d.kind = 1 ∨ d.kind = 2) := by omega
  exact (if_pos bare).trans (if_neg plain)

theorem flitPort_messages (messages : d.kind = 3) :
    flitPort t f d (some p) = leaveFlit (readTag (hear t p) p d.tag) f 0 7 noBytes := by
  have full : ¬(d.kind = 0 ∨ d.kind = 4) := by omega
  have plain : ¬(d.kind = 1 ∨ d.kind = 2) := by omega
  exact (if_neg full).trans (congrArg (leaveFlit · f 0 7 noBytes) (if_neg plain))

theorem flitPort_bytes (bytes : d.kind = 1 ∨ d.kind = 2) :
    flitPort t f d (some p)
      = leaveFlit (takeFlit (readTag (hear t p) p d.tag) p d.tag d.seq.toNat d.body) f 0 7 noBytes := by
  have full : ¬(d.kind = 0 ∨ d.kind = 4) := by omega
  exact (if_neg full).trans (congrArg (leaveFlit · f 0 7 noBytes) (if_pos bytes))

/-- What a discarded flit does, by its kind: a Bell flit counts as a frame discarded (06 R150), one without a sequence number
is let go, and any other is asked for again. -/
theorem flitDiscarded_bell {kind : Nat} (bell : kind = 2) (body : List Byte) :
    flitReplied f kind (discardFlit t f kind body) =
      let die := min 7 (bellDie (bitsOf (leNat (slice body 0 32)) 203 192))
      leaveFlit (sticky (bump t 0x8064 (die + 1) 1) 0xA060 4 die) f 0 7 noBytes := by
  subst bell
  rfl

theorem flitDiscarded_bare {kind : Nat} (bare : kind = 0 ∨ kind = 4) (body : List Byte) :
    flitReplied f kind (discardFlit t f kind body) = t := by
  have other : kind ≠ 2 := by omega
  exact (if_pos bare).trans ((if_neg other).trans (if_pos bare))

theorem flitDiscarded_again {kind : Nat} (other : kind ≠ 2) (full : ¬(kind = 0 ∨ kind = 4)) (body : List Byte) :
    flitReplied f kind (discardFlit t f kind body)
      = leaveFlit (t.setFibre f { t.fibre f with nak := true }) f 0 7 noBytes :=
  (if_neg full).trans (congrArg (leaveFlit · f 0 7 noBytes) ((if_neg other).trans (if_neg full)))

end

end

/-! ### Flits sent again, BELL credits, and a dark port (09 R215, R227; 10 R243) -/

section
variable {s : State}

theorem resendHeld_one {f : Nat} {l : List Byte} (held : (s.fibre f).replay = [l]) :
    resendHeld s f = bump (resendFibre s f l) 0x80A2 (f + 1) 1 := by
  rw [resendHeld, held]
  rfl

/-- The state in which the oldest BELL credits of a port have come back. -/
def bellsRestored (s : State) (port n : Nat) : State :=
  bump (s.setPort port (freeN 5 n { s.port port with bells := (s.port port).bells.drop n })) 0x8093 (port / 6 + 1) n

theorem bellCreditRestore_old {port : Port} {old : List Word} (on : hubOn s = true)
    (oldest : (s.port port.val).bells.takeWhile (fun t => decide (16000 ≤ (clock s - t).toNat)) = old) (some : old ≠ []) :
    bellCreditRestore port s
      = slicePump (drainPort (bellsRestored s port.val old.length) port.val) (port.val / 6) := by
  subst oldest
  have acts : ¬(!hubOn s
      || ((s.port port.val).bells.takeWhile fun t => decide (16000 ≤ (clock s - t).toNat)).isEmpty) = true := by
    rw [on]
    exact mt List.isEmpty_iff.mp some
  exact if_neg acts

end

/-- Settles O34: a flit by whether its codewords, CRC, kind and number are good; the decoder by the places that it changes. -/
theorem fibreFlitsAndCredits : Obligations.FibreFlitsAndCredits := by
  unfold Obligations.FibreFlitsAndCredits
  refine ⟨fun f fl s => ?_, fun f l s held => resendHeld_one held, fun port s => ?_⟩
  · intro d s1 x link tag body kind seq good carries answer messages taken heldIn acked up
    have h : FlitArrives s f fl d s1 := ⟨up, rfl, rfl⟩
    refine ⟨fun sound known next => ?_, fun sound reserved => congrArg Host.Outcome.next
      (linkFlitReceived_reserved h sound reserved), fun unfit => ?_, fun c l word => ?_,
      fun r c given => ⟨decodeSymbols_isCodeword given, decodeSymbols_near given⟩, fun held due => ?_⟩
    · have whole : linkFlitReceived f fl s = flitPort acked f.val d (portOf s f.val) :=
        linkFlitReceived_taken h sound known next
      refine ⟨fun portless => congrArg Host.Outcome.next (whole.trans (congrArg (flitPort acked f.val d) portless)),
        fun p port => ?_⟩
      have served : linkFlitReceived f fl s = flitPort acked f.val d (some p) := whole.trans (congrArg _ port)
      exact ⟨fun bare => congrArg Host.Outcome.next (served.trans (flitPort_bare acked f.val p bare)),
        fun three => congrArg Host.Outcome.next (served.trans (flitPort_messages acked f.val p three)),
        fun bytes => congrArg Host.Outcome.next (served.trans (flitPort_bytes acked f.val p bytes))⟩
    · have gone := linkFlitReceived_discarded h unfit
      refine ⟨fun bell => congrArg Host.Outcome.next (gone.trans (flitDiscarded_bell s1 f.val bell body)),
        fun bare => congrArg Host.Outcome.next (gone.trans (flitDiscarded_bare s1 f.val bare body)),
        fun again => congrArg Host.Outcome.next ?_⟩
      have numbered : (kind = 1 ∨ kind = 3) ∨ 5 ≤ kind :=
        again.imp_left fun c => by simpa only [carries, Bool.or_eq_true, beq_iff_eq] using c
      have two : kind ≠ 2 := by omega
      have full : ¬(kind = 0 ∨ kind = 4) := by omega
      exact gone.trans (flitDiscarded_again s1 f.val two full body)
    · exact ⟨fun new => ⟨fun fixed corrected => readFec_corrected (corrected ▸ word) new,
        fun lost => readFec_lost (lost ▸ word) new⟩, fun old => readFec_counted word old⟩
    · refine congrArg Host.Outcome.next (if_pos ?_)
      rw [up, decide_eq_true due]
      simpa using held
  · intro x old f y on
    exact ⟨fun some => congrArg Host.Outcome.next (bellCreditRestore_old on rfl some),
      congrArg Host.Outcome.next (if_neg (by rw [on]; decide))⟩

end Sys2Proof.Machine
end

section
/-! What the links of the module keep (09 R201, R213, R227; 10 R235, R240): a transceiver and a port read back after a write,
what a sticky bit and what a port that goes down leave alone, and what a flit that leaves does to its transceiver. -/

namespace Sys2Proof.Machine

/-! ### The fibres and the ports of a canonical state -/

theorem Inv.fibres {s : State} (h : Inv s) : mwf Fibre.init 0 s.fibres = true := by
  obtain ⟨-, -, -, -, -, -, -, -, -, -, -, -, -, fibres, -⟩ := h.parts
  exact fibres

theorem Inv.ports {s : State} (h : Inv s) : mwf PortSt.init 0 s.fab.ports = true := by
  obtain ⟨-, -, -, -, -, -, -, -, -, -, -, -, -, -, -, -, ports, -⟩ := h.parts
  exact ports

theorem Inv.portMaps {s : State} (h : Inv s) : mwf portMapReset 0 s.portMaps = true := by
  obtain ⟨-, -, -, -, -, -, -, -, -, -, -, -, -, -, -, -, -, maps, -⟩ := h.parts
  exact maps

section
variable {s t : State} {f g p q : Nat}

theorem fibre_setFibre (wf : mwf Fibre.init 0 s.fibres = true) (x : Fibre) : (s.setFibre f x).fibre f = x :=
  mget_mput_same x wf

theorem fibre_setFibre_other (wf : mwf Fibre.init 0 s.fibres = true) (other : g ≠ f) (x : Fibre) :
    (s.setFibre f x).fibre g = s.fibre g := mget_mput_other x wf other

theorem fibres_setFibre (wf : mwf Fibre.init 0 s.fibres = true) (x : Fibre) :
    mwf Fibre.init 0 (s.setFibre f x).fibres = true := mwf_mput x wf (Nat.zero_le _)

theorem port_setPort (wf : mwf PortSt.init 0 s.fab.ports = true) (x : PortSt) : (s.setPort p x).port p = x :=
  mget_mput_same x wf

theorem port_setPort_other (wf : mwf PortSt.init 0 s.fab.ports = true) (other : q ≠ p) (x : PortSt) :
    (s.setPort p x).port q = s.port q := mget_mput_other x wf other

theorem ports_setPort (wf : mwf PortSt.init 0 s.fab.ports = true) (x : PortSt) :
    mwf PortSt.init 0 (s.setPort p x).fab.ports = true := mwf_mput x wf (Nat.zero_le _)

theorem fibre_congr (same : t.fibres = s.fibres) (f : Nat) : t.fibre f = s.fibre f := congrArg (mget Fibre.init · f) same

theorem port_congr (same : t.fab.ports = s.fab.ports) (p : Nat) : t.port p = s.port p := congrArg (mget PortSt.init · p) same

/-- Which port a transceiver serves lies in the port maps alone. -/
theorem portOf_congr (same : t.portMaps = s.portMaps) (f : Nat) : portOf t f = portOf s f := by
  simp only [portOf, State.portMap, same]

theorem dnum_congr (same : t.dict = s.dict) (idx sub : Nat) : dnum t idx sub = dnum s idx sub := by
  simp only [dnum, same]

/-- A transceiver serves a port of its own plane (10 R234). -/
theorem portOf_lt (serves : portOf s f = some p) (there : f < 56) : p < 48 := by
  obtain ⟨d, found, rfl⟩ := Option.map_eq_some_iff.mp serves
  have six : d < 6 := List.mem_range.mp (List.mem_of_find?_eq_some found)
  omega

end

/-! ### What a sticky bit leaves alone (13 R313; 14 R323; 15 R348, R349) -/

/-- A state but for what a sticky bit may change: the dictionary, the journal, the debt, and the vectors. -/
def unflagged (s : State) : State :=
  { s with dict := [], out := [], host := State.reset.host, mgmt := State.reset.mgmt, health := State.reset.health }

section
variable (s : State) (idx sub bit : Nat)

theorem unflagged_raiseVector (v : Nat) : unflagged (raiseVector s v) = unflagged s := by
  unfold raiseVector
  split <;> rfl

theorem unflagged_journal : unflagged (journal s idx sub bit) = unflagged s := by
  unfold journal
  extract_lets m fresh used at_
  split <;> rfl

@[simp] theorem unflagged_sticky : unflagged (sticky s idx sub bit) = unflagged s := by
  unfold sticky
  split
  · rfl
  · calc unflagged (raiseError (addDebt (journal (dputBit s idx sub bit true) idx sub bit) (debtOf idx sub)))
        = unflagged (journal (dputBit s idx sub bit true) idx sub bit) := unflagged_raiseVector _ _
      _ = unflagged (dputBit s idx sub bit true) := unflagged_journal _ _ _ _

end

section
variable {s t : State} (same : unflagged t = unflagged s)
include same

theorem fibres_of_unflagged : t.fibres = s.fibres := by
  change (unflagged t).fibres = (unflagged s).fibres
  rw [same]

theorem fab_of_unflagged : t.fab = s.fab := by
  change (unflagged t).fab = (unflagged s).fab
  rw [same]

theorem portMaps_of_unflagged : t.portMaps = s.portMaps := by
  change (unflagged t).portMaps = (unflagged s).portMaps
  rw [same]

theorem blobs_of_unflagged : t.blobs = s.blobs := by
  change (unflagged t).blobs = (unflagged s).blobs
  rw [same]

end

/-! ### A port goes down (09 R227; 10 R250) -/

/-- A state but for its transceivers, its ports and what waits for these. -/
def offLinks (s : State) : State := { s with fibres := [], fab := { s.fab with ports := [], held := [] } }

theorem offLinks_eq {s t : State} (same : offLinks t = offLinks s) :
    t = { s with fibres := t.fibres, fab := { s.fab with ports := t.fab.ports, held := t.fab.held } } := by
  calc t
    _ = { offLinks t with
          fibres := t.fibres, fab := { (offLinks t).fab with ports := t.fab.ports, held := t.fab.held } } := rfl
    _ = { offLinks s with
          fibres := t.fibres, fab := { (offLinks s).fab with ports := t.fab.ports, held := t.fab.held } } := by rw [same]
    _ = _ := rfl

section
variable (s : State) (p f : Nat)

@[simp] theorem offLinks_setFibre (x : Fibre) : offLinks (s.setFibre f x) = offLinks s := rfl
@[simp] theorem offLinks_setPort (x : PortSt) : offLinks (s.setPort p x) = offLinks s := rfl
@[simp] theorem offLinks_portDown : offLinks (portDown s p) = offLinks s := rfl
@[simp] theorem portDown_fibres : (portDown s p).fibres = s.fibres := rfl

end

section
variable {s : State} {f p q : Nat}

theorem portDown_ports (wf : mwf PortSt.init 0 s.fab.ports = true) :
    mwf PortSt.init 0 (portDown s p).fab.ports = true := mwf_mput _ wf (Nat.zero_le _)

theorem portDown_state (wf : mwf PortSt.init 0 s.fab.ports = true) : ((portDown s p).port p).state = 0 :=
  congrArg PortSt.state (mget_mput_same _ wf)

theorem portDown_other (wf : mwf PortSt.init 0 s.fab.ports = true) (other : q ≠ p) : (portDown s p).port q = s.port q :=
  mget_mput_other _ wf other

theorem fibrePortDown_serving (serves : portOf s f = some p) : fibrePortDown s f = portDown s p := by
  simp only [fibrePortDown, serves]

@[simp] theorem fibrePortDown_fibres (s : State) (f : Nat) : (fibrePortDown s f).fibres = s.fibres := by
  unfold fibrePortDown
  split <;> rfl

@[simp] theorem fibrePortDown_coord (s : State) (f : Nat) : (fibrePortDown s f).fab.coord = s.fab.coord := by
  unfold fibrePortDown
  split <;> rfl

end

/-! ### Lanes judged (10 R250) -/

section
variable {s : State} {f g before : Nat} {m : List (BitVec 5)}

/-- A direction whose every lane is there is not judged down. -/
theorem judgeLanes_enough (lanes : 16 ≤ activeLanes m) (floor : dnum s 0x20A0 1 ≤ 16) : judgeLanes s f 16 m = s := by
  have whole : ¬activeLanes m < min 16 16 := by omega
  have above : ¬activeLanes m < dnum s 0x20A0 1 := by omega
  simp only [judgeLanes, if_neg whole, if_neg above]

/-- The state in which the judgement has set its sticky bit of a degraded direction. -/
theorem judgeLanes_cases (s : State) (f before : Nat) (m : List (BitVec 5)) : ∃ t, unflagged t = unflagged s
    ∧ (judgeLanes s f before m = t
      ∨ judgeLanes s f before m = fibrePortDown (t.setFibre f (stopFibre (t.fibre f) 0)) f) := by
  have degraded : unflagged (if activeLanes m < min 16 before then sticky s 0xA0A0 2 f else s) = unflagged s := by
    split
    · exact unflagged_sticky ..
    · rfl
  unfold judgeLanes
  extract_lets n s1 s2
  split
  · exact ⟨s2, (unflagged_sticky ..).trans degraded, .inr rfl⟩
  · exact ⟨s1, degraded, .inl rfl⟩

/-- A judgement changes at most whether the transceiver runs. -/
theorem judgeLanes_fibre (wf : mwf Fibre.init 0 s.fibres = true) :
    stopFibre ((judgeLanes s f before m).fibre f) 0 = stopFibre (s.fibre f) 0 := by
  obtain ⟨t, same, stands | stops⟩ := judgeLanes_cases s f before m
  all_goals have fibres : t.fibres = s.fibres := fibres_of_unflagged same
  · rw [stands, fibre_congr fibres]
  · rw [stops, fibre_congr (fibrePortDown_fibres _ _), fibre_setFibre (by rw [fibres]; exact wf), fibre_congr fibres]
    rfl

theorem judgeLanes_fibre_other (wf : mwf Fibre.init 0 s.fibres = true) (other : g ≠ f) :
    (judgeLanes s f before m).fibre g = s.fibre g := by
  obtain ⟨t, same, stands | stops⟩ := judgeLanes_cases s f before m
  all_goals have fibres : t.fibres = s.fibres := fibres_of_unflagged same
  · rw [stands, fibre_congr fibres]
  · rw [stops, fibre_congr (fibrePortDown_fibres _ _), fibre_setFibre_other (by rw [fibres]; exact wf) other,
      fibre_congr fibres]

theorem judgeLanes_fibres (wf : mwf Fibre.init 0 s.fibres = true) :
    mwf Fibre.init 0 (judgeLanes s f before m).fibres = true := by
  obtain ⟨t, same, stands | stops⟩ := judgeLanes_cases s f before m
  all_goals have fibres : t.fibres = s.fibres := fibres_of_unflagged same
  · rw [stands, fibres]
    exact wf
  · rw [stops, fibrePortDown_fibres]
    exact fibres_setFibre (by rw [fibres]; exact wf) _

@[simp] theorem judgeLanes_coord (s : State) (f before : Nat) (m : List (BitVec 5)) :
    (judgeLanes s f before m).fab.coord = s.fab.coord := by
  obtain ⟨t, same, stands | stops⟩ := judgeLanes_cases s f before m
  all_goals have fab : t.fab = s.fab := fab_of_unflagged same
  · rw [stands, fab]
  · rw [stops, fibrePortDown_coord, State.setFibre_fab, fab]

end

/-! ### The first lane-control message of a training (10 R240, R243, R246) -/

section
variable {s : State} {f g p : Nat}

theorem nextFrees_serving (serves : portOf s f = some p) : (nextFrees s f).2 = s.setPort p (toldNext (s.port p)) := by
  simp only [nextFrees, serves]

@[simp] theorem nextFrees_fibres (s : State) (f : Nat) : (nextFrees s f).2.fibres = s.fibres := by
  unfold nextFrees
  split <;> rfl

@[simp] theorem nextFrees_dict (s : State) (f : Nat) : (nextFrees s f).2.dict = s.dict := by
  unfold nextFrees
  split <;> rfl

@[simp] theorem nextFrees_coord (s : State) (f : Nat) : (nextFrees s f).2.fab.coord = s.fab.coord := by
  unfold nextFrees
  split <;> rfl

/-- A port that returns its frees stays up, or down, with its peer and its minima. -/
theorem toldNext_kept (x : PortSt) :
    (toldNext x).state = x.state ∧ (toldNext x).peer = x.peer ∧ (toldNext x).mins = x.mins := by
  unfold toldNext
  split <;> exact ⟨rfl, rfl, rfl⟩

/-- A flit with a number of its own leaves on a transceiver, in `t`: the number is taken, the flit is held, lane-control
messages may have gone with it, and the frees that are due with its tag. -/
structure NumberedLeaves (s : State) (f : Nat) (t : State) : Prop where
  fibre : ∃ out held at_, t.fibre f =
    { s.fibre f with laneOut := out, nextSeq := (s.fibre f).nextSeq + 1, replay := held, ackAt := at_ }
  others : ∀ g, g ≠ f → t.fibre g = s.fibre g
  fibres : mwf Fibre.init 0 t.fibres = true
  fab : t.fab = (nextFrees s f).2.fab
  dict : t.dict = s.dict

theorem leaveFlit_numbered {kind : Nat} (wf : mwf Fibre.init 0 s.fibres = true) (numbered : kind = 1 ∨ kind = 3) (fc : Nat)
    (p : PktFlit) : NumberedLeaves s f (leaveFlit s f kind fc p) := by
  have wfTold : mwf Fibre.init 0 (nextFrees s f).2.fibres = true := by rw [nextFrees_fibres]; exact wf
  have told (g : Nat) : (nextFrees s f).2.fibre g = s.fibre g := fibre_congr (nextFrees_fibres s f) g
  unfold leaveFlit
  simp only [if_pos numbered]
  refine ⟨?_, fun g other => ?_, fibres_setFibre wfTold _, rfl, nextFrees_dict s f⟩
  · rw [fibre_congr (emit_fibres ..), fibre_setFibre wfTold, told]
    exact ⟨_, _, _, rfl⟩
  · rw [fibre_congr (emit_fibres ..), fibre_setFibre_other wfTold other, told]

/-- A transceiver with other lane-control messages waiting. -/
def waiting (x : Fibre) (out : List LaneMsg) : Fibre := { x with laneOut := out }

theorem nextFrees_setFibre_fab (x : Fibre) (g : Nat) : (nextFrees (s.setFibre f x) g).2.fab = (nextFrees s g).2.fab := by
  have same : portOf (s.setFibre f x) g = portOf s g := rfl
  unfold nextFrees
  rw [same]
  cases portOf s g <;> rfl

/-- Which messages waited before does not matter to what leaves. -/
theorem NumberedLeaves.of_waiting {t : State} {out : List LaneMsg} (wf : mwf Fibre.init 0 s.fibres = true)
    (h : NumberedLeaves (s.setFibre f (waiting (s.fibre f) out)) f t) : NumberedLeaves s f t := by
  obtain ⟨⟨rest, held, at_, fibre⟩, others, fibres, fab, dict⟩ := h
  refine ⟨⟨rest, held, at_, ?_⟩, fun g other => ?_, fibres, fab.trans (nextFrees_setFibre_fab _ _), dict⟩
  · rw [fibre, fibre_setFibre wf]
    rfl
  · rw [others g other, fibre_setFibre_other wf other]

/-- With nothing held, the lane-control messages that wait leave at once. -/
theorem lanePump_numbered (wf : mwf Fibre.init 0 s.fibres = true) (empty : (s.fibre f).replay = [])
    (waits : (s.fibre f).laneOut ≠ []) : NumberedLeaves s f (lanePump f 1 s) := by
  have goes : ¬((s.fibre f).laneOut.isEmpty || !replayRoom s f 1) = true := by simp [replayRoom, empty, waits]
  have leaves : lanePump f 1 s = leaveFlit (s.setFibre f (waiting (s.fibre f) ((s.fibre f).laneOut.drop 7))) f 3 7
      { noBytes with bytes := ((s.fibre f).laneOut.take 7).flatMap laneBytes } := if_neg goes
  rw [leaves]
  exact (leaveFlit_numbered (fibres_setFibre wf _) (.inr rfl) _ _).of_waiting wf

theorem sendLane_numbered (wf : mwf Fibre.init 0 s.fibres = true) (empty : (s.fibre f).replay = []) (m : LaneMsg) :
    NumberedLeaves s f (sendLane s f m) := by
  have listed := fibre_setFibre (f := f) wf (waiting (s.fibre f) ((s.fibre f).laneOut ++ [m]))
  refine NumberedLeaves.of_waiting (out := (s.fibre f).laneOut ++ [m]) wf
    (lanePump_numbered (fibres_setFibre wf _) ?_ ?_)
  · rw [listed]
    exact empty
  · rw [listed]
    exact List.append_ne_nil_of_right_ne_nil _ (List.cons_ne_nil _ _)

end

end Sys2Proof.Machine
end

section
/-! Training and port maps (09 R201, R213, R227, R228; 10 R235, R236, R251): the start, the end and the timeout of a training,
the bypass of a dark device, a port map that is refused or put in force, and O35. -/

namespace Sys2Proof.Machine

/-! ### A training starts, and runs out of time (10 R251) -/

/-- The transceiver in training. -/
def inTraining (s : State) (f : Nat) : Fibre := { stopFibre (s.fibre f) 1 with trainAt := clock s }

/-- Its port stands in training, if it serves one. -/
def portTrains (t : State) : Option Nat → State
  | some p => (portDown t p).setPort p { (portDown t p).port p with state := 1 }
  | none => t

section
variable {s : State} {f : Xcvr} {p : Nat}

theorem trainingStart_starts (may : canTrain s f.val = true) :
    trainingStart f s = portTrains (s.setFibre f.val (inTraining s f.val)) (portOf s f.val) := by
  have starts : ¬(!canTrain s f.val) = true := by rw [may]; decide
  exact if_neg starts

theorem portTrains_fibres (t : State) (o : Option Nat) : (portTrains t o).fibres = t.fibres := by
  cases o <;> simp [portTrains]

theorem offLinks_portTrains (t : State) (o : Option Nat) : offLinks (portTrains t o) = offLinks t := by
  cases o <;> simp [portTrains]

theorem portTrains_state {t : State} (wf : mwf PortSt.init 0 t.fab.ports = true) :
    ((portTrains t (some p)).port p).state = 1 := congrArg PortSt.state (port_setPort (portDown_ports wf) _)

/-- A training that goes on past 100 ms has failed once more, and starts again. -/
def trainsAgain (s : State) (f : Nat) : State :=
  s.setFibre f { s.fibre f with fails := (s.fibre f).fails + 1, trainAt := clock s }

/-- A transceiver trains, and its 100 ms are over. -/
structure TrainingLate (s : State) (f : Nat) : Prop where
  on : hubOn s = true
  training : (s.fibre f).training = 1
  late : 100000000 ≤ (clock s - (s.fibre f).trainAt).toNat

/-- The port's bit of a link that does not train (09 R233). -/
def portUntrained (t : State) : Option Nat → State
  | some p => sticky t 0xA090 2 p
  | none => t

theorem trainingTimeout_late (h : TrainingLate s f.val) : trainingTimeout f s =
    if (s.fibre f.val).fails + 1 < 3 then trainsAgain s f.val
    else portUntrained (sticky (trainsAgain s f.val) 0xA0A0 3 f.val) (portOf s f.val) := by
  obtain ⟨on, training, late⟩ := h
  have acts : ¬(!hubOn s || (s.fibre f.val).training != 1
      || decide ((clock s - (s.fibre f.val).trainAt).toNat < 100000000)) = true := by
    rw [on, training, decide_eq_false (Nat.not_lt.mpr late)]
    decide
  have same : portOf (sticky (trainsAgain s f.val) 0xA0A0 3 f.val) f.val = portOf s f.val :=
    portOf_congr (portMaps_of_unflagged (unflagged_sticky ..)) f.val
  refine (if_neg acts).trans ?_
  rw [← same]
  rfl

end

/-! ### A training ends: its link (10 R251, Table 10.8) -/

/-- The maps of the two directions: the initial ones of the λ that passed and are not retired. -/
def txTrained (s : State) (f : Nat) (r : TrainResult) : List (BitVec 5) :=
  initialMap fun k => r.txPass.getLsbD k && !lamDead s f k true
def rxTrained (s : State) (f : Nat) (r : TrainResult) : List (BitVec 5) :=
  initialMap fun k => rxVerified s r k && !lamDead s f k false

/-- The transceiver is up with its maps, and its CAL_SCHED has left. -/
def calSent (v : State) (f : Nat) (r : TrainResult) (txm rxm : List (BitVec 5)) : State :=
  sendLane (v.setFibre f (freshFibre v (v.fibre f) r txm rxm)) f (laneMsg 0x06 0 (now v) 0 txm)

/-- Both directions have been judged by their lanes. -/
def linkUp (v : State) (f : Nat) (r : TrainResult) (txm rxm : List (BitVec 5)) : State :=
  judgeLanes (judgeLanes (calSent v f r txm rxm) f 16 txm) f 16 rxm

section
variable {v : State} {f g p : Nat} {r : TrainResult} {txm rxm : List (BitVec 5)}

theorem calSent_leaves (wf : mwf Fibre.init 0 v.fibres = true) :
    NumberedLeaves (v.setFibre f (freshFibre v (v.fibre f) r txm rxm)) f (calSent v f r txm rxm) := by
  refine sendLane_numbered (fibres_setFibre wf _) ?_ _
  rw [fibre_setFibre wf]
  rfl

/-- The transceiver after its CAL_SCHED, whose number was 0. -/
theorem calSent_fibre (wf : mwf Fibre.init 0 v.fibres = true) : ∃ out held at_, (calSent v f r txm rxm).fibre f =
    { freshFibre v (v.fibre f) r txm rxm with laneOut := out, nextSeq := 1, replay := held, ackAt := at_ } := by
  obtain ⟨out, held, at_, fibre⟩ := (calSent_leaves (f := f) (r := r) (txm := txm) (rxm := rxm) wf).fibre
  rw [fibre_setFibre wf] at fibre
  exact ⟨out, held, at_, fibre⟩

/-- What a training leaves of its transceiver, but for whether it runs. -/
theorem linkUp_fibre (wf : mwf Fibre.init 0 v.fibres = true) :
    ∃ out held at_, stopFibre ((linkUp v f r txm rxm).fibre f) 0 = stopFibre
      { freshFibre v (v.fibre f) r txm rxm with laneOut := out, nextSeq := 1, replay := held, ackAt := at_ } 0 := by
  have sent := (calSent_leaves (f := f) (r := r) (txm := txm) (rxm := rxm) wf).fibres
  obtain ⟨out, held, at_, fibre⟩ := calSent_fibre (f := f) (r := r) (txm := txm) (rxm := rxm) wf
  refine ⟨out, held, at_, ?_⟩
  rw [linkUp, judgeLanes_fibre (judgeLanes_fibres sent), judgeLanes_fibre sent, fibre]

theorem linkUp_fibre_other (wf : mwf Fibre.init 0 v.fibres = true) (other : g ≠ f) :
    (linkUp v f r txm rxm).fibre g = v.fibre g := by
  have leaves := calSent_leaves (f := f) (r := r) (txm := txm) (rxm := rxm) wf
  rw [linkUp, judgeLanes_fibre_other (judgeLanes_fibres leaves.fibres) other, judgeLanes_fibre_other leaves.fibres other,
    leaves.others g other, fibre_setFibre_other wf other]

theorem linkUp_coord (wf : mwf Fibre.init 0 v.fibres = true) : (linkUp v f r txm rxm).fab.coord = v.fab.coord := by
  rw [linkUp, judgeLanes_coord, judgeLanes_coord, (calSent_leaves wf).fab, nextFrees_coord]
  rfl

/-- Both directions have their sixteen lanes, and no more are asked of them. -/
structure FullLanes (v : State) (txm rxm : List (BitVec 5)) : Prop where
  tx : 16 ≤ activeLanes txm
  rx : 16 ≤ activeLanes rxm
  floor : dnum v 0x20A0 1 ≤ 16

theorem linkUp_full (wf : mwf Fibre.init 0 v.fibres = true) (full : FullLanes v txm rxm) :
    linkUp v f r txm rxm = calSent v f r txm rxm := by
  have floor : dnum (calSent v f r txm rxm) 0x20A0 1 ≤ 16 := by
    rw [dnum_congr (calSent_leaves wf).dict]
    exact full.floor
  rw [linkUp, judgeLanes_enough full.tx floor, judgeLanes_enough full.rx floor]

theorem linkUp_training (wf : mwf Fibre.init 0 v.fibres = true) (full : FullLanes v txm rxm) :
    ((linkUp v f r txm rxm).fibre f).training = 2 := by
  obtain ⟨out, held, at_, fibre⟩ := calSent_fibre (f := f) (r := r) (txm := txm) (rxm := rxm) wf
  rw [linkUp_full wf full, fibre]
  rfl

theorem linkUp_port (wf : mwf Fibre.init 0 v.fibres = true) (wfPorts : mwf PortSt.init 0 v.fab.ports = true)
    (full : FullLanes v txm rxm) (serves : portOf v f = some p) :
    (linkUp v f r txm rxm).port p = toldNext (v.port p) := by
  have leaves := calSent_leaves (f := f) (r := r) (txm := txm) (rxm := rxm) wf
  have told := nextFrees_serving (s := v) serves
  rw [linkUp_full wf full, port_congr (congrArg Fab.ports (leaves.fab.trans (nextFrees_setFibre_fab _ _))) p, told,
    port_setPort wfPorts]

end

/-! ### A training ends: its port (09 R201, R213, R227; 13 R299) -/

section
variable {s : State} {f p : Nat} {r : TrainResult}

/-- LOOP of the transceiver is entered, 8,000 ns at most. -/
def loopNoted (s : State) (f : Nat) (r : TrainResult) : State := dset s 0x40A6 (f + 1) (min 8000 r.loopNs.toNat)

/-- The device has the coordinate written and its plane's order, and tells the peer its free counts. -/
def coordTaken (s : State) (f : Nat) (r : TrainResult) (p : Nat) : State :=
  let t := loopNoted s f r
  let order := byteAt (planeOrders s) (p / 6)
  let counts := freeCounts s (s.port p)
  emit { t with fab := { t.fab with coord := writtenCoord t, orders := t.fab.orders.set (p / 6) order } }
    (.trained f (writtenCoord s) order counts.1 counts.2)

theorem dnum_loopNoted {idx sub : Nat} (other : dkey idx sub ≠ dkey 0x40A6 (f + 1)) :
    dnum (loopNoted s f r) idx sub = dnum s idx sub := by
  have listed : min 8000 r.loopNs.toNat ≠ dictAbsent := by
    rw [dictAbsent]
    omega
  simp only [dnum, loopNoted, dset, mfind_mput_other s.dict listed other]

theorem coordTaken_coord (there : f < 56) : (coordTaken s f r p).fab.coord = writtenCoord s := by
  have apart : dkey 0x9000 1 ≠ dkey 0x40A6 (f + 1) := by
    simp only [dkey]
    omega
  change writtenCoord (loopNoted s f r) = writtenCoord s
  rw [writtenCoord, writtenCoord, dnum_loopNoted apart]

/-- The tick at which the device's first port came up, noted once (12). -/
def firstUpNoted (t : State) : State :=
  if t.tempo.firstUp.isNone then { t with tempo := { t.tempo with firstUp := some (clock t) } } else t

/-- The port is up with its peer's books, and its bit is set. -/
def portRaised (t : State) (p : Nat) (r : TrainResult) : State :=
  sticky (firstUpNoted (t.setPort p (freshPort t (t.port p) r))) 0xA090 3 p

/-- The port is up with its peer's books, its bit is set, and its peer has been heard. -/
def portBooked (t : State) (p : Nat) (r : TrainResult) : State :=
  hear (portRaised t p r) p

theorem unflagged_hear (s : State) (p : Nat) :
    unflagged (hear s p) = unflagged (s.setPort p { s.port p with heard := clock s, known := true }) := by
  unfold hear
  extract_lets d t
  split <;> rfl

theorem firstUpNoted_keeps {β : Type} (view : State → β)
    (first : ∀ t x, view { t with tempo := { t.tempo with firstUp := x } } = view t) (t : State) :
    view (firstUpNoted t) = view t := by
  unfold firstUpNoted
  split
  · exact first t _
  · rfl

/-- A view of the state that flags, the port's books and the tick of the first port do not show. -/
structure BlindToBooks {β : Type} (view : State → β) : Prop where
  flags : ∀ t u, unflagged t = unflagged u → view t = view u
  ports : ∀ t p x, view (t.setPort p x) = view t
  first : ∀ t x, view { t with tempo := { t.tempo with firstUp := x } } = view t

theorem portBooked_keeps {β : Type} {view : State → β} (h : BlindToBooks view) (t : State) :
    view (portBooked t p r) = view t := by
  rw [portBooked, h.flags _ _ (unflagged_hear ..), h.ports, portRaised, h.flags _ _ (unflagged_sticky ..),
    firstUpNoted_keeps view h.first, h.ports]

theorem blindToBooks_fibres : BlindToBooks State.fibres :=
  ⟨fun _ _ same => fibres_of_unflagged same, fun _ _ _ => rfl, fun _ _ => rfl⟩

theorem blindToBooks_portMaps : BlindToBooks State.portMaps :=
  ⟨fun _ _ same => portMaps_of_unflagged same, fun _ _ _ => rfl, fun _ _ => rfl⟩

theorem blindToBooks_coord : BlindToBooks fun s => s.fab.coord :=
  ⟨fun _ _ same => congrArg Fab.coord (fab_of_unflagged same), fun _ _ _ => rfl, fun _ _ => rfl⟩

theorem blindToBooks_now : BlindToBooks now :=
  ⟨fun t u same => by change now (unflagged t) = now (unflagged u); rw [same], fun _ _ _ => rfl, fun _ _ => rfl⟩

/-- LANE_MIN is an entry before the counters (10 R250). -/
theorem beforeCounters_laneMin : BeforeCounters 0x20A0 1 := by
  unfold BeforeCounters
  decide

theorem dnum_hear {i k : Nat} (low : BeforeCounters i k) (s : State) (p : Nat) : dnum (hear s p) i k = dnum s i k := by
  unfold hear
  extract_lets d t
  split
  · rfl
  · exact dnum_dset_other (idx := 0xC003) (by decide) (low.lt (by decide))

theorem dnum_portBooked {i k : Nat} (low : BeforeCounters i k) (small : p < 65) (t : State) :
    dnum (portBooked t p r) i k = dnum t i k := by
  rw [portBooked, dnum_hear low, portRaised, dnum_sticky low (by decide) small,
    firstUpNoted_keeps (dnum · i k) (fun _ _ => rfl)]
  rfl

/-- The port's books at the end of a training. -/
theorem portBooked_port {t : State} (wf : mwf PortSt.init 0 t.fab.ports = true) :
    mwf PortSt.init 0 (portBooked t p r).fab.ports = true ∧ ∃ heard known,
      (portBooked t p r).port p = { freshPort t (t.port p) r with heard := heard, known := known } := by
  have fab : (portRaised t p r).fab = (t.setPort p (freshPort t (t.port p) r)).fab :=
    (fab_of_unflagged (unflagged_sticky ..)).trans (firstUpNoted_keeps State.fab (fun _ _ => rfl) _)
  have booked := fab_of_unflagged (unflagged_hear (portRaised t p r) p)
  have raised : mwf PortSt.init 0 (portRaised t p r).fab.ports = true := by
    rw [fab]
    exact ports_setPort wf _
  refine ⟨?_, clock (portRaised t p r), true, ?_⟩
  · rw [portBooked, booked]
    exact ports_setPort raised _
  · rw [portBooked, port_congr (congrArg Fab.ports booked), port_setPort raised, port_congr (congrArg Fab.ports fab),
      port_setPort wf]

end

/-! ### A training ends: what becomes of it (10 R251; 09 R201, R227; 11 R266) -/

/-- A transceiver trains, and the steps of Table 10.8 have taken their time. -/
structure TrainingEnds (s : State) (f : Nat) : Prop where
  may : canTrain s f = true
  training : (s.fibre f).training = 1
  time : trainTime (s.fibre f) ≤ (clock s - (s.fibre f).trainAt).toNat

/-- A port's link spans fewer than three dark devices, to a peer that stands where R201 demands and has the same order. -/
def LinkFits (s : State) (r : TrainResult) (p : Nat) : Prop :=
  r.spans ≠ 3 ∧ r.peerOrder = byteAt (planeOrders s) (p / 6) ∧
    ∃ me, writtenCoord s = some me ∧ peerOk me r.peer (p % 6) = true

/-- The end of a training at a port, by the coordinate that is written. -/
def trainedPeer (s : State) (f : Nat) (r : TrainResult) (p : Nat) : Option (BitVec 18) → State
  | none => notUp (coordTaken s f r p) f
  | some me =>
    if !peerOk me r.peer (p % 6) || r.peerOrder != byteAt (planeOrders s) (p / 6) then
      notUp (sticky (coordTaken s f r p) 0xA090 4 p) f
    else flushColl (linkUp (portBooked (coordTaken s f r p) p r) f r (txTrained s f r) (rxTrained s f r))

/-- The end of a training, by the port that the transceiver serves. -/
def trainedPort (s : State) (f : Nat) (r : TrainResult) : Option Nat → State
  | none => linkUp (loopNoted s f r) f r (txTrained s f r) (rxTrained s f r)
  | some p =>
    if r.spans = 3 then notUp (sticky (coordTaken s f r p) 0xA090 2 p) f
    else trainedPeer s f r p (writtenCoord s)

section
variable {s : State} {f : Xcvr} {r : TrainResult} {p : Nat}

theorem trainingDone_ends (h : TrainingEnds s f.val) : trainingDone f r s =
    if 8000 < r.loopNs.toNat then notUp (sticky (loopNoted s f.val r) 0xA0A0 11 f.val) f.val
    else trainedPort s f.val r (portOf s f.val) := by
  obtain ⟨may, training, time⟩ := h
  have acts : ¬(!canTrain s f.val || (s.fibre f.val).training != 1
      || decide ((clock s - (s.fibre f.val).trainAt).toNat < trainTime (s.fibre f.val))) = true := by
    rw [may, training, decide_eq_false (Nat.not_lt.mpr time)]
    decide
  exact if_neg acts

theorem trainingDone_long (h : TrainingEnds s f.val) (long : 8000 < r.loopNs.toNat) :
    trainingDone f r s = notUp (sticky (dset s 0x40A6 (f.val + 1) 8000) 0xA0A0 11 f.val) f.val := by
  rw [trainingDone_ends h, if_pos long, loopNoted, Nat.min_eq_left (Nat.le_of_lt long)]

theorem trainedPort_fits (fits : LinkFits s r p) : trainedPort s f.val r (some p) = flushColl
    (linkUp (portBooked (coordTaken s f.val r p) p r) f.val r (txTrained s f.val r) (rxTrained s f.val r)) := by
  obtain ⟨spans, order, me, coord, stands⟩ := fits
  have agrees : ¬(!peerOk me r.peer (p % 6) || r.peerOrder != byteAt (planeOrders s) (p / 6)) = true := by
    simp [stands, order]
  exact (if_neg spans).trans ((congrArg (trainedPeer s f.val r p) coord).trans (if_neg agrees))

/-- A link that does not fit leaves its transceiver and its port down. -/
theorem trainedPort_unfit (unfit : ¬LinkFits s r p) : ∃ t, unflagged t = unflagged (coordTaken s f.val r p)
    ∧ trainedPort s f.val r (some p) = notUp t f.val := by
  by_cases spans : r.spans = 3
  · exact ⟨_, unflagged_sticky .., if_pos spans⟩
  · have ends : trainedPort s f.val r (some p) = trainedPeer s f.val r p (writtenCoord s) := if_neg spans
    rw [ends]
    cases coord : writtenCoord s with
    | none => exact ⟨_, rfl, rfl⟩
    | some me =>
      refine ⟨_, unflagged_sticky .., if_pos ?_⟩
      by_contra agrees
      simp only [Bool.or_eq_true, Bool.not_eq_true', bne_iff_ne, not_or, not_not, Bool.not_eq_false] at agrees
      exact unfit ⟨spans, agrees.2, me, coord, agrees.1⟩

end

section
variable {s t : State} {f g p : Nat}

theorem notUp_fibre (wf : mwf Fibre.init 0 t.fibres = true) : ((notUp t f).fibre f).training = 0 := by
  rw [notUp, fibre_congr (fibrePortDown_fibres _ _), fibre_setFibre wf]
  rfl

theorem notUp_fibre_other (wf : mwf Fibre.init 0 t.fibres = true) (other : g ≠ f) : (notUp t f).fibre g = t.fibre g := by
  rw [notUp, fibre_congr (fibrePortDown_fibres _ _), fibre_setFibre_other wf other]

theorem notUp_coord (t : State) (f : Nat) : (notUp t f).fab.coord = t.fab.coord := fibrePortDown_coord _ _

theorem notUp_port (wf : mwf PortSt.init 0 t.fab.ports = true) (serves : portOf t f = some p) :
    ((notUp t f).port p).state = 0 := by
  have same : portOf (t.setFibre f (stopFibre (t.fibre f) 0)) f = some p := serves
  rw [notUp, fibrePortDown_serving same]
  exact portDown_state wf

end

/-- What a training that ends well leaves in its transceiver, whether or not its lanes suffice (10 R251): the maps, the
numbers, the codewords and the round origins. -/
structure LinkNumbers (s : State) (f : Nat) (r : TrainResult) (x : Fibre) : Prop where
  txMap : x.txMap = txTrained s f r
  rxMap : x.rxMap = rxTrained s f r
  nextSeq : x.nextSeq = 1
  acked : x.acked = 8191
  expect : x.expect = 0
  txCw : x.txCw = 0
  rxCw : x.rxCw = 0
  origin : x.origin = now s
  rxOrigin : x.rxOrigin = r.origin
  far : x.far = r.far.val % 16
  fails : x.fails = 0

section
variable {s v : State} {f : Nat} {r : TrainResult}

/-- They do not depend on whether the transceiver runs. -/
theorem LinkNumbers.of_stopped {x y : Fibre} (same : stopFibre x 0 = stopFibre y 0) (h : LinkNumbers s f r y) :
    LinkNumbers s f r x := by
  obtain ⟨txMap, rxMap, nextSeq, acked, expect, txCw, rxCw, origin, rxOrigin, far, fails⟩ := h
  simp only [stopFibre, Fibre.mk.injEq] at same
  constructor <;> simp only [*]

theorem linkUp_numbers (wf : mwf Fibre.init 0 v.fibres = true) (tick : now v = now s) :
    LinkNumbers s f r ((linkUp v f r (txTrained s f r) (rxTrained s f r)).fibre f) := by
  obtain ⟨out, held, at_, same⟩ := linkUp_fibre (f := f) (r := r) (txm := txTrained s f r) (rxm := rxTrained s f r) wf
  exact LinkNumbers.of_stopped same ⟨rfl, rfl, rfl, rfl, rfl, rfl, rfl, tick, rfl, rfl, rfl⟩

end

/-- The state in which the link of a training comes up: before it, only books have changed. -/
structure ReadyToLink (s v : State) : Prop where
  fibres : v.fibres = s.fibres
  tick : now v = now s
  floor : dnum v 0x20A0 1 = dnum s 0x20A0 1

section
variable {s v : State} {f g p : Nat} {r : TrainResult}

theorem readyToLink_loopNoted (s : State) (f : Nat) (r : TrainResult) : ReadyToLink s (loopNoted s f r) := by
  refine ⟨rfl, rfl, dnum_loopNoted ?_⟩
  simp only [dkey]
  omega

theorem readyToLink_portBooked (small : p < 65) :
    ReadyToLink s (portBooked (coordTaken s f r p) p r) := by
  obtain ⟨fibres, tick, floor⟩ := readyToLink_loopNoted s f r
  exact ⟨(portBooked_keeps blindToBooks_fibres _).trans fibres, (portBooked_keeps blindToBooks_now _).trans tick,
    (dnum_portBooked beforeCounters_laneMin small _).trans floor⟩

/-- Its transceiver, and every other one, once a link has come up. -/
theorem linkUp_ready (canonical : Inv s) (ready : ReadyToLink s v) :
    LinkNumbers s f r ((linkUp v f r (txTrained s f r) (rxTrained s f r)).fibre f)
    ∧ (∀ g, g ≠ f → (linkUp v f r (txTrained s f r) (rxTrained s f r)).fibre g = s.fibre g)
    ∧ (16 ≤ activeLanes (txTrained s f r) → 16 ≤ activeLanes (rxTrained s f r) → dnum s 0x20A0 1 ≤ 16 →
      ((linkUp v f r (txTrained s f r) (rxTrained s f r)).fibre f).training = 2) := by
  have wf : mwf Fibre.init 0 v.fibres = true := by rw [ready.fibres]; exact canonical.fibres
  exact ⟨linkUp_numbers wf ready.tick, fun g other => (linkUp_fibre_other wf other).trans (fibre_congr ready.fibres g),
    fun tx rx floor => linkUp_training wf ⟨tx, rx, ready.floor.symm ▸ floor⟩⟩

/-- The coordinate and the port once a link with a peer has come up. -/
theorem linkUp_portBooked (canonical : Inv s) (there : f < 56) (serves : portOf s f = some p) :
    let t := linkUp (portBooked (coordTaken s f r p) p r) f r (txTrained s f r) (rxTrained s f r)
    t.fab.coord = writtenCoord s
    ∧ (16 ≤ activeLanes (txTrained s f r) → 16 ≤ activeLanes (rxTrained s f r) → dnum s 0x20A0 1 ≤ 16 →
      (t.port p).state = 2 ∧ (t.port p).peer = r.peer ∧ (t.port p).mins = classMin s) := by
  have small : p < 65 := Nat.lt_trans (portOf_lt serves there) (by decide)
  have ready : ReadyToLink s (portBooked (coordTaken s f r p) p r) := readyToLink_portBooked small
  have wf : mwf Fibre.init 0 (portBooked (coordTaken s f r p) p r).fibres = true := by
    rw [ready.fibres]
    exact canonical.fibres
  have still : portOf (portBooked (coordTaken s f r p) p r) f = some p :=
    (portOf_congr (portBooked_keeps blindToBooks_portMaps _) f).trans serves
  obtain ⟨wfPorts, heard, known, booked⟩ :=
    portBooked_port (p := p) (r := r) (t := coordTaken s f r p) (canonical.ports)
  refine ⟨?_, fun tx rx floor => ?_⟩
  · exact (linkUp_coord wf).trans ((portBooked_keeps blindToBooks_coord _).trans (coordTaken_coord there))
  · obtain ⟨state, peer, mins⟩ := toldNext_kept ((portBooked (coordTaken s f r p) p r).port p)
    rw [linkUp_port wf wfPorts ⟨tx, rx, ready.floor.symm ▸ floor⟩ still, state, peer, mins, booked]
    exact ⟨rfl, rfl, rfl⟩

/-- A link that does not fit leaves its transceiver and its port down, with the coordinate in force. -/
theorem notUp_coordTaken {t : State} (canonical : Inv s) (there : f < 56) (serves : portOf s f = some p)
    (same : unflagged t = unflagged (coordTaken s f r p)) :
    ((notUp t f).fibre f).training = 0 ∧ ((notUp t f).port p).state = 0 ∧ (notUp t f).fab.coord = writtenCoord s
    ∧ (∀ g, g ≠ f → (notUp t f).fibre g = s.fibre g) := by
  have fibres : t.fibres = s.fibres := (fibres_of_unflagged same).trans rfl
  have fab : t.fab = (coordTaken s f r p).fab := fab_of_unflagged same
  have maps : t.portMaps = s.portMaps := (portMaps_of_unflagged same).trans rfl
  have wf : mwf Fibre.init 0 t.fibres = true := by rw [fibres]; exact canonical.fibres
  have wfPorts : mwf PortSt.init 0 t.fab.ports = true := by rw [fab]; exact canonical.ports
  refine ⟨notUp_fibre wf, notUp_port wfPorts ((portOf_congr maps f).trans serves), ?_, fun g other => ?_⟩
  · rw [notUp_coord, fab, coordTaken_coord there]
  · rw [notUp_fibre_other wf other, fibre_congr fibres]

end

/-! ### The bypass of a dark device (10 R236) -/

/-- The position with which a position below 6 is joined. -/
def bypassMate (p : Nat) : Nat := if p % 2 = 0 then p + 1 else p - 1

theorem bypassTo_joined {s : State} {p : Nat} (dark : s.fab.released = false) (six : p < 6) :
    bypassTo s p = some (bypassMate p) := by
  have joins : ¬(s.fab.released || decide (6 ≤ p)) = true := by
    rw [dark, decide_eq_false (Nat.not_le.mpr six)]
    decide
  exact if_neg joins

theorem bypassTo_dark {s : State} {p : Nat} (outer : 6 ≤ p) : bypassTo s p = none :=
  if_pos (by rw [decide_eq_true outer, Bool.or_true])

theorem bypassMate_pairs : ∀ p < 6, bypassMate p < 6 ∧ bypassMate (bypassMate p) = p ∧ bypassMate p / 2 = p / 2
    ∧ bypassMate p ≠ p := by decide

/-! ### Port maps (10 R235) -/

/-- A port that a map changes goes down, with what its transceiver holds. -/
def portLost (t : State) (p : Nat) : State :=
  portDown (t.setFibre (fibreOf t p) { stopFibre (t.fibre (fibreOf t p)) 0 with replay := [] }) p

/-- Some map is not legal, or a port that would move has a circuit. -/
def mapsRefused (s : State) : Bool :=
  (List.range 8).any (fun n => !portMapLegal (writtenMap s n)) || (mapChanges s).any (circuitOn s)

/-- The state with the maps of another as they are written there, put in force. -/
def remapped (s t : State) : State :=
  { t with portMaps := (List.range 8).foldl (fun m n => mput portMapReset m n (writtenMap s n)) t.portMaps }

section
variable {s : State}

theorem portMapApply_refused (refused : mapsRefused s = true) : portMapApply s = sticky s 0xA0A0 9 0 := if_pos refused

theorem portMapApply_inForce (legal : mapsRefused s = false) :
    portMapApply s = remapped s ((mapChanges s).foldl portLost s) := if_neg (ne_true_of_eq_false legal)

/-- A list of writes leaves at each of its keys the value written there. -/
theorem mget_foldl_mput {α : Type} [DecidableEq α] {d : α} (value : Nat → α) (l : List Nat) {m : SMap α}
    (wf : mwf d 0 m = true) (i : Nat) (written : i ∈ l ∨ mget d m i = value i) :
    mget d (l.foldl (fun m n => mput d m n (value n)) m) i = value i := by
  induction l generalizing m with
  | nil => exact written.resolve_left List.not_mem_nil
  | cons n r ih =>
    refine ih (mwf_mput _ wf (Nat.zero_le _)) ?_
    rcases written with listed | before
    · rcases List.mem_cons.mp listed with rfl | later
      · exact .inr (mget_mput_same _ wf)
      · exact .inl later
    · right
      by_cases here : i = n
      · rw [here, mget_mput_same _ wf]
      · rw [mget_mput_other _ wf here, before]

theorem remapped_portMap {t : State} (wf : mwf portMapReset 0 t.portMaps = true) {n : Nat} (ribbon : n < 8) :
    (remapped s t).portMap n = writtenMap s n :=
  mget_foldl_mput (writtenMap s) (List.range 8) wf n (.inl (List.mem_range.mpr ribbon))

theorem remapped_port (t : State) (p : Nat) : (remapped s t).port p = t.port p := rfl

theorem remapped_eq {t : State} (same : offLinks t = offLinks s) : remapped s t = { s with
    fibres := (remapped s t).fibres, portMaps := (remapped s t).portMaps,
    fab := { s.fab with ports := (remapped s t).fab.ports, held := (remapped s t).fab.held } } :=
  congrArg (fun u : State => { u with portMaps := (remapped s t).portMaps }) (offLinks_eq same)

theorem portLost_ports {p : Nat} (wf : mwf PortSt.init 0 s.fab.ports = true) :
    mwf PortSt.init 0 (portLost s p).fab.ports = true := portDown_ports wf

/-- Every port of a list is down once each has been lost, and so is one that was down before. -/
theorem foldl_portLost_down {p : Nat} (l : List Nat) (wf : mwf PortSt.init 0 s.fab.ports = true)
    (down : p ∈ l ∨ (s.port p).state = 0) : ((l.foldl portLost s).port p).state = 0 := by
  induction l generalizing s with
  | nil => exact down.resolve_left List.not_mem_nil
  | cons q r ih =>
    refine ih (portLost_ports wf) ?_
    by_cases here : p = q
    · rw [here]
      exact .inr (portDown_state wf)
    · refine down.imp (fun listed => (List.mem_cons.mp listed).resolve_left here) fun before => ?_
      exact (congrArg PortSt.state (portDown_other wf here)).trans before

theorem portLost_portMaps (t : State) (p : Nat) : (portLost t p).portMaps = t.portMaps := rfl

theorem foldl_portLost_portMaps (l : List Nat) (s : State) : (l.foldl portLost s).portMaps = s.portMaps :=
  foldl_keeps State.portMaps portLost_portMaps l s

theorem foldl_portLost_offLinks (l : List Nat) (s : State) : offLinks (l.foldl portLost s) = offLinks s :=
  foldl_keeps offLinks (fun _ _ => by simp [portLost]) l s

end

/-- Settles O35: a training by how it starts, by the time it takes and by what its peer answers; the bypass by its pairs; a
port map by whether it is legal. -/
theorem trainingAndPortMaps : Obligations.TrainingAndPortMaps := by
  unfold Obligations.TrainingAndPortMaps
  refine ⟨fun f s canonical => ⟨fun may => ?_, fun on training late => ?_⟩,
    fun f r s canonical may training time => ?_, fun s p dark => ⟨fun six => ?_, bypassTo_dark⟩, fun s => ?_⟩
  · refine ⟨portTrains (s.setFibre f.val (inTraining s f.val)) (portOf s f.val),
      congrArg Host.Outcome.next (trainingStart_starts may), ?_⟩
    have fibres := portTrains_fibres (s.setFibre f.val (inTraining s f.val)) (portOf s f.val)
    rw [fibre_congr fibres, fibre_setFibre canonical.fibres]
    refine ⟨rfl, rfl, rfl, rfl, rfl, fun p serves => ?_, fun g other => ?_, offLinks_eq ?_⟩
    · rw [serves]
      exact portTrains_state canonical.ports
    · rw [fibre_congr fibres, fibre_setFibre_other canonical.fibres other]
    · rw [offLinks_portTrains, offLinks_setFibre]
  · intro x t
    have timeout := trainingTimeout_late (f := f) ⟨on, training, late⟩
    have fails (third : 3 ≤ x.fails + 1) : ¬x.fails + 1 < 3 := Nat.not_lt.mpr third
    exact ⟨fun few => congrArg Host.Outcome.next (timeout.trans (if_pos few)),
      fun third portless => congrArg Host.Outcome.next
        (timeout.trans ((if_neg (fails third)).trans (congrArg (portUntrained _) portless))),
      fun p third serves => congrArg Host.Outcome.next
        (timeout.trans ((if_neg (fails third)).trans (congrArg (portUntrained _) serves)))⟩
  · intro passed txm rxm fits
    have ends : TrainingEnds s f.val := ⟨may, training, time⟩
    have byPort (short : r.loopNs.toNat ≤ 8000) : trainingDone f r s = trainedPort s f.val r (portOf s f.val) :=
      (trainingDone_ends ends).trans (if_neg (Nat.not_lt.mpr short))
    refine ⟨fun long => congrArg Host.Outcome.next (trainingDone_long ends long), fun short every => ?_,
      fun short p serves unfit => ?_⟩
    · cases port : portOf s f.val with
      | none =>
        obtain ⟨⟨txMap, rxMap, nextSeq, acked, expect, txCw, rxCw, origin, rxOrigin, far, fails⟩, others, trained⟩ :=
          linkUp_ready (f := f.val) (r := r) canonical (readyToLink_loopNoted s f.val r)
        exact ⟨_, congrArg Host.Outcome.next ((byPort short).trans (congrArg (trainedPort s f.val r) port)),
          txMap, rxMap, nextSeq, acked, expect, txCw, rxCw, origin, rxOrigin, far, fails, others, trained, fun p serves => nomatch serves⟩
      | some p =>
        have small : p < 65 := Nat.lt_trans (portOf_lt port f.isLt) (by decide)
        obtain ⟨⟨txMap, rxMap, nextSeq, acked, expect, txCw, rxCw, origin, rxOrigin, far, fails⟩, others, trained⟩ :=
          linkUp_ready (f := f.val) (r := r) canonical (readyToLink_portBooked small)
        refine ⟨_, congrArg Host.Outcome.next ((byPort short).trans ((congrArg (trainedPort s f.val r) port).trans
          (trainedPort_fits (every p port)))), txMap, rxMap, nextSeq, acked, expect, txCw, rxCw, origin, rxOrigin, far, fails,
          others, trained, fun q serves => ?_⟩
        cases serves
        exact linkUp_portBooked canonical f.isLt port
    · obtain ⟨t, same, down⟩ := trainedPort_unfit (f := f) unfit
      exact ⟨_, congrArg Host.Outcome.next ((byPort short).trans ((congrArg (trainedPort s f.val r) serves).trans down)),
        notUp_coordTaken canonical f.isLt serves same⟩
  · obtain ⟨below, back, pair, apart⟩ := bypassMate_pairs p six
    exact ⟨bypassMate p, bypassTo_joined dark six, (bypassTo_joined dark below).trans (congrArg some back), pair, apart⟩
  · intro bad t
    refine ⟨portMapApply_refused, fun canonical legal => ?_⟩
    have maps := foldl_portLost_portMaps (mapChanges s) s
    have applied : t = remapped s ((mapChanges s).foldl portLost s) := portMapApply_inForce legal
    rw [applied]
    exact ⟨fun n ribbon => remapped_portMap (by rw [maps]; exact canonical.portMaps) ribbon,
      fun p changes => (congrArg PortSt.state (remapped_port _ p)).trans
        (foldl_portLost_down _ canonical.ports (.inl changes)),
      remapped_eq (foldl_portLost_offLinks (mapChanges s) s)⟩

end Sys2Proof.Machine
end

section
/-! What lane-control traffic leaves of the links (10 R246, R247): a message that is sent, a change that is proposed and the
next wish that is settled change only what their transceiver has to say, and a bank that settles no transceiver. -/

namespace Sys2Proof.Machine

/-! ### A map written twice at one key -/

section
variable {α : Type} [DecidableEq α] {d : α} {m : SMap α} {lo i : Nat}

/-- A key below all that are listed is written in front. -/
theorem mput_of_lt (v : α) (wf : mwf d lo m = true) (low : i < lo) :
    mput d m i v = if v = d then m else (i, v) :: m := by
  cases m with
  | nil => rfl
  | cons e r =>
    obtain ⟨k, w⟩ := e
    simp only [mwf, Bool.and_eq_true, decide_eq_true_eq] at wf
    have late : ¬k < i := by omega
    have apart : ¬k = i := by omega
    simp only [mput, if_neg late, if_neg apart]

/-- Of two writes of one key the later one stands. -/
theorem mput_mput (v w : α) (wf : mwf d lo m = true) : mput d (mput d m i v) i w = mput d m i w := by
  induction m generalizing lo with
  | nil => by_cases gone : v = d <;> simp [mput, gone]
  | cons e r ih =>
    obtain ⟨k, u⟩ := e
    simp only [mwf, Bool.and_eq_true, decide_eq_true_eq] at wf
    obtain ⟨-, rest⟩ := wf
    rcases Nat.lt_trichotomy k i with before | rfl | after
    · simp only [mput, if_pos before, ih rest]
    · by_cases gone : v = d
      · simp [mput, gone, mput_of_lt w rest (Nat.lt_succ_self k)]
      · simp [mput, gone]
    · have late : ¬k < i := by omega
      have apart : ¬k = i := by omega
      by_cases gone : v = d <;> simp [mput, late, apart, gone]

end

section
variable {s : State} {f : Nat}

theorem setFibre_setFibre (wf : mwf Fibre.init 0 s.fibres = true) (x y : Fibre) :
    (s.setFibre f x).setFibre f y = s.setFibre f y :=
  congrArg (fun m => { s with fibres := m }) (mput_mput x y wf)

end

/-! ### What a transceiver has to say -/

/-- A transceiver but for its pending change, its wishes, and the messages and flits that leave. -/
def steady (x : Fibre) : Fibre :=
  { x with txChange := none, wants := [], laneOut := [], nextSeq := 0, replay := [], ackAt := 0 }

/-- What does not show in `steady` is the same where `steady` is. -/
theorem view_of_steady {β : Type} {x y : Fibre} (view : Fibre → β) (blind : ∀ z, view (steady z) = view z)
    (same : steady x = steady y) : view x = view y :=
  (blind x).symm.trans ((congrArg view same).trans (blind y))

/-- From `s` to `t` only what transceiver `f` has to say has changed, of the transceivers and the dictionary. -/
structure TalksOnly (s : State) (f : Nat) (t : State) : Prop where
  own : steady (t.fibre f) = steady (s.fibre f)
  others : ∀ g, g ≠ f → t.fibre g = s.fibre g
  fibres : mwf Fibre.init 0 t.fibres = true
  dict : t.dict = s.dict

section
variable {s t u : State} {f : Nat} {x : Fibre}

theorem TalksOnly.refl (wf : mwf Fibre.init 0 s.fibres = true) : TalksOnly s f s := ⟨rfl, fun _ _ => rfl, wf, rfl⟩

theorem TalksOnly.trans (first : TalksOnly s f t) (second : TalksOnly t f u) : TalksOnly s f u :=
  ⟨second.own.trans first.own, fun g other => (second.others g other).trans (first.others g other), second.fibres,
    second.dict.trans first.dict⟩

theorem talksOnly_setFibre (wf : mwf Fibre.init 0 s.fibres = true) (same : steady x = steady (s.fibre f)) :
    TalksOnly s f (s.setFibre f x) :=
  ⟨by rw [fibre_setFibre wf, same], fun _ other => fibre_setFibre_other wf other x, fibres_setFibre wf x, rfl⟩

/-- What has changed since its own transceiver was written, where the write itself said nothing else. -/
theorem TalksOnly.after_setFibre (then_ : TalksOnly (s.setFibre f x) f t) (wf : mwf Fibre.init 0 s.fibres = true)
    (same : steady x = steady (s.fibre f)) : TalksOnly s f t := (talksOnly_setFibre wf same).trans then_

theorem NumberedLeaves.talksOnly (leaves : NumberedLeaves s f t) : TalksOnly s f t := by
  obtain ⟨⟨out, held, at_, fibre⟩, others, fibres, -, dict⟩ := leaves
  exact ⟨by rw [fibre]; rfl, others, fibres, dict⟩

/-- The messages that wait leave in one flit, or stay where the replay buffer is full. -/
theorem lanePump_talksOnly (wf : mwf Fibre.init 0 s.fibres = true) : TalksOnly s f (lanePump f 1 s) := by
  simp only [lanePump]
  split
  · exact .refl wf
  · exact (leaveFlit_numbered (fibres_setFibre wf _) (.inr rfl) _ _).talksOnly.after_setFibre wf rfl

theorem sendLane_talksOnly (wf : mwf Fibre.init 0 s.fibres = true) (m : LaneMsg) : TalksOnly s f (sendLane s f m) :=
  (lanePump_talksOnly (fibres_setFibre wf _)).after_setFibre wf rfl

theorem propose_talksOnly (wf : mwf Fibre.init 0 s.fibres = true) (w : Want) : TalksOnly s f (propose s f w) := by
  unfold propose
  extract_lets x t m c
  split
  · exact .refl wf
  · split
    · split
      · exact .refl wf
      · exact talksOnly_setFibre wf rfl
    · exact (sendLane_talksOnly (fibres_setFibre wf _) _).after_setFibre wf rfl

theorem settleTx_talksOnly (wf : mwf Fibre.init 0 s.fibres = true) : TalksOnly s f (settleTx s f) := by
  unfold settleTx
  extract_lets x
  split
  · exact .refl wf
  · split
    · exact (propose_talksOnly (fibres_setFibre wf _) _).after_setFibre wf rfl
    · split
      · split
        · exact propose_talksOnly wf _
        · exact .refl wf
      · exact .refl wf

end

/-! ### A bank that settles (10 R260) -/

/-- The pairs that a λ has left, with the λ a free spare of theirs again. -/
def pairsRelocked (s : State) (b l : Nat) : State :=
  ((s.bank b).left.filter (fun e => e.2 == l)).foldl (fun t e =>
    let p := mget Pair.init t.pairs e.1
    if p.lanes.spares.contains (lamField l) || p.lanes.map.contains (some (lamField l)) then t
    else { t with
      pairs := mput Pair.init t.pairs e.1 { p with lanes := { p.lanes with spares := p.lanes.spares ++ [lamField l] } } }) s

section
variable (s : State) (b l : Nat)

theorem relockPairs_eq : relockPairs s b l = (pairsRelocked s b l).setBank b
    { (pairsRelocked s b l).bank b with left := ((pairsRelocked s b l).bank b).left.filter (fun e => e.2 != l) } := rfl

theorem pairsRelocked_keeps {β : Type} (view : State → β) (pairs : ∀ t m, view { t with pairs := m } = view t) :
    view (pairsRelocked s b l) = view s := by
  refine foldl_keeps view (fun t e => ?_) _ s
  dsimp only
  split
  · rfl
  · exact pairs ..

@[simp] theorem relockPairs_fibres : (relockPairs s b l).fibres = s.fibres :=
  pairsRelocked_keeps s b l State.fibres fun _ _ => rfl

@[simp] theorem bankSettle_fibres : (bankSettle s b l).fibres = s.fibres := by
  unfold bankSettle
  extract_lets src t
  split
  · rfl
  · split
    · rfl
    · split
      · rfl
      · split
        · exact relockPairs_fibres ..
        · rfl

end

end Sys2Proof.Machine
end

section
/-! Lane-map changes (10 R246 to R250): each lane-control message, the λ that a receiver loses, the change that its codeword
puts in force, and O36. -/

namespace Sys2Proof.Machine

/-! ### The maps of a direction that switches (10 R246, R249, R250) -/

/-- The maps of the two directions. -/
def linkMaps (x : Fibre) : List (BitVec 5) × List (BitVec 5) := (x.txMap, x.rxMap)

/-- A direction has switched to `m`, and is judged by its lanes; `x` is its transceiver as the switch left it. -/
def switched (s : State) (f : Nat) (x : Fibre) (c : Change) (before : Nat) (m : List (BitVec 5)) : State :=
  let t := bump (s.setFibre f x) 0x80A3 (f + 1) 1
  judgeLanes (if c.isLost || c.reason == 2 then sticky t 0xA0A0 1 f else t) f before m

/-- A transceiver whose transmit, or receive, direction has switched. -/
def txSwitched (x : Fibre) (c : Change) : Fibre :=
  { x with txMap := mergeMap x.txMap c.map, txCw := c.cw,
           txAt := x.txAt + (c.cw.toNat - x.txCw.toNat) * codewordU x.txMap }
def rxSwitched (x : Fibre) (c : Change) : Fibre :=
  { x with rxMap := mergeMap x.rxMap c.map, rxCw := c.cw,
           rxAt := x.rxAt + (c.cw.toNat - x.rxCw.toNat) * codewordU x.rxMap }

section
variable {s : State} {f before k : Nat} {x : Fibre} {c : Change} {m cur new : List (BitVec 5)}

theorem codeAt_lt (m : List (BitVec 5)) (k : Nat) : codeAt m k < 32 := (m.getD k 19).isLt

/-- A λ that the new map leaves free or calibrating keeps its state if it carries no lane; any other takes the new code. -/
theorem codeAt_mergeMap (lam : k < 18) : codeAt (mergeMap cur new) k =
    if 16 ≤ codeAt cur k ∧ (codeAt new k = 16 ∨ codeAt new k = 17) then codeAt cur k else codeAt new k := by
  have small : (if 16 ≤ codeAt cur k ∧ (codeAt new k = 16 ∨ codeAt new k = 17) then codeAt cur k else codeAt new k) < 32 := by
    split <;> exact codeAt_lt _ _
  have entry : (mergeMap cur new).getD k 19 = BitVec.ofNat 5
      (if 16 ≤ codeAt cur k ∧ (codeAt new k = 16 ∨ codeAt new k = 17) then codeAt cur k else codeAt new k) := by
    simp [mergeMap, lam]
  rw [codeAt, entry, BitVec.toNat_ofNat, Nat.mod_eq_of_lt small]

theorem switched_before (wf : mwf Fibre.init 0 s.fibres = true) : ∃ t, switched s f x c before m = judgeLanes t f before m
    ∧ mwf Fibre.init 0 t.fibres = true ∧ t.fibre f = x := by
  have same : (if c.isLost || c.reason == 2 then sticky (bump (s.setFibre f x) 0x80A3 (f + 1) 1) 0xA0A0 1 f
      else bump (s.setFibre f x) 0x80A3 (f + 1) 1).fibres = (s.setFibre f x).fibres := by
    split
    · exact fibres_of_unflagged (unflagged_sticky ..)
    · rfl
  exact ⟨_, rfl, by rw [same]; exact fibres_setFibre wf x, (fibre_congr same f).trans (fibre_setFibre wf x)⟩

theorem switched_fibres (wf : mwf Fibre.init 0 s.fibres = true) :
    mwf Fibre.init 0 (switched s f x c before m).fibres = true := by
  obtain ⟨t, judged, wft, -⟩ := switched_before (f := f) (x := x) (c := c) (before := before) (m := m) wf
  rw [judged]
  exact judgeLanes_fibres wft

/-- The judgement may stop the transceiver, and leaves its maps. -/
theorem linkMaps_switched (wf : mwf Fibre.init 0 s.fibres = true) :
    linkMaps ((switched s f x c before m).fibre f) = linkMaps x := by
  obtain ⟨t, judged, wft, own⟩ := switched_before (f := f) (x := x) (c := c) (before := before) (m := m) wf
  rw [judged]
  calc linkMaps ((judgeLanes t f before m).fibre f)
    _ = linkMaps (stopFibre ((judgeLanes t f before m).fibre f) 0) := rfl
    _ = linkMaps (stopFibre (t.fibre f) 0) := by rw [judgeLanes_fibre wft]
    _ = linkMaps x := by rw [own]; rfl

theorem linkMaps_applyRx (wf : mwf Fibre.init 0 s.fibres = true) (c : Change) : linkMaps ((applyRx s f c).fibre f) =
    ((s.fibre f).txMap, mergeMap (s.fibre f).rxMap c.map) :=
  linkMaps_switched (x := rxSwitched (s.fibre f) c) (c := c) wf

theorem linkMaps_applyTx (wf : mwf Fibre.init 0 s.fibres = true) (c : Change) : linkMaps ((applyTx s f c).fibre f) =
    (mergeMap (s.fibre f).txMap c.map, (s.fibre f).rxMap) := by
  let switch := switched s f (txSwitched (s.fibre f) c) c (activeLanes (s.fibre f).txMap) (mergeMap (s.fibre f).txMap c.map)
  let settled := (List.range 18).foldl (fun t l => bankSettle t (bankOf (f / 7)) l) switch
  have banks : settled.fibres = switch.fibres := foldl_keeps State.fibres (fun t l => bankSettle_fibres ..) _ _
  have talks : TalksOnly settled f (settleTx settled f) := settleTx_talksOnly (by rw [banks]; exact switched_fibres wf)
  calc linkMaps ((settleTx settled f).fibre f)
    _ = linkMaps (settled.fibre f) := view_of_steady linkMaps (fun _ => rfl) talks.own
    _ = linkMaps (switch.fibre f) := by rw [fibre_congr banks]
    _ = _ := linkMaps_switched wf

end

/-! ### The message at the front (10 R240, R246) -/

/-- The transceiver that has taken its oldest message. -/
def laneTaken (s : State) (f : Nat) (rest : List LaneMsg) : Fibre := { s.fibre f with laneIn := rest }

/-- A trained transceiver that runs holds `m` as its oldest lane-control message. -/
structure LaneOldest (s : State) (f : Nat) (m : LaneMsg) (rest : List LaneMsg) : Prop where
  wf : mwf Fibre.init 0 s.fibres = true
  up : fibreUp s f = true
  held : (s.fibre f).laneIn = m :: rest

section
variable {s : State} {f : Nat} {m m2 : LaneMsg} {rest : List LaneMsg} {op : Nat} {act : State → State}

theorem LaneOldest.fibre (h : LaneOldest s f m rest) :
    (s.setFibre f (laneTaken s f rest)).fibre f = laneTaken s f rest := fibre_setFibre h.wf _

/-- Writing it again after it has taken the message is writing it once. -/
theorem LaneOldest.setFibre (h : LaneOldest s f m rest) (x : Fibre) :
    (s.setFibre f (laneTaken s f rest)).setFibre f x = s.setFibre f x := setFibre_setFibre h.wf _ x

theorem onLane_oldest (h : LaneOldest s f m rest) (is : m.op.toNat = op) :
    onLane s f op m act = act (s.setFibre f (laneTaken s f rest)) := by
  simp only [onLane, h.up, is, takeLane, h.held, laneTaken, bne_self_eq_false, Bool.not_true, Bool.or_self,
    Bool.false_eq_true, if_false, if_true]

/-- A message that is not the oldest held does nothing. -/
theorem onLane_younger (h : LaneOldest s f m rest) (other : m2 ≠ m) : onLane s f op m2 act = s := by
  simp [onLane, takeLane, h.held, other.symm]

end

/-! ### Each message (10 Table 10.6) -/

section
variable {s : State} {f : Xcvr} {m : LaneMsg} {rest : List LaneMsg} (h : LaneOldest s f.val m rest)
include h

/-- CHANGE_REQ is agreed to where no change is held. -/
theorem changeReq_agreed (is : m.op = 1) (free : heldTick (laneTaken s f.val rest) = none) : changeReq f m s =
    sendLane (s.setFibre f.val (laneTaken s f.val rest)) f.val (laneMsg 0x02 m.reason.toNat m.tick 0 m.map) := by
  rw [changeReq, onLane_oldest h (by rw [is]; rfl)]
  simp only [h.fibre, free, ite_self]

/-- It waits for one CHANGE_LEAD after the changes that are held. -/
theorem changeReq_later (is : m.op = 1) {latest : Word} (holds : heldTick (laneTaken s f.val rest) = some latest) :
    changeReq f m s =
      let t := tickUp (latest + BitVec.ofNat 64 (changeLead s))
      sendLane (s.setFibre f.val (laneTaken s f.val rest)) f.val
        (laneMsg 0x02 m.reason.toNat (if m.tick ≤ t then t else m.tick) 0 m.map) := by
  rw [changeReq, onLane_oldest h (by rw [is]; rfl)]
  simp only [h.fibre, holds]
  rfl

/-- CHANGE_ACK fixes the tick and the codeword of the change that was proposed. -/
theorem changeAck_commits (is : m.op = 2) {c : Change} (proposed : (s.fibre f.val).txChange = some c)
    (open_ : c.committed = false) : changeAck f m s =
      let x := laneTaken s f.val rest
      let t := if x.exchanged && decide (c.tick ≤ m.tick) then m.tick else c.tick
      let cw := BitVec.ofNat 64 (firstCodeword s x t)
      sendLane (s.setFibre f.val { x with txChange := some { c with tick := t, cw := cw, committed := true } }) f.val
        (laneMsg 0x03 c.reason.toNat t cw c.map) := by
  have pending : (laneTaken s f.val rest).txChange = some c := proposed
  rw [changeAck, onLane_oldest h (by rw [is]; rfl)]
  simp only [h.fibre, pending, open_, h.setFibre]
  rfl

/-- COMMIT schedules its map for its codeword, or puts it in force where the codeword has passed. -/
theorem commitMsg_next (is : m.op = 3) : commitMsg f m s =
    if m.cw.toNat ≤ rxIndex s (laneTaken s f.val rest) then
      applyRx (s.setFibre f.val (laneTaken s f.val rest)) f.val (msgChange m false)
    else s.setFibre f.val { laneTaken s f.val rest with rxChange := some (msgChange m false) } := by
  rw [commitMsg, onLane_oldest h (by rw [is]; rfl)]
  simp only [h.fibre, h.setFibre]
  rfl

theorem laneFault_proposes (is : m.op = 4) : laneFault f m s =
    ((lamsIn m.map 18).filter (fun k => decide (codeAt (s.fibre f.val).txMap k ≤ 17))).foldl
      (fun t k => propose t f.val { lam := k, code := 19, reason := 2, tick := none, lead := none })
      (s.setFibre f.val (laneTaken s f.val rest)) := by
  rw [laneFault, onLane_oldest h (by rw [is]; rfl)]
  simp only [h.fibre]
  rfl

theorem calSched_origin (is : m.op = 6) :
    calSched f m s = s.setFibre f.val { laneTaken s f.val rest with rxOrigin := m.tick } := by
  rw [calSched, onLane_oldest h (by rw [is]; rfl)]
  simp only [h.fibre, h.setFibre]

end

/-- A LOST whose transceiver is `y` once its own pending change has been kept or dropped: in force, or scheduled. -/
def lostTaken (s : State) (f : Nat) (m : LaneMsg) (y : Fibre) : State :=
  if m.cw.toNat ≤ txIndex s y then applyTx (s.setFibre f y) f (msgChange m true)
  else s.setFibre f { y with txLost := y.txLost ++ [msgChange m true] }

section
variable {s : State} {f : Xcvr} {m : LaneMsg} {rest : List LaneMsg} (h : LaneOldest s f.val m rest)
include h

/-- A pending change that is not committed for a codeword before LOST's is dropped and wished for again. -/
theorem lostMsg_drops (is : m.op = 5) {d : Change} (pending : (s.fibre f.val).txChange = some d)
    (later : d.committed = false ∨ m.cw < d.cw) : lostMsg f m s =
      lostTaken s f.val m { laneTaken s f.val rest with
        txChange := none
        wants := d.want.toList.map (fun w => { w with tick := none }) ++ (s.fibre f.val).wants } := by
  have drops : (!(d.committed && decide (d.cw ≤ m.cw))) = true := by
    rcases later with open_ | after
    · rw [open_]
      rfl
    · rw [decide_eq_false (BitVec.not_le.mpr after), Bool.and_false]
      rfl
  have held : (laneTaken s f.val rest).txChange = some d := pending
  rw [lostMsg, onLane_oldest h (by rw [is]; rfl)]
  simp only [h.fibre, held, drops, if_true, h.setFibre]
  rfl

/-- One that is committed for LOST's codeword or an earlier one stands. -/
theorem lostMsg_keeps (is : m.op = 5)
    (kept : ∀ d, (s.fibre f.val).txChange = some d → d.committed = true ∧ d.cw ≤ m.cw) :
    lostMsg f m s = lostTaken s f.val m (laneTaken s f.val rest) := by
  rw [lostMsg, onLane_oldest h (by rw [is]; rfl)]
  cases pending : (s.fibre f.val).txChange with
  | none =>
    have held : (laneTaken s f.val rest).txChange = none := pending
    simp only [h.fibre, held, Bool.false_eq_true, if_false, h.setFibre]
    rw [lostTaken, ← held]
    rfl
  | some d =>
    obtain ⟨committed, early⟩ := kept d pending
    have held : (laneTaken s f.val rest).txChange = some d := pending
    have stands : (!(d.committed && decide (d.cw ≤ m.cw))) = false := by rw [committed, decide_eq_true early]; rfl
    simp only [h.fibre, held, stands, Bool.false_eq_true, if_false, h.setFibre]
    rw [lostTaken, ← held]
    rfl

end

/-! ### The λ that a receiver loses, and its ratios (10 R248, R249) -/

section
variable {s : State} {f : Nat} {l : Nat}

/-- The codeword of a LOST, 4,096 ahead. -/
def lostAt (s : State) (f : Nat) : Word := BitVec.ofNat 64 (rxIndex s (s.fibre f) + 4096)

/-- The code that a λ will have then. -/
def plannedCode (s : State) (f l : Nat) : Nat := codeAt (rxPlanned (s.fibre f) (lostAt s f)) l

theorem rxLose_active (up : fibreUp s f = true) (active : plannedCode s f l < 16) : rxLose s f l =
    let v := vacate (s.fibre f).rxCal (rxPlanned (s.fibre f) (lostAt s f)) l 19
    let c : Change :=
      { want := none, reason := 2, tick := now s, cw := lostAt s f, map := v, committed := true, isLost := true }
    sendLane (s.setFibre f { s.fibre f with
      rxChange := (s.fibre f).rxChange.filter (fun d => decide (d.cw ≤ lostAt s f))
      rxLost := (s.fibre f).rxLost ++ [c] }) f (laneMsg 0x05 2 (now s) (lostAt s f) v) := by
  have runs : ¬(!fibreUp s f) = true := by simp [up]
  have taken : ¬plannedCode s f l = 16 := by omega
  have inUse : ¬16 < plannedCode s f l := by omega
  exact (if_neg runs).trans ((if_neg taken).trans (if_neg inUse))

theorem rxLose_free (up : fibreUp s f = true) (free : plannedCode s f l = 16) : rxLose s f l = askOut s f l := by
  have runs : ¬(!fibreUp s f) = true := by simp [up]
  exact (if_neg runs).trans (if_pos free)

theorem rxLose_out (up : fibreUp s f = true) (out : 16 < plannedCode s f l) : rxLose s f l = s := by
  have runs : ¬(!fibreUp s f) = true := by simp [up]
  have taken : ¬plannedCode s f l = 16 := by omega
  exact (if_neg runs).trans ((if_neg taken).trans (if_pos out))

/-- With nothing pending a receiver holds its map. -/
theorem rxPlanned_idle {x : Fibre} (cw : Word) (lost : x.rxLost = []) (change : x.rxChange = none) :
    rxPlanned x cw = x.rxMap := by
  simp only [rxPlanned, lost, change, List.getLast?_nil]

/-- Its last LOST decides. -/
theorem rxPlanned_lost {x : Fibre} (cw : Word) {c : Change} (last : x.rxLost.getLast? = some c) :
    rxPlanned x cw = c.map := by
  simp only [rxPlanned, last]

end

/-- A receiver that has entered a ratio and a margin. -/
def ratioNoted (s : State) (f l : Nat) (ber : BitVec 32) (margin : Int) : State :=
  s.setFibre f { s.fibre f with
    bers := mput noBer (s.fibre f).bers l ber.toNat, margins := mput noMargin (s.fibre f).margins l margin }

section
variable {s : State} {f : Xcvr} {l : Lam} {ber : BitVec 32} {margin : Int}

theorem laneBerCheck_within (up : fibreUp s f.val = true) (within : f32Le ber.toNat (dnum s 0x20A0 2) = true) :
    laneBerCheck f l ber margin s = ratioNoted s f.val l.val ber margin := by
  have runs : ¬(!fibreUp s f.val) = true := by simp [up]
  exact (if_neg runs).trans (if_pos (by rw [within, Bool.true_or]))

theorem laneBerCheck_above (wf : mwf Fibre.init 0 s.fibres = true) (up : fibreUp s f.val = true)
    (above : f32Le ber.toNat (dnum s 0x20A0 2) = false) (inUse : codeAt (s.fibre f.val).rxMap l.val ≤ 16) :
    laneBerCheck f l ber margin s = sendLane (ratioNoted s f.val l.val ber margin) f.val
      (laneMsg 0x04 2 (now s) 0 (setCode (s.fibre f.val).rxMap l.val 18)) := by
  have runs : ¬(!fibreUp s f.val) = true := by simp [up]
  have asks : ¬(f32Le ber.toNat (dnum s 0x20A0 2) || decide (16 < codeAt (s.fibre f.val).rxMap l.val)) = true := by
    rw [above, decide_eq_false (Nat.not_lt.mpr inUse)]
    decide
  have own : ((ratioNoted s f.val l.val ber margin).fibre f.val).rxMap = (s.fibre f.val).rxMap := by
    rw [ratioNoted, fibre_setFibre wf]
  calc laneBerCheck f l ber margin s
    _ = askOut (ratioNoted s f.val l.val ber margin) f.val l.val := (if_neg runs).trans (if_neg asks)
    _ = _ := by rw [askOut, own]; rfl

end

/-! ### The next change of a direction (10 R246, R249) -/

section
variable {s : State} {f : Xcvr} {c l : Change} {rest lost : List Change} {o : Option Change}

/-- A committed change applies before the LOSTs of later codewords. -/
theorem nextChange_committed (committed : c.committed = true) (first : ∀ l, lost.head? = some l → c.cw ≤ l.cw) :
    nextChange (some c) lost = some c := by
  have kept : (some c).filter (·.committed) = some c := Option.filter_eq_some_iff.mpr ⟨rfl, committed⟩
  cases lost with
  | nil => simp only [nextChange, kept]
  | cons l r => simp only [nextChange, kept, if_pos (first l rfl)]

theorem nextChange_lost : nextChange none (l :: rest) = some l := rfl

theorem laneMapApply_tx (up : fibreUp s f.val = true)
    (next : nextChange (s.fibre f.val).txChange (s.fibre f.val).txLost = some c) : laneMapApply f true s =
      if c.cw.toNat ≤ txIndex s (s.fibre f.val) then applyTx (s.setFibre f.val (dropTx (s.fibre f.val) c)) f.val c else s := by
  simp only [laneMapApply, up, Bool.not_true, Bool.false_eq_true, if_false, if_true, next]

theorem laneMapApply_rx (up : fibreUp s f.val = true)
    (next : nextChange (s.fibre f.val).rxChange (s.fibre f.val).rxLost = some c) : laneMapApply f false s =
      if c.cw.toNat ≤ rxIndex s (s.fibre f.val) then applyRx (s.setFibre f.val (dropRx (s.fibre f.val) c)) f.val c else s := by
  simp only [laneMapApply, up, Bool.not_true, Bool.false_eq_true, if_false, next]

theorem dropTx_change (x : Fibre) (own : c.isLost = false) : dropTx x c = { x with txChange := none } := by
  simp only [dropTx, own, Bool.false_eq_true, if_false]

theorem dropRx_change (x : Fibre) (own : c.isLost = false) : dropRx x c = { x with rxChange := none } := by
  simp only [dropRx, own, Bool.false_eq_true, if_false]

theorem dropTx_lost {x : Fibre} (far : l.isLost = true) (waits : x.txLost = l :: rest) :
    dropTx x l = { x with txLost := rest } := by
  simp only [dropTx, far, if_true, waits, List.drop_one, List.tail_cons]

theorem dropRx_lost {x : Fibre} (far : l.isLost = true) (waits : x.rxLost = l :: rest) :
    dropRx x l = { x with rxLost := rest } := by
  simp only [dropRx, far, if_true, waits, List.drop_one, List.tail_cons]

end

/-- What waits for a codeword, or a tick, is done once it is reached, and not while it lies ahead. -/
theorem next_ahead_and_reached {due index : Nat} {r reached ahead : State} (acts : r = if due ≤ index then reached else ahead) :
    (index < due → (Host.Outcome.next r : Host.Outcome State Fault Refusal) = .next ahead)
    ∧ (due ≤ index → (Host.Outcome.next r : Host.Outcome State Fault Refusal) = .next reached) :=
  ⟨fun before => congrArg _ (acts.trans (if_neg (Nat.not_le.mpr before))), fun past => congrArg _ (acts.trans (if_pos past))⟩

/-- Settles O36: each message by its operation, a lost λ by the code it will have, a change by its codeword, and the lanes of
a map in force by `codeAt_mergeMap`. -/
theorem laneChangesAgreed : Obligations.LaneChangesAgreed := by
  unfold Obligations.LaneChangesAgreed
  intro f s up
  refine ⟨fun m rest canonical oldest => ?_, ?_, fun canonical c => ?_⟩
  · intro x u
    have h : LaneOldest s f.val m rest := ⟨canonical.fibres, up, oldest⟩
    refine ⟨fun is => ⟨fun free => congrArg Host.Outcome.next (changeReq_agreed h is free),
        fun latest holds => congrArg Host.Outcome.next (changeReq_later h is holds)⟩,
      fun is c pending open_ => congrArg Host.Outcome.next (changeAck_commits h is pending open_),
      fun is => next_ahead_and_reached (commitMsg_next h is),
      fun is => congrArg Host.Outcome.next (laneFault_proposes h is),
      fun is => ⟨fun d pending later => next_ahead_and_reached (lostMsg_drops h is pending later),
        fun kept => next_ahead_and_reached (lostMsg_keeps h is kept)⟩,
      fun is => congrArg Host.Outcome.next (calSched_origin h is),
      fun m2 other => ?_⟩
    have nothing (op : Nat) (act : State → State) :
        (Host.Outcome.next (onLane s f.val op m2 act) : Host.Outcome State Fault Refusal) = .next s :=
      congrArg _ (onLane_younger h other)
    exact ⟨nothing .., nothing .., nothing .., nothing .., nothing .., nothing ..⟩
  · intro x
    refine ⟨fun l => ⟨fun active => congrArg Host.Outcome.next (rxLose_active up active),
        fun free => congrArg Host.Outcome.next (rxLose_free up free),
        fun out => congrArg Host.Outcome.next (rxLose_out up out)⟩,
      fun cw => ⟨rxPlanned_idle cw, fun l last => rxPlanned_lost cw last⟩,
      fun l ber margin => ⟨fun within => congrArg Host.Outcome.next (laneBerCheck_within up within),
        fun above inUse canonical => congrArg Host.Outcome.next (laneBerCheck_above canonical.fibres up above inUse)⟩,
      fun c pending committed first own => ?_, fun c pending committed first own => ?_, fun l rest far => ⟨?_, ?_⟩⟩
    · have next : nextChange x.txChange x.txLost = some c := by rw [pending]; exact nextChange_committed committed first
      rw [← dropTx_change x own]
      exact (next_ahead_and_reached (laneMapApply_tx up next)).symm
    · have next : nextChange x.rxChange x.rxLost = some c := by rw [pending]; exact nextChange_committed committed first
      rw [← dropRx_change x own]
      exact (next_ahead_and_reached (laneMapApply_rx up next)).symm
    · intro waits idle
      have next : nextChange x.txChange x.txLost = some l := by rw [idle, waits]; exact nextChange_lost
      rw [← dropTx_lost far waits]
      exact (next_ahead_and_reached (laneMapApply_tx up next)).2
    · intro waits idle
      have next : nextChange x.rxChange x.rxLost = some l := by rw [idle, waits]; exact nextChange_lost
      rw [← dropRx_lost far waits]
      exact (next_ahead_and_reached (laneMapApply_rx up next)).2
  · obtain ⟨txTx, txRx⟩ := Prod.mk.inj (linkMaps_applyTx (f := f.val) canonical.fibres c)
    obtain ⟨rxTx, rxRx⟩ := Prod.mk.inj (linkMaps_applyRx (f := f.val) canonical.fibres c)
    rw [txTx, rxRx]
    refine ⟨fun k lam => ⟨⟨fun moves => ?_, fun idle stays => ?_⟩, fun active => ?_⟩, txRx, rxTx⟩
    · rw [codeAt_mergeMap lam, if_neg (by omega)]
    · rw [codeAt_mergeMap lam, if_pos ⟨idle, stays⟩]
    · rw [codeAt_mergeMap lam, if_neg (by omega)]

end Sys2Proof.Machine
end

section
/-! Calibration (10 R252 to R255, R257, R261): the change before a window, its start, its end and the pause of the rotation,
the ring controllers' model, O37 and O38. -/

namespace Sys2Proof.Machine

/-! ### The bit that a sticky event sets (15 R348) -/

/-- A key written with a value that is listed is found with it, on any list. -/
theorem mfind_mput_new {α : Type} [DecidableEq α] {d : α} (m : SMap α) (i : Nat) {v : α} (listed : v ≠ d) :
    mfind (mput d m i v) i = some v := by
  have value : (mfind (mput d m i v) i).getD d = v := mget_mput_new m i listed
  cases found : mfind (mput d m i v) i with
  | none =>
    rw [found] at value
    exact absurd value.symm listed
  | some w =>
    rw [found] at value
    exact congrArg some value

section
variable {s : State} {idx sub i k : Nat}

theorem dcell_dset {v : Nat} (listed : v ≠ dictAbsent) : dcell (dset s idx sub v) idx sub = v := by
  simp only [dcell, dset, mget, mfind_mput_new s.dict _ listed, Option.getD_some]

theorem dcell_bump_other (n : Nat) (other : dkey i k ≠ dkey idx sub) : dcell (bump s idx sub n) i k = dcell s i k := by
  have listed : (dcell s idx sub + n) % 2 ^ 64 ≠ dictAbsent :=
    Nat.ne_of_lt (Nat.lt_trans (Nat.mod_lt _ (by decide)) (by decide))
  simp only [bump, dset, dcell, mget] at listed ⊢
  rw [mfind_mput_other s.dict listed other]

theorem dcell_raiseVector (other : dkey i k ≠ dkey 0x80D0 4) (v : Nat) : dcell (raiseVector s v) i k = dcell s i k := by
  unfold raiseVector
  split
  · exact dcell_bump_other 1 other
  · rfl

theorem dcell_journal (other : dkey i k ≠ dkey 0xA0FF 3) (bit : Nat) : dcell (journal s idx sub bit) i k = dcell s i k := by
  unfold journal
  extract_lets m fresh used at_
  split
  · rfl
  · exact dcell_bump_other (idx := 0xA0FF) 1 other

/-- A bit that an event sets stands set, whether or not it stood so before. -/
theorem dbit_sticky {bit : Nat} (small : bit < 65) (counter : dkey idx sub ≠ dkey 0x80D0 4)
    (lost : dkey idx sub ≠ dkey 0xA0FF 3) : dbit (sticky s idx sub bit) idx sub bit = true := by
  unfold sticky
  split
  · assumption
  · have noted : dcell (raiseError (addDebt (journal (dputBit s idx sub bit true) idx sub bit) (debtOf idx sub))) idx sub
        = putBit (dcell s idx sub) bit true := by
      calc dcell (raiseError (addDebt (journal (dputBit s idx sub bit true) idx sub bit) (debtOf idx sub))) idx sub
        _ = dcell (addDebt (journal (dputBit s idx sub bit true) idx sub bit) (debtOf idx sub)) idx sub :=
          dcell_raiseVector counter _
        _ = dcell (dputBit s idx sub bit true) idx sub := dcell_journal lost bit
        _ = putBit (dcell s idx sub) bit true := dcell_dset (putBit_true_listed small)
    rw [dbit, noted, putBit_true_testBit]

end

/-! ### Before a window (10 R252, Table 10.9) -/

/-- A trained transceiver that runs and has exchanged tempo has no change pending, and its rotation goes on. -/
structure Rotates (s : State) (f : Nat) : Prop where
  up : fibreUp s f = true
  idle : txIdle (s.fibre f) = true
  exchanged : (s.fibre f).exchanged = true
  running : calPaused (s.fibre f).txMap = false

/-- The tick of the next window that has not opened. -/
def nextWindowTick (s : State) (f : Nat) : Nat :=
  windowTick f (s.fibre f) true
    (max (s.fibre f).txCal.window (match windowNow s f (s.fibre f) true with | some w => w + 1 | none => 0))

theorem txIdle_of_none {x : Fibre} (change : x.txChange = none) (lost : x.txLost = []) : txIdle x = true := by
  simp only [txIdle, change, lost, Option.isNone_none, List.isEmpty_nil, Bool.and_self]

/-- No change is proposed for the next window: something stands against it, or its tick is still far. -/
def holdsBack (s : State) (f : Nat) : Bool :=
  !fibreUp s f || !(s.fibre f).exchanged || calPaused (s.fibre f).txMap || !txIdle (s.fibre f)
    || decide (16 ≤ codeAt (s.fibre f).txMap (nextCal (s.fibre f).txCal))
    || decide ((now s).toNat + changeLead s < nextWindowTick s f)

section
variable {s : State} {f : Nat}

theorem holdsBack_rotates (h : Rotates s f) (active : codeAt (s.fibre f).txMap (nextCal (s.fibre f).txCal) < 16) :
    holdsBack s f = decide ((now s).toNat + changeLead s < nextWindowTick s f) := by
  obtain ⟨up, idle, exchanged, running⟩ := h
  simp only [holdsBack, up, idle, exchanged, running, decide_eq_false (Nat.not_le.mpr active), Bool.not_true, Bool.or_self,
    Bool.false_or]

/-- The next window's λ, if active, is proposed to leave once CHANGE_LEAD reaches the window. -/
theorem calChangePropose_rotates {f : Xcvr} (h : Rotates s f.val)
    (active : codeAt (s.fibre f.val).txMap (nextCal (s.fibre f.val).txCal) < 16) : calChangePropose f s =
      if nextWindowTick s f.val ≤ (now s).toNat + changeLead s then
        propose s f.val { lam := nextCal (s.fibre f.val).txCal, code := 17, reason := 0,
                          tick := some (BitVec.ofNat 64 (nextWindowTick s f.val)), lead := none }
      else s := by
  have acts : calChangePropose f s = if holdsBack s f.val then s else
    propose s f.val { lam := nextCal (s.fibre f.val).txCal, code := 17, reason := 0,
                      tick := some (BitVec.ofNat 64 (nextWindowTick s f.val)), lead := none } := rfl
  simp only [acts, holdsBack_rotates h active, decide_eq_true_eq, ← Nat.not_le, ite_not]

end

/-! ### The start of a window (10 R252, R253, R255) -/

/-- The tick of window `w` of a direction has come for the first time, with no λ in a window and the rotation going on. -/
structure WindowOpens (s : State) (f : Nat) (tx : Bool) (w : Nat) : Prop where
  up : fibreUp s f = true
  exchanged : (s.fibre f).exchanged = true
  running : calPaused (dirMap (s.fibre f) tx) = false
  free : (dirCal (s.fibre f) tx).cal = none
  comes : windowNow s f (s.fibre f) tx = some w
  new : (dirCal (s.fibre f) tx).window ≤ w

/-- The window's λ can be calibrated: it is free, left, or taken out with a working source. -/
def canCalibrate (s : State) (f : Nat) (tx : Bool) (k code : Nat) : Bool :=
  code == 16 || code == 17 || (code == 18 && (!tx || sourceReady s f k))

section
variable {s : State} {f : Xcvr} {tx : Bool} {w : Nat}

theorem calWindowStart_opens (h : WindowOpens s f.val tx w) : calWindowStart f tx s =
    let x := s.fibre f.val
    let r := dirCal x tx
    let k := nextCal r
    let q := { r with window := w + 1 }
    if dirIdle x tx && canCalibrate s f.val tx k (codeAt (dirMap x tx) k) then
      s.setFibre f.val (setDir x tx (setCode (dirMap x tx) k 17) { q with cal := some (lamField k) })
    else s.setFibre f.val (setDir x tx (dirMap x tx) (advance q)) := by
  obtain ⟨up, exchanged, running, free, comes, new⟩ := h
  have opens : ¬(!fibreUp s f.val || !(s.fibre f.val).exchanged || (dirCal (s.fibre f.val) tx).cal.isSome
      || decide (w < (dirCal (s.fibre f.val) tx).window)) = true := by
    rw [up, exchanged, free, decide_eq_false (Nat.not_lt.mpr new)]
    decide
  simp only [calWindowStart, comes]
  rw [if_neg opens, if_neg (ne_true_of_eq_false running)]
  rfl

/-- A window does not open before its tick, nor twice. -/
theorem calWindowStart_early
    (past : ∀ w, windowNow s f.val (s.fibre f.val) tx = some w → w < (dirCal (s.fibre f.val) tx).window) :
    calWindowStart f tx s = s := by
  cases comes : windowNow s f.val (s.fibre f.val) tx with
  | none => simp only [calWindowStart, comes]
  | some w =>
    simp only [calWindowStart, comes]
    exact if_pos (by rw [decide_eq_true (past w comes), Bool.or_true])

theorem canCalibrate_states {k code : Nat}
    (states : code = 16 ∨ code = 17 ∨ (code = 18 ∧ (tx = true → sourceReady s f.val k = true))) :
    canCalibrate s f.val tx k code = true := by
  rcases states with rfl | rfl | ⟨rfl, source⟩
  · rfl
  · rfl
  · cases tx with
    | false => rfl
    | true => exact source rfl

/-- A λ that carries a lane or is retired is not calibrated. -/
theorem canCalibrate_not {k code : Nat} (states : code < 16 ∨ code = 19) : canCalibrate s f.val tx k code = false := by
  have free : (code == 16) = false := beq_false_of_ne (by omega)
  have left : (code == 17) = false := beq_false_of_ne (by omega)
  have out : (code == 18) = false := beq_false_of_ne (by omega)
  rw [canCalibrate, free, left, out]
  rfl

end

/-! ### The end of a window (10 R253, R254, R261) -/

/-- The window of a λ is near its end. -/
structure WindowEnds (s : State) (f : Nat) (tx : Bool) (l : Lam) : Prop where
  up : fibreUp s f = true
  cal : (dirCal (s.fibre f) tx).cal = some l
  late : windowTick f (s.fibre f) tx ((dirCal (s.fibre f) tx).window - 1) + 1900000 ≤ (now s).toNat

/-- The rotation once its window is over, before the λ is judged. -/
def windowOver (x : Fibre) (tx : Bool) : Rotation := { advance (dirCal x tx) with cal := none }

/-- A transceiver whose λ has been judged: its code, its rotation, and at the receiver what was measured. -/
def judgedFibre (x : Fibre) (tx : Bool) (v : VerifyResult) (l code : Nat) (q : Rotation) : Fibre :=
  setDir (if tx then x else measured x l v) tx (setCode (dirMap x tx) l code) q

/-- The rotation after a verify that passed, that failed, and that failed for the third time. -/
def calPassed (s : State) (r : Rotation) (l : Nat) : Rotation :=
  { r with retry := none, badRuns := mput 0 r.badRuns l 0, lastCal := mput 0 r.lastCal l (clock s) }
def calFailed (r : Rotation) (l : Lam) (n : Nat) : Rotation :=
  { r with retry := some l, badRuns := mput 0 r.badRuns l.val n }
def calRetired (r : Rotation) (l : Nat) : Rotation := { r with retry := none, badRuns := mput 0 r.badRuns l 0 }

/-- The window has been counted, the tile's model refined, and the transmitter settled. -/
def windowCounted (s : State) (f : Nat) (tx : Bool) : State :=
  refineRing (if tx then bump s 0x80A4 (f + 1) 1 else s) (f / 7)
def windowClosed (s : State) (f : Nat) (tx : Bool) : State :=
  if tx then settleTx (windowCounted s f tx) f else windowCounted s f tx

/-- Verify failures in a row of a λ, this one counted. -/
def failures (s : State) (f : Nat) (tx : Bool) (l : Nat) : Nat := mget 0 (dirCal (s.fibre f) tx).badRuns l + 1

section
variable {s : State} {f : Xcvr} {tx : Bool} {l : Lam} {v : VerifyResult}

theorem calWindowEnd_ends (h : WindowEnds s f.val tx l) : calWindowEnd f tx v s =
    let x := s.fibre f.val
    let q := windowOver x tx
    let set := fun code r => s.setFibre f.val (judgedFibre x tx v l.val code r)
    windowClosed (if verifyOk s v then set 16 (calPassed s q l.val)
      else if failures s f.val tx l.val < 3 then set 17 (calFailed q l (failures s f.val tx l.val))
      else sticky (set 19 (calRetired q l.val)) 0xA0A0 8 f.val) f.val tx := by
  obtain ⟨up, cal, late⟩ := h
  have ends : ¬(!fibreUp s f.val || decide ((now s).toNat <
      windowTick f.val (s.fibre f.val) tx ((dirCal (s.fibre f.val) tx).window - 1) + 1900000)) = true := by
    rw [up, decide_eq_false (Nat.not_lt.mpr late)]
    decide
  simp only [calWindowEnd, cal]
  rw [if_neg ends]
  rfl

end

section
variable {s : State} {f g : Nat} {tx : Bool}

theorem refineRing_keeps {β : Type} (view : State → β) (rings : ∀ t m n, view { t with rings := m, free := n } = view t)
    (s : State) (tile : Nat) : view (refineRing s tile) = view s := by
  unfold refineRing
  split
  · rfl
  · exact rings ..

@[simp] theorem windowCounted_fibres : (windowCounted s f tx).fibres = s.fibres := by
  refine (refineRing_keeps State.fibres (fun _ _ _ => rfl) _ _).trans ?_
  split <;> rfl

theorem windowClosed_talks (wf : mwf Fibre.init 0 s.fibres = true) :
    TalksOnly (windowCounted s f tx) f (windowClosed s f tx) := by
  have wfc : mwf Fibre.init 0 (windowCounted s f tx).fibres = true := by rw [windowCounted_fibres]; exact wf
  unfold windowClosed
  split
  · exact settleTx_talksOnly wfc
  · exact .refl wfc

theorem windowClosed_fibre (wf : mwf Fibre.init 0 s.fibres = true) :
    steady ((windowClosed s f tx).fibre f) = steady (s.fibre f) := by
  rw [(windowClosed_talks wf).own, fibre_congr windowCounted_fibres]

theorem windowClosed_fibre_other (wf : mwf Fibre.init 0 s.fibres = true) (other : g ≠ f) :
    (windowClosed s f tx).fibre g = s.fibre g := by
  rw [(windowClosed_talks wf).others g other, fibre_congr windowCounted_fibres]

/-- The bits of λ that were retired are not those of the windows counted. -/
theorem windowClosed_retiredBits (wf : mwf Fibre.init 0 s.fibres = true) (there : f < 56) :
    dcell (windowClosed s f tx) 0xA0A0 8 = dcell s 0xA0A0 8 := by
  have apart : dkey 0xA0A0 8 ≠ dkey 0x80A4 (f + 1) := by
    simp only [dkey]
    omega
  calc dcell (windowClosed s f tx) 0xA0A0 8
    _ = dcell (windowCounted s f tx) 0xA0A0 8 := by simp only [dcell, (windowClosed_talks (tx := tx) wf).dict]
    _ = dcell (if tx then bump s 0x80A4 (f + 1) 1 else s) 0xA0A0 8 :=
      refineRing_keeps (dcell · 0xA0A0 8) (fun _ _ _ => rfl) _ _
    _ = dcell s 0xA0A0 8 := by
      split
      · exact dcell_bump_other 1 apart
      · rfl

end

/-! ### What a judged transceiver holds -/

section
variable (x : Fibre) (tx : Bool) (v : VerifyResult) (l code : Nat) (q : Rotation)

theorem dirMap_judged : dirMap (judgedFibre x tx v l code q) tx = setCode (dirMap x tx) l code := by cases tx <;> rfl
theorem dirMap_judged_other : dirMap (judgedFibre x tx v l code q) (!tx) = dirMap x (!tx) := by cases tx <;> rfl
theorem dirCal_judged : dirCal (judgedFibre x tx v l code q) tx = q := by cases tx <;> rfl

theorem windowOver_done : (windowOver x tx).done =
    if (dirCal x tx).retry.isSome then (dirCal x tx).done else (dirCal x tx).done + 1 := by
  unfold windowOver advance
  split <;> rfl

theorem windowOver_keeps {β : Type} (view : Rotation → β)
    (blind : ∀ r n m, view { r with cal := none, done := n, rounds := m } = view r) :
    view (windowOver x tx) = view (dirCal x tx) := by
  unfold windowOver advance
  split
  · exact blind (dirCal x tx) (dirCal x tx).done (dirCal x tx).rounds
  · exact blind (dirCal x tx) _ _

end

section
variable {x y : Fibre} (same : steady x = steady y) (tx : Bool)
include same

theorem dirMap_of_steady : dirMap x tx = dirMap y tx := view_of_steady (dirMap · tx) (fun _ => by cases tx <;> rfl) same
theorem dirCal_of_steady : dirCal x tx = dirCal y tx := view_of_steady (dirCal · tx) (fun _ => by cases tx <;> rfl) same

end

/-- A λ of transceiver `f` has been judged between `s` and `t`: it has its code and its rotation, and but for what the
transceiver has to say nothing else of the links has changed. -/
structure Judged (s : State) (f : Nat) (tx : Bool) (v : VerifyResult) (l code : Nat) (q : Rotation) (t : State) : Prop where
  own : steady (t.fibre f) = steady (judgedFibre (s.fibre f) tx v l code q)
  others : ∀ g, g ≠ f → t.fibre g = s.fibre g

section
variable {s t u : State} {f l code : Nat} {tx : Bool} {v : VerifyResult} {q : Rotation}

theorem judged_windowClosed (wf : mwf Fibre.init 0 s.fibres = true)
    (wrote : u.fibres = (s.setFibre f (judgedFibre (s.fibre f) tx v l code q)).fibres) :
    Judged s f tx v l code q (windowClosed u f tx) := by
  have wfu : mwf Fibre.init 0 u.fibres = true := by rw [wrote]; exact fibres_setFibre wf _
  refine ⟨?_, fun g other => ?_⟩
  · rw [windowClosed_fibre wfu, fibre_congr wrote, fibre_setFibre wf]
  · rw [windowClosed_fibre_other wfu other, fibre_congr wrote, fibre_setFibre_other wf other]

theorem Judged.map (h : Judged s f tx v l code q t) : dirMap (t.fibre f) tx = setCode (dirMap (s.fibre f) tx) l code :=
  (dirMap_of_steady h.own tx).trans (dirMap_judged ..)

theorem Judged.map_other (h : Judged s f tx v l code q t) : dirMap (t.fibre f) (!tx) = dirMap (s.fibre f) (!tx) :=
  (dirMap_of_steady h.own _).trans (dirMap_judged_other ..)

theorem Judged.cal (h : Judged s f tx v l code q t) : dirCal (t.fibre f) tx = q :=
  (dirCal_of_steady h.own tx).trans (dirCal_judged ..)

/-- The receiver keeps what it measured. -/
theorem Judged.measured (h : Judged s f tx v l code q t) (rx : tx = false) :
    (t.fibre f).bers = mput noBer (s.fibre f).bers l v.ber.toNat
    ∧ (t.fibre f).margins = mput noMargin (s.fibre f).margins l v.marginMdb
    ∧ (t.fibre f).reserve = mput noReserve (s.fibre f).reserve l v.reserveUw := by
  subst rx
  exact ⟨view_of_steady Fibre.bers (fun _ => rfl) h.own, view_of_steady Fibre.margins (fun _ => rfl) h.own,
    view_of_steady Fibre.reserve (fun _ => rfl) h.own⟩

theorem codeAt_setCode {m : List (BitVec 5)} {k : Nat} (there : k < m.length) (small : code < 32) :
    codeAt (setCode m k code) k = code := by
  have entry : (setCode m k code).getD k 19 = BitVec.ofNat 5 code := by simp [setCode, there]
  rw [codeAt, entry, BitVec.toNat_ofNat, Nat.mod_eq_of_lt small]

/-- Only a λ in the map has a code other than that of a retired one. -/
theorem lt_length_of_codeAt {m : List (BitVec 5)} {k : Nat} (inMap : codeAt m k ≠ 19) : k < m.length := by
  by_contra out
  exact inMap (by rw [codeAt, List.getD_eq_default _ _ (Nat.not_lt.mp out)]; rfl)

end

section
variable {s : State} {f : Xcvr} {tx : Bool} {l : Lam} {v : VerifyResult}

theorem calWindowEnd_passed (canonical : Inv s) (h : WindowEnds s f.val tx l) (ok : verifyOk s v = true) :
    Judged s f.val tx v l.val 16 (calPassed s (windowOver (s.fibre f.val) tx) l.val) (calWindowEnd f tx v s) := by
  rw [calWindowEnd_ends h]
  simp only [if_pos ok]
  exact judged_windowClosed canonical.fibres rfl

theorem calWindowEnd_again (canonical : Inv s) (h : WindowEnds s f.val tx l) (bad : verifyOk s v = false)
    (few : failures s f.val tx l.val < 3) : Judged s f.val tx v l.val 17
      (calFailed (windowOver (s.fibre f.val) tx) l (failures s f.val tx l.val)) (calWindowEnd f tx v s) := by
  rw [calWindowEnd_ends h]
  simp only [bad, Bool.false_eq_true, if_false, if_pos few]
  exact judged_windowClosed canonical.fibres rfl

theorem calWindowEnd_retired (canonical : Inv s) (h : WindowEnds s f.val tx l) (bad : verifyOk s v = false)
    (third : 3 ≤ failures s f.val tx l.val) :
    Judged s f.val tx v l.val 19 (calRetired (windowOver (s.fibre f.val) tx) l.val) (calWindowEnd f tx v s)
    ∧ dbit (calWindowEnd f tx v s) 0xA0A0 8 f.val = true := by
  have small : f.val < 65 := Nat.lt_trans f.isLt (by decide)
  rw [calWindowEnd_ends h]
  simp only [bad, Bool.false_eq_true, if_false, if_neg (Nat.not_lt.mpr third)]
  have flagged := fibres_of_unflagged (unflagged_sticky (s.setFibre f.val
    (judgedFibre (s.fibre f.val) tx v l.val 19 (calRetired (windowOver (s.fibre f.val) tx) l.val))) 0xA0A0 8 f.val)
  refine ⟨judged_windowClosed canonical.fibres flagged, ?_⟩
  rw [dbit, windowClosed_retiredBits (by rw [flagged]; exact fibres_setFibre canonical.fibres _) f.isLt]
  exact dbit_sticky small (by decide) (by decide)

end

/-! ### A pause (10 R255) -/

/-- Of two λ the one calibrated longer ago. -/
def calibratedFirst (lastCal : SMap Word) (b : Option Nat) (k : Nat) : Option Nat :=
  match b with
  | none => some k
  | some j => if mget 0 lastCal k < mget 0 lastCal j then some k else some j

/-- The λ longest without calibration is found, wherever it stands. -/
theorem foldl_calibratedFirst {lastCal : SMap Word} {l : Nat} (ks : List Nat)
    (first : ∀ j ∈ ks, j ≠ l → mget 0 lastCal l < mget 0 lastCal j) (b : Option Nat)
    (ahead : b = some l ∨ (l ∈ ks ∧ ∀ j, b = some j → mget 0 lastCal l < mget 0 lastCal j)) :
    ks.foldl (calibratedFirst lastCal) b = some l := by
  induction ks generalizing b with
  | nil => exact ahead.resolve_right fun listed => List.not_mem_nil listed.1
  | cons k r ih =>
    refine ih (fun j listed => first j (List.mem_cons_of_mem _ listed)) _ ?_
    rcases ahead with rfl | ⟨listed, later⟩
    · left
      by_cases own : k = l
      · rw [calibratedFirst, own, ite_self]
      · exact if_neg (BitVec.lt_asymm (first k List.mem_cons_self own))
    · by_cases own : k = l
      · left
        cases b with
        | none => exact congrArg some own
        | some j =>
          rw [own]
          exact if_pos (later j rfl)
      · refine .inr ⟨(List.mem_cons.mp listed).resolve_left (Ne.symm own), fun j took => ?_⟩
        have after := first k List.mem_cons_self own
        cases b with
        | none => exact Option.some.inj took ▸ after
        | some i =>
          simp only [calibratedFirst] at took
          split at took
          · exact Option.some.inj took ▸ after
          · exact Option.some.inj took ▸ later i rfl

/-- The active λ past CAL_MAX_GAP. -/
def pastGap (s : State) (f : Nat) : List Nat :=
  (List.range 18).filter (fun k => decide (codeAt (s.fibre f).txMap k < 16)
    && decide (dnum s 0x20A0 4 * second ≤ (clock s - mget 0 (s.fibre f).txCal.lastCal k).toNat))

/-- The lane of a λ is dropped for one window. -/
def laneDropped (s : State) (f : Nat) : Option Nat → State
  | none => s
  | some k =>
    sticky (propose (s.setFibre f { s.fibre f with txCal := { (s.fibre f).txCal with retry := some (lamField k) } }) f
      { lam := k, code := 17, reason := 0, tick := none, lead := none }) 0xA0A0 10 f

section
variable {s : State} {f : Xcvr} {l : Nat}

theorem calMaxGapExpiry_paused (up : fibreUp s f.val = true) (idle : txIdle (s.fibre f.val) = true)
    (paused : calPaused (s.fibre f.val).txMap = true) : calMaxGapExpiry f s =
      laneDropped s f.val ((pastGap s f.val).foldl (calibratedFirst (s.fibre f.val).txCal.lastCal) none) := by
  have acts : ¬(!fibreUp s f.val || !calPaused (s.fibre f.val).txMap || !txIdle (s.fibre f.val)) = true := by
    rw [up, paused, idle]
    decide
  exact if_neg acts

theorem mem_pastGap : l ∈ pastGap s f.val ↔ l < 18 ∧ codeAt (s.fibre f.val).txMap l < 16
    ∧ dnum s 0x20A0 4 * second ≤ (clock s - mget 0 (s.fibre f.val).txCal.lastCal l).toNat := by
  simp only [pastGap, List.mem_filter, List.mem_range, Bool.and_eq_true, decide_eq_true_eq]

end

/-! ### The ring controllers (10 R257) -/

theorem ringFeedForward_steps {s : State} {d : Die} (mw : Nat) (up : dieUp s d.val = true)
    (enabled : dnum s 0x20A0 5 = 1) : ringFeedForward d mw s =
      { s with rings := mput none s.rings d.val (some (ringStep ((mget none s.rings d.val).getD (ringInit d.val)) mw)) } :=
  if_pos (by rw [up, enabled]; rfl)

/-- Settles O37: the change before a window, its start, and its end for a λ that passes; a pause by the λ longest without
calibration; and the rings' model by its step. -/
theorem calibrationRuns : Obligations.CalibrationRuns := by
  unfold Obligations.CalibrationRuns
  intro f s x idle up
  refine ⟨?_, ?_, fun tx past => congrArg Host.Outcome.next (calWindowStart_early past), ?_, ?_, ?_⟩
  · intro k past t ⟨change, lost⟩ exchanged running active
    exact (next_ahead_and_reached (calChangePropose_rotates ⟨up, txIdle_of_none change lost, exchanged, running⟩ active)).symm
  · intro tx w exchanged running free comes new r k c q
    have start := calWindowStart_opens (f := f) ⟨up, exchanged, running, free, comes, new⟩
    refine ⟨fun idle states => congrArg Host.Outcome.next (start.trans (if_pos ?_)),
      fun passes => congrArg Host.Outcome.next (start.trans (if_neg ?_))⟩
    · rw [idle, canCalibrate_states states]
      rfl
    · rcases passes with pending | states
      · rw [pending]
        exact Bool.false_ne_true
      · rw [canCalibrate_not states, Bool.and_false]
        exact Bool.false_ne_true
  · intro tx v l canonical cal ok late
    have judged := calWindowEnd_passed (f := f) canonical ⟨up, cal, late⟩ ok
    refine ⟨_, rfl, judged.map, judged.map_other, ?_, ?_, ?_, ?_, ?_, judged.measured, judged.others⟩
    · rw [judged.cal]
      rfl
    · rw [judged.cal]
      rfl
    · rw [judged.cal]
      exact windowOver_keeps x tx Rotation.window fun _ _ _ => rfl
    · rw [judged.cal]
      exact windowOver_keeps x tx (fun r => mput 0 r.badRuns l.val 0) fun _ _ _ => rfl
    · rw [judged.cal]
      exact windowOver_keeps x tx (fun r => mput 0 r.lastCal l.val (clock s)) fun _ _ _ => rfl
  · intro l ⟨change, lost⟩ paused active lam gap first
    have found : (pastGap s f.val).foldl (calibratedFirst (s.fibre f.val).txCal.lastCal) none = some l := by
      refine foldl_calibratedFirst _ (fun j listed other => ?_) none
        (.inr ⟨mem_pastGap.mpr ⟨lam, active, gap⟩, fun j no => nomatch no⟩)
      obtain ⟨lamJ, activeJ, -⟩ := mem_pastGap.mp listed
      exact first j lamJ other activeJ
    exact congrArg Host.Outcome.next ((calMaxGapExpiry_paused up (txIdle_of_none change lost) paused).trans
      (congrArg (laneDropped s f.val) found))
  · intro d mw dieOn enabled due r goal rise next
    have step : ringStep r mw = next := by
      simp only [ringStep, next, rise, goal, Int.zero_sub]
    rw [← step]
    exact congrArg Host.Outcome.next ((periodic_due due _).trans (ringFeedForward_steps mw dieOn enabled))

/-- Settles O38: a λ that fails is the next window's, and the rotation's λ follows its pass; the third failure retires it. -/
theorem lambdaFailsVerify : Obligations.LambdaFailsVerify := by
  unfold Obligations.LambdaFailsVerify
  intro f tx r s l x y n canonical up cal left late bad
  have ends : WindowEnds s f.val tx l := ⟨up, cal, late⟩
  have inMap : l.val < (dirMap x tx).length := lt_length_of_codeAt (by rw [left]; decide)
  refine ⟨calWindowEnd f tx r s, rfl, ?_, fun few => ?_, fun third => ?_⟩
  · rcases Nat.lt_or_ge (n + 1) 3 with few | third
    · rw [(calWindowEnd_again canonical ends bad few).cal]
      exact windowOver_done x tx
    · rw [(calWindowEnd_retired canonical ends bad third).1.cal]
      exact windowOver_done x tx
  · have judged := calWindowEnd_again canonical ends bad few
    rw [judged.map, judged.cal]
    refine ⟨codeAt_setCode inMap (by decide), rfl, mget_mput_new _ _ (Nat.succ_ne_zero n), ?_⟩
    intro v u ok canonicalU upU rotation lateU
    have window : (dirCal (u.fibre f.val) tx).window = y.window :=
      (congrArg Rotation.window rotation).trans (windowOver_keeps x tx Rotation.window fun _ _ _ => rfl)
    have endsU : WindowEnds u f.val tx l := ⟨upU, congrArg Rotation.cal rotation, by rw [window]; exact lateU⟩
    have judgedU := calWindowEnd_passed canonicalU endsU ok
    refine ⟨_, rfl, ?_, ?_⟩
    · rw [judgedU.cal]
      rfl
    · have ahead : (windowOver (u.fibre f.val) tx).done = (windowOver x tx).done := by rw [windowOver_done, rotation]; rfl
      rw [judgedU.cal]
      exact congrArg (· % 18) ahead
  · obtain ⟨judged, flagged⟩ := calWindowEnd_retired canonical ends bad third
    rw [judged.map]
    exact ⟨codeAt_setCode inMap (by decide), flagged⟩

end Sys2Proof.Machine
end

section
/-! Laser banks (10 R258 to R260): a source judged by its power, a λ that is vacated, its spare, and O39. -/

namespace Sys2Proof.Machine

/-! ### The banks of a canonical state -/

theorem Inv.banks {s : State} (h : Inv s) : mwf Bank.init 0 s.banks = true := by
  obtain ⟨-, -, -, -, -, -, -, -, -, -, -, -, -, -, banks, -⟩ := h.parts
  exact banks

section
variable {s t : State} {b l v : Nat}

theorem bank_setBank (wf : mwf Bank.init 0 s.banks = true) (x : Bank) : (s.setBank b x).bank b = x := mget_mput_same x wf

theorem banks_setBank (wf : mwf Bank.init 0 s.banks = true) (x : Bank) :
    mwf Bank.init 0 (s.setBank b x).banks = true := mwf_mput x wf (Nat.zero_le _)

theorem bank_congr (same : t.banks = s.banks) (b : Nat) : t.bank b = s.bank b := congrArg (mget Bank.init · b) same

/-- The state of a λ's source in its bank. -/
def sourceOf (s : State) (b l : Nat) : Nat := mget 0 (s.bank b).source l

theorem bank_setSource (wf : mwf Bank.init 0 s.banks = true) :
    (setSource s b l v).bank b = { s.bank b with source := mput 0 (s.bank b).source l v } := bank_setBank wf _

theorem sourceOf_setSource (wf : mwf Bank.init 0 s.banks = true) (listed : v ≠ 0) :
    sourceOf (setSource s b l v) b l = v := by
  rw [sourceOf, bank_setSource wf]
  exact mget_mput_new _ l listed

theorem sourceOf_setBank (wf : mwf Bank.init 0 s.banks = true) (x : Bank) :
    sourceOf (s.setBank b x) b l = mget 0 x.source l := by
  rw [sourceOf, bank_setBank wf]

theorem sourceOf_congr (same : t.banks = s.banks) : sourceOf t b l = sourceOf s b l := by
  rw [sourceOf, bank_congr same, sourceOf]

theorem sourceOf_relockPairs (wf : mwf Bank.init 0 s.banks = true) : sourceOf (relockPairs s b l) b l = sourceOf s b l := by
  have banks : (pairsRelocked s b l).banks = s.banks := pairsRelocked_keeps s b l State.banks fun _ _ => rfl
  rw [relockPairs_eq, sourceOf_setBank (by rw [banks]; exact wf)]
  exact sourceOf_congr banks

theorem sourceOf_sticky (idx sub bit : Nat) : sourceOf (sticky s idx sub bit) b l = sourceOf s b l :=
  sourceOf_congr (congrArg Standing.banks (standing_sticky s idx sub bit))

end

/-! ### A source judged (10 R258, R259) -/

section
variable (s : State) (b l : Nat) (mdbm : Int)

/-- The last sixteen tap readings of a λ, this one the newest. -/
def lastTaps : List Int := (mdbm :: mget [] (s.bank b).taps l).take 16

/-- Their count times their mean's distance from the commissioning power, in mdB. -/
def tapSum : Int := (lastTaps s b l mdbm).foldl (· + ·) 0 - ((lastTaps s b l mdbm).length : Int) * bankPower s b l

/-- The reading and the ratio are entered. -/
def ratioEntered : State :=
  dset (tapRead s b l mdbm) (0x40A4 + b) (l + 1) (ratF32 (tapSum s b l mdbm) (1000 * (lastTaps s b l mdbm).length))

/-- A drop that reaches 1.5 dB is noted. -/
def dropNoted : State :=
  if tapSum s b l mdbm ≤ -1500 * ((lastTaps s b l mdbm).length : Int) ∧ -1500 < f32Milli (dnum s (0x40A4 + b) (l + 1)) then
    sticky (ratioEntered s b l mdbm) 0xA0A0 4 (laserBit b l)
  else ratioEntered s b l mdbm

end

section
variable {s : State} {b l : Nat} {mdbm : Int}

theorem taps_tapRead (wf : mwf Bank.init 0 s.banks = true) :
    mget [] ((tapRead s b l mdbm).bank b).taps l = lastTaps s b l mdbm := by
  rw [tapRead, bank_setBank wf]
  exact mget_mput_new _ l (List.cons_ne_nil _ _)

theorem judgeSource_judges (wf : mwf Bank.init 0 s.banks = true) : judgeSource s b l mdbm =
    if tapSum s b l mdbm ≤ -3000 * ((lastTaps s b l mdbm).length : Int) then vacateLam (dropNoted s b l mdbm) b l
    else dropNoted s b l mdbm := by
  simp only [judgeSource, taps_tapRead wf]
  rfl

/-- A source above −1.5 dB has its ratio entered. -/
theorem judgeSource_good (wf : mwf Bank.init 0 s.banks = true)
    (good : -1500 * ((lastTaps s b l mdbm).length : Int) < tapSum s b l mdbm) :
    judgeSource s b l mdbm = ratioEntered s b l mdbm := by
  have far : ¬tapSum s b l mdbm ≤ -3000 * ((lastTaps s b l mdbm).length : Int) := by omega
  rw [judgeSource_judges wf, if_neg far, dropNoted, if_neg fun drop => absurd drop.1 (Int.not_le.mpr good)]

/-- One between −1.5 and −3 dB is noted as it reaches −1.5 dB. -/
theorem judgeSource_drop (wf : mwf Bank.init 0 s.banks = true)
    (above : -3000 * ((lastTaps s b l mdbm).length : Int) < tapSum s b l mdbm)
    (drop : tapSum s b l mdbm ≤ -1500 * ((lastTaps s b l mdbm).length : Int)) : judgeSource s b l mdbm =
      if -1500 < f32Milli (dnum s (0x40A4 + b) (l + 1)) then sticky (ratioEntered s b l mdbm) 0xA0A0 4 (laserBit b l)
      else ratioEntered s b l mdbm := by
  simp only [judgeSource_judges wf, if_neg (Int.not_le.mpr above), dropNoted, drop, true_and]

/-- One that has fallen by 3 dB at once is noted and vacated. -/
theorem judgeSource_low (wf : mwf Bank.init 0 s.banks = true)
    (low : tapSum s b l mdbm ≤ -3000 * ((lastTaps s b l mdbm).length : Int))
    (was : -1500 < f32Milli (dnum s (0x40A4 + b) (l + 1))) : judgeSource s b l mdbm =
      vacateLam (sticky (ratioEntered s b l mdbm) 0xA0A0 4 (laserBit b l)) b l := by
  have drop : tapSum s b l mdbm ≤ -1500 * ((lastTaps s b l mdbm).length : Int) := by omega
  rw [judgeSource_judges wf, if_pos low, dropNoted, if_pos ⟨drop, was⟩]

end

/-! ### An abrupt loss, and the spare (10 R259, R260) -/

/-- The places of a λ on the transmitters of a bank's half that do not carry a lane on it are taken off it. -/
def placesVacated (s : State) (b l : Nat) : State :=
  (halfFibres b).foldl (fun t f => if codeAt (t.fibre f).txMap l < 16 then t else fibreVacate t f l) s

/-- The transmitters and the die pairs of the half leave a λ, and its bank settles. -/
def lossSettled (s : State) (b l : Nat) : State := bankSettle (pairsVacate (placesVacated s b l) b l) b l

section
variable {s : State} {b : Fin 2} {l : Lam}

theorem laserAbruptLoss_works (on : bankOn s b.val = true) (works : sourceOf s b.val l.val < 2) : laserAbruptLoss b l s =
    lossSettled (warmSpare (sticky s 0xA0A0 5 (laserBit b.val l.val)) b.val l.val) b.val l.val := by
  have acts : ¬(!bankOn s b.val || decide (2 ≤ sourceOf s b.val l.val)) = true := by
    rw [on, decide_eq_false (Nat.not_le.mpr works)]
    decide
  exact if_neg acts

theorem warmSpare_powers {b l : Nat} (primary : sourceOf s b l = 0) : warmSpare s b l =
    setSource (s.setBank b { s.bank b with warmAt := mput 0 (s.bank b).warmAt l (clock s) }) b l 2 := by
  have works : ¬sourceOf s b l = 1 := by omega
  exact if_neg works

theorem warmSpare_lost {b l : Nat} (spare : sourceOf s b l = 1) : warmSpare s b l = laserLost s b l := if_pos spare

/-- A vacate is under way. -/
theorem vacating_test {src : Nat} (under : src = 2 ∨ src = 3) : (src == 2 || src == 3) = true := by
  rcases under with rfl | rfl <;> rfl

theorem spareSourceLocked_settles (on : bankOn s b.val = true) (under : sourceOf s b.val l.val = 2 ∨ sourceOf s b.val l.val = 3) :
    execSpareSourceLocked b l s = .next (bankSettle (s.setBank b.val
      { s.bank b.val with locked := mput false (s.bank b.val).locked l.val true }) b.val l.val) := by
  have acts : (bankOn s b.val && (sourceOf s b.val l.val == 2 || sourceOf s b.val l.val == 3)) = true := by
    rw [on, vacating_test under]
    rfl
  exact congrArg Host.Outcome.next (if_pos acts)

theorem spareSourceLockTimeout_loses (on : bankOn s b.val = true)
    (under : sourceOf s b.val l.val = 2 ∨ sourceOf s b.val l.val = 3)
    (unlocked : mget false (s.bank b.val).locked l.val = false)
    (late : 500000000 ≤ since s (mget 0 (s.bank b.val).warmAt l.val)) :
    execSpareSourceLockTimeout b l s = .next (laserLost s b.val l.val) := by
  have acts : (bankOn s b.val && (sourceOf s b.val l.val == 2 || sourceOf s b.val l.val == 3)
      && !mget false (s.bank b.val).locked l.val
      && decide (500000000 ≤ since s (mget 0 (s.bank b.val).warmAt l.val))) = true := by
    rw [on, vacating_test under, unlocked, decide_eq_true late]
    rfl
  exact congrArg Host.Outcome.next (if_pos acts)

end

/-! ### A vacate goes on (10 R260) -/

/-- A vacate is under way, no trained transmitter of the half uses the λ, and no die pair of it moves a lane off it. -/
structure VacateClear (s : State) (b l : Nat) : Prop where
  under : sourceOf s b l = 2 ∨ sourceOf s b l = 3
  fibres : ∀ f, f ∈ halfFibres b → (s.fibre f).training = 2 → fibreUses (s.fibre f) l = false
  pairs : ∀ e, e ∈ halfPairs b → pairMoving s e.1 e.2 l = false

/-- The λ runs on its spare, whose lock and taps start anew, before the die pairs take it back. -/
def onSpare (s : State) (b l : Nat) : State :=
  let t := setSource s b l 1
  t.setBank b { t.bank b with
    locked := mput false (t.bank b).locked l false, taps := mput [] (t.bank b).taps l [] }

section
variable {s : State} {b l : Nat}

theorem bankSettle_clear (h : VacateClear s b l) : bankSettle s b l =
    if mget false (s.bank b).locked l then relockPairs (onSpare s b l) b l else setSource s b l 3 := by
  obtain ⟨under, fibres, pairs⟩ := h
  have goesOn : ¬(sourceOf s b l ≠ 2 ∧ sourceOf s b l ≠ 3) := by omega
  have noPair : (halfPairs b).any (fun e => pairMoving s e.1 e.2 l) = false :=
    List.any_eq_false.mpr fun e listed => ne_true_of_eq_false (pairs e listed)
  have noFibre : (halfFibres b).any (fun f => (s.fibre f).training == 2 && fibreUses (s.fibre f) l) = false := by
    refine List.any_eq_false.mpr fun f listed uses => ?_
    obtain ⟨trained, carries⟩ := Bool.and_eq_true_iff.mp uses
    rw [fibres f listed (eq_of_beq trained)] at carries
    exact Bool.false_ne_true carries
  exact (if_neg goesOn).trans ((if_neg (ne_true_of_eq_false noPair)).trans (if_neg (ne_true_of_eq_false noFibre)))

theorem sourceOf_onSpare (wf : mwf Bank.init 0 s.banks = true) : sourceOf (onSpare s b l) b l = 1 := by
  have banks : mwf Bank.init 0 (setSource s b l 1).banks = true := banks_setBank wf _
  rw [onSpare, sourceOf_setBank banks]
  exact sourceOf_setSource wf (by decide)

/-- With a locked spare the λ runs on it; else the spare warms. -/
theorem sourceOf_bankSettle (canonical : Inv s) (h : VacateClear s b l) :
    sourceOf (bankSettle s b l) b l = if mget false (s.bank b).locked l then 1 else 3 := by
  rw [bankSettle_clear h]
  have banks : mwf Bank.init 0 (onSpare s b l).banks = true := banks_setBank (banks_setBank canonical.banks _) _
  split
  · rw [sourceOf_relockPairs banks, sourceOf_onSpare canonical.banks]
  · exact sourceOf_setSource canonical.banks (by decide)

end

/-- Settles O39: a source by its ratio, a loss by the source that the λ runs on, and a vacate by what still uses the λ. -/
theorem laserSourcesJudged : Obligations.LaserSourcesJudged := by
  unfold Obligations.LaserSourcesJudged
  intro b l s on src
  refine ⟨fun mdbm new => congrArg Host.Outcome.next ((if_pos on).trans (atBeat_new new _)),
    fun mdbm => ?_, fun primary => ?_, fun spare => ?_,
    fun under => ⟨spareSourceLocked_settles on under, spareSourceLockTimeout_loses on under⟩,
    fun canonical under fibres pairs => sourceOf_bankSettle canonical ⟨under, fibres, pairs⟩⟩
  · intro taps sum was read kept canonical
    exact ⟨judgeSource_good canonical.banks, judgeSource_drop canonical.banks, fun low _ => judgeSource_low canonical.banks low⟩
  · have works : sourceOf s b.val l.val < 2 := Nat.lt_of_le_of_lt (Nat.le_of_eq primary) (by decide)
    have powers := warmSpare_powers ((sourceOf_sticky 0xA0A0 5 (laserBit b.val l.val)).trans primary)
    exact congrArg Host.Outcome.next
      ((laserAbruptLoss_works on works).trans (congrArg (lossSettled · b.val l.val) powers))
  · have works : sourceOf s b.val l.val < 2 := Nat.lt_of_le_of_lt (Nat.le_of_eq spare) (by decide)
    have lost := warmSpare_lost ((sourceOf_sticky 0xA0A0 5 (laserBit b.val l.val)).trans spare)
    exact congrArg Host.Outcome.next
      ((laserAbruptLoss_works on works).trans (congrArg (lossSettled · b.val l.val) lost))

end Sys2Proof.Machine
end

section
/-! Collectives (11): what opens one and starts it, how its packets are taken, how CHS and CDATA act in their turn, and
how it aborts; and O31, O32 and O33. -/

namespace Sys2Proof.Machine

/-! ### An open collective and its ranges (11 R264, R265) -/

section
variable {s t : State} {cid : BitVec 12} {c : Coll}

theorem openColl_cid (opened : openColl s cid = some c) : c.cid = cid :=
  eq_of_beq (List.find?_some (p := fun x : Coll => x.cid == cid) opened)

/-- A collective that is changed, its identifier kept, is found changed. -/
theorem openColl_modColl {f : Coll → Coll} (same : ∀ x, (f x).cid = x.cid) (opened : openColl s cid = some c) :
    openColl (modColl s cid f) cid = some (f c) := by
  have found : ((fun x : Coll => x.cid == cid) ∘ fun x => if x.cid == cid then f x else x) = fun x => x.cid == cid := by
    funext x
    dsimp only [Function.comp]
    split <;> simp only [same]
  rw [openColl, modColl, List.find?_map, found]
  change Option.map _ (openColl s cid) = _
  rw [opened, Option.map_some, openColl_cid opened, beq_self_eq_true, if_pos rfl]

/-- Where a member stands among the others depends on its coordinate alone. -/
theorem myRank_congr (same : t.fab.coord = s.fab.coord) (l : List Word) (k : Nat) : myRank t l k = myRank s l k := by
  unfold myRank
  rw [same]

theorem rangeBefore_congr (same : t.fab.coord = s.fab.coord) (l : List Word) (k : Nat) :
    rangeBefore t l k = rangeBefore s l k := by
  induction k with
  | zero => rfl
  | succ k ih => simp only [rangeBefore, ih, myRank_congr same]

theorem bcastLine_congr (same : t.fab.coord = s.fab.coord) (l : List Word) (k : Nat) :
    bcastLine t l k = bcastLine s l k := by
  unfold bcastLine
  rw [same]

theorem offsetsGot_congr (same : t.fab.coord = s.fab.coord) (l : List Word) (step : Bool × Nat) :
    offsetsGot t l step = offsetsGot s l step := by
  simp only [offsetsGot, chunksGot, chunkRange, bcastLine_congr same, myRank_congr same, rangeBefore_congr same]

end

section
variable {f lo n m : Nat}

theorem shardOf_first : (shardOf f lo n m 0).1 = lo := by
  simp [shardOf]

/-- The shards of whole groups reach the end of their range. -/
theorem shardOf_end (members : 0 < m) (whole : fmtGroup f ∣ n) : (shardOf f lo n m m).1 = lo + n := by
  simp only [shardOf, Nat.mul_div_cancel_left _ members, Nat.div_mul_cancel whole]

/-- A shard ends where the next begins. -/
theorem shardOf_next (j : Nat) : (shardOf f lo n m j).1 + (shardOf f lo n m j).2 = (shardOf f lo n m (j + 1)).1 := by
  have grows : j * (n / fmtGroup f) / m ≤ (j + 1) * (n / fmtGroup f) / m :=
    Nat.div_le_div_right (Nat.mul_le_mul_right _ (Nat.le_succ j))
  simp only [shardOf, Nat.add_assoc, ← Nat.add_mul, Nat.add_sub_cancel' grows]

end

/-! ### A collective's packet in hand (11 R280; 13 R296) -/

section
variable {p : Packet} {s t : State} {c : Coll}

theorem unsent_countCross (s : State) (a b key n : Nat) : unsent (countCross s a b key n) = unsent s :=
  unsent_tellFrees _ _ _ _

/-- The credit that a packet gives back is the port's or the crossing's: the collectives stand. -/
@[simp] theorem releasePacket_coll (s : State) (p : Packet) : (releasePacket s p).coll = s.coll := by
  unfold releasePacket
  split
  · rfl
  · split
    · rfl
    · have kept := congrArg State.coll (unsent_countCross s p.plane.val (ejectDie s p) p.cls.toNat (packetFlits p))
      exact kept

@[simp] theorem openColl_releasePacket (s : State) (p : Packet) (cid : BitVec 12) :
    openColl (releasePacket s p) cid = openColl s cid := by
  rw [openColl, releasePacket_coll, openColl]

/-- A collective's packet for this device is pulled, from a device that is not fenced, and leaves the state `t`. -/
structure CollPulled (s : State) (p : Packet) (t : State) : Prop where
  live : fabricLive s = true
  here : s.fab.coord = some p.dst
  pulled : pullPacket s p = some t
  free : isFenced t p.src = false

theorem CollPulled.comes (h : CollPulled s p t) : ¬(!fabricLive s || s.fab.coord != some p.dst) = true := by
  simp [h.live, h.here]

theorem collEject_open (h : CollPulled s p t) (opened : openColl t p.id = some c) (epoch : c.epoch = p.epoch)
    (act : State → State) : collEject p act s = act t := by
  simp only [collEject, if_neg h.comes, h.pulled, h.free, opened, if_pos epoch, Bool.false_eq_true, if_false]

theorem collEject_unopened (h : CollPulled s p t) (unopened : openColl t p.id = none)
    (unclosed : t.coll.closed.contains p.id = false) (act : State → State) : collEject p act s = act t := by
  simp only [collEject, if_neg h.comes, h.pulled, h.free, unopened, unclosed, Bool.false_eq_true, if_false]

end

/-! ### Opening and starting (11 R272, R275, R278, R281) -/

section
variable {s : State} {q : QId} {i : BitVec 32}

/-- The collective that a descriptor opens. -/
def collOpened (s : State) (q : QId) (i : BitVec 32) (l : List Word) : Coll :=
  { cid := collId l, queue := q.val, idx := i, words := l, epoch := BitVec.ofNat 16 (dcell s 0xC000 1),
    started := false, ok := true, fail := none, reason := false, axis := 0, lap := 0, data := false, step := 0,
    got := [], lastPkt := clock s, poisoned := false }

/-- The die of a reducing collective is free. -/
def collDieFree (s : State) (d : Nat) : Prop :=
  (s.ve d).hold = none
    ∧ s.coll.opens.any (fun e => collDie e.words == d && (collOp e.words == 0 || collOp e.words == 2)) = false

theorem openCollective_opens {op : Nat} {j : Job} (job : s.job q.val i = some j) (coll : descType j.words = 16)
    (named : collOp j.words = op) (ready : j.phase = .ready) (room : s.coll.opens.length < 8)
    (unused : openColl s (collId j.words) = none) (free : op = 0 ∨ op = 2 → collDieFree s (collDie j.words)) :
    openCollective q i op s =
      let begun := s.modJob q.val i fun k => { k with phase := .working, plane := queueLocal q.val % 8 }
      { begun with coll := { begun.coll with
          opens := s.coll.opens ++ [collOpened s q i j.words],
          closed := s.coll.closed.filter (fun x => x != collId j.words) } } := by
  have notBusy : ¬((op = 0 ∨ op = 2) ∧ ((s.ve (collDie j.words)).hold.isSome = true
      ∨ s.coll.opens.any (fun e => collDie e.words == collDie j.words && (collOp e.words == 0 || collOp e.words == 2))
        = true)) := by
    rintro ⟨reduces, held | other⟩
    · rw [(free reduces).1] at held
      exact Bool.false_ne_true held
    · exact Bool.false_ne_true ((free reduces).2.symm.trans other)
  simp only [openCollective, job, coll, named, ready, Nat.not_le.mpr room, unused, Option.isSome_none, notBusy,
    Bool.false_eq_true, ne_eq, not_true_eq_false, or_self, if_false]
  rfl

/-- A collective at its START_TICK: it has started, and a reducing one holds its die. -/
def collStarted (s : State) (c : Coll) : State :=
  let on := modColl s c.cid (fun x => { x with started := true, lastPkt := clock s })
  if collOp c.words = 0 ∨ collOp c.words = 2 then
    on.setVe (collDie c.words) { on.ve (collDie c.words) with hold := some c.cid.toNat }
  else on

/-- A collective's range at a word of its descriptor is judged on its own die. -/
def collFault (s : State) (c : Coll) (w n : Nat) : Option (Nat × Place) :=
  faultIn s (collDie c.words) (addrOff (dword c.words w).toNat) n

/-- A range of a starting collective has faulted: it aborts with the fault's status and DETAIL, at the byte's own address. -/
def rangeAbort (s : State) (c : Coll) (w : Nat) (x : Nat × Place) : State :=
  abortColl (faultSticky (collStarted s c) 8 x.2) { c with started := true } (placeStatus x.2).toNat (s.fab.coord.getD 0)
    (placeStatus x.2)
    (placeDetail (wbits (dword c.words w) 55 0 - addrOff (dword c.words w).toNat + x.1) x.2)

/-- A collective of a descriptor that has not started, at its START_TICK. -/
structure CollDue (s : State) (q : QId) (i : BitVec 32) (c : Coll) : Prop where
  found : s.coll.opens.find? (fun x => x.queue == q.val && x.idx == i) = some c
  idle : c.started = false
  due : dword c.words 13 ≤ now s

variable {c : Coll}

theorem CollDue.starts (h : CollDue s q i c) : ¬(c.started || decide (now s < dword c.words 13)) = true := by
  rw [h.idle, decide_eq_false (BitVec.not_lt.mpr h.due)]
  decide

theorem collHandshakeStart_begins (h : CollDue s q i c) (src : collFault s c 6 (srcBytes s c.words) = none)
    (dst : collFault s c 7 (elemBytes (collFmt c.words) (collCount c.words)) = none) :
    collHandshakeStart q i s
      = chsRun c.cid ((collStarted s c).coll.pend.length + 8) (beginAxis (collStarted s c) c.cid) := by
  unfold collFault at src dst
  simp only [collHandshakeStart, h.found, if_neg h.starts, src, dst, Option.map_none]
  rfl

theorem collHandshakeStart_srcFaults (h : CollDue s q i c) {x : Nat × Place}
    (src : collFault s c 6 (srcBytes s c.words) = some x) : collHandshakeStart q i s = rangeAbort s c 6 x := by
  unfold collFault at src
  simp only [collHandshakeStart, h.found, if_neg h.starts, src, Option.map_some]
  rfl

theorem collHandshakeStart_dstFaults (h : CollDue s q i c) {x : Nat × Place}
    (src : collFault s c 6 (srcBytes s c.words) = none)
    (dst : collFault s c 7 (elemBytes (collFmt c.words) (collCount c.words)) = some x) :
    collHandshakeStart q i s = rangeAbort s c 7 x := by
  unfold collFault at src dst
  simp only [collHandshakeStart, h.found, if_neg h.starts, src, dst, Option.map_none, Option.map_some]
  rfl

end

/-! ### CHS (11 R272, R280) -/

section
variable {p : Packet} {s t u : State} {c : Coll}

/-- A CHS waits in the pending table. -/
def chsWaits (u : State) (p : Packet) : State :=
  modColl { u with coll := { u.coll with pend := u.coll.pend ++ [p] } } p.id (fun x => { x with lastPkt := clock u })

/-- A CHS of an open collective, and of its epoch, is in hand. -/
structure ChsInHand (s : State) (p : Packet) (t : State) (c : Coll) : Prop extends CollPulled s p t where
  opened : openColl t p.id = some c
  epoch : c.epoch = p.epoch

theorem chsIn_unopened (h : CollPulled s p t) (unopened : openColl t p.id = none)
    (unclosed : t.coll.closed.contains p.id = false) (room : (releasePacket t p).coll.pend.length < 64) :
    chsIn p s = returnFrees p (chsWaits (releasePacket t p) p) := by
  refine (collEject_unopened h unopened unclosed _).trans ?_
  simp only [consumed, openColl_releasePacket, unopened, if_pos room]
  rfl

theorem chsIn_wrong (h : ChsInHand s p t c) (wrong : chsWrong (releasePacket t p) c p = true) :
    chsIn p s = returnFrees p (neighbourAbort (releasePacket t p) c) := by
  refine (collEject_open h.toCollPulled h.opened h.epoch _).trans ?_
  simp only [consumed, openColl_releasePacket, h.opened, if_pos wrong]

theorem chsIn_later (h : ChsInHand s p t c) (right : chsWrong (releasePacket t p) c p = false)
    (early : c.started = false ∨ c.axis < wbits p.aux 63 62) (room : (releasePacket t p).coll.pend.length < 64) :
    chsIn p s = returnFrees p (chsWaits (releasePacket t p) p) := by
  have waits : (!c.started || decide (c.axis < wbits p.aux 63 62)) = true := by simpa using early
  refine (collEject_open h.toCollPulled h.opened h.epoch _).trans ?_
  simp only [consumed, openColl_releasePacket, h.opened, right, if_pos waits, if_pos room, Bool.false_eq_true, if_false]
  rfl

theorem chsIn_acts (h : ChsInHand s p t c) (right : chsWrong (releasePacket t p) c p = false)
    (started : c.started = true) (turn : wbits p.aux 63 62 = c.axis) :
    chsIn p s = returnFrees p (chsRun p.id ((releasePacket t p).coll.pend.length + 8)
      (takeChs (releasePacket t p) c p)) := by
  have acts : ¬(!c.started || decide (c.axis < wbits p.aux 63 62)) = true := by simp [started, turn]
  refine (collEject_open h.toCollPulled h.opened h.epoch _).trans ?_
  simp only [consumed, openColl_releasePacket, h.opened, right, if_neg acts, Bool.false_eq_true, if_false]

/-- A CHS of the axis in turn, from the ring predecessor, before the data phase keeps the neighbour rule. -/
theorem chsWrong_inTurn (shaking : c.data = false) (turn : wbits p.aux 63 62 = c.axis)
    (axis : c.axis < (collAxes c.words).length) (neighbour : p.src = ringPrev u c.words c.axis) :
    chsWrong u c p = false := by
  simp [chsWrong, shaking, turn, axis, ← neighbour]

/-- The lap of a CHS: 0 collects, 1 adopts. -/
def chsLap (p : Packet) : Nat := if p.aux.getLsbD 61 then 1 else 0

/-- A collecting CHS is folded into the member's verdict. -/
def chsFolded (u : State) (c : Coll) (p : Packet) : State :=
  modColl u c.cid (fun _ => { foldVerdict u c p with lap := 1, lastPkt := clock u })

/-- The verdict that an adopting CHS carries is taken. -/
def chsAdopted (u : State) (c : Coll) (p : Packet) : State :=
  modColl u c.cid (fun x =>
    { x with ok := p.aux.getLsbD 60, reason := p.aux.getLsbD 59, lastPkt := clock u,
             fail := if p.aux.getLsbD 60 then none else some (BitVec.ofNat 18 (wbits p.aux 17 0)) })

/-- A CHS of the lap that its member awaits keeps the neighbour rule. -/
structure ChsAwaited (u : State) (c : Coll) (p : Packet) : Prop where
  right : chsWrong u c p = false
  lap : chsLap p = if myRank u c.words c.axis = 1 then 1 else c.lap

theorem ChsAwaited.noAbort (h : ChsAwaited u c p) :
    ¬(chsWrong u c p || (chsLap p != if myRank u c.words c.axis = 1 then 1 else c.lap)) = true := by
  simp [h.right, h.lap]

theorem takeChs_awaited (h : ChsAwaited u c p) : takeChs u c p =
    if chsLap p = 0 then
      (if myRank u c.words c.axis = 0 then adoptVerdict (sendChs (chsFolded u c p) c.cid 1 p.data) c.cid
       else sendChs (chsFolded u c p) c.cid 0 p.data)
    else adoptVerdict (if myRank u c.words c.axis + 1 < lineSize c.words c.axis then
      sendChs (chsAdopted u c p) c.cid 1 p.data else chsAdopted u c p) c.cid :=
  if_neg h.noAbort

end

/-! ### CDATA (11 R265, R268, R269, R274) -/

section
variable {p : Packet} {s t u : State} {c : Coll} {step : Bool × Nat} {k n : Nat} {cid : BitVec 12}

/-- A member in a step of its data phase still awaits a packet of it. -/
structure CollAwaits (s : State) (cid : BitVec 12) (c : Coll) (step : Bool × Nat) : Prop where
  opened : openColl s cid = some c
  data : c.data = true
  current : (collSteps c.words)[c.step]? = some step
  left : c.got.length < (offsetsGot s c.words step).length

/-- Is an early packet one of the current step of a collective? -/
def isCurrent (cid : BitVec 12) (c : Coll) (e : Packet) : Bool := e.id == cid && stepOf c.words e == some c.step

theorem collRun_takes (h : CollAwaits s cid c step) (first : s.coll.early.find? (isCurrent cid c) = some p) :
    collRun cid (n + 1) s = collRun cid n (takeData (returnFrees p (releasePacket
      { s with coll := { s.coll with early := s.coll.early.erase p } } p)) c p) := by
  obtain ⟨opened, data, current, left⟩ := h
  unfold isCurrent at first
  simp only [collRun, opened, data, current, if_neg (Nat.not_le.mpr left), first, Bool.not_true, Bool.false_eq_true,
    if_false]

theorem collRun_waits (h : CollAwaits s cid c step) (alone : s.coll.early.find? (isCurrent cid c) = none) :
    collRun cid (n + 1) s = s := by
  obtain ⟨opened, data, current, left⟩ := h
  unfold isCurrent at alone
  simp only [collRun, opened, data, current, if_neg (Nat.not_le.mpr left), alone, Bool.not_true, Bool.false_eq_true,
    if_false]

/-- A packet of a collective has come at this moment. -/
def collTimed (t : State) (cid : BitVec 12) : State := modColl t cid (fun x => { x with lastPkt := clock t })

/-- A CDATA packet is among those that wait. -/
def cdataEntered (t : State) (p : Packet) : State :=
  { collTimed t p.id with coll := { (collTimed t p.id).coll with early := t.coll.early ++ [p] } }

theorem cdataIn_enters (h : CollPulled s p t) (opened : openColl t p.id = some c) (epoch : c.epoch = p.epoch)
    (at_ : stepOf c.words p = some k) (notPast : c.step ≤ k) :
    cdataIn p s = collRun p.id (t.coll.early.length + 16 + 1) (cdataEntered t p) := by
  have fresh : ¬(c.data && decide (k < c.step)) = true := by simp [Nat.not_lt.mpr notPast]
  refine (collEject_open h opened epoch _).trans ?_
  simp only [opened, at_, if_neg fresh, List.length_append, List.length_singleton]
  rw [Nat.add_right_comm]
  rfl

/-- The collective that awaited a packet awaits it still when the packet has come. -/
theorem cdataEntered_awaits (h : CollAwaits t p.id c step) :
    CollAwaits (cdataEntered t p) p.id { c with lastPkt := clock t } step where
  opened := openColl_modColl (fun _ => rfl) h.opened
  data := h.data
  current := h.current
  left := by
    rw [offsetsGot_congr (t := cdataEntered t p) (s := t) rfl]
    exact h.left

/-- The only packet of the current step: it is taken as soon as it has come. -/
theorem cdataEntered_runs (h : CollAwaits t p.id c step) (at_ : stepOf c.words p = some c.step)
    (alone : t.coll.early.find? (isCurrent p.id c) = none) :
    collRun p.id (n + 1) (cdataEntered t p) = collRun p.id n
      (takeData (returnFrees p (releasePacket (collTimed t p.id) p)) { c with lastPkt := clock t } p) := by
  have is : isCurrent p.id c p = true := by simp [isCurrent, at_]
  have first : (t.coll.early ++ [p]).find? (isCurrent p.id c) = some p := by
    rw [List.find?_append, alone, List.find?_singleton, if_pos is]
    rfl
  have new : p ∉ t.coll.early := fun listed => List.find?_eq_none.mp alone p listed is
  have back : (t.coll.early ++ [p]).erase p = t.coll.early := by
    rw [List.erase_append_right _ new, List.erase_cons_head, List.append_nil]
  refine (collRun_takes (cdataEntered_awaits h) first).trans ?_
  change collRun p.id n (takeData (returnFrees p (releasePacket
    { collTimed t p.id with coll := { (collTimed t p.id).coll with early := (t.coll.early ++ [p]).erase p } } p)) _ p) = _
  rw [back]
  rfl

/-- With no packet of the current step, one of a later step keeps waiting. -/
theorem cdataEntered_stays (h : CollAwaits t p.id c step) (at_ : stepOf c.words p ≠ some c.step)
    (alone : t.coll.early.find? (isCurrent p.id c) = none) :
    collRun p.id (n + 1) (cdataEntered t p) = cdataEntered t p := by
  have other : isCurrent p.id c p = false := by simp [isCurrent, at_]
  refine collRun_waits (cdataEntered_awaits h) ?_
  change (t.coll.early ++ [p]).find? (isCurrent p.id c) = _
  rw [List.find?_append, alone, List.find?_singleton, other]
  rfl

/-- The piece that a CDATA packet carries. -/
def cdataPiece (p : Packet) : Piece :=
  { data := p.data, mark := (List.range p.data.length).map (fun b => packetMark p (b / 8)) }

/-- A member has had a CDATA packet of the step. -/
def cdataNoted (u : State) (p : Packet) : State :=
  modColl u p.id (fun x => { x with got := x.got ++ [p.offset.toNat], lastPkt := clock u })

/-- A piece is written to DST where a CDATA packet goes, and its poison kept. -/
def dstWritten (t : State) (c : Coll) (p : Packet) (x : Piece) : State :=
  modColl (storePiece t (collKey c.words 7 (collFmt c.words) p.offset.toNat) x) p.id
    (fun y => { y with poisoned := y.poisoned || x.mark.any (· == true) })

/-- A received piece combined with a local one, with the flags. -/
def piecesCombined (c : Coll) (p : Packet) (own : Piece) : Piece × Nat :=
  combinePieces (collFmt c.words) (collRed c.words) (collArith c.words) (p.data.length * 8 / fmtBits (collFmt c.words))
    (cdataPiece p) own

/-- Both pieces are staged in the vector engine, and the flags of their combination noted. -/
def piecesStaged (t : State) (c : Coll) (p : Packet) (own : Piece) : State :=
  (stageBoth t (collDie c.words) (collFmt c.words) (cdataPiece p) own).modJob c.queue c.idx
    (fun y => { y with fp := y.fp ||| BitVec.ofNat 8 (piecesCombined c p own).2 })

/-- The member's own piece where a CDATA packet goes. -/
def ownPiece (t : State) (c : Coll) (p : Packet) (step : Bool × Nat) : Piece :=
  localPiece t (collKey c.words (readWord step) (collFmt c.words) p.offset.toNat) p.data.length

/-- A CDATA packet is one that its member awaits in its step and has not had. -/
structure CdataAwaited (u : State) (c : Coll) (p : Packet) (step : Bool × Nat) : Prop where
  named : c.cid = p.id
  current : (collSteps c.words)[c.step]? = some step
  awaited : (offsetsGot u c.words step).contains p.offset.toNat = true
  new : c.got.contains p.offset.toNat = false

theorem CdataAwaited.takes (h : CdataAwaited u c p step) :
    ¬(!(offsetsGot u c.words step).contains p.offset.toNat || c.got.contains p.offset.toNat) = true := by
  rw [h.awaited, h.new]
  decide

/-- In a reducing step the combined piece is written where its journey ends, else sent on. -/
theorem takeData_reduces (h : CdataAwaited u c p step) (reduces : step.1 = false) : takeData u c p =
    let own := ownPiece (cdataNoted u p) c p step
    let both := piecesCombined c p own
    let staged := piecesStaged (cdataNoted u p) c p own
    if wbits p.aux 60 55 = myRank u c.words step.2 then dstWritten staged c p both.1
    else sendPiece staged p.id step (wbits p.aux 60 55) p.offset.toNat (p.cls == 4) both.1 := by
  simp only [takeData, h.current, if_neg h.takes, h.named, reduces, Bool.false_eq_true, if_false]
  rfl

/-- In a gathering step the piece is written, and sent on unless its journey ends. -/
theorem takeData_gathers (h : CdataAwaited u c p step) (gathers : step.1 = true) : takeData u c p =
    let wrote := dstWritten (cdataNoted u p) c p (cdataPiece p)
    if (myRank u c.words step.2 + 1) % lineSize c.words step.2 = wbits p.aux 60 55 then wrote
    else sendPiece wrote p.id step (wbits p.aux 60 55) p.offset.toNat (p.cls == 4) (cdataPiece p) := by
  simp only [takeData, h.current, if_neg h.takes, h.named, gathers, if_true]
  rfl

end

/-! ### Aborts (11 R277 to R279) -/

section
variable {p : Packet} {s t u : State} {c : Coll} {cid : BitVec 12}

theorem cabortIn_open (h : CollPulled s p t) (opened : openColl t p.id = some c) (epoch : c.epoch = p.epoch) :
    let origin := wbits p.aux 7 0
    let who := BitVec.ofNat 18 (wbits p.aux 25 8)
    cabortIn p s = returnFrees p (if origin = 0x23 ∧ p.src = who then
        abortColl (sticky (releasePacket t p) 0xA0B0 3 0) c origin who 0x23 who.toNat
      else abortColl (sticky (releasePacket t p) 0xA0B0 5 0) c origin who 0x21 (origin * 2 ^ 24 + who.toNat)) := by
  refine (collEject_open h opened epoch _).trans ?_
  simp only [consumed, openColl_releasePacket, opened]

theorem collProgressTimeout_aborts (opened : openColl s cid = some c) (started : c.started = true)
    (late : collTicks s c.words ≤ (clock s - c.lastPkt).toNat) :
    let k := if c.data then ((collSteps c.words).getD c.step (true, 0)).2 else c.axis
    collProgressTimeout cid s = abortColl (sticky s 0xA0B0 2 0) c 0x22 (s.fab.coord.getD 0) 0x22
      (k * 2 ^ 30 + (if c.data then 2 ^ 29 else 0) + (ringPrev s c.words k).toNat) := by
  have runsOut : ¬(!c.started || decide ((clock s - c.lastPkt).toNat < collTicks s c.words)) = true := by
    rw [started, decide_eq_false (Nat.not_lt.mpr late)]
    decide
  simp only [collProgressTimeout, opened, if_neg runsOut]

end

/-- Settles O31: an opening, a start by its ranges, and a CHS by the neighbour rule, its axis and its lap. -/
theorem collectivesOpenAndShake : Obligations.CollectivesOpenAndShake := by
  unfold Obligations.CollectivesOpenAndShake
  refine ⟨fun q i s j op c job coll named ready room unused free row => ?_, fun q i s c => ?_, fun p s t => ?_⟩
  · have opens := openCollective_opens job coll named ready room unused free
    rcases row with ⟨rfl, rfl⟩ | ⟨rfl, rfl⟩ | ⟨rfl, rfl⟩ | ⟨rfl, rfl⟩ <;> exact congrArg Host.Outcome.next opens
  · intro l d on held base src dst abort found idle due
    have h : CollDue s q i c := ⟨found, idle, due⟩
    have aborts (w a : Nat) (x : Place) : rangeAbort s c w (a, x) = abort (base w + a) x := rfl
    exact ⟨fun sound sound' => congrArg Host.Outcome.next (collHandshakeStart_begins h sound sound'),
      fun a x faults => congrArg Host.Outcome.next ((collHandshakeStart_srcFaults h faults).trans (aborts 6 a x)),
      fun a x sound faults =>
        congrArg Host.Outcome.next ((collHandshakeStart_dstFaults h sound faults).trans (aborts 7 a x))⟩
  · intro u lap waits live here pulled free
    have pulls : CollPulled s p t := ⟨live, here, pulled, free⟩
    refine ⟨fun unopened unclosed room => congrArg Host.Outcome.next (chsIn_unopened pulls unopened unclosed room),
      fun c opened _ epoch => ?_⟩
    intro r run folded
    have hand : ChsInHand s p t c := ⟨pulls, opened, epoch⟩
    refine ⟨fun wrong => congrArg Host.Outcome.next (chsIn_wrong hand wrong),
      fun right early room => congrArg Host.Outcome.next (chsIn_later hand right early room),
      fun started shaking turn axis neighbour awaited => ?_⟩
    have right : chsWrong u c p = false := chsWrong_inTurn shaking turn axis neighbour
    have acts := (chsIn_acts hand right started turn).trans (congrArg run (takeChs_awaited ⟨right, awaited⟩))
    refine ⟨fun collects later => congrArg Host.Outcome.next (acts.trans (congrArg run ?_)),
      fun collects first => congrArg Host.Outcome.next (acts.trans (congrArg run ?_)),
      fun adopts => congrArg Host.Outcome.next (acts.trans (congrArg run ?_))⟩
    · exact (if_pos collects).trans (if_neg later)
    · exact (if_pos collects).trans (if_pos first)
    · exact if_neg (adopts.trans_ne Nat.one_ne_zero)

/-- Settles O32: a packet of the step by the kind of the step and its journey's end, and one of a later step. -/
theorem collectiveDataTaken : Obligations.CollectiveDataTaken := by
  unfold Obligations.CollectiveDataTaken
  intro p s t c k step timed u l f r j off got noted write own both staged run live here pulled free opened epoch data at_
  have pulls : CollPulled s p t := ⟨live, here, pulled, free⟩
  refine ⟨?_, fun later current left alone => congrArg Host.Outcome.next ?_⟩
  · rintro rfl current left alone awaited new
    have takes : cdataIn p s = run (takeData u { c with lastPkt := clock t } p) :=
      (cdataIn_enters pulls opened epoch at_ le_rfl).trans (cdataEntered_runs ⟨opened, data, current, left⟩ at_ alone)
    have named : c.cid = p.id := openColl_cid opened
    have awaits : CdataAwaited u { c with lastPkt := clock t } p step := ⟨named, current, awaited, new⟩
    have acts {v : State} (taken : takeData u { c with lastPkt := clock t } p = v) :
        exec (.cdata p) s = .next (run v) := congrArg Host.Outcome.next (takes.trans (congrArg run taken))
    exact ⟨fun reduces ends => acts ((takeData_reduces awaits reduces).trans (if_pos ends)),
      fun reduces goesOn => acts ((takeData_reduces awaits reduces).trans (if_neg goesOn)),
      fun gathers ends => acts ((takeData_gathers awaits gathers).trans (if_pos ends)),
      fun gathers goesOn => acts ((takeData_gathers awaits gathers).trans (if_neg goesOn))⟩
  · have other : stepOf c.words p ≠ some c.step := fun same => later.ne' (Option.some.inj (at_.symm.trans same))
    exact (cdataIn_enters pulls opened epoch at_ later.le).trans
      (cdataEntered_stays ⟨opened, data, current, left⟩ other alone)

/-- Settles O33: an abort by its origin, a timeout by its phase, and the shards by their ends. -/
theorem collectiveAborts : Obligations.CollectiveAborts := by
  unfold Obligations.CollectiveAborts
  refine ⟨fun p s t c => ?_, fun cid s c opened started late =>
    congrArg Host.Outcome.next (collProgressTimeout_aborts opened started late),
    fun f lo n m j _ members whole => ⟨shardOf_first, shardOf_end members whole, shardOf_next j⟩⟩
  intro u origin who live here pulled free opened _ epoch
  have aborts := cabortIn_open ⟨live, here, pulled, free⟩ opened epoch
  exact ⟨fun unreachable => congrArg Host.Outcome.next (aborts.trans (congrArg _ (if_pos unreachable))),
    fun other => congrArg Host.Outcome.next (aborts.trans (congrArg _ (if_neg other)))⟩

end Sys2Proof.Machine
end

section
/-! The event of a sticky bit (15 R348, R349; 13 R313; 14 R323): what it sets and what it may touch, and O5. -/

namespace Sys2Proof.Machine

/-- Two entries of the dictionary are one where their keys are (15 R329). -/
theorem dkey_inj {idx sub i k : Nat} (low : sub < 256) (small : k < 256) (same : dkey idx sub = dkey i k) :
    (idx, sub) = (i, k) := by
  simp only [dkey] at same
  rw [Prod.mk.injEq]
  omega

section
variable {s t : State} {idx sub bit : Nat}

theorem sticky_set (set : dbit s idx sub bit = true) : sticky s idx sub bit = s := if_pos set

theorem sticky_clear (clear : dbit s idx sub bit = false) : sticky s idx sub bit =
    raiseError (addDebt (journal (dputBit s idx sub bit true) idx sub bit) (debtOf idx sub)) :=
  if_neg (ne_true_of_eq_false clear)

/-- States that differ at most in what a sticky bit may change. -/
theorem eq_of_unflagged (same : unflagged t = unflagged s) :
    t = { s with dict := t.dict, mgmt := t.mgmt, health := t.health, host := t.host, out := t.out } := by
  calc t
    _ = { unflagged t with dict := t.dict, mgmt := t.mgmt, health := t.health, host := t.host, out := t.out } := rfl
    _ = { unflagged s with dict := t.dict, mgmt := t.mgmt, health := t.health, host := t.host, out := t.out } := by rw [same]

@[simp] theorem raiseVector_health (s : State) (v : Nat) : (raiseVector s v).health = s.health := by
  unfold raiseVector
  split <;> rfl

@[simp] theorem journal_health (s : State) (idx sub bit : Nat) : (journal s idx sub bit).health = s.health := by
  unfold journal
  extract_lets m fresh used at_
  split <;> rfl

theorem sticky_debt (clear : dbit s idx sub bit = false) :
    (sticky s idx sub bit).health.debt = min 1000 (s.health.debt + debtOf idx sub) := by
  rw [sticky_clear clear, raiseError, raiseVector_health, addDebt, journal_health]
  rfl

end

/-- Settles O5: a bit that stands set, and one that is clear, whose event changes the dictionary and its books only. -/
theorem stickyBitEvents : Obligations.StickyBitEvents := by
  unfold Obligations.StickyBitEvents
  intro s idx sub b
  refine ⟨sticky_set, fun clear => ⟨eq_of_unflagged (unflagged_sticky s idx sub b), sticky_debt clear,
    fun _ lost counter low _ small => ?_⟩⟩
  exact dbit_sticky (Nat.lt_succ_of_lt small) (fun same => counter (dkey_inj low (by decide) same))
    (fun same => lost (dkey_inj low (by decide) same))

end Sys2Proof.Machine
end

section
/-! The dictionary of a canonical state (15 R329), the coolant check (18 R387), and O52. -/

namespace Sys2Proof.Machine

/-! ### Entries that a write leaves as they were -/

section
variable {α : Type} [DecidableEq α] {d : α} {m n : SMap α} {lo i j : Nat}

theorem ne_default_of_mfind {v : α} (wf : mwf d lo m = true) (found : mfind m i = some v) : v ≠ d := by
  induction m generalizing lo with
  | nil => cases found
  | cons e r ih =>
    obtain ⟨k, w⟩ := e
    simp only [mwf, Bool.and_eq_true, decide_eq_true_eq] at wf
    obtain ⟨⟨-, listed⟩, rest⟩ := wf
    unfold mfind at found
    split at found
    · exact ih rest found
    · split at found
      · rwa [← Option.some.inj found]
      · cases found

/-- What a canonical map lists for a key is known from the key's value. -/
theorem mfind_eq_of_wf (wf : mwf d lo m = true) : mfind m i = if mget d m i = d then none else some (mget d m i) := by
  cases found : mfind m i with
  | none => simp [mget, found]
  | some v => simp [mget, found, ne_default_of_mfind wf found]

theorem mfind_mput_apart (wf : mwf d 0 m = true) (v : α) (other : j ≠ i) : mfind (mput d m i v) j = mfind m j := by
  rw [mfind_eq_of_wf (mwf_mput v wf (Nat.zero_le i)), mfind_eq_of_wf wf, mget_mput_other v wf other]

end

/-- The numbers of the dictionary stand in their canonical form. -/
abbrev DictWf (s : State) : Prop := mwf dictAbsent 0 s.dict = true

section
variable {s t : State} {idx sub k : Nat}

theorem dictWf_dset (wf : DictWf s) (idx sub v : Nat) : DictWf (dset s idx sub v) := mwf_mput v wf (Nat.zero_le _)

theorem dictWf_bump (wf : DictWf s) (idx sub n : Nat) : DictWf (bump s idx sub n) := dictWf_dset wf _ _ _

theorem dictWf_raiseVector (wf : DictWf s) (v : Nat) : DictWf (raiseVector s v) := by
  unfold raiseVector
  split
  · exact dictWf_bump (s := emit s _) wf _ _ _
  · exact wf

theorem dictWf_journal (wf : DictWf s) (idx sub bit : Nat) : DictWf (journal s idx sub bit) := by
  unfold journal
  extract_lets m fresh used at_
  split
  · exact wf
  · exact dictWf_bump (s := { s with mgmt := _ }) wf _ _ _

theorem dictWf_sticky (wf : DictWf s) (idx sub bit : Nat) : DictWf (sticky s idx sub bit) := by
  unfold sticky
  split
  · exact wf
  · have noted : DictWf (journal (dputBit s idx sub bit true) idx sub bit) := dictWf_journal (dictWf_dset wf _ _ _) _ _ _
    exact dictWf_raiseVector (s := addDebt _ _) noted _

theorem mfind_dset_other (wf : DictWf s) (v : Nat) (other : k ≠ dkey idx sub) :
    mfind (dset s idx sub v).dict k = mfind s.dict k := mfind_mput_apart wf v other

theorem mfind_dset_listed {v : Nat} (listed : v ≠ dictAbsent) (other : k ≠ dkey idx sub) :
    mfind (dset s idx sub v).dict k = mfind s.dict k := mfind_mput_other s.dict listed other

theorem counter_listed (n : Nat) : n % 2 ^ 64 ≠ dictAbsent :=
  Nat.ne_of_lt (Nat.lt_trans (Nat.mod_lt _ (by decide)) (by decide))

theorem mfind_bump_other (n : Nat) (other : k ≠ dkey idx sub) : mfind (bump s idx sub n).dict k = mfind s.dict k :=
  mfind_dset_listed (counter_listed _) other

theorem mfind_raiseVector (other : k ≠ dkey 0x80D0 4) (v : Nat) : mfind (raiseVector s v).dict k = mfind s.dict k := by
  unfold raiseVector
  split
  · exact mfind_bump_other 1 other
  · rfl

theorem mfind_journal (other : k ≠ dkey 0xA0FF 3) (bit : Nat) :
    mfind (journal s idx sub bit).dict k = mfind s.dict k := by
  unfold journal
  extract_lets m fresh used at_
  split
  · rfl
  · exact mfind_bump_other (idx := 0xA0FF) 1 other

/-- An event leaves the entries alone but its own map, the journal's loss count and the vectors' count. -/
theorem mfind_sticky {bit : Nat} (small : bit < 65) (own : k ≠ dkey idx sub) (lost : k ≠ dkey 0xA0FF 3)
    (vectors : k ≠ dkey 0x80D0 4) : mfind (sticky s idx sub bit).dict k = mfind s.dict k := by
  unfold sticky
  split
  · rfl
  · calc mfind (raiseError (addDebt (journal (dputBit s idx sub bit true) idx sub bit) (debtOf idx sub))).dict k
        = mfind (journal (dputBit s idx sub bit true) idx sub bit).dict k := mfind_raiseVector vectors _
      _ = mfind (dputBit s idx sub bit true).dict k := mfind_journal lost bit
      _ = mfind s.dict k := mfind_dset_listed (putBit_true_listed small) own

theorem dcell_of_mfind (same : mfind t.dict (dkey idx sub) = mfind s.dict (dkey idx sub)) :
    dcell t idx sub = dcell s idx sub := by simp only [dcell, mget, same]

theorem dnum_of_mfind (same : mfind t.dict (dkey idx sub) = mfind s.dict (dkey idx sub)) :
    dnum t idx sub = dnum s idx sub := by simp only [dnum, same]

/-- The value listed for a key, or that for "not listed". -/
theorem mget_of_mfind (same : mfind t.dict k = mfind s.dict k) : mget dictAbsent t.dict k = mget dictAbsent s.dict k := by
  simp only [mget, same]

theorem mget_dset (wf : DictWf s) (v : Nat) : mget dictAbsent (dset s idx sub v).dict (dkey idx sub) = v :=
  mget_mput_same v wf

end

theorem loaded_congr {s t : State} (stage : t.stage = s.stage) (boot : t.boot = s.boot) : loaded t = loaded s := by
  simp only [loaded, hubOn, domainOn, stage, boot]

theorem clockSteps_congr {s t : State} (therms : t.therms = s.therms) (cap : t.power.cap = s.power.cap) (d : Nat) :
    clockSteps t d = clockSteps s d := by
  simp only [clockSteps, State.therm, therms, cap]

/-! ### The coolant (18 R387) -/

/-- The coolant's entries are put for a comparison. -/
def coolantNoted (s : State) (inA inB outA outB : Int) : State :=
  dset (dset (dset (dset (dset s 0x6025 1 (ratF32 inA 1000)) 0x6025 2 (ratF32 inB 1000)) 0x6025 3 (ratF32 outA 1000))
    0x6025 4 (ratF32 outB 1000)) 0x6029 1 (ratF32 (outA + outB - inA - inB) 2000)

/-- Twice the rise above which a comparison counts, and the count after one. -/
def hotRunsAfter (n : Nat) (rise : Int) : Nat := if 40000 < rise then min 10 (n + 1) else 0

/-- A comparison has been noted and counted. -/
def coolantCounted (s : State) (inA inB outA outB : Int) : State :=
  { coolantNoted s inA inB outA outB with
    power := { s.power with hotRuns := hotRunsAfter s.power.hotRuns (outA + outB - inA - inB) } }

section
variable {s : State} {a b c d : Int}

theorem standing_coolantNoted : standing (coolantNoted s a b c d) = standing s := by simp [coolantNoted]

theorem standing_coolantCounted : standing (coolantCounted s a b c d) = { standing s with
    power := { s.power with hotRuns := hotRunsAfter s.power.hotRuns (c + d - a - b) } } :=
  congrArg (fun x : Standing => { x with
    power := { s.power with hotRuns := hotRunsAfter s.power.hotRuns (c + d - a - b) } }) standing_coolantNoted

theorem coolantCheck_loaded (up : loaded s = true) : coolantCheck a b c d s =
    if hotRunsAfter s.power.hotRuns (c + d - a - b) = 10 ∧ s.power.hotRuns < 10 then
      sticky (coolantCounted s a b c d) 0xA010 14 0
    else coolantCounted s a b c d := if_neg (by simp [up])

/-- The tenth of a run sets the bit. -/
theorem coolantCheck_tenth (up : loaded s = true) (hot : 40000 < c + d - a - b) (ninth : s.power.hotRuns = 9) :
    coolantCheck a b c d s = sticky (coolantCounted s a b c d) 0xA010 14 0 := by
  rw [coolantCheck_loaded up, hotRunsAfter, if_pos hot, ninth]
  rfl

/-- No other comparison does. -/
theorem coolantCheck_other (up : loaded s = true) (other : 40000 < c + d - a - b → s.power.hotRuns ≠ 9) :
    coolantCheck a b c d s = coolantCounted s a b c d := by
  rw [coolantCheck_loaded up, if_neg]
  rintro ⟨ten, below⟩
  unfold hotRunsAfter at ten
  split at ten
  · rename_i hot
    have := other hot
    omega
  · omega

/-- Either way the package stands as counted, and the coolant's entries read as they were put. -/
theorem coolantCheck_keeps (up : loaded s = true) : standing (coolantCheck a b c d s) = { standing s with
      power := { s.power with hotRuns := hotRunsAfter s.power.hotRuns (c + d - a - b) } }
    ∧ ∀ k, k ≠ dkey 0xA010 14 → k ≠ dkey 0xA0FF 3 → k ≠ dkey 0x80D0 4 →
      mfind (coolantCheck a b c d s).dict k = mfind (coolantNoted s a b c d).dict k := by
  rw [coolantCheck_loaded up]
  split
  · exact ⟨(standing_sticky _ _ _ _).trans standing_coolantCounted, fun k => mfind_sticky (by decide)⟩
  · exact ⟨standing_coolantCounted, fun _ _ _ _ => rfl⟩

theorem coolantCheck_hotRuns (up : loaded s = true) :
    (coolantCheck a b c d s).power.hotRuns = hotRunsAfter s.power.hotRuns (c + d - a - b) :=
  congrArg (fun x => x.power.hotRuns) (coolantCheck_keeps up).1

/-- The entry of a coolant temperature is none of a higher index. -/
theorem coolant_key {k idx sub : Nat} {v : Int} (listed : (k, v) ∈ [(1, a), (2, b), (3, c), (4, d)]) (high : 0x6025 < idx) :
    dkey 0x6025 k ≠ dkey idx sub := by
  simp only [List.mem_cons, Prod.mk.injEq, List.not_mem_nil, or_false] at listed
  simp only [dkey]
  omega

theorem coolantNoted_reads (wf : DictWf s) : mget dictAbsent (coolantNoted s a b c d).dict (dkey 0x6029 1)
      = ratF32 (c + d - a - b) 2000
    ∧ ∀ k v, (k, v) ∈ [(1, a), (2, b), (3, c), (4, d)] →
      mget dictAbsent (coolantNoted s a b c d).dict (dkey 0x6025 k) = ratF32 v 1000 := by
  have w1 := dictWf_dset wf 0x6025 1 (ratF32 a 1000)
  have w2 := dictWf_dset w1 0x6025 2 (ratF32 b 1000)
  have w3 := dictWf_dset w2 0x6025 3 (ratF32 c 1000)
  have w4 := dictWf_dset w3 0x6025 4 (ratF32 d 1000)
  refine ⟨mget_dset w4 _, fun k v listed => (mget_of_mfind (mfind_dset_other w4 _ (coolant_key listed (by omega)))).trans ?_⟩
  · simp only [List.mem_cons, Prod.mk.injEq, List.not_mem_nil, or_false] at listed
    rcases listed with ⟨rfl, rfl⟩ | ⟨rfl, rfl⟩ | ⟨rfl, rfl⟩ | ⟨rfl, rfl⟩
    · refine (mget_of_mfind (mfind_dset_other w3 _ (by decide))).trans ?_
      refine (mget_of_mfind (mfind_dset_other w2 _ (by decide))).trans ?_
      exact (mget_of_mfind (mfind_dset_other w1 _ (by decide))).trans (mget_dset wf _)
    · refine (mget_of_mfind (mfind_dset_other w3 _ (by decide))).trans ?_
      exact (mget_of_mfind (mfind_dset_other w2 _ (by decide))).trans (mget_dset w1 _)
    · exact (mget_of_mfind (mfind_dset_other w3 _ (by decide))).trans (mget_dset w2 _)
    · exact mget_dset w3 _

theorem coolantNoted_other {k : Nat} (wf : DictWf s) (above : 0x6030 * 256 ≤ k) :
    mfind (coolantNoted s a b c d).dict k = mfind s.dict k := by
  have other (idx sub : Nat) (low : dkey idx sub < 0x6030 * 256) : k ≠ dkey idx sub := Nat.ne_of_gt (Nat.lt_of_lt_of_le low above)
  have w1 := dictWf_dset wf 0x6025 1 (ratF32 a 1000)
  have w2 := dictWf_dset w1 0x6025 2 (ratF32 b 1000)
  have w3 := dictWf_dset w2 0x6025 3 (ratF32 c 1000)
  have w4 := dictWf_dset w3 0x6025 4 (ratF32 d 1000)
  calc mfind (coolantNoted s a b c d).dict k
    _ = _ := mfind_dset_other w4 _ (other _ _ (by decide))
    _ = _ := mfind_dset_other w3 _ (other _ _ (by decide))
    _ = _ := mfind_dset_other w2 _ (other _ _ (by decide))
    _ = _ := mfind_dset_other w1 _ (other _ _ (by decide))
    _ = _ := mfind_dset_other wf _ (other _ _ (by decide))

/-- A comparison that is not the tenth leaves the bit. -/
theorem coolantCheck_bit (wf : DictWf s) (up : loaded s = true) (other : 40000 < c + d - a - b → s.power.hotRuns ≠ 9) :
    dbit (coolantCheck a b c d s) 0xA010 14 0 = dbit s 0xA010 14 0 := by
  have same : dcell (coolantCounted s a b c d) 0xA010 14 = dcell s 0xA010 14 :=
    dcell_of_mfind (coolantNoted_other wf (by decide))
  rw [coolantCheck_other up other, dbit, dbit, same]

theorem coolantCheck_sets (up : loaded s = true) (hot : 40000 < c + d - a - b) (ninth : s.power.hotRuns = 9) :
    dbit (coolantCheck a b c d s) 0xA010 14 0 = true := by
  rw [coolantCheck_tenth up hot ninth]
  exact dbit_sticky (by decide) (by decide) (by decide)

theorem execCoolantCheck_due (due : checkDue s ckCoolant 1000000000 = true) :
    exec (.coolantCheck a b c d) s = .next (coolantCheck a b c d (ran s ckCoolant (clock s))) :=
  congrArg Host.Outcome.next (periodic_due due _)

end

/-- A run of comparisons counts on from what was counted before it. -/
theorem hotRuns_counted {before after : Nat → State} {rise : Nat → Int} {m : Nat} (room : m + (before 0).power.hotRuns = 9)
    (step : ∀ k ≤ m, 40000 < rise k ∧ (after k).power.hotRuns = hotRunsAfter (before k).power.hotRuns (rise k))
    (next : ∀ k < m, (before (k + 1)).power.hotRuns = (after k).power.hotRuns) :
    ∀ k ≤ m, (before k).power.hotRuns = (before 0).power.hotRuns + k := by
  intro k
  induction k with
  | zero => exact fun _ => rfl
  | succ k ih =>
    intro within
    obtain ⟨hot, counted⟩ := step k (by omega)
    rw [next k within, counted, hotRunsAfter, if_pos hot, ih (by omega)]
    omega

/-- Settles O52: a comparison that is due is counted, and the tenth of a run sets the bit. -/
theorem coolantRiseJudged : Obligations.CoolantRiseJudged := by
  unfold Obligations.CoolantRiseJudged
  refine ⟨fun s a b c d up canonical due => ?_, fun s a b c d early => congrArg Host.Outcome.next (periodic_early early _),
    fun before after a b c d m room steps next => ?_⟩
  · have live : loaded (ran s ckCoolant (clock s)) = true := up
    have wf : DictWf (ran s ckCoolant (clock s)) := canonical.dict
    obtain ⟨stands, reads⟩ := coolantCheck_keeps (a := a) (b := b) (c := c) (d := d) live
    obtain ⟨rise, inputs⟩ := coolantNoted_reads (a := a) (b := b) (c := c) (d := d) wf
    have stage := congrArg Standing.stage stands
    have boot := congrArg Standing.boot stands
    have therms := congrArg Standing.therms stands
    have power := congrArg Standing.power stands
    refine ⟨_, execCoolantCheck_due due, ?_, therms, ?_, fun e => ?_, ?_, fun k v listed => ?_, fun cool => ⟨?_, ?_⟩,
      fun _ notNinth => coolantCheck_bit wf live fun _ => notNinth⟩
    · exact (loaded_congr stage boot).trans up
    · exact power.trans (congrArg (fun n => { (ran s ckCoolant (clock s)).power with hotRuns := n })
        (coolantCheck_hotRuns live).symm)
    · exact clockSteps_congr therms (congrArg (fun x : Standing => x.power.cap) stands) e
    · exact (mget_of_mfind (reads _ (by decide) (by decide) (by decide))).trans rise
    · exact (mget_of_mfind (reads _ (coolant_key listed (by decide)) (coolant_key listed (by decide))
        (coolant_key listed (by decide)))).trans (inputs k v listed)
    · rw [coolantCheck_hotRuns live, hotRunsAfter, if_neg (Int.not_lt.mpr cool)]
    · exact coolantCheck_bit wf live fun hot => absurd hot (Int.not_lt.mpr cool)
  · have each (k : Nat) (within : k ≤ m) : loaded (ran (before k) ckCoolant (clock (before k))) = true
        ∧ 40000 < c k + d k - a k - b k
        ∧ after k = coolantCheck (a k) (b k) (c k) (d k) (ran (before k) ckCoolant (clock (before k))) := by
      obtain ⟨up, -, due, hot, runs⟩ := steps k within
      exact ⟨up, hot, (Host.Outcome.next.inj ((execCoolantCheck_due due).symm.trans runs)).symm⟩
    obtain ⟨live, hot, last⟩ := each m le_rfl
    have counted := hotRuns_counted room (rise := fun k => c k + d k - a k - b k)
      (fun k within => by
        obtain ⟨live, hot, last⟩ := each k within
        exact ⟨hot, (congrArg (fun t => t.power.hotRuns) last).trans (coolantCheck_hotRuns live)⟩) next m le_rfl
    have ninth : (before m).power.hotRuns = 9 := by omega
    rw [last]
    exact coolantCheck_sets live hot ninth

end Sys2Proof.Machine
end

section
/-! Accesses of the BARs that have a row of their own (14 R319, R320), and O48. -/

namespace Sys2Proof.Machine

/-! ### Bytes read back (07 R155) -/

section
variable {s : State} {key : Nat}

theorem readByte_writeBytes_before (wf : Memory.wf s.mem = true) {k : Nat} (before : k < key) (l : List Byte) :
    readByte (writeBytes s key l) k = readByte s k := by
  induction l generalizing s key with
  | nil => rfl
  | cons b r ih =>
    exact (ih (wf_writeByte wf key b) (Nat.lt_succ_of_lt before)).trans
      (readByte_writeByte_other wf b (Nat.ne_of_lt before))

theorem readBytes_writeBytes (wf : Memory.wf s.mem = true) (l : List Byte) :
    readBytes (writeBytes s key l) key l.length = l := by
  induction l generalizing s key with
  | nil => rfl
  | cons b r ih =>
    have wrote := wf_writeByte wf key b
    exact congrArg₂ List.cons ((readByte_writeBytes_before wrote (Nat.lt_succ_self key) r).trans (readByte_writeByte wf key b))
      (ih wrote)

theorem readBytes_storeBytes (wf : Memory.wf s.mem = true) (l : List Byte) (pz : Nat → Bool) :
    readBytes (storeBytes s key l pz) key l.length = l :=
  readBytes_writeBytes (by simpa using wf) l

end

/-! ### Where an address leads, after a store of bytes -/

section
variable {s t : State}

/-- Where an address leads depends on the stacks and the memory record, not on what is stored. -/
theorem faultIn_of_unstored (same : unstored t = unstored s) (die off len : Nat) :
    faultIn t die off len = faultIn s die off len := by
  have range (u : State) (o n : Nat) : rangeFault (unstored u) die o n = rangeFault u die o n := by
    induction n generalizing o with
    | zero => rfl
    | succ n ih =>
      have place : placeOf (unstored u) die o = placeOf u die o := rfl
      rw [rangeFault, rangeFault, place]
      simp only [ih]
  rw [faultIn, faultIn, ← range t, ← range s, same]

end

/-- Whether the hub runs is part of how the package stands. -/
theorem hubOn_of_standing {s t : State} (same : standing t = standing s) : hubOn t = hubOn s := by
  have stage : t.stage = s.stage := congrArg Standing.stage same
  have boot : t.boot = s.boot := congrArg Standing.boot same
  simp only [hubOn, domainOn, stage, boot]

/-! ### BAR0 (14 R319, Table 14.2) -/

section
variable {s : State} {base : Nat}

/-- An aligned offset outside the map has no register. -/
theorem bar0Word_reserved (aligned : base % 8 = 0) (reserved : bar0Mapped base = false) : bar0Word s base = 0 := by
  simp only [bar0Mapped, Bool.or_eq_false_iff, Bool.and_eq_false_iff, decide_eq_false_iff_not, not_lt, not_le] at reserved
  unfold bar0Word
  repeat rw [if_neg (by omega)]

theorem execBar0_mapped {off : BitVec 24} (on : hubOn s = true) (mapped : bar0Mapped (off.toNat / 8 * 8) = true) :
    exec (.bar0ReservedAccess off true) s = .next s ∧ exec (.bar0ReservedAccess off false) s =
      .next (emit s (.bar0 (BitVec.ofNat 64 (bar0Word s (off.toNat / 8 * 8))))) := by
  have runs : ¬(!hubOn s) = true := by simp [on]
  exact ⟨congrArg Host.Outcome.next ((if_neg runs).trans (if_pos mapped)),
    congrArg Host.Outcome.next ((if_neg runs).trans (congrArg (emit · _) (if_pos mapped)))⟩

theorem execBar0_reserved {off : BitVec 24} (on : hubOn s = true) (reserved : bar0Mapped (off.toNat / 8 * 8) = false) :
    exec (.bar0ReservedAccess off true) s = .next (sticky s 0xA0D0 4 0)
      ∧ exec (.bar0ReservedAccess off false) s = .next (emit (sticky s 0xA0D0 4 0) (.bar0 0)) := by
  have runs : ¬(!hubOn s) = true := by simp [on]
  have unmapped := ne_true_of_eq_false reserved
  have zero := bar0Word_reserved (s := s) (Nat.mul_mod_left _ _) reserved
  refine ⟨congrArg Host.Outcome.next ((if_neg runs).trans (if_neg unmapped)), congrArg Host.Outcome.next ?_⟩
  refine (if_neg runs).trans ((congrArg (emit · _) (if_neg unmapped)).trans ?_)
  rw [zero]
  rfl

end

/-! ### BAR2 (14 R320; 07 R162) -/

section
variable {s u : State} {off : BitVec 41} {l : List Byte} {n : Nat} {errs : List ReadErr}

/-- A range of the store of a die or of the hub that BAR2 reaches. -/
structure Bar2Maps (u : State) (die off len : Nat) : Prop where
  mapped : faultIn u die off len = none
  served : ¬(die < 8 ∧ u.boot.complete = false)

theorem Bar2Maps.good {die o len : Nat} (h : Bar2Maps u die o len) :
    ¬((faultIn u die o len).isSome || (decide (die < 8) && !u.boot.complete)) = true := by
  obtain ⟨mapped, served⟩ := h
  rw [mapped]
  simpa using served

/-- Any other range. -/
theorem bar2_bad {p : Option (Nat × Place)} {die : Nat} (bad : p ≠ none ∨ (die < 8 ∧ u.boot.complete = false)) :
    (p.isSome || (decide (die < 8) && !u.boot.complete)) = true := by
  rcases bad with fault | ⟨low, early⟩
  · rw [Option.isSome_iff_ne_none.mpr fault, Bool.true_or]
  · simp [low, early]

theorem bar2Access_writes (on : hubOn u = true) (maps : Bar2Maps u (off.toNat / 2 ^ 37) (off.toNat % 2 ^ 37) l.length) :
    bar2Access off n (some l) u =
      storeBytes u (cellKey (off.toNat / 2 ^ 37) (off.toNat % 2 ^ 37)) l (fun _ => false) := by
  unfold bar2Access
  exact (if_neg (by simp [on])).trans (if_neg maps.good)

theorem bar2Access_reads (on : hubOn u = true) (maps : Bar2Maps u (off.toNat / 2 ^ 37) (off.toNat % 2 ^ 37) n) :
    bar2Access off n none u = emit (carryRead u (cellKey (off.toNat / 2 ^ 37) (off.toNat % 2 ^ 37)) n)
      (.bar2 (some (readBytes u (cellKey (off.toNat / 2 ^ 37) (off.toNat % 2 ^ 37)) n))) := by
  unfold bar2Access
  exact (if_neg (by simp [on])).trans (if_neg maps.good)

theorem bar2Access_refused (on : hubOn u = true) (bad : faultIn u (off.toNat / 2 ^ 37) (off.toNat % 2 ^ 37) l.length ≠ none
      ∨ (off.toNat / 2 ^ 37 < 8 ∧ u.boot.complete = false)) :
    bar2Access off n (some l) u = bar2Fault u (faultIn u (off.toNat / 2 ^ 37) (off.toNat % 2 ^ 37) l.length)
      ∧ bar2Access off l.length none u =
        emit (bar2Fault u (faultIn u (off.toNat / 2 ^ 37) (off.toNat % 2 ^ 37) l.length)) (.bar2 none) := by
  have runs : ¬(!hubOn u) = true := by simp [on]
  unfold bar2Access
  exact ⟨(if_neg runs).trans (if_pos (bar2_bad bad)), (if_neg runs).trans (if_pos (bar2_bad bad))⟩

theorem execBar2Access_on {data : Option (List Byte)} (on : hubOn s = true) :
    exec (.bar2Access off n ⟨data, errs⟩) s = .next (bar2Access off n data (readErrs s errs)) := by
  change Host.Outcome.next (bar2Access off n data (if hubOn s then readErrs s errs else s)) = _
  rw [if_pos on]

theorem bar2Fault_eq (p : Option (Nat × Place)) : bar2Fault u p =
    sticky (match p with | some (_, .hole d) => sticky u 0xA070 7 d | _ => u) 0xA0D0 4 0 := by
  rcases p with - | ⟨-, place⟩
  · rfl
  · cases place <;> rfl

/-- The range of a store serves BAR2 still when bytes have been put into it. -/
theorem Bar2Maps.stored {die o key : Nat} (h : Bar2Maps u die o l.length) :
    Bar2Maps (storeBytes u key l fun _ => false) die o l.length where
  mapped := (faultIn_of_unstored (unstored_storeBytes _ _ _ _) _ _ _).trans h.mapped
  served := by
    have boot : (storeBytes u key l fun _ => false).boot = u.boot := congrArg Standing.boot (standing_storeBytes u key l _)
    rw [boot]
    exact h.served

end

/-- Settles O48: an offset of BAR0 by the map, a range of BAR2 by whether it is in a store. -/
theorem barAccessesServed : Obligations.BarAccessesServed := by
  unfold Obligations.BarAccessesServed
  refine ⟨fun off s => ?_, fun off l n errs s => ?_⟩
  · intro base on
    exact ⟨execBar0_mapped on, execBar0_reserved on⟩
  intro die o u stored early hole on still
  refine ⟨fun mapped served wf => ?_, fun p is bad => ?_⟩
  · have maps : Bar2Maps u die o l.length := ⟨mapped, served⟩
    have running : hubOn stored = true := (hubOn_of_standing (standing_storeBytes u _ _ _)).trans still
    refine ⟨(execBar2Access_on on).trans (congrArg Host.Outcome.next (bar2Access_writes still maps)), ?_⟩
    refine (execBar2Access_on running).trans (congrArg Host.Outcome.next ?_)
    refine (bar2Access_reads running maps.stored).trans ?_
    rw [readBytes_storeBytes wf]
  · subst is
    obtain ⟨dropped, refused⟩ := bar2Access_refused (n := n) still bad
    rw [bar2Fault_eq] at dropped refused
    exact ⟨(execBar2Access_on on).trans (congrArg Host.Outcome.next dropped),
      (execBar2Access_on on).trans (congrArg Host.Outcome.next refused)⟩

end Sys2Proof.Machine
end

section
/-! Tempo (12 R284 to R291): the exchange of flits and the servo, O40; the parent, the root and HOLDOVER, O41. -/

namespace Sys2Proof.Machine

/-! ### The exchange (12 R287, R288) -/

@[simp] theorem hear_tempo (s : State) (port : Nat) : (hear s port).tempo = s.tempo := by
  unfold hear
  extract_lets d t
  split <;> rfl

section
variable {s : State} {port : Port} {f : TempoFlit}

theorem tempoFlitSend_leaves {n : Nat} (on : hubOn s = true) (up : (s.port port.val).state = 2)
    (due : flitPeriod s (port.val / 6) = some n) (fresh : mget none s.tempo.sent port.val ≠ some n) :
    tempoFlitSend port s = leaveFlit { s with tempo := { s.tempo with sent := mput none s.tempo.sent port.val (some n) } }
      (fibreOf s port.val) 4 7 { sop := false, eop := false, bytes := tempoBody s port.val } := by
  unfold tempoFlitSend
  rw [due]
  exact if_pos (by simp [on, up, fresh])

/-- An up plane port of a running hub receives a tempo flit. -/
structure FlitComes (s : State) (port : Port) : Prop where
  on : hubOn s = true
  up : (s.port port.val).state = 2

theorem FlitComes.runs (h : FlitComes s port) : ¬(!hubOn s || (s.port port.val).state != 2) = true := by
  simp [h.on, h.up]

theorem tempoFlit_fails (h : FlitComes s port) (bad : f.ok = false) : tempoFlit port f s = bump s 0x8094 1 1 :=
  (if_neg h.runs).trans (if_pos (by simp [bad]))

theorem tempoFlit_deep (h : FlitComes s port) (ok : f.ok = true) (deep : 62 ≤ f.depth.toNat) :
    tempoFlit port f s = hear s port.val :=
  (if_neg h.runs).trans ((if_neg (by simp [ok])).trans (if_pos deep))

/-- The vector of a flit, and the moments kept for its echo (12 Table 12.2). -/
def flitVector (f : TempoFlit) : Heard := { sync := f.sync, priority := f.priority, root := f.root, depth := f.depth }
def flitEcho (s : State) (f : TempoFlit) : Echo :=
  { txTick := f.txTick, txFrac := f.txFrac, rxTick := BitVec.ofNat 64 ((tempo256 s - f.age) / 256),
    rxFrac := BitVec.ofNat 8 (tempo256 s - f.age) }

/-- A good flit has been heard and kept. -/
def flitKept (s : State) (port : Port) (f : TempoFlit) : State :=
  { hear s port.val with tempo := { s.tempo with
    heard := mput none s.tempo.heard (port.val % 6) (some (flitVector f)),
    echoes := mput none s.tempo.echoes port.val (some (flitEcho s f)) } }

theorem tempoFlit_good (h : FlitComes s port) (ok : f.ok = true) (shallow : f.depth.toNat < 62) : tempoFlit port f s =
    let t1 : Int := f.txTick.toNat * 256 + f.txFrac.toNat
    let t2 : Int := (tempo256 s - f.age : Nat)
    let t3 : Int := f.echoTx.toNat * 256 + f.echoTxFrac.toNat
    let t4 : Int := f.echoRx.toNat * 256 + f.echoRxFrac.toNat
    if s.tempo.parent = some (dirField (port.val % 6)) ∧ f.sync = 0 ∧ f.echoTx ≠ 0 then
      takeSample (flitKept s port f) ((t2 - t1) - (t4 - t3)) ((t2 - t1) + (t4 - t3))
    else flitKept s port f := by
  refine (if_neg h.runs).trans ((if_neg (by simp [ok])).trans ((if_neg (Nat.not_le.mpr shallow)).trans ?_))
  simp only [hear_tempo]
  rfl

/-! ### Samples and the servo (12 R289) -/

theorem takeSample_judged {th de m : Int} (median : s.tempo.median = some m) : takeSample s th de =
    if (de - m).natAbs ≤ 1024 then acceptSamples s [(th, de)] th else bump s 0x8094 2 1 := by
  simp only [takeSample, median]

/-- The increment that the servo sets: what removes the median over the next beat, within its span. -/
def servoIncr (incr : Word) (th : Int) : Int :=
  max (incrNominal - incrSpan) (min (incrNominal + incrSpan) ((incr.toNat : Int) - (incr.toNat : Int) * th / 2 ^ 29))

/-- A LOCKED device that is no root, and whose median has passed 1,000 ns, locks anew. -/
def servoFalls (t : Tempo) (th : Int) : Bool := decide (t.state = 2 ∧ (!t.isRoot) = true ∧ thStep < th.natAbs)

/-- The tempo that the servo leaves where the beat has samples. -/
def servoed (s : State) (th : Int) : Tempo :=
  { s.tempo with
    servoAt := beat s, incr := BitVec.ofNat 64 (servoIncr s.tempo.incr th).toNat, beatOf := [],
    median := median (s.tempo.beatOf.map (·.2)),
    state := if servoFalls s.tempo th then 1 else s.tempo.state,
    waiting := if servoFalls s.tempo th then true else s.tempo.waiting,
    run := if servoFalls s.tempo th then 0 else s.tempo.run }

theorem clamp_eq_max_min (lo hi x : Int) (order : lo ≤ hi) :
    (if x < lo then lo else if hi < x then hi else x) = max lo (min hi x) := by
  split
  · omega
  · split <;> omega

theorem tempoServo_sets {th : Int} (on : hubOn s = true) (new : beat s ≠ s.tempo.servoAt)
    (samples : median (s.tempo.beatOf.map (·.1)) = some th) : tempoServo s =
      dset { s with tempo := servoed s th } 0x9020 6 (ratF32 th 512) := by
  have runs : ¬(!hubOn s || beat s == s.tempo.servoAt) = true := by simp [on, new]
  refine (if_neg runs).trans ?_
  simp only [samples, clamp_eq_max_min (incrNominal - incrSpan) (incrNominal + incrSpan) _ (by decide), servoed, servoIncr,
    servoFalls, decide_eq_true_eq]

theorem tempoServo_none (on : hubOn s = true) (new : beat s ≠ s.tempo.servoAt)
    (none : median (s.tempo.beatOf.map (·.1)) = none) :
    tempoServo s = { s with tempo := { s.tempo with servoAt := beat s, median := .none } } := by
  have runs : ¬(!hubOn s || beat s == s.tempo.servoAt) = true := by simp [on, new]
  refine (if_neg runs).trans ?_
  simp only [none]

/-- An edge of the reference adds the increment, while the counter does not wrap (12 R284). -/
theorem tempoFine_referenceEdge (on : hubOn s = true)
    (fits : s.tempo.ticks.toNat * 2 ^ 32 + s.tempo.frac.toNat + s.tempo.incr.toNat < 2 ^ 96) :
    tempoFine (referenceEdge s) = tempoFine s + s.tempo.incr.toNat := by
  have runs : ¬(!hubOn s) = true := by simp [on]
  unfold referenceEdge
  rw [if_neg runs]
  simp only [tempoFine, BitVec.toNat_add, BitVec.toNat_ofNat]
  omega

end

/-- Settles O40: a flit by whether it is sent, fails or is heard; a sample by its distance from the median; the servo by
whether the beat has samples. -/
theorem tempoExchangeAndServo : Obligations.TempoExchangeAndServo := by
  unfold Obligations.TempoExchangeAndServo
  intro s on t
  refine ⟨fun port up => ?_, fun th de m median => ?_, fun th new samples => ?_,
    fun new none => congrArg Host.Outcome.next (tempoServo_none on new none), tempoFine_referenceEdge on⟩
  · have comes : FlitComes s port := ⟨on, up⟩
    refine ⟨fun n due fresh => congrArg Host.Outcome.next (tempoFlitSend_leaves on up due fresh),
      fun f bad => congrArg Host.Outcome.next (tempoFlit_fails comes bad),
      fun f ok deep => congrArg Host.Outcome.next (tempoFlit_deep comes ok deep), fun f ok shallow => ?_⟩
    have taken := tempoFlit_good comes ok shallow
    exact ⟨fun sample => congrArg Host.Outcome.next (taken.trans (if_pos sample)),
      fun other => congrArg Host.Outcome.next (taken.trans (if_neg other))⟩
  · have judged := takeSample_judged (th := th) (de := de) median
    exact ⟨fun near => judged.trans (if_pos near), fun far => judged.trans (if_neg (Nat.not_le.mpr far))⟩
  · refine ⟨_, congrArg Host.Outcome.next (tempoServo_sets on new samples), rfl, rfl, rfl, rfl, rfl,
      fun locked noRoot far => ?_, fun near => ?_, rfl⟩
    · have falls : servoFalls s.tempo th = true :=
        decide_eq_true ⟨locked, by rw [noRoot]; rfl, by unfold thStep; omega⟩
      exact ⟨if_pos falls, if_pos falls⟩
    · refine if_neg fun falls => ?_
      obtain ⟨-, -, far⟩ := of_decide_eq_true falls
      unfold thStep at far
      omega

/-! ### The tree (12 R287, R291) -/

section
variable {s : State} {e : Nat} {u v : Heard}

/-- The choice of a parent is made in this beat. -/
def selecting (s : State) : State := { s with tempo := { s.tempo with selectAt := beat s } }

/-- The choice of a device without parent. -/
def firstParent (t : State) : State :=
  match bestLink t (admissible t) with
  | some (e, u) => takeParent t e u
  | none => t

/-- The choice of a device whose parent's vector no longer serves. -/
def otherParent (t : State) : State :=
  match bestLink t (fun u => decide (u.depth < 62)
    && (t.tempo.root != some u.root || decide (u.depth.toNat < t.tempo.depth))) with
  | some (e, u) => takeParent t e u
  | none => t

/-- The choice of a device with a parent. -/
def nextParent (t : State) (d : Fin 6) : State :=
  match heardOn t d.val with
  | none => otherParent t
  | some v =>
    if v.sync ≠ 0 then otherParent t
    else match bestLink t (fun u => decide (u.depth < 62)) with
      | some (e, u) => if better u v then takeParent t e u else takeParent t d.val v
      | none => t

theorem tempoParentSelect_eq
    (runs : ¬(!hubOn s || s.tempo.isRoot || (s.tempo.parent.isSome && beat s == s.tempo.selectAt)) = true) :
    tempoParentSelect s = s.tempo.parent.elim (firstParent (selecting s)) (nextParent (selecting s)) := by
  have byParent (o : Option (Fin 6)) : (match o with
      | none => firstParent (selecting s)
      | some d => nextParent (selecting s) d) = o.elim (firstParent (selecting s)) (nextParent (selecting s)) := by
    cases o <;> rfl
  exact (if_neg runs).trans (byParent s.tempo.parent)

theorem tempoParentSelect_again {d : Fin 6} (on : hubOn s = true) (noRoot : s.tempo.isRoot = false)
    (parent : s.tempo.parent = some d) (new : beat s ≠ s.tempo.selectAt) (heard : heardOn (selecting s) d.val = some v)
    (class0 : v.sync = 0) (best : bestLink (selecting s) (fun x => decide (x.depth < 62)) = some (e, u)) :
    tempoParentSelect s = if better u v then takeParent (selecting s) e u else takeParent (selecting s) d.val v := by
  have served : ¬v.sync ≠ 0 := not_not.mpr class0
  rw [tempoParentSelect_eq (by simp [on, noRoot, new]), parent]
  simp only [Option.elim_some, nextParent, heard, if_neg served, best]

theorem tempoParentSelect_first (on : hubOn s = true) (noRoot : s.tempo.isRoot = false) (orphan : s.tempo.parent = none)
    (best : bestLink (selecting s) (admissible (selecting s)) = some (e, u)) :
    tempoParentSelect s = takeParent (selecting s) e u := by
  rw [tempoParentSelect_eq (by simp [on, noRoot, orphan]), orphan]
  simp only [Option.elim_none, firstParent, best]

/-- The parent's link has been left (12 R291). -/
def parentGone (s : State) (d : Fin 6) : State :=
  { s with tempo := { s.tempo with
    parent := none, lastDepth := s.tempo.depth, lastRoot := s.tempo.root, heard := mput none s.tempo.heard d.val none,
    beatOf := [], held := [], median := none } }

theorem tempoParentLost_leaves {d : Fin 6} (on : hubOn s = true) (noRoot : s.tempo.isRoot = false)
    (parent : s.tempo.parent = some d) (silent : beats (dnum s 0x9021 3) ≤ since s s.tempo.sampleAt) : tempoParentLost s =
      match bestLink (parentGone s d) (admissible (parentGone s d)) with
      | some (e, u) => takeParent (parentGone s d) e u
      | none =>
        if s.tempo.state = 2 then
          sticky { parentGone s d with tempo := { (parentGone s d).tempo with state := 3, holdAt := clock s } } 0xA090 9 0
        else if s.tempo.state = 1 then
          { parentGone s d with tempo := { (parentGone s d).tempo with
            state := 0, incr := BitVec.ofNat 64 incrNominal, root := none, depth := 0 } }
        else parentGone s d := by
  have runs : ¬(!hubOn s || s.tempo.isRoot || decide (since s s.tempo.sampleAt < beats (dnum s 0x9021 3))) = true := by
    simp [on, noRoot, silent]
  simp only [tempoParentLost, parent, if_neg runs]
  rfl

theorem tempoRootSelect_takes {c : BitVec 18} {start : Word} (on : hubOn s = true) (coord : s.fab.coord = some c)
    (free : s.tempo.state = 0 ∨ s.tempo.state = 3) (noRoot : s.tempo.isRoot = false) (priority : tempoPriority s ≠ 0)
    (from_ : (if s.tempo.state = 3 then some s.tempo.holdAt else s.tempo.firstUp) = some start)
    (late : beats (dnum s 0x9021 2) ≤ since s start)
    (best : ∀ d v, d < 6 → heardOn s d = some v → better (ownVector s c) v = true) :
    tempoRootSelect s = { s with tempo := { s.tempo with
      isRoot := true, state := 2, root := some c, rootPrio := tempoPriority s, depth := 0, parent := none,
      beatOf := [], held := [], median := none } } := by
  have clear : (List.range 6).all (fun d => match heardOn s d with
      | some v => better (ownVector s c) v
      | none => true) = true := by
    refine List.all_eq_true.mpr fun d listed => ?_
    cases heard : heardOn s d with
    | none => rfl
    | some v => exact best d v (List.mem_range.mp listed) heard
  have state : (s.tempo.state != 0 && s.tempo.state != 3) = false := by rcases free with h | h <;> simp [h]
  have candidate : (tempoPriority s == 0) = false := beq_false_of_ne priority
  simp only [tempoRootSelect, ownCoord, coord, from_, on, noRoot, state, candidate,
    decide_eq_false (Nat.not_lt.mpr late), Bool.not_true, Bool.or_false]
  exact if_neg (ne_true_of_eq_false (congrArg (fun best => false || !best) clear))

theorem holdoverExpired_ends (on : hubOn s = true) (holds : s.tempo.state = 3)
    (late : beats (dnum s 0x9021 4) ≤ since s s.tempo.holdAt) : holdoverExpired s =
      sticky { s with tempo := { s.tempo with
        state := 0, incr := BitVec.ofNat 64 incrNominal, root := none, depth := 0 } } 0xA090 10 0 :=
  if_pos (by simp [on, holds, late])

end

/-- Settles O41: a device without root by its parent, a root after its wait, and the end of HOLDOVER. -/
theorem tempoTreeKept : Obligations.TempoTreeKept := by
  unfold Obligations.TempoTreeKept
  intro s on t
  refine ⟨fun noRoot => ⟨fun d v parent new heard class0 e u best =>
      congrArg Host.Outcome.next (tempoParentSelect_again on noRoot parent new heard class0 best),
      fun e u orphan best => congrArg Host.Outcome.next (tempoParentSelect_first on noRoot orphan best),
      fun d parent silent => ?_⟩,
    fun c start coord free noRoot priority from_ late best =>
      congrArg Host.Outcome.next (tempoRootSelect_takes on coord free noRoot priority from_ late best),
    fun holds late => congrArg Host.Outcome.next (holdoverExpired_ends on holds late)⟩
  have leaves := tempoParentLost_leaves on noRoot parent silent
  refine ⟨fun e u other => congrArg Host.Outcome.next (leaves.trans ?_),
    fun none locked => congrArg Host.Outcome.next (leaves.trans ?_),
    fun none locking => congrArg Host.Outcome.next (leaves.trans ?_)⟩
  · rw [show bestLink (parentGone s d) (admissible (parentGone s d)) = some (e, u) from other]
    rfl
  · rw [show bestLink (parentGone s d) (admissible (parentGone s d)) = .none from none]
    exact if_pos locked
  · rw [show bestLink (parentGone s d) (admissible (parentGone s d)) = .none from none]
    exact (if_neg (by rw [show s.tempo.state = 1 from locking]; decide)).trans (if_pos locking)

end Sys2Proof.Machine
end

section
/-! Stops, domain faults, clock caps and stretching (16 R352 to R359; 18 R390), and O50. -/

namespace Sys2Proof.Machine

/-! ### Every domain off (16 R353, R356) -/

section
variable {s : State}

/-- A state but for its flash and its free choices. -/
def unflashed (s : State) : State := { s with free := 0, flash := State.reset.flash }

/-- A loss of power touches the flash, and makes a free choice where a write was under way. -/
theorem unflashed_interruptFlash (s : State) : unflashed (interruptFlash s) = unflashed s := by
  have torn (t : State) :
      unflashed (if t.boot.update = 2 then { t with flash := { t.flash with imageTorn := true } } else t) = unflashed t := by
    split <;> rfl
  unfold interruptFlash
  refine (torn _).trans ?_
  split
  · rfl
  · dsimp only
    split <;> rfl

theorem interruptFlash_frame (s : State) : interruptFlash s =
    { s with free := (interruptFlash s).free, flash := (interruptFlash s).flash } := by
  calc interruptFlash s
    _ = { unflashed (interruptFlash s) with free := (interruptFlash s).free, flash := (interruptFlash s).flash } := rfl
    _ = { unflashed s with free := (interruptFlash s).free, flash := (interruptFlash s).flash } := by
      rw [unflashed_interruptFlash]

theorem interruptFlash_quiet (idle : s.mgmt.store = none) (still : s.boot.update ≠ 2) : interruptFlash s = s := by
  unfold interruptFlash
  simp only [idle]
  exact if_neg still

theorem allOff_frame (s : State) : allOff s = { State.reset with
    pending := s.pending, free := (allOff s).free, out := s.out, stage := { s.stage with domains := 0 }, fuses := s.fuses,
    flash := (allOff s).flash } := by
  calc allOff s
    _ = { State.reset with
          pending := (unflashed (interruptFlash s)).pending, free := (allOff s).free,
          out := (unflashed (interruptFlash s)).out, stage := { (unflashed (interruptFlash s)).stage with domains := 0 },
          fuses := (unflashed (interruptFlash s)).fuses, flash := (allOff s).flash } := rfl
    _ = _ := by
      rw [unflashed_interruptFlash]
      rfl

theorem allOff_quiet (idle : s.mgmt.store = none) (still : s.boot.update ≠ 2) : (allOff s).flash = s.flash := by
  have kept : (interruptFlash s).flash = s.flash := congrArg State.flash (interruptFlash_quiet idle still)
  exact kept

theorem allOff_stage (s : State) : (allOff s).stage = { s.stage with domains := 0 } := congrArg State.stage (allOff_frame s)

/-- The input has stopped for a cause. -/
def inputStopped (s : State) (cause : Byte) : State :=
  { allOff s with stage := { (allOff s).stage with inputGood := false, lastStop := cause } }

theorem inputStop_good (good : s.stage.inputGood = true) (cause : Byte) : inputStop s cause = inputStopped s cause :=
  if_neg (by simp [good])

theorem inputStopped_spec (s : State) (cause : Byte) :
    (inputStopped s cause).stage = { s.stage with domains := 0, inputGood := false, lastStop := cause }
      ∧ inputStopped s cause = { State.reset with
          pending := s.pending, free := (inputStopped s cause).free, out := s.out, stage := (inputStopped s cause).stage,
          fuses := s.fuses, flash := (inputStopped s cause).flash } := by
  refine ⟨?_, ?_⟩
  · exact congrArg (fun x : Stage => { x with inputGood := false, lastStop := cause }) (allOff_stage s)
  · unfold inputStopped
    rw [allOff_frame s]

end

/-! ### A domain faults (16 Table 16.4; 18 R390) -/

section
variable {s : State} {d : Nat}

/-- A fault is noted where firmware runs. -/
def faultNoted (s : State) (d : Nat) : State := if loaded s then sticky s 0xA010 13 d else s

@[simp] theorem standing_faultNoted (s : State) (d : Nat) : standing (faultNoted s d) = standing s := by
  unfold faultNoted
  split <;> simp

/-- The stacks of a faulting domain are retired. -/
def faultRetired (s : State) (d : Nat) : State := (faultStacks d).foldl retireStack (faultNoted s d)

/-- The domains that go off with a domain. -/
def goneWith (d : Nat) : BitVec 30 := BitVec.ofNat 30 (2 ^ d) ||| (if d = 27 then BitVec.ofNat 30 (2 ^ 29) else 0)

theorem failsModule_iff : failsModule d = true ↔ d ∈ [24, 25, 26, 28] := by simp [failsModule, or_assoc]

theorem domainFault_module (on : domainOn s d = true) (fails : d ∈ [24, 25, 26, 28]) : domainFault d s =
    { allOff (faultNoted s d) with
      stage := { (allOff (faultNoted s d)).stage with lastStop := 4, moduleFailed := true } } :=
  (if_neg (by simp [on])).trans (if_pos (failsModule_iff.mpr fails))

theorem domainFault_stacks (on : domainOn s d = true) (stands : d ∉ [24, 25, 26, 28]) : domainFault d s =
    { faultRetired s d with stage := { (faultRetired s d).stage with
      domains := (faultRetired s d).stage.domains &&& ~~~(goneWith d) } } :=
  (if_neg (by simp [on])).trans (if_neg (mt failsModule_iff.mp stands))

theorem domainFault_off (off : domainOn s d = false) : domainFault d s = s := if_pos (by simp [off])

theorem getLsbD_twoPow {w i k : Nat} : (BitVec.ofNat w (2 ^ i)).getLsbD k = (decide (k < w) && decide (i = k)) := by
  rw [BitVec.getLsbD_ofNat, Nat.testBit_two_pow]

theorem getLsbD_goneWith (k : Nat) :
    (goneWith d).getLsbD k = (decide (k < 30) && (decide (d = k) || (decide (d = 27) && decide (29 = k)))) := by
  unfold goneWith
  rw [BitVec.getLsbD_or, getLsbD_twoPow]
  split
  · rename_i laser
    rw [getLsbD_twoPow, decide_eq_true laser, Bool.true_and, Bool.and_or_distrib_left]
  · rename_i other
    rw [decide_eq_false other, Bool.false_and, Bool.or_false]
    simp

theorem getLsbD_without_gone (x : BitVec 30) (k : Nat) : (x &&& ~~~(goneWith d)).getLsbD k =
    (x.getLsbD k && k != d && !(d == 27 && k == 29)) := by
  rw [BitVec.getLsbD_and, BitVec.getLsbD_not, getLsbD_goneWith]
  by_cases inside : k < 30
  · have same : (!(decide (d = k) || (decide (d = 27) && decide (29 = k)))) = (k != d && !(d == 27 && k == 29)) := by
      rw [Bool.eq_iff_iff]
      simp only [Bool.not_eq_true', Bool.or_eq_false_iff, Bool.and_eq_false_iff, decide_eq_false_iff_not, Bool.and_eq_true,
        bne_iff_ne, beq_eq_false_iff_ne]
      omega
    rw [decide_eq_true inside, Bool.true_and, Bool.true_and, same, Bool.and_assoc]
  · rw [BitVec.getLsbD_of_ge x k (Nat.le_of_not_lt inside)]
    simp

end

/-! ### The power and current caps (16 R358, R359) -/

section
variable {s : State}

/-- The interval of a power check is entered: the mean, and the energy with what was left over (16 R365). -/
def powerEntered (s : State) (meanW ms : Nat) : State :=
  bump (dset s 0x6000 3 (ratF32 meanW 1)) 0x6000 5 ((s.power.energy + ms) / 10)

/-- The power manager after the interval, before its cap is judged. -/
def powerCarried (s : State) (ms : Nat) : Power := { s.power with energy := (s.power.energy + ms) % 10 }

theorem dnum_powerEntered (wf : DictWf s) {sub : Nat} (limits : sub < 256) (meanW ms : Nat) :
    dnum (powerEntered s meanW ms) 0x6001 sub = dnum s 0x6001 sub := by
  refine dnum_of_mfind ((mfind_bump_other _ ?_).trans (mfind_dset_other wf _ ?_)) <;>
    (simp only [dkey]; omega)

/-- The steps by which the power cap falls (16 R359). -/
def capFall (limit meanW ms ma : Nat) : Nat := if 2600 < ms ∨ 50000 < ma then 4 else if limit < meanW then 1 else 0

theorem capFall_none {limit meanW ms ma : Nat} (calm : ms ≤ 2600) (light : ma ≤ 50000) (within : meanW ≤ limit) :
    capFall limit meanW ms ma = 0 :=
  (if_neg (by omega)).trans (if_neg (Nat.not_lt.mpr within))

/-- The cap after a fall is lower unless it stood at its least. -/
theorem capDown_lt {cap n : Nat} (falls : n ≠ 0) : capDown cap n < cap ↔ 16 < cap := by
  unfold capDown
  omega

/-- The power cap has fallen by some steps. -/
def powerFallen (s : State) (meanW ms n : Nat) : State :=
  { powerEntered s meanW ms with power := { powerCarried s ms with cap := capDown s.power.cap n, okAt := none } }

/-- A fall of the power cap, whose bit is set unless the cap stood at its least. -/
theorem powerCapCheck_falls {meanW ms ma n : Nat} (wf : DictWf s) (up : loaded s = true)
    (fall : capFall (dnum s 0x6001 1) meanW ms ma = n) (falls : n ≠ 0) : powerCapCheck meanW ms ma s =
      if 16 < s.power.cap then sticky (powerFallen s meanW ms n) 0xA010 11 0 else powerFallen s meanW ms n := by
  unfold powerCapCheck
  rw [if_neg (by simp [up])]
  extract_lets e s0 src p limit fall' cap t
  have same : fall' = n := by
    rw [← fall, capFall, ← dnum_powerEntered (sub := 1) wf (by decide) meanW ms]
    rfl
  rw [if_pos (by rw [same]; exact falls)]
  have fallen : t = powerFallen s meanW ms n := by
    rw [← same]
    rfl
  have cap_eq : cap = capDown s.power.cap n := by
    rw [← same]
    rfl
  rw [fallen, cap_eq]
  exact if_congr (capDown_lt falls) rfl rfl

/-- The power manager of a low interval, by the tick since which the mean is low (16 R359). -/
def holdJudged (s : State) (ms : Nat) : Option Word → Power
  | none => { powerCarried s ms with okAt := some (clock s) }
  | some x =>
    if dnum s 0x6001 2 * 1000000 ≤ (clock s - x).toNat then
      { powerCarried s ms with cap := capUp s.power.cap, okAt := some (clock s) }
    else powerCarried s ms

/-- Without a fall, below 97% of the limit, the hold begins, goes on, or lets the cap rise. -/
theorem powerCapCheck_low {meanW ms ma : Nat} (wf : DictWf s) (up : loaded s = true)
    (stays : capFall (dnum s 0x6001 1) meanW ms ma = 0) (low : meanW * 100 < dnum s 0x6001 1 * 97) :
    powerCapCheck meanW ms ma s = { powerEntered s meanW ms with power := holdJudged s ms s.power.okAt } := by
  unfold powerCapCheck
  rw [if_neg (by simp [up])]
  extract_lets e s0 src p limit fall cap t
  have limit_eq : limit = dnum s 0x6001 1 := dnum_powerEntered wf (by decide) meanW ms
  have hold : dnum s0 0x6001 2 = dnum s 0x6001 2 := dnum_powerEntered wf (by decide) meanW ms
  have none : ¬fall ≠ 0 := by
    rw [not_not, ← stays, capFall, ← limit_eq]
  rw [if_neg none, limit_eq, if_pos low, hold]
  have since_ : p.okAt = s.power.okAt := rfl
  rw [← since_]
  cases p.okAt with
  | none => rfl
  | some x =>
    by_cases long : dnum s 0x6001 2 * 1000000 ≤ (clock s - x).toNat
    · rw [holdJudged, if_pos long]
      exact if_pos long
    · rw [holdJudged, if_neg long]
      exact if_neg long

/-- Without a fall, from 97% of the limit on, the hold is over. -/
theorem powerCapCheck_holds {meanW ms ma : Nat} (wf : DictWf s) (up : loaded s = true)
    (stays : capFall (dnum s 0x6001 1) meanW ms ma = 0) (within : dnum s 0x6001 1 * 97 ≤ meanW * 100) :
    powerCapCheck meanW ms ma s =
      { powerEntered s meanW ms with power := { powerCarried s ms with okAt := none } } := by
  unfold powerCapCheck
  rw [if_neg (by simp [up])]
  extract_lets e s0 src p limit fall cap t
  have limit_eq : limit = dnum s 0x6001 1 := dnum_powerEntered wf (by decide) meanW ms
  have none : ¬fall ≠ 0 := by
    rw [not_not, ← stays, capFall, ← limit_eq]
  rw [if_neg none, limit_eq, if_neg (Nat.not_lt.mpr within)]
  rfl

/-- The current cap of a die in service: down above 95% of the path limit, up after ten checks below 90% (16 R358). -/
theorem currentCapCheck_up {d : Die} {ma : Nat} (up : dieUp s d.val = true) :
    (pathLimitMa s d.val * 95 < ma * 100 → currentCapCheck d ma s =
      s.setTherm d.val { s.therm d.val with capCur := capDown (s.therm d.val).capCur 1, upCur := 0 })
    ∧ (pathLimitMa s d.val * 90 ≤ ma * 100 → ma * 100 ≤ pathLimitMa s d.val * 95 →
      currentCapCheck d ma s = s.setTherm d.val { s.therm d.val with upCur := 0 })
    ∧ (ma * 100 < pathLimitMa s d.val * 90 → (s.therm d.val).upCur < 9 → currentCapCheck d ma s =
      s.setTherm d.val { s.therm d.val with upCur := (s.therm d.val).upCur + 1 })
    ∧ (ma * 100 < pathLimitMa s d.val * 90 → 9 ≤ (s.therm d.val).upCur → currentCapCheck d ma s =
      s.setTherm d.val { s.therm d.val with capCur := capUp (s.therm d.val).capCur, upCur := 0 }) := by
  have runs : ¬(!dieUp s d.val) = true := by simp [up]
  refine ⟨fun high => (if_neg runs).trans (if_pos high), fun low high => ?_, fun below few => ?_, fun below ten => ?_⟩
  · exact (if_neg runs).trans ((if_neg (Nat.not_lt.mpr high)).trans (if_neg (Nat.not_lt.mpr low)))
  · exact (if_neg runs).trans ((if_neg (by omega)).trans ((if_pos below).trans (if_neg (by omega))))
  · exact (if_neg runs).trans ((if_neg (by omega)).trans ((if_pos below).trans (if_pos (by omega))))

end

/-! ### Clock stretching (16 R357, Tables 16.5, 16.10) -/

section
variable {s : State} {d level : Nat}

/-- The stage of a die or of the hub. -/
def stretchOf (s : State) (d : Nat) : Stretch := mget Stretch.init s.stretch d

/-- The time that a stage has lost in all, if it leaves its level now. -/
def lostNow (s : State) (d : Nat) : Nat :=
  (dcell s 0x6051 (d + 1) + stretchLost (stretchOf s d).level (clock s - (stretchOf s d).since).toNat) % 2 ^ 64

/-- A stage that moves to a level counts the time lost, and its entry unless the level is 0. -/
theorem stretchTo_spec (wf : mwf Stretch.init 0 s.stretch = true) (level : Nat) :
    stretchTo s d level = { s with dict := (stretchTo s d level).dict, stretch := (stretchTo s d level).stretch }
      ∧ stretchOf (stretchTo s d level) d = { level := level, since := clock s }
      ∧ dcell (stretchTo s d level) 0x6051 (d + 1) = lostNow s d
      ∧ (level ≠ 0 → dcell (stretchTo s d level) 0x6050 (d + 1) = (dcell s 0x6050 (d + 1) + 1) % 2 ^ 64) := by
  have apart : dkey 0x6051 (d + 1) ≠ dkey 0x6050 (d + 1) := by
    simp only [dkey]
    omega
  unfold stretchTo
  extract_lets x u t
  have lost : dcell u 0x6051 (d + 1) = lostNow s d := dcell_dset (counter_listed _)
  have entries : dcell u 0x6050 (d + 1) = dcell s 0x6050 (d + 1) := dcell_bump_other _ apart.symm
  by_cases zero : level = 0
  · have still : t = u := if_pos zero
    rw [still]
    exact ⟨rfl, mget_mput_same _ wf, lost, fun other => absurd zero other⟩
  · have counted : t = bump u 0x6050 (d + 1) 1 := if_neg zero
    rw [counted]
    refine ⟨rfl, mget_mput_same _ wf, (dcell_bump_other 1 apart).trans lost, fun _ => ?_⟩
    rw [← entries]
    exact dcell_dset (counter_listed _)

theorem execDroopDetected_up {d : Die9} {mv : Nat} {ps : Int} (up : unitUp s d.val = true) :
    exec (.droopDetected d mv ps) s = .next (if (stretchOf s d.val).level < stretchLevel mv ps then
      stretchTo s d.val (stretchLevel mv ps) else s) := by
  refine congrArg Host.Outcome.next (if_congr ?_ rfl rfl)
  simp [up, stretchOf]

/-- A release lowers a stage by one level, where its condition holds. -/
theorem execStretchRelease_lowers {d : Die9} {mv : Nat} {ps : Int} (up : unitUp s d.val = true)
    (release : ((stretchOf s d.val).level = 2 ∧ 765 < mv ∧ level = 1)
      ∨ ((stretchOf s d.val).level = 1 ∧ 785 < mv ∧ 8 ≤ ps ∧ level = 0)) :
    exec (.stretchRelease d mv ps) s = .next (stretchTo s d.val level) := by
  have runs : ¬(!unitUp s d.val) = true := by simp [up]
  refine congrArg Host.Outcome.next ((if_neg runs).trans ?_)
  rcases release with ⟨two, volts, rfl⟩ | ⟨one, volts, slack, rfl⟩
  · exact if_pos ⟨two, volts⟩
  · have other : ¬((stretchOf s d.val).level = 2 ∧ 765 < mv) := by omega
    exact (if_neg other).trans (if_pos ⟨one, volts, slack⟩)

end

/-- Settles O50: a stop, a fault and a latch by what goes off; the caps by their bands; a stage by its level. -/
theorem powerStopsAndCaps : Obligations.PowerStopsAndCaps := by
  unfold Obligations.PowerStopsAndCaps
  refine ⟨fun s c cause which good => ?_, fun s d => ?_, fun s b => ?_, fun s mv up => ?_, fun s meanW ms ma => ?_,
    fun s d ma => ?_, fun s d mv ps l => ?_⟩
  · obtain ⟨stage, rest⟩ := inputStopped_spec s cause
    have stops : exec c s = .next (inputStopped s cause) := by
      rcases which with ⟨rfl, rfl⟩ | ⟨rfl, rfl⟩ | ⟨rfl, rfl⟩ <;> exact congrArg Host.Outcome.next (inputStop_good good _)
    exact ⟨_, stops, stage, rest, allOff_quiet⟩
  · intro s1 on
    refine ⟨fun fails => ?_, fun stands => ?_⟩
    · refine ⟨_, congrArg Host.Outcome.next (domainFault_module on fails), ?_, rfl, rfl⟩
      have stage : (faultNoted s d.val).stage = s.stage := congrArg Standing.stage (standing_faultNoted s d.val)
      rw [allOff_stage, stage]
    · exact ⟨_, congrArg Host.Outcome.next (domainFault_stacks on stands), rfl, fun k => getLsbD_without_gone _ k⟩
  · intro s'
    refine ⟨fun off => congrArg Host.Outcome.next (domainFault_off off), fun d is on => ?_⟩
    have latched : exec (.laserLatchOpen b) s = .next (domainFault d.val s') := by
      rw [is]
      rfl
    refine ⟨_, latched, rfl, ?_⟩
    have on' : domainOn s' d.val = true := on
    by_cases fails : d.val ∈ [24, 25, 26, 28]
    · rw [domainFault_module on' fails, domainOn, allOff_stage]
      exact BitVec.getLsbD_zero
    · rw [domainFault_stacks on' fails, domainOn]
      refine (getLsbD_without_gone _ _).trans ?_
      simp
  · refine congrArg Host.Outcome.next ((if_neg (by simp [up])).trans ?_)
    by_cases within : 46000 ≤ mv ∧ mv ≤ 56000
    · exact (if_neg (by omega)).trans (if_pos within).symm
    · exact (if_pos (by omega)).trans (if_neg within).symm
  · intro r e p limit put fall up canonical due
    have live : loaded r = true := up
    have wf : DictWf r := canonical.dict
    have runs {t : State} (checked : powerCapCheck meanW ms ma r = t) : exec (.powerCapCheck meanW ms ma) s = .next t :=
      congrArg Host.Outcome.next ((periodic_due due _).trans checked)
    refine ⟨fun peak => runs (powerCapCheck_falls wf live (if_pos peak) (by decide)), fun calm light =>
      ⟨fun high => runs (powerCapCheck_falls wf live ((if_neg (by omega)).trans (if_pos high)) (by decide)),
        fun within near => runs (powerCapCheck_holds wf live (capFall_none calm light within) near),
        fun within low => ?_⟩⟩
    have checked := runs (powerCapCheck_low wf live (capFall_none calm light within) low)
    refine ⟨fun first => checked.trans ?_, fun x held short => checked.trans ?_, fun x held long => checked.trans ?_⟩
    · rw [show r.power.okAt = none from first]
      rfl
    · have early : ¬dnum r 0x6001 2 * 1000000 ≤ (clock r - x).toNat := Nat.not_le.mpr short
      rw [show r.power.okAt = some x from held, holdJudged, if_neg early]
      rfl
    · have late : dnum r 0x6001 2 * 1000000 ≤ (clock r - x).toNat := long
      rw [show r.power.okAt = some x from held, holdJudged, if_pos late]
      rfl
  · intro t r limit up due
    have runs {u : State} (checked : currentCapCheck d ma r = u) : exec (.currentCapCheck d ma) s = .next u :=
      congrArg Host.Outcome.next ((periodic_due due _).trans checked)
    obtain ⟨high, band, below, tenth⟩ := currentCapCheck_up (s := r) (d := d) (ma := ma) up
    exact ⟨fun h => runs (high h), fun h k => runs (band h k), fun h k => runs (below h k), fun h k => runs (tenth h k)⟩
  · intro x lost up canonical wf
    refine ⟨fun is => ⟨fun rises => ?_, fun stays => ?_⟩, fun release => ?_⟩
    · subst is
      obtain ⟨frame, stage, time, entries⟩ := stretchTo_spec (d := d.val) wf (stretchLevel mv ps)
      exact ⟨_, (execDroopDetected_up up).trans (congrArg Host.Outcome.next (if_pos rises)), frame, stage, time,
        entries (Nat.ne_zero_of_lt rises)⟩
    · subst is
      exact (execDroopDetected_up up).trans (congrArg Host.Outcome.next (if_neg (Nat.not_lt.mpr stays)))
    · obtain ⟨frame, stage, time, entries⟩ := stretchTo_spec (d := d.val) wf l
      exact ⟨_, execStretchRelease_lowers up release, frame, stage, time, fun one => entries (by omega)⟩

end Sys2Proof.Machine
end

section
/-! The thermal model, the sensors, the thermal cap and the margin survey (16 R360 to R364; 01 R20 to R23), and O51. -/

namespace Sys2Proof.Machine

/-! ### The thermal managers of a canonical state -/

theorem Inv.therms {s : State} (h : Inv s) : mwf Therm.init 0 s.therms = true := by
  obtain ⟨-, -, -, -, -, -, -, -, -, -, -, -, -, -, -, therms, -⟩ := h.parts
  exact therms

section
variable {s t : State} {d : Nat}

theorem therm_setTherm (wf : mwf Therm.init 0 s.therms = true) (x : Therm) : (s.setTherm d x).therm d = x :=
  mget_mput_same x wf

theorem therm_setTherm_other {e : Nat} (wf : mwf Therm.init 0 s.therms = true) (other : e ≠ d) (x : Therm) :
    (s.setTherm d x).therm e = s.therm e := mget_mput_other x wf other

theorem therms_setTherm (wf : mwf Therm.init 0 s.therms = true) (x : Therm) :
    mwf Therm.init 0 (s.setTherm d x).therms = true := mwf_mput x wf (Nat.zero_le _)

theorem therm_congr (same : t.therms = s.therms) (e : Nat) : t.therm e = s.therm e := congrArg (mget Therm.init · e) same

theorem sticky_therms (s : State) (idx sub bit : Nat) : (sticky s idx sub bit).therms = s.therms :=
  congrArg Standing.therms (standing_sticky s idx sub bit)

end

/-! ### The thermal model (16 R360, R362) -/

section
variable {s t : State} {d : Die}

theorem anySuspect_of_mfind (base : mfind t.dict (dkey 0x6023 (d.val + 1)) = mfind s.dict (dkey 0x6023 (d.val + 1)))
    (tier : mfind t.dict (dkey 0x6024 (d.val + 1)) = mfind s.dict (dkey 0x6024 (d.val + 1))) :
    anySuspect t d.val = anySuspect s d.val := by
  simp only [anySuspect, dcell_of_mfind base, dcell_of_mfind tier]

/-- The inlet temperatures are entered. -/
def inletsNoted (s : State) (inA inB : Int) : State :=
  dset (dset s 0x6025 1 (ratF32 inA 1000)) 0x6025 2 (ratF32 inB 1000)

theorem anySuspect_inletsNoted (wf : DictWf s) (a b : Int) : anySuspect (inletsNoted s a b) d.val = anySuspect s d.val := by
  have w1 := dictWf_dset wf 0x6025 1 (ratF32 a 1000)
  have apart (i k : Nat) (low : i < 0x6025) : dkey i (d.val + 1) ≠ dkey 0x6025 (k + 1) := by
    simp only [dkey]
    omega
  refine anySuspect_of_mfind ?_ ?_
  · exact (mfind_dset_other w1 _ (apart _ 1 (by decide))).trans (mfind_dset_other wf _ (apart _ 0 (by decide)))
  · exact (mfind_dset_other w1 _ (apart _ 1 (by decide))).trans (mfind_dset_other wf _ (apart _ 0 (by decide)))

/-- The filtered power and the model's temperature after an update. -/
def modelled (x : Therm) (mw : Nat) (inA inB : Int) : Therm :=
  let p : Int := (mw : Int) * 1000
  let pf := if x.started then x.pf + (p - x.pf) * 10000 / (x.tau : Int) else p
  { x with started := true, pf := pf, tModel := max inA inB + (x.rj : Int) * pf / 1000000000 }

theorem thermalModelUpdate_up {mw : Nat} {a b : Int} (wf : DictWf s) (up : dieUp s d.val = true) :
    thermalModelUpdate d mw a b s = (inletsNoted s a b).setTherm d.val { modelled (s.therm d.val) mw a b with
      tGov := governing (modelled (s.therm d.val) mw a b) (anySuspect s d.val) } := by
  refine (if_neg (by simp [up])).trans ?_
  rw [← anySuspect_inletsNoted wf a b]
  rfl

/-! ### Refinement (16 R360) -/

theorem modelRefine_throttled {fitR fitTau : Nat} (up : dieUp s d.val = true)
    (none : (s.therm d.val).throttled = true ∨ anySuspect s d.val = true) :
    modelRefine d fitR fitTau s = s.setTherm d.val { s.therm d.val with throttled := false } := by
  refine (if_neg (by simp [up])).trans (if_pos ?_)
  rcases none with h | h <;> simp [h]

theorem modelRefine_refines {fitR fitTau : Nat} (up : dieUp s d.val = true) (cool : (s.therm d.val).throttled = false)
    (sound : anySuspect s d.val = false) : modelRefine d fitR fitTau s = s.setTherm d.val { s.therm d.val with
      rj := refine (s.therm d.val).rj fitR 136000, tau := refine (s.therm d.val).tau fitTau 250000 } :=
  (if_neg (by simp [up])).trans (if_neg (by simp [cool, sound]))

/-- A refined coefficient stays within a quarter of its factory value. -/
theorem refine_within (x fit k : Nat) : 3 * k ≤ refine x fit (4 * k) ∧ refine x fit (4 * k) ≤ 5 * k := by
  unfold refine
  dsimp only
  omega

/-- Within that quarter it moves an eighth of the way to its fit. -/
theorem refine_moves {x fit k : Nat} (low : 3 * k ≤ x) (high : x ≤ 5 * k) (fitLow : 3 * k ≤ fit) (fitHigh : fit ≤ 5 * k) :
    (refine x fit (4 * k) : Int) = x + ((fit : Int) - x) / 8 := by
  unfold refine
  dsimp only
  omega

end

/-! ### The sensors (16 R361, R362) -/

/-- A bit of a number set leaves its other bits. -/
theorem putBit_true_other {n i k : Nat} (other : k ≠ i) : (putBit n i true).testBit k = n.testBit k := by
  unfold putBit
  split
  · rfl
  · rename_i clear
    rw [if_pos rfl]
    have zero : n / 2 ^ i % 2 = 0 := by
      rw [Nat.testBit_eq_decide_div_mod_eq] at clear
      simp only [decide_eq_true_eq] at clear
      omega
    have low : n % 2 ^ (i + 1) = n % 2 ^ i := by rw [Nat.pow_succ, Nat.mod_mul, zero, Nat.mul_zero, Nat.add_zero]
    have small : n % 2 ^ i < 2 ^ i := Nat.mod_lt _ (Nat.two_pow_pos i)
    have split_ : n = 2 ^ (i + 1) * (n / 2 ^ (i + 1)) + n % 2 ^ i := by rw [← low, Nat.div_add_mod]
    have added : n + 2 ^ i = 2 ^ (i + 1) * (n / 2 ^ (i + 1)) + (2 ^ i + n % 2 ^ i) := by omega
    rw [added]
    conv => rhs; rw [split_]
    rw [Nat.testBit_two_pow_mul_add _ (by rw [Nat.pow_succ]; omega), Nat.testBit_two_pow_mul_add _ (by rw [Nat.pow_succ]; omega)]
    by_cases below : k < i + 1
    · rw [if_pos below, if_pos below, Nat.testBit_two_pow_add_gt (by omega)]
    · rw [if_neg below, if_neg below]


section
variable {s t : State} {d : Nat}

/-- A sensor that reads well, not suspect, counts no failure. -/
theorem judgeSensor_passes {idx bit : Nat} (slot : Nat) (clear : dbit s idx (d + 1) bit = false) :
    judgeSensor d s slot idx bit false
      = s.setTherm d { s.therm d with fails := mput 0 (s.therm d).fails slot 0 } :=
  (if_neg (by simp [clear])).trans (if_neg (by simp))

/-- Only the counts of failures have moved, to a canonical map in which those of the sensors `done` are 0. -/
structure SensorsPassed (s : State) (d : Nat) (done : Nat → Prop) (t : State) : Prop where
  frame : t = { s with therms := t.therms }
  canonical : mwf Therm.init 0 t.therms = true
  counts : t.therm d = { s.therm d with fails := (t.therm d).fails }
  failsWf : mwf 0 0 (t.therm d).fails = true
  zero : ∀ k, done k → mget 0 (t.therm d).fails k = 0
  kept : ∀ k, ¬ done k → mget 0 (t.therm d).fails k = mget 0 (s.therm d).fails k

theorem SensorsPassed.congr {p q : Nat → Prop} (h : SensorsPassed s d p t) (same : ∀ k, q k ↔ p k) : SensorsPassed s d q t :=
  { h with zero := fun k hk => h.zero k ((same k).mp hk), kept := fun k hk => h.kept k fun hp => hk ((same k).mpr hp) }

theorem SensorsPassed.dict {p : Nat → Prop} (h : SensorsPassed s d p t) : t.dict = s.dict := by rw [h.frame]

theorem SensorsPassed.step {p : Nat → Prop} (h : SensorsPassed s d p t) {idx bit : Nat} (slot : Nat)
    (clear : dbit s idx (d + 1) bit = false) :
    SensorsPassed s d (fun k => p k ∨ k = slot) (judgeSensor d t slot idx bit false) := by
  have clear' : dbit t idx (d + 1) bit = false := by rw [← clear, dbit, dbit, dcell, dcell, h.dict]
  rw [judgeSensor_passes slot clear']
  have now := therm_setTherm (d := d) h.canonical { t.therm d with fails := mput 0 (t.therm d).fails slot 0 }
  refine ⟨?_, therms_setTherm h.canonical _, ?_, ?_, fun k hk => ?_, fun k hk => ?_⟩
  · conv => lhs; rw [h.frame]
    rfl
  · rw [now, h.counts]
  · rw [now]
    exact mwf_mput 0 h.failsWf (Nat.zero_le _)
  · rw [now]
    by_cases same : k = slot
    · rw [same]
      exact mget_mput_same 0 h.failsWf
    · exact (mget_mput_other 0 h.failsWf same).trans (h.zero k (hk.resolve_right same))
  · rw [now]
    obtain ⟨before, other⟩ := not_or.mp hk
    exact (mget_mput_other 0 h.failsWf other).trans (h.kept k before)

/-- The pass over the outer sensors, their failures given by `base` and `tier`. -/
def outerPass (d : Nat) (base tier : Nat → Bool) (n : Nat) (s : State) : State :=
  (List.range n).foldl (fun t k =>
    judgeSensor d (judgeSensor d t k 0x6024 k (base k)) (16 + k) 0x6024 (16 + k) (tier k)) s

/-- The pass over the sensors of the compute die. -/
def innerPass (d : Nat) (bad : Nat → Bool) (n : Nat) (s : State) : State :=
  (List.range n).foldl (fun t k => judgeSensor d t (32 + k) 0x6023 k (bad k)) s

theorem outerPass_good {base tier : Nat → Bool} {n : Nat} (good : ∀ k < n, base k = false ∧ tier k = false)
    (clear : dcell s 0x6024 (d + 1) = 0) (canonical : mwf Therm.init 0 s.therms = true)
    (failsWf : mwf 0 0 (s.therm d).fails = true) :
    SensorsPassed s d (fun k => k < n ∨ (16 ≤ k ∧ k < 16 + n)) (outerPass d base tier n s) := by
  have bits (k : Nat) : dbit s 0x6024 (d + 1) k = false := by rw [dbit, clear, Nat.zero_testBit]
  induction n with
  | zero => exact ⟨rfl, canonical, rfl, failsWf, fun k hk => by omega, fun _ _ => rfl⟩
  | succ n ih =>
    have before := ih fun k hk => good k (by omega)
    obtain ⟨b, t⟩ := good n (Nat.lt_succ_self n)
    unfold outerPass
    rw [List.range_succ, List.foldl_concat, b, t]
    exact ((before.step n (bits n)).step (16 + n) (bits _)).congr (by omega)

theorem innerPass_good {bad : Nat → Bool} {n : Nat} {p : Nat → Prop} (h : SensorsPassed s d p t)
    (good : ∀ k < n, bad k = false) (clear : dcell s 0x6023 (d + 1) = 0) :
    SensorsPassed s d (fun k => p k ∨ (32 ≤ k ∧ k < 32 + n)) (innerPass d bad n t) := by
  have bits (k : Nat) : dbit s 0x6023 (d + 1) k = false := by rw [dbit, clear, Nat.zero_testBit]
  induction n with
  | zero => exact h.congr fun k => or_iff_left (by omega)
  | succ n ih =>
    unfold innerPass
    rw [List.range_succ, List.foldl_concat, good n (Nat.lt_succ_self n)]
    exact ((ih fun k hk => good k (by omega)).step (32 + n) (bits n)).congr fun k => by
      rw [or_assoc]
      exact or_congr_right (by omega)

theorem trusted_all (l : List Int) (i : Nat) : trusted l 0 i = l := by
  unfold trusted
  simp only [Nat.zero_testBit, Bool.not_false, List.filter_true]
  refine List.ext_getElem (by simp) fun k _ there => ?_
  simp [List.getD_eq_getElem?_getD, List.getElem?_eq_getElem there]

theorem highest_isSome {l : List Int} (some : l ≠ []) : highest l = .some ((highest l).getD 0) := by
  cases l with
  | nil => exact absurd rfl some
  | cons x r => rfl

/-- The state is canonical where the sensors of stack `d` are judged. -/
structure SensorWf (s : State) (d : Nat) : Prop where
  dict : DictWf s
  canonical : mwf Therm.init 0 s.therms = true
  failsWf : mwf 0 0 (s.therm d).fails = true

/-- A state in which a sensor's count has been entered. -/
def counted (s : State) (d slot n : Nat) : State := s.setTherm d { s.therm d with fails := mput 0 (s.therm d).fails slot n }

theorem fails_counted (wf : SensorWf s d) (slot n : Nat) : ((counted s d slot n).therm d).fails = mput 0 (s.therm d).fails slot n :=
  congrArg Therm.fails (therm_setTherm wf.canonical _)

theorem sensorWf_counted (wf : SensorWf s d) (slot n : Nat) : SensorWf (counted s d slot n) d :=
  ⟨wf.dict, therms_setTherm wf.canonical _, by rw [fails_counted wf]; exact mwf_mput n wf.failsWf (Nat.zero_le _)⟩

/-- A sensor marked suspect, with the bit of the module's suspects. -/
def suspected (s : State) (d idx bit : Nat) : State := sticky (dputBit s idx (d + 1) bit true) 0xA010 9 d

theorem therms_suspected (s : State) (d idx bit : Nat) : (suspected s d idx bit).therms = s.therms := sticky_therms _ _ _ _

theorem sensorWf_suspected (wf : SensorWf s d) (idx bit : Nat) : SensorWf (suspected s d idx bit) d :=
  ⟨dictWf_sticky (dictWf_dset wf.dict _ _ _) _ _ _, (therms_suspected s d idx bit).symm ▸ wf.canonical,
    (therm_congr (therms_suspected s d idx bit) d).symm ▸ wf.failsWf⟩

theorem dcell_suspected {bit : Nat} (small : bit < 65) (stack : d < 65) :
    dcell (suspected s d 0x6023 bit) 0x6023 (d + 1) = putBit (dcell s 0x6023 (d + 1)) bit true := by
  have apart (i k : Nat) (other : i ≠ 0x6023) (low : k < 256) : dkey 0x6023 (d + 1) ≠ dkey i k := by
    simp only [dkey]
    omega
  refine (dcell_of_mfind (mfind_sticky (by omega) ?_ ?_ ?_)).trans (dcell_dset (putBit_true_listed small))
  all_goals exact apart _ _ (by decide) (by decide)

/-- The three outcomes of one judgement of a sensor of the compute die. -/
theorem judgeSensor_cases (s : State) (d slot idx bit : Nat) (fail : Bool) :
    (dbit s idx (d + 1) bit = true ∧ judgeSensor d s slot idx bit fail = s)
    ∨ (dbit s idx (d + 1) bit = false ∧ ∃ n, n = (if fail then mget 0 (s.therm d).fails slot + 1 else 0)
        ∧ ((n < 8 ∧ judgeSensor d s slot idx bit fail = counted s d slot n)
          ∨ (8 ≤ n ∧ judgeSensor d s slot idx bit fail = suspected (counted s d slot n) d idx bit))) := by
  cases marked : dbit s idx (d + 1) bit with
  | true => exact .inl ⟨rfl, if_pos marked⟩
  | false =>
    refine .inr ⟨rfl, _, rfl, ?_⟩
    have on : ¬ dbit s idx (d + 1) bit = true := by simp [marked]
    by_cases many : 8 ≤ (if fail then mget 0 (s.therm d).fails slot + 1 else 0)
    · exact .inr ⟨many, (if_neg on).trans (if_pos many)⟩
    · exact .inl ⟨Nat.lt_of_not_le many, (if_neg on).trans (if_neg many)⟩

/-- The count and the mark of sensor `k` of the compute die are as in `s`. -/
structure SensorKept (s : State) (d k : Nat) (t : State) : Prop where
  wf : SensorWf t d
  fails : mget 0 (t.therm d).fails (32 + k) = mget 0 (s.therm d).fails (32 + k)
  mark : dbit t 0x6023 (d + 1) k = dbit s 0x6023 (d + 1) k

theorem SensorKept.judge_other {k j : Nat} (h : SensorKept s d k t) (other : j ≠ k) (stack : d < 65) (small : j < 65)
    (fail : Bool) : SensorKept s d k (judgeSensor d t (32 + j) 0x6023 j fail) := by
  have entered (n : Nat) : mget 0 ((counted t d (32 + j) n).therm d).fails (32 + k) = mget 0 (t.therm d).fails (32 + k) := by
    rw [fails_counted h.wf]
    exact mget_mput_other n h.wf.failsWf (by omega)
  rcases judgeSensor_cases t d (32 + j) 0x6023 j fail with ⟨-, e⟩ | ⟨-, n, -, ⟨-, e⟩ | ⟨-, e⟩⟩ <;> rw [e]
  · exact h
  · exact ⟨sensorWf_counted h.wf _ _, (entered n).trans h.fails, h.mark⟩
  · refine ⟨sensorWf_suspected (sensorWf_counted h.wf _ _) _ _, ?_, ?_⟩
    · rw [therm_congr (therms_suspected _ _ _ _) d]
      exact (entered n).trans h.fails
    · rw [dbit, dcell_suspected small stack, putBit_true_other other.symm]
      exact h.mark

/-- What a failure of sensor `k` leaves: one more in its count, or with the eighth its mark. -/
def SensorFailed (s : State) (d k : Nat) (t : State) : Prop :=
  (mget 0 (s.therm d).fails (32 + k) < 7 → mget 0 (t.therm d).fails (32 + k) = mget 0 (s.therm d).fails (32 + k) + 1)
    ∧ (7 ≤ mget 0 (s.therm d).fails (32 + k) → dbit t 0x6023 (d + 1) k = true)

theorem judgeSensor_fails {k : Nat} (wf : SensorWf s d) (stack : d < 65) (small : k < 65)
    (clear : dbit s 0x6023 (d + 1) k = false) :
    SensorWf (judgeSensor d s (32 + k) 0x6023 k true) d ∧ SensorFailed s d k (judgeSensor d s (32 + k) 0x6023 k true) := by
  rcases judgeSensor_cases s d (32 + k) 0x6023 k true with ⟨marked, -⟩ | ⟨-, n, hn, ⟨few, e⟩ | ⟨many, e⟩⟩
  · exact absurd marked (by simp [clear])
  · rw [e]
    rw [if_pos rfl] at hn
    refine ⟨sensorWf_counted wf _ _, fun _ => ?_, fun seven => absurd seven (by omega)⟩
    rw [fails_counted wf, mget_mput_same n wf.failsWf, hn]
  · rw [e]
    rw [if_pos rfl] at hn
    refine ⟨sensorWf_suspected (sensorWf_counted wf _ _) _ _, fun less => absurd less (by omega), fun _ => ?_⟩
    rw [dbit, dcell_suspected small stack]
    exact putBit_true_testBit _ k

theorem SensorKept.failed {k : Nat} {u : State} (before : SensorKept s d k t) (failed : SensorFailed t d k u) : SensorFailed s d k u :=
  ⟨fun less => by rw [← before.fails] at less ⊢; exact failed.1 less, fun seven => by rw [← before.fails] at seven; exact failed.2 seven⟩

theorem SensorFailed.kept {k : Nat} {u : State} (failed : SensorFailed s d k t) (after : SensorKept t d k u) : SensorFailed s d k u :=
  ⟨fun less => after.fails.trans (failed.1 less), fun seven => after.mark.trans (failed.2 seven)⟩

/-- The judgements of other sensors leave a sensor's count and mark. -/
theorem SensorKept.pass {bad : Nat → Bool} {k : Nat} {l : List Nat} (stack : d < 65) (h : SensorKept s d k t)
    (others : ∀ j ∈ l, j ≠ k ∧ j < 65) :
    SensorKept s d k (l.foldl (fun t k => judgeSensor d t (32 + k) 0x6023 k (bad k)) t) := by
  induction l generalizing t with
  | nil => exact h
  | cons j l ih =>
    obtain ⟨other, small⟩ := others j List.mem_cons_self
    exact ih (h.judge_other other stack small (bad j)) fun i hi => others i (List.mem_cons_of_mem j hi)

/-- In a pass over the sensors of the compute die one that fails is counted once. -/
theorem innerPass_fails {bad : Nat → Bool} {k n : Nat} (wf : SensorWf s d) (stack : d < 65) (range : n ≤ 65) (there : k < n)
    (fails : bad k = true) (clear : dbit s 0x6023 (d + 1) k = false) : SensorFailed s d k (innerPass d bad n s) := by
  obtain ⟨m, rfl⟩ := Nat.exists_eq_add_of_lt there
  have split_ : List.range (k + m + 1) = List.range k ++ k :: (List.range m).map (k + 1 + ·) := by
    rw [show k + m + 1 = k + 1 + m by omega, List.range_add, List.range_succ, List.append_assoc]
    rfl
  unfold innerPass
  rw [split_, List.foldl_append, List.foldl_cons, fails]
  have before : SensorKept s d k ((List.range k).foldl (fun t k => judgeSensor d t (32 + k) 0x6023 k (bad k)) s) :=
    SensorKept.pass stack ⟨wf, rfl, rfl⟩ fun j hj => by
      have := List.mem_range.mp hj
      omega
  obtain ⟨wf', failed⟩ := judgeSensor_fails before.wf stack (by omega) (before.mark.trans clear)
  refine (before.failed failed).kept (SensorKept.pass stack ⟨wf', rfl, rfl⟩ fun j hj => ?_)
  obtain ⟨i, hi, rfl⟩ := List.mem_map.mp hj
  have := List.mem_range.mp hi
  omega

/-- The bounds that the outer sensors give the readings of the compute die (16 R361). -/
def sensorLow (r : SensorReading) : Int := (highest r.base).getD 0 - 2000
def sensorHigh (r : SensorReading) : Int := (highest r.tier).getD 0 + 110 * (r.mw : Int) / 1000 + 3000

/-- A reading of the compute die lies outside them. -/
def sensorBad (r : SensorReading) (k : Nat) : Bool :=
  decide (r.cd.getD k 0 < sensorLow r) || decide (sensorHigh r < r.cd.getD k 0)

/-- The end of a cross-check: the highest trusted reading and what governs. -/
def governed (s : State) (d : Nat) (low : Option Int) (cd : List Int) : State :=
  let u := { s.therm d with cdMax := highest (trusted cd (dcell s 0x6023 (d + 1)) 0), low := low }
  s.setTherm d { u with tGov := governing u (anySuspect s d) }

/-- The outer sensors of a cross-check judged. -/
def outerJudged (s : State) (d : Nat) (r : SensorReading) : State := outerPass d (offMedian r.base) (offMedian r.tier) 16 s

theorem sensorCrossCheck_sound {d : Die} {r : SensorReading} (up : dieUp s d.val = true)
    (outer : dcell (outerJudged s d.val r) 0x6024 (d.val + 1) = 0) (base : r.base ≠ []) (tier : r.tier ≠ []) :
    sensorCrossCheck d r s
      = governed (innerPass d.val (sensorBad r) 32 (outerJudged s d.val r)) d.val (some (sensorLow r)) r.cd := by
  unfold sensorCrossCheck
  rw [if_neg (by simp [up])]
  extract_lets n s1 o low high bad s2 top u
  have none : o = 0 := outer
  have hlow : low = some (sensorLow r) := by
    unfold low
    rw [none, trusted_all, highest_isSome base]
    rfl
  have hhigh : high = some (sensorHigh r) := by
    unfold high
    rw [none, trusted_all, highest_isSome tier]
    rfl
  have hbad : (fun k => bad (r.cd.getD k 0)) = sensorBad r := by
    funext k
    unfold bad
    rw [hlow, hhigh]
    rfl
  have hs2 : s2 = innerPass n (sensorBad r) 32 s1 := by
    rw [← hbad]
    rfl
  show governed s2 n low r.cd = _
  rw [hs2, hlow]
  rfl

theorem fails_governed (wf : mwf Therm.init 0 s.therms = true) (low : Option Int) (cd : List Int) :
    ((governed s d low cd).therm d).fails = (s.therm d).fails := by
  unfold governed
  rw [therm_setTherm wf]

theorem SensorsPassed.dcell {p : Nat → Prop} (h : SensorsPassed s d p t) (idx sub : Nat) : dcell t idx sub = dcell s idx sub := by
  unfold Machine.dcell
  rw [h.dict]

/-- The end of a cross-check in which every sensor read well. -/
theorem governed_passed {p : Nat → Prop} {cd : List Int} (low : Option Int) (h : SensorsPassed s d p t)
    (base : Machine.dcell s 0x6023 (d + 1) = 0) (tier : Machine.dcell s 0x6024 (d + 1) = 0) (some : cd ≠ []) :
    governed t d low cd = { s with therms := (governed t d low cd).therms }
      ∧ ((governed t d low cd).therm d).cdMax = highest cd ∧ ((governed t d low cd).therm d).low = low
      ∧ ((governed t d low cd).therm d).tGov = (highest cd).getD 0 := by
  have sound : anySuspect t d = false := by rw [anySuspect, h.dcell, h.dcell, base, tier]; rfl
  have now : (governed t d low cd).therm d = { t.therm d with
      cdMax := highest cd, low := low, tGov := (highest cd).getD 0 } := by
    unfold governed
    rw [therm_setTherm h.canonical, sound, h.dcell, base, trusted_all]
    obtain ⟨x, top⟩ : ∃ x, highest cd = .some x := ⟨_, highest_isSome some⟩
    simp only [governing, top, Option.getD_some, Bool.false_eq_true, if_false]
  refine ⟨?_, by rw [now], by rw [now], by rw [now]⟩
  conv => lhs; rw [h.frame]
  conv => rhs; rw [h.frame]
  rfl


theorem outerJudged_good {r : SensorReading} (wf : SensorWf s d)
    (outer : ∀ k < 16, offMedian r.base k = false ∧ offMedian r.tier k = false) (clear : dcell s 0x6024 (d + 1) = 0) :
    SensorsPassed s d (fun k => k < 16 ∨ (16 ≤ k ∧ k < 32)) (outerJudged s d r) :=
  outerPass_good outer clear wf.canonical wf.failsWf

/-- A cross-check in which every sensor reads well. -/
theorem sensorCrossCheck_good {d : Die} {r : SensorReading} (up : dieUp s d.val = true) (wf : SensorWf s d.val)
    (base : r.base ≠ []) (tier : r.tier ≠ []) (cd : r.cd ≠ [])
    (outer : ∀ k < 16, offMedian r.base k = false ∧ offMedian r.tier k = false) (inner : ∀ k < 32, sensorBad r k = false)
    (outerClear : dcell s 0x6024 (d.val + 1) = 0) (innerClear : dcell s 0x6023 (d.val + 1) = 0) :
    sensorCrossCheck d r s = { s with therms := (sensorCrossCheck d r s).therms }
      ∧ ((sensorCrossCheck d r s).therm d.val).cdMax = highest r.cd
      ∧ ((sensorCrossCheck d r s).therm d.val).low = some (sensorLow r)
      ∧ ((sensorCrossCheck d r s).therm d.val).tGov = (highest r.cd).getD 0
      ∧ ∀ k < 64, mget 0 ((sensorCrossCheck d r s).therm d.val).fails k = 0 := by
  have one := outerJudged_good wf outer outerClear
  have two := innerPass_good one inner innerClear
  rw [sensorCrossCheck_sound up ((one.dcell _ _).trans outerClear) base tier]
  obtain ⟨frame, max, low, gov⟩ := governed_passed (some (sensorLow r)) two innerClear outerClear cd
  refine ⟨frame, max, low, gov, fun k hk => ?_⟩
  refine (congrArg (mget 0 · k) (fails_governed two.canonical _ _)).trans (two.zero k ?_)
  by_cases k32 : k < 32
  · exact .inl (by omega)
  · exact .inr (by omega)

/-- A cross-check in which a sensor of the compute die fails. -/
theorem sensorCrossCheck_fails {d : Die} {r : SensorReading} {k : Nat} (up : dieUp s d.val = true) (wf : SensorWf s d.val)
    (base : r.base ≠ []) (tier : r.tier ≠ [])
    (outer : ∀ k < 16, offMedian r.base k = false ∧ offMedian r.tier k = false)
    (outerClear : dcell s 0x6024 (d.val + 1) = 0) (innerClear : dcell s 0x6023 (d.val + 1) = 0)
    (there : k < 32) (bad : sensorBad r k = true) :
    (mget 0 (s.therm d.val).fails (32 + k) < 7 →
        mget 0 ((sensorCrossCheck d r s).therm d.val).fails (32 + k) = mget 0 (s.therm d.val).fails (32 + k) + 1)
      ∧ (7 ≤ mget 0 (s.therm d.val).fails (32 + k) → dbit (sensorCrossCheck d r s) 0x6023 (d.val + 1) k = true) := by
  have one := outerJudged_good wf outer outerClear
  have clear : dbit (outerJudged s d.val r) 0x6023 (d.val + 1) k = false := by
    rw [dbit, one.dcell, innerClear, Nat.zero_testBit]
  have wf' : SensorWf (outerJudged s d.val r) d.val := ⟨(congrArg (mwf dictAbsent 0 · = true) one.dict).mpr wf.dict, one.canonical, one.failsWf⟩
  obtain ⟨more, mark⟩ := innerPass_fails (bad := sensorBad r) wf' (by omega) (by decide) there bad clear
  rw [one.kept _ (by omega)] at more mark
  have canonical := (SensorKept.pass (bad := sensorBad r) (k := 64) (l := List.range 32) (by omega) ⟨wf', rfl, rfl⟩ fun j hj => by
    have := List.mem_range.mp hj
    omega).wf.canonical
  rw [sensorCrossCheck_sound up ((one.dcell _ _).trans outerClear) base tier]
  exact ⟨fun less => (congrArg (mget 0 · (32 + k)) (fails_governed canonical _ _)).trans (more less), mark⟩

end

/-! ### The thermal cap (16 R363) -/

section
variable {s : State} {d : Die}

/-- A fall of the thermal cap below what it was is noted. -/
def capFell (s : State) (d : Nat) (was : Nat) : State := if 16 < was then sticky s 0xA010 8 d else s

theorem thermalCapCheck_critical (up : dieUp s d.val = true) (crit : 110000 ≤ (s.therm d.val).tGov) :
    thermalCapCheck d s = capFell
      (if (s.therm d.val).critAt = none then
        sticky (s.setTherm d.val { s.therm d.val with
          capTh := 16, critAt := some ((s.therm d.val).critAt.getD (clock s)), coolAt := none, throttled := true }) 0xA010 10 d.val
      else s.setTherm d.val { s.therm d.val with
        capTh := 16, critAt := some ((s.therm d.val).critAt.getD (clock s)), coolAt := none, throttled := true })
      d.val (s.therm d.val).capTh := by
  refine (if_neg (by simp [up])).trans ((if_pos crit).trans ?_)
  cases (s.therm d.val).critAt <;> rfl

theorem thermalCapCheck_hot (up : dieUp s d.val = true) (below : (s.therm d.val).tGov < 110000)
    (hot : f32Milli (dnum s 0x6026 1) < (s.therm d.val).tGov) :
    thermalCapCheck d s = capFell (s.setTherm d.val { s.therm d.val with
      capTh := max 16 ((s.therm d.val).capTh - 1), critAt := none, coolAt := none, throttled := true }) d.val (s.therm d.val).capTh :=
  (if_neg (by simp [up])).trans ((if_neg (not_le.mpr below)).trans (if_pos hot))

theorem thermalCapCheck_between (up : dieUp s d.val = true) (below : (s.therm d.val).tGov < 110000)
    (low : f32Milli (dnum s 0x6026 1) - 3000 ≤ (s.therm d.val).tGov) (high : (s.therm d.val).tGov ≤ f32Milli (dnum s 0x6026 1)) :
    thermalCapCheck d s = s.setTherm d.val { s.therm d.val with coolAt := none, critAt := none } :=
  (if_neg (by simp [up])).trans ((if_neg (not_le.mpr below)).trans ((if_neg (not_lt.mpr high)).trans (if_neg (not_lt.mpr low))))

/-- What a check 3 K below T_HOT does. -/
def cooled (s : State) (d : Nat) : State :=
  match (s.therm d).coolAt with
  | none => s.setTherm d { s.therm d with coolAt := some (clock s), critAt := none }
  | some x =>
    if 1000000 ≤ (clock s - x).toNat then
      s.setTherm d { s.therm d with capTh := min 64 ((s.therm d).capTh + 1), coolAt := some (clock s), critAt := none }
    else s.setTherm d { s.therm d with critAt := none }

theorem thermalCapCheck_cool (up : dieUp s d.val = true) (below : (s.therm d.val).tGov < 110000)
    (cool : (s.therm d.val).tGov < f32Milli (dnum s 0x6026 1) - 3000) : thermalCapCheck d s = cooled s d.val :=
  (if_neg (by simp [up])).trans ((if_neg (not_le.mpr below)).trans ((if_neg (by omega)).trans (if_pos cool)))

theorem cooled_first (first : (s.therm d.val).coolAt = none) :
    cooled s d.val = s.setTherm d.val { s.therm d.val with coolAt := some (clock s), critAt := none } := by
  unfold cooled
  rw [first]

theorem cooled_some {x : Word} (since : (s.therm d.val).coolAt = some x) :
    cooled s d.val = if 1000000 ≤ (clock s - x).toNat then
      s.setTherm d.val { s.therm d.val with capTh := min 64 ((s.therm d.val).capTh + 1), coolAt := some (clock s), critAt := none }
    else s.setTherm d.val { s.therm d.val with critAt := none } := by
  unfold cooled
  rw [since]

theorem execThermalCapCheck_due (due : checkDue s (ckThermal d.val) 100000 = true) (below : (s.therm d.val).tGov < 110000) :
    exec (.thermalCapCheck d) s = .next (thermalCapCheck d (ran s (ckThermal d.val) (clock s))) :=
  congrArg Host.Outcome.next ((if_neg (not_le.mpr below)).trans (periodic_due due _))

theorem execThermalCapCheck_critical (crit : 110000 ≤ (s.therm d.val).tGov) :
    exec (.thermalCapCheck d) s = .next (thermalCapCheck d s) := congrArg Host.Outcome.next (if_pos crit)

theorem execThermalCritTimeout_retires {a : Word} (up : dieUp s d.val = true) (since : (s.therm d.val).critAt = some a)
    (crit : 110000 ≤ (s.therm d.val).tGov) (long : 10000000 ≤ (clock s - a).toNat) :
    exec (.thermalCritTimeout d) s = .next (retireStack s d.val) := by
  refine congrArg Host.Outcome.next ?_
  rw [since]
  exact if_pos (by simp only [up, tCrit, crit, long, decide_true, Bool.and_self])

end

/-! ### The margin survey (16 R364; 01 R20 to R23) -/

theorem goodVias_le (vias needed ratio : Nat) : goodVias vias needed ratio ≤ needed := by
  unfold goodVias
  split <;> omega

theorem foldl_add_le {l : List Nat} {m : Nat} (h : ∀ x ∈ l, x ≤ m) (a : Nat) : l.foldl (· + ·) a ≤ a + l.length * m := by
  induction l generalizing a with
  | nil => simp
  | cons x l ih =>
    have here := h x List.mem_cons_self
    have rest := ih (fun y hy => h y (List.mem_cons_of_mem x hy)) (a + x)
    rw [List.foldl_cons, List.length_cons, Nat.succ_mul]
    omega

/-- The groups of a path carry at most its full limit. -/
theorem groupLimits_le (d : Nat) (ratios : List Nat) : (groupLimits d ratios).foldl (· + ·) 0 ≤ pathFull d := by
  unfold groupLimits pathFull
  cases pathOf d with
  | none => exact Nat.le_refl 0
  | some p =>
    obtain ⟨g, v, n, ma⟩ := p
    refine (foldl_add_le (m := ma * n) (fun x hx => ?_) 0).trans ?_
    · obtain ⟨k, -, rfl⟩ := List.mem_map.mp hx
      exact Nat.mul_le_mul_left ma (goodVias_le _ _ _)
    · simp only [List.length_map, List.length_range, Nat.zero_add, Nat.mul_assoc, Nat.le_refl]

section
variable {s t : State} {n : Nat}

/-- What a survey's path has lost is entered, and a path that lost more is marked. -/
def pathNoted (s : State) (n lost : Nat) : State :=
  let t := { s with power := { s.power with lost := mput 0 s.power.lost n lost } }
  if mget 0 s.power.lost n < lost then sticky t 0xA010 4 (min n 24) else t

/-- The sum that a survey's group limits allow. -/
def pathSum (n : Nat) (ratios : List Nat) : Nat := (groupLimits n ratios).foldl (· + ·) 0

theorem viaEstimate_none (pathless : 26 ≤ n) (ratios : List Nat) : viaEstimate s n ratios = s := by
  have none : pathOf n = none := by
    unfold pathOf
    rw [if_neg, if_neg, if_neg, if_neg, if_neg] <;> omega
  unfold viaEstimate
  rw [none]

theorem viaEstimate_high (low : 16 ≤ n) (high : n < 26) (ratios : List Nat) :
    viaEstimate s n ratios = pathNoted s n (pathFull n - pathSum n ratios) := by
  obtain ⟨g, v, m, ma, path⟩ : ∃ g v m ma, pathOf n = some (g, v, m, ma) := by
    unfold pathOf
    rw [if_neg (by omega), if_neg (by omega)]
    split
    · exact ⟨_, _, _, _, rfl⟩
    · split
      · exact ⟨_, _, _, _, rfl⟩
      · exact ⟨_, _, _, _, if_pos (by omega)⟩
  unfold viaEstimate
  rw [path]
  exact (if_neg (by omega)).trans (if_neg (by omega))

/-- A base die's quadrants whose groups carry too little are mapped out. -/
theorem viaEstimate_base (low : 8 ≤ n) (high : n < 16) (ratios : List Nat) :
    viaEstimate s n ratios = (List.range 4).foldl (fun t q =>
        if (slice (groupLimits n ratios) (4 * q) 4).foldl (· + ·) 0 < 5000 * 32 then quadrantOut t (n - 8) q else t)
      (pathNoted s n (pathFull n - pathSum n ratios)) := by
  have path : pathOf n = some (16, 36, 32, 2500) := by
    unfold pathOf
    rw [if_neg (by omega), if_pos high]
  unfold viaEstimate
  rw [path]
  exact (if_neg (by omega)).trans (if_pos high)

/-- A compute die's path sets its cap. -/
def pathCapped (s : State) (n lost : Nat) : State :=
  let k := pathSteps s n
  let t := dset (dset s 0x3012 (n + 1) (ratF32 ((pathFull n - lost : Nat) : Int) (64 * 1000))) 0x3013 (n + 1) (k * 21875)
  t.setTherm n { t.therm n with capPath := max 16 k }

theorem viaEstimate_core (low : n < 8) (ratios : List Nat) :
    viaEstimate s n ratios
      = pathCapped (pathNoted s n (pathFull n - pathSum n ratios)) n (pathFull n - pathSum n ratios) := by
  have path : pathOf n = some (50, 72, 64, 5800) := by
    unfold pathOf
    rw [if_pos low]
  unfold viaEstimate
  rw [path]
  exact if_pos low

theorem pathNoted_power (s : State) (n lost : Nat) :
    (pathNoted s n lost).power = { s.power with lost := mput 0 s.power.lost n lost } := by
  unfold pathNoted
  split
  · exact congrArg Standing.power (standing_sticky _ _ _ _)
  · rfl

theorem pathNoted_lost (wf : mwf 0 0 s.power.lost = true) (lost : Nat) :
    mget 0 (pathNoted s n lost).power.lost n = lost := by
  rw [pathNoted_power]
  exact mget_mput_same lost wf

theorem pathNoted_therms (s : State) (n lost : Nat) : (pathNoted s n lost).therms = s.therms := by
  unfold pathNoted
  split
  · exact sticky_therms _ _ _ _
  · rfl

theorem pathNoted_tiers (s : State) (n lost : Nat) : (pathNoted s n lost).tiers = s.tiers := by
  unfold pathNoted
  split
  · exact congrArg Standing.tiers (standing_sticky _ _ _ _)
  · rfl

/-- A quadrant that a tier leaves out shows in its mask. -/
theorem quadOut_out (x : Tier) (q j : Nat) :
    (quadOut x q).out.getLsbD j = (x.out.getLsbD j || (decide (j < 4) && decide (q = j))) := by
  unfold quadOut
  rw [BitVec.getLsbD_or, getLsbD_twoPow]

theorem quadOut_own (x : Tier) {q : Nat} (small : q < 4) : (quadOut x q).out.getLsbD q = true := by
  rw [quadOut_out, decide_eq_true small, decide_eq_true rfl, Bool.and_true, Bool.or_true]

theorem quadOut_ne_init (x : Tier) {q : Nat} (small : q < 4) : quadOut x q ≠ Tier.init := by
  intro same
  have set := quadOut_own x small
  have clear : Tier.init.out.getLsbD q = false := by rw [show Tier.init.out = 0#4 from rfl, BitVec.getLsbD_zero]
  rw [same, clear] at set
  exact Bool.false_ne_true set

/-- Quadrants of a tier have only been left out since. -/
def QuadsLeft (s : State) (d : Nat) (t : State) : Prop :=
  (t.tier d).quads = (s.tier d).quads ∧ ∀ j, (s.tier d).out.getLsbD j = true → (t.tier d).out.getLsbD j = true

/-- Mapping a quadrant out leaves out that one, where the map holds it. -/
theorem quadrantOut_left (s : State) (d : Nat) {q : Nat} (small : q < 4) :
    QuadsLeft s d (quadrantOut s d q)
      ∧ ((s.tier d).quads.contains q = true → ((quadrantOut s d q).tier d).out.getLsbD q = true) := by
  by_cases out : (s.tier d).out.getLsbD q = true
  · rw [quadrantOut_stays (.inl out)]
    exact ⟨⟨rfl, fun _ h => h⟩, fun _ => out⟩
  by_cases mapped : (s.tier d).quads.contains q = true
  · have now : (quadrantOut s d q).tier d = quadOut (s.tier d) q := by
      rw [quadrantOut_goes (Bool.eq_false_of_not_eq_true out) mapped]
      refine Eq.trans ?_ (mget_mput_new s.tiers d (quadOut_ne_init (s.tier d) small))
      exact congrArg (mget Tier.init · d) (congrArg Standing.tiers (standing_sticky _ _ _ _))
    rw [now]
    refine ⟨⟨by rw [now]; rfl, fun j h => ?_⟩, fun _ => quadOut_own _ small⟩
    rw [now, quadOut_out, h, Bool.true_or]
  · rw [quadrantOut_stays (.inr (Bool.eq_false_of_not_eq_true mapped))]
    exact ⟨⟨rfl, fun _ h => h⟩, fun h => absurd h mapped⟩

/-- Of the first `n` quadrants those that starve are left out. -/
theorem starved_left (s : State) (d : Nat) (starves : Nat → Prop) [DecidablePred starves] (n : Nat) (small : n ≤ 4) :
    QuadsLeft s d ((List.range n).foldl (fun t q => if starves q then quadrantOut t d q else t) s)
      ∧ ∀ q < n, starves q → (s.tier d).quads.contains q = true →
        (((List.range n).foldl (fun t q => if starves q then quadrantOut t d q else t) s).tier d).out.getLsbD q = true := by
  induction n with
  | zero => exact ⟨⟨rfl, fun _ h => h⟩, fun q hq => absurd hq (Nat.not_lt_zero q)⟩
  | succ n ih =>
    rw [List.range_succ, List.foldl_concat]
    obtain ⟨⟨quads, kept⟩, done⟩ := ih (by omega)
    by_cases here : starves n
    · rw [if_pos here]
      obtain ⟨⟨quads', kept'⟩, now⟩ := quadrantOut_left
        ((List.range n).foldl (fun t q => if starves q then quadrantOut t d q else t) s) d (q := n) (by omega)
      refine ⟨⟨quads'.trans quads, fun j h => kept' j (kept j h)⟩, fun q hq starve mapped => ?_⟩
      by_cases same : q = n
      · rw [same] at mapped ⊢
        exact now (quads ▸ mapped)
      · exact kept' q (done q (by omega) starve mapped)
    · rw [if_neg here]
      refine ⟨⟨quads, kept⟩, fun q hq starve mapped => done q ?_ starve mapped⟩
      by_contra large
      exact here ((show q = n by omega) ▸ starve)

/-- A survey of a base die leaves out the quadrants whose groups carry too little. -/
theorem viaEstimate_starves (low : 8 ≤ n) (high : n < 16) (ratios : List Nat) :
    ∀ q < 4, (slice (groupLimits n ratios) (4 * q) 4).foldl (· + ·) 0 < 5000 * 32 →
      (s.tier (n - 8)).quads.contains q = true → ((viaEstimate s n ratios).tier (n - 8)).out.getLsbD q = true := by
  intro q small starve mapped
  rw [viaEstimate_base low high]
  have tiers : (pathNoted s n (pathFull n - pathSum n ratios)).tier (n - 8) = s.tier (n - 8) :=
    congrArg (mget Tier.init · (n - 8)) (pathNoted_tiers s n _)
  obtain ⟨-, out⟩ := starved_left (pathNoted s n (pathFull n - pathSum n ratios)) (n - 8)
    (fun q => (slice (groupLimits n ratios) (4 * q) 4).foldl (· + ·) 0 < 5000 * 32) 4 (Nat.le_refl 4)
  exact out q small starve (tiers ▸ mapped)

/-- The margin and the slack that a survey enters. -/
def surveyNoted (s : State) (n : Nat) (r : SurveyReading) : State :=
  dset (dset s 0x6040 (n + 1) (ratF32 (r.railMv * 1000 - f32Milli (dnum s 0x6042 (n + 1))) 1000)) 0x6041 (n + 1)
    (ratF32 r.slackPs 1)

theorem execMarginSurvey_due {d : Fin 30} {r : SurveyReading} (up : loaded s = true) (on : domainOn s d.val = true)
    (due : checkDue s (ckSurvey d.val) (beats (dnum s 0x6043 2)) = true) :
    exec (.marginSurvey d r) s
      = .next (viaEstimate (surveyNoted (ran s (ckSurvey d.val) (clock s)) d.val r) d.val r.ratios) := by
  refine congrArg Host.Outcome.next ((periodic_due due _).trans (if_neg ?_))
  have up' : loaded (ran s (ckSurvey d.val) (clock s)) = true := up
  have on' : domainOn (ran s (ckSurvey d.val) (clock s)) d.val = true := on
  rw [up', on']
  exact Bool.false_ne_true

/-- The steps that a path's loss leaves, where the loss is what its groups do not carry. -/
theorem pathSteps_noted (wf : mwf 0 0 s.power.lost = true) (low : n < 8) (ratios : List Nat) :
    pathSteps (pathNoted s n (pathFull n - pathSum n ratios)) n = 64 * pathSum n ratios / pathFull n := by
  have full : ¬ pathFull n = 0 := by simp [pathFull, pathOf, low]
  have le : pathSum n ratios ≤ pathFull n := groupLimits_le n ratios
  unfold pathSteps
  rw [if_neg full, pathNoted_lost wf, Nat.sub_sub_self le]

theorem capPath_pathCapped (canonical : mwf Therm.init 0 s.therms = true) (lost : Nat) :
    ((pathCapped s n lost).therm n).capPath = max 16 (pathSteps s n) :=
  congrArg Therm.capPath (therm_setTherm (s := dset (dset s _ _ _) _ _ _) canonical _)

theorem dcell_pathCapped (lost : Nat) (listed : pathSteps s n * 21875 ≠ dictAbsent) :
    dcell (pathCapped s n lost) 0x3013 (n + 1) = pathSteps s n * 21875 := by
  have dict : (pathCapped s n lost).dict = (dset (dset s 0x3012 (n + 1) (ratF32 ((pathFull n - lost : Nat) : Int) (64 * 1000)))
    0x3013 (n + 1) (pathSteps s n * 21875)).dict := rfl
  exact (congrArg (mget 0 · (dkey 0x3013 (n + 1))) dict).trans (dcell_dset listed)

/-- A path's loss never calls for more than 64 steps. -/
theorem pathSteps_le {k sum full : Nat} (le : sum ≤ full) (steps : k = 64 * sum / full) : k * 21875 ≠ dictAbsent := by
  have few : k ≤ 64 := steps ▸ Nat.div_le_of_le_mul ((Nat.mul_le_mul_left 64 le).trans (Nat.mul_comm 64 full).le)
  unfold dictAbsent
  omega

/-- A compute die's survey: the loss, the cap and the clock of its path. -/
theorem pathCapped_core (wf : mwf 0 0 s.power.lost = true) (canonical : mwf Therm.init 0 s.therms = true) (low : n < 8)
    (ratios : List Nat) :
    mget 0 (viaEstimate s n ratios).power.lost n = pathFull n - pathSum n ratios
      ∧ ((viaEstimate s n ratios).therm n).capPath = max 16 (64 * pathSum n ratios / pathFull n)
      ∧ dcell (viaEstimate s n ratios) 0x3013 (n + 1) = 64 * pathSum n ratios / pathFull n * 21875 := by
  rw [viaEstimate_core low, ← pathSteps_noted wf low ratios]
  exact ⟨pathNoted_lost wf _, capPath_pathCapped ((pathNoted_therms s n _).symm ▸ canonical) _,
    dcell_pathCapped _ (pathSteps_le (groupLimits_le n ratios) (pathSteps_noted wf low ratios))⟩

end

/-- Settles O51: each clause is the rule of its command (the model, the refinement, the cross-check, the thermal cap, the
survey), and a pass over the sensors keeps apart what each of them counts. -/
theorem thermalRules : Obligations.ThermalRules := by
  unfold Obligations.ThermalRules
  refine ⟨?_, ?_, ?_, ?_, ?_⟩
  · intro s d mw a b x p up inv due
    have now := thermalModelUpdate_up (s := ran s (ckModel d.val) (clock s)) (mw := mw) (a := a) (b := b) inv.dict up
    have own : ((thermalModelUpdate d mw a b (ran s (ckModel d.val) (clock s))).therm d.val) = { modelled x mw a b with
        tGov := governing (modelled x mw a b) (anySuspect s d.val) } := by
      rw [now]
      exact therm_setTherm (s := inletsNoted _ a b) inv.therms _
    refine ⟨_, congrArg Host.Outcome.next (periodic_due due _), ?_, ?_, ?_, ?_, ?_, ?_, ?_⟩
    · rw [now]
      rfl
    · rw [own]
      rfl
    · rw [own]
      rfl
    · rw [own]
      rfl
    · intro sound
      rw [own, sound]
      rfl
    · intro h l suspect high low
      rw [own, suspect]
      show maxOpt x.cdMax (maxOpt x.low _) = _
      rw [high, low]
      rfl
    · intro e other
      rw [now]
      exact therm_setTherm_other (s := inletsNoted _ a b) inv.therms other _
  · intro s d fitR fitTau x r k run up fresh
    have go (f : State → State) : atBeat s (ckRefine d.val) f = f run := atBeat_new fresh f
    have rBounds := refine_within x.rj fitR 34000
    have kBounds := refine_within x.tau fitTau 62500
    refine ⟨fun off => congrArg Host.Outcome.next ((go _).trans (modelRefine_throttled (s := run) up off)),
      fun cool sound => congrArg Host.Outcome.next ((go _).trans (modelRefine_refines (s := run) up cool sound)),
      rBounds.1, rBounds.2, kBounds.1, kBounds.2, fun l h fl fh => refine_moves (k := 34000) l h fl fh⟩
  · intro s d r lo hi x up inv fails due base tier cd outer outerClear innerClear hlo hhi
    have wf : SensorWf (ran s (ckSensor d.val) (clock s)) d.val := ⟨inv.dict, inv.therms, fails⟩
    have some {l : List Int} {n : Nat} (len : l.length = n + 1) : l ≠ [] := fun none => by simp [none] at len
    have bad (k : Nat) : sensorBad r k = (decide (r.cd.getD k 0 < lo) || decide (hi < r.cd.getD k 0)) := by
      rw [hlo, hhi]
      rfl
    refine ⟨fun good => ⟨_, congrArg Host.Outcome.next (periodic_due due _), ?_⟩,
      fun k there off => ⟨_, congrArg Host.Outcome.next (periodic_due due _), ?_⟩⟩
    · have inner (k : Nat) (there : k < 32) : sensorBad r k = false := by
        obtain ⟨l, h⟩ := good k there
        rw [bad, decide_eq_false (not_lt.mpr l), decide_eq_false (not_lt.mpr h), Bool.or_false]
      have result := sensorCrossCheck_good (s := ran s (ckSensor d.val) (clock s)) up wf (some base) (some tier) (some cd) outer inner outerClear innerClear
      rw [show sensorLow r = lo from hlo.symm] at result
      exact result
    · have fails : sensorBad r k = true := by
        rw [bad]
        rcases off with low | high
        · rw [decide_eq_true low, Bool.true_or]
        · rw [decide_eq_true high, Bool.or_true]
      exact sensorCrossCheck_fails (s := ran s (ckSensor d.val) (clock s)) up wf (some base) (some tier) outer outerClear
        innerClear there fails
  · intro s d n x hot set due up fell
    refine ⟨fun crit => ?_, fun due above below => ?_, fun due low high below => ?_, fun due cool below => ?_,
      fun a since crit long => execThermalCritTimeout_retires up since crit long⟩
    · exact (execThermalCapCheck_critical crit).trans (congrArg Host.Outcome.next (thermalCapCheck_critical up crit))
    · exact (execThermalCapCheck_due due below).trans
        (congrArg Host.Outcome.next (thermalCapCheck_hot (s := ran s (ckThermal n) (clock s)) up below above))
    · exact (execThermalCapCheck_due due below).trans
        (congrArg Host.Outcome.next (thermalCapCheck_between (s := ran s (ckThermal n) (clock s)) up below low high))
    · have run := (execThermalCapCheck_due due below).trans
        (congrArg Host.Outcome.next (thermalCapCheck_cool (s := ran s (ckThermal n) (clock s)) up below cool))
      refine ⟨fun first => run.trans (congrArg Host.Outcome.next (cooled_first (s := ran s (ckThermal n) (clock s)) first)),
        fun a since soon => run.trans (congrArg Host.Outcome.next
          ((cooled_some (s := ran s (ckThermal n) (clock s)) since).trans (if_neg (not_le.mpr soon)))),
        fun a since late => run.trans (congrArg Host.Outcome.next
          ((cooled_some (s := ran s (ckThermal n) (clock s)) since).trans (if_pos late)))⟩
  · intro s d r n sum r0 noted up on due
    have run : exec (.marginSurvey d r) s = .next (viaEstimate noted n r.ratios) := execMarginSurvey_due up on due
    refine ⟨fun pathless => run.trans (congrArg Host.Outcome.next (viaEstimate_none pathless _)),
      fun _ => groupLimits_le n r.ratios,
      fun low high => run.trans (congrArg Host.Outcome.next (viaEstimate_high low high _)),
      fun core inv lost => ⟨_, run, pathCapped_core (s := noted) lost inv.therms core r.ratios⟩,
      fun low high => ⟨_, run, viaEstimate_starves (s := noted) low high r.ratios⟩⟩

end Sys2Proof.Machine
end

section
/-! What packets on their way leave unchanged, and the ghost's two ends (13 R302 to R307): O57. -/

namespace Sys2Proof.Machine

/-! ### What the sending of a packet leaves unchanged (09) -/

/-- A state but for what the sending of packets and what a sticky bit may change: of the host function, the pending raises. -/
def unposted (s : State) : State :=
  { s with dict := [], out := [], mgmt := State.reset.mgmt, health := State.reset.health, host := { s.host with pba := [] },
           fab := State.reset.fab, fibres := [], pairs := [], flight := [] }

section
variable {s t : State}

theorem unposted_of_unsent (h : unsent t = unsent s) : unposted t = unposted s :=
  (congrArg unposted h :)

theorem res_of_unposted (h : unposted t = unposted s) : t.res = s.res := (congrArg State.res h :)

theorem mem_of_unposted (h : unposted t = unposted s) : t.mem = s.mem := (congrArg State.mem h :)

end

section
variable (s : State)

@[simp] theorem unposted_fab (x : Fab) : unposted { s with fab := x } = unposted s := rfl
@[simp] theorem unposted_out (x : List Output) : unposted { s with out := x } = unposted s := rfl
@[simp] theorem unposted_setFibre (f : Nat) (x : Fibre) : unposted (s.setFibre f x) = unposted s := rfl
@[simp] theorem unposted_setPort (p : Nat) (x : PortSt) : unposted (s.setPort p x) = unposted s := rfl
@[simp] theorem unposted_setPair (a b : Nat) (x : Pair) : unposted (s.setPair a b x) = unposted s := rfl
@[simp] theorem unposted_bump (idx sub n : Nat) : unposted (bump s idx sub n) = unposted s := rfl
@[simp] theorem unposted_dset (idx sub v : Nat) : unposted (dset s idx sub v) = unposted s := rfl
@[simp] theorem unposted_emit (o : Output) : unposted (emit s o) = unposted s := rfl
@[simp] theorem unposted_freshTag : unposted (freshTag s).2 = unposted s := rfl
@[simp] theorem unposted_spendTag (tag : BitVec 16) : unposted (spendTag s tag) = unposted s := rfl

@[simp] theorem unposted_raiseVector (v : Nat) : unposted (raiseVector s v) = unposted s := by
  unfold raiseVector
  split <;> rfl

@[simp] theorem unposted_journal (idx sub bit : Nat) : unposted (journal s idx sub bit) = unposted s := by
  unfold journal
  extract_lets
  split <;> rfl

@[simp] theorem unposted_sticky (idx sub bit : Nat) : unposted (sticky s idx sub bit) = unposted s := by
  unfold sticky
  split
  · rfl
  · exact (unposted_raiseVector _ _).trans (unposted_journal (dputBit s idx sub bit true) idx sub bit)

@[simp] theorem unposted_pump (a b : Nat) : unposted (pump s a b) = unposted s := by
  unfold pump
  exact unposted_of_unsent ((unsent_tellFrees _ a b 7).trans (unsent_pumpN _ a b 64))

@[simp] theorem unposted_nextFrees (f : Nat) : unposted (nextFrees s f).2 = unposted s := by
  unfold nextFrees
  split <;> simp

@[simp] theorem unposted_leaveFlit (f kind fc : Nat) (p : PktFlit) : unposted (leaveFlit s f kind fc p) = unposted s :=
  unposted_nextFrees s f

@[simp] theorem unposted_fillTo (f lane n : Nat) : unposted (fillTo f lane n s) = unposted s := by
  induction n generalizing s with
  | zero => rfl
  | succ n ih =>
    unfold fillTo
    split
    · rfl
    · exact (ih _).trans (unposted_leaveFlit s f 1 7 noBytes)

@[simp] theorem unposted_leavePkt (p : Packet) (f : Nat) (fl : PktFlit) : unposted (leavePkt p f s fl) = unposted s := by
  unfold leavePkt
  split <;> simp

@[simp] theorem unposted_markLeft (p : Packet) : unposted (markLeft s p) = unposted s := by
  unfold markLeft
  split <;> simp

@[simp] theorem unposted_launch (port : Nat) (x : PortSt) (p : Packet) : unposted (launch s port x p) = unposted s :=
  (unposted_markLeft _ p).trans (foldl_keeps unposted (fun t fl => unposted_leavePkt t p (fibreOf s port) fl) _ _)

@[simp] theorem unposted_sendPort (port : Nat) (p : Packet) : unposted (sendPort s port p) = unposted s := by
  unfold sendPort portTakes
  extract_lets x
  split
  · rfl
  · split
    · rename_i sent
      split at sent
      · cases sent
      · split at sent
        · cases sent
        · split at sent
          · cases sent
            exact unposted_launch s _ _ _
          · cases sent
    · rename_i waits
      split at waits
      · cases waits
        rfl
      · split at waits
        · cases waits
          rfl
        · split at waits
          · cases waits
          · cases waits
            rfl

@[simp] theorem unposted_atSlice (plane : Nat) (p : Packet) : unposted (atSlice s plane p) = unposted s := by
  unfold atSlice
  split <;> simp

@[simp] theorem unposted_crossPacket (a b : Nat) (p : Packet) : unposted (crossPacket s a b p) = unposted s := by
  simp [crossPacket]

@[simp] theorem unposted_leaveOn (e plane : Nat) (p : Packet) : unposted (leaveOn s e plane p).2 = unposted s := by
  unfold leaveOn
  split
  · simp
  · split
    · simp
    · split <;> simp

@[simp] theorem unposted_reply (p : Packet) (typ : BitVec 5) (f : Packet → Packet) : unposted (reply s p typ f) = unposted s := by
  unfold reply
  extract_lets
  split <;> simp

@[simp] theorem unposted_sendOn (plane : Nat) (p : Packet) : unposted (sendOn s plane p) = unposted s := by
  unfold sendOn
  split
  · rfl
  · dsimp only
    split <;> simp [replyErr]

@[simp] theorem unposted_sendLoose (k : Nat) (p : Packet) : unposted (sendLoose s k p) = unposted s := by
  have dealt (t : State) (q : Packet) : unposted (sendDealt t k q) = unposted t := by
    unfold sendDealt
    split <;> simp
  exact (dealt _ _).trans rfl

@[simp] theorem unposted_request (q : Nat) (i : BitVec 32) (plane : Nat) (circuit : Option (BitVec 12)) (ghost : Bool)
    (p : Packet) : unposted (request s q i plane circuit ghost p) = unposted s :=
  (unposted_sendOn _ _ _).trans (unposted_freshTag s)

end

/-! ### The owner's engine (13 R301 to R307) -/

section
variable {s t u : State}

/-- Only puts of the ghost engine have been sent since: of its books they change the count of puts. -/
def GhostSent (s t : State) : Prop := t.res = { s.res with puts := t.res.puts } ∧ t.mem = s.mem

theorem GhostSent.trans (first : GhostSent s t) (second : GhostSent t u) : GhostSent s u := by
  obtain ⟨res, mem⟩ := first
  obtain ⟨res', mem'⟩ := second
  refine ⟨?_, mem'.trans mem⟩
  conv => lhs; rw [res', res]

/-- A put of the engine is counted. -/
def putCounted (s : State) : State := { s with res := { s.res with puts := s.res.puts + 1 } }

theorem request_sent (s : State) (q : Nat) (i : BitVec 32) (plane : Nat) (circuit : Option (BitVec 12)) (ghost : Bool)
    (p : Packet) : GhostSent s (request (putCounted s) q i plane circuit ghost p) := by
  have same := unposted_request (putCounted s) q i plane circuit ghost p
  exact ⟨by rw [res_of_unposted same]; rfl, (mem_of_unposted same).trans rfl⟩

theorem ghostPut_sent (s : State) (n window off : Nat) (data : List Byte) (marks : List Bool) (k : Nat) :
    GhostSent s (ghostPut s n window off data marks k) := by
  unfold ghostPut
  extract_lets dst any p
  split
  · exact request_sent s _ _ _ _ _ _
  · exact ⟨rfl, rfl⟩

/-- The sixteen puts of a block. -/
theorem ghostPuts_sent {f : State → Nat → State} (each : ∀ t p, GhostSent t (f t p)) (l : List Nat) :
    GhostSent s (l.foldl f s) := by
  induction l generalizing s with
  | nil => exact ⟨rfl, rfl⟩
  | cons p l ih => exact (each s p).trans ih

/-- In journal mode a block's index is put after its bytes. -/
theorem GhostSent.journal (direct : Prop) [Decidable direct] (sent : GhostSent s t) (n window off : Nat) (data : List Byte)
    (marks : List Bool) (k : Nat) : GhostSent s (if direct then t else ghostPut t n window off data marks k) := by
  split
  · exact sent
  · exact sent.trans (ghostPut_sent t n window off data marks k)

/-- The engine's books after a block of the closing set has gone. -/
def blockBooks (s : State) (i : Nat) (rest : List Nat) : Resil :=
  { s.res with
    closing := rest, unacked := s.res.unacked ++ [i], staged := mput ([], []) s.res.staged i ([], []),
    jcount := if s.res.direct.getLsbD (ghostStack s i) then s.res.jcount
      else mput 0 s.res.jcount (ghostStack s i) (mget 0 s.res.jcount (ghostStack s i) + 1),
    blocks := s.res.blocks + 1, crc := BitVec.ofNat 64 ((blockData s i).1.foldl crc64Byte s.res.crc.toNat) }

theorem ghostBlockSend_sends {i : Nat} {rest : List Nat} (closing : s.res.closing = i :: rest) (open_ : ghostOpen s = true)
    (owner : s.res.owner = 1 ∨ s.res.owner = 2) (planes : allowedPlanes s (ghostPartner s) 0 ≠ []) :
    GhostSent { s with res := blockBooks s i rest } (ghostBlockSend s) := by
  have run : ¬ (!ghostOpen s || !(s.res.owner == 1 || s.res.owner == 2) || (allowedPlanes s (ghostPartner s) 0).isEmpty) = true := by
    rcases owner with o | o <;> simp [open_, o, planes]
  unfold ghostBlockSend
  extract_lets r
  rw [show r.closing = i :: rest from closing]
  dsimp only
  rw [if_neg run]
  exact (GhostSent.journal _ (ghostPuts_sent (fun t p => ghostPut_sent t _ _ _ _ _ _) _) _ _ _ _ _ _).trans ⟨rfl, rfl⟩

/-- What closes an epoch: the record of its COMMIT is put into the partner's window. -/
def commitPut (s : State) : State :=
  ghostPut { s with res := { s.res with owner := 3 } } 0 (dcell s 0xC020 3) 0
    (recordOf { ghostRecord s 2 s.res.epoch with
      blocks := BitVec.ofNat 64 s.res.blocks, crc := s.res.crc ^^^ 0xFFFFFFFFFFFFFFFF }) [] 0

theorem ghostCommitOut_commits (closing : s.res.closing = []) (open_ : ghostOpen s = true)
    (owner : s.res.owner = 1 ∨ s.res.owner = 2) (acked : s.res.puts = 0) : ghostCommitOut s = commitPut s :=
  if_pos (by rcases owner with o | o <;> simp [closing, open_, o, acked])

theorem ghostCommitOut_waits (some : s.res.closing ≠ [] ∨ s.res.puts ≠ 0) : ghostCommitOut s = s :=
  if_neg (by rcases some with c | p <;> simp [*])

theorem ghostBlockSend_none (closing : s.res.closing = []) : ghostBlockSend s = ghostCommitOut s := by
  unfold ghostBlockSend
  extract_lets r
  rw [show r.closing = [] from closing]

/-! ### Marks (13 R304) -/

/-- A beat is judged for a mark. -/
def markJudged (s : State) : State := { s with res := { s.res with markAt := beat s } }

/-- The books after a mark has been taken, whether the epoch closes or not. -/
def markTaken (s : State) : State :=
  { markJudged s with res := { (markJudged s).res with
      stepped := false,
      bellNext := if s.res.mode = 2 then s.res.bellNext + BitVec.ofNat 64 (dnum s 0xC020 9) else s.res.bellNext } }

/-- A mark is due in the engine's mode. -/
def markDue (s : State) : Prop :=
  (s.res.mode = 1 ∧ (beat s % BitVec.ofNat 64 (dnum s 0xC020 6) = 0 ∨ s.res.stepped = true))
    ∨ (s.res.mode = 2 ∧ s.res.bellNext ≤ s.bell (dcell s 0xC020 7))

theorem markDue_iff (s : State) :
    (if s.res.mode = 1 then beat s % BitVec.ofNat 64 (dnum s 0xC020 6) == 0 || s.res.stepped
      else if s.res.mode = 2 then decide (s.res.bellNext ≤ s.bell (dcell s 0xC020 7)) else false) = true ↔ markDue s := by
  unfold markDue
  by_cases one : s.res.mode = 1
  · simp [one]
  · by_cases two : s.res.mode = 2 <;> simp [one, two]

theorem ghostMark_again (judged : beat s = s.res.markAt) : ghostMark s = s := if_pos (by simp [judged])

theorem ghostMark_undue (up : loaded s = true) (fresh : beat s ≠ s.res.markAt) (undue : ¬ markDue s) :
    ghostMark s = markJudged s := by
  have off := mt (markDue_iff s).mp undue
  refine (if_neg (by simp [up, fresh])).trans (if_neg fun h => off ?_)
  rw [Bool.and_assoc, Bool.and_eq_true] at h
  exact h.1

theorem ghostMark_due (up : loaded s = true) (fresh : beat s ≠ s.res.markAt) (due : markDue s) (paired : s.res.paired = true)
    (runs : s.res.owner ≠ 4) : ghostMark s = takeMark (markJudged s) := by
  refine (if_neg (by simp [up, fresh])).trans (if_pos ?_)
  rw [Bool.and_assoc, Bool.and_eq_true]
  exact ⟨(markDue_iff s).mpr due, by simp [paired, runs]⟩

theorem takeMark_skips (waits : s.res.owner = 1 ∨ s.res.owner = 2 ∨ s.res.owner = 3) :
    takeMark (markJudged s) = bump (markTaken s) 0x80C0 3 1 := if_pos waits

/-- The books of an epoch that closes, its direct stacks apart. -/
def epochBooks (s : State) (direct : Byte) : Resil :=
  { (markTaken s).res with
    closing := s.res.openSet, openSet := [], unacked := [], staged := [],
    epoch := if s.res.epoch + 1 ≤ beat s then beat s else s.res.epoch + 1, blocks := 0, jcount := [],
    crc := BitVec.allOnes 64, direct := direct, owner := if dcell s 0xC023 1 = 0 then 1 else 2 }

theorem takeMark_closes (idle : s.res.owner = 0) (some : s.res.openSet ≠ []) :
    ∃ direct, (takeMark (markJudged s)).res = epochBooks s direct ∧ (takeMark (markJudged s)).mem = s.mem := by
  refine ⟨BitVec.ofNat 8 (((directStacks (markTaken s) s.res.openSet).map (2 ^ ·)).foldl (· + ·) 0), ?_⟩
  have flagged (t : State) (flag : Bool) (res : t.res.closing ≠ []) :
      (ghostCommitOut (if flag then t else sticky t 0xA0C0 4 0)).res = t.res
        ∧ (ghostCommitOut (if flag then t else sticky t 0xA0C0 4 0)).mem = t.mem := by
    cases flag
    · have same := unposted_sticky t 0xA0C0 4 0
      rw [if_neg Bool.false_ne_true, ghostCommitOut_waits (.inl ((res_of_unposted same).symm ▸ res))]
      exact ⟨res_of_unposted same, mem_of_unposted same⟩
    · rw [if_pos rfl, ghostCommitOut_waits (.inl res)]
      exact ⟨rfl, rfl⟩
  have opens : ¬ (s.res.owner = 1 ∨ s.res.owner = 2 ∨ s.res.owner = 3) := by rw [idle]; decide
  have run : takeMark (markJudged s) = ghostCommitOut (if (directStacks (markTaken s) s.res.openSet).isEmpty then
      { markTaken s with res := epochBooks s _ } else sticky { markTaken s with res := epochBooks s _ } 0xA0C0 4 0) := if_neg opens
  rw [run]
  exact flagged { markTaken s with res := epochBooks s _ } _ some

end

/-! ### The answers to the owner (13 R303, R307) -/

section
variable {s : State} {g : GhostRec}

theorem ghostAck_pairs (up : loaded s = true) (mode : s.res.mode ≠ 0) (runs : s.res.owner ≠ 4) (kind : g.kind = 3)
    (unpaired : s.res.paired = false) (first : g.epoch = 0) :
    exec (.ghostAck g) s = .next { s with res := { s.res with paired := true } } :=
  congrArg Host.Outcome.next ((if_neg (by simp [up, mode, runs, kind])).trans ((if_pos (by simp [unpaired])).trans (if_pos first)))

theorem ghostAck_ends (up : loaded s = true) (mode : s.res.mode ≠ 0) (kind : g.kind = 3)
    (paired : s.res.paired = true) (waits : s.res.owner = 3) (same : g.epoch = s.res.epoch) :
    exec (.ghostAck g) s = .next (bump (dset
      { s with res := { s.res with owner := 0, closing := [], unacked := [], staged := [] } } 0xC023 1 s.res.epoch.toNat) 0x80C0 5 1) :=
  congrArg Host.Outcome.next ((if_neg (by simp [up, mode, waits, kind])).trans
    ((if_neg (by simp [paired])).trans (if_pos ⟨waits, same⟩)))

theorem ghostAck_other (up : loaded s = true) (mode : s.res.mode ≠ 0) (runs : s.res.owner ≠ 4) (kind : g.kind = 3)
    (paired : s.res.paired = true) (other : g.epoch ≠ s.res.epoch) : exec (.ghostAck g) s = .next s :=
  congrArg Host.Outcome.next ((if_neg (by simp [up, mode, runs, kind])).trans
    ((if_neg (by simp [paired])).trans (if_neg fun h => other h.2)))

theorem ghostRefuse_stops (up : loaded s = true) (mode : s.res.mode ≠ 0) (runs : s.res.owner ≠ 4) (kind : g.kind = 4)
    (unpaired : s.res.paired = false) :
    exec (.ghostRefuse g) s = .next (sticky { s with res := { s.res with owner := 4 } } 0xA0C0 3 0) :=
  congrArg Host.Outcome.next ((if_neg (by simp [up, mode, runs, kind])).trans (if_pos (by simp [unpaired])))

theorem ghostRefuse_again (up : loaded s = true) (mode : s.res.mode ≠ 0) (kind : g.kind = 4) (paired : s.res.paired = true)
    (waits : s.res.owner = 3) : exec (.ghostRefuse g) s = .next { s with res := { s.res with
      closing := s.res.unacked.foldl (fun l x => insertNat x l) s.res.closing, unacked := [], blocks := 0, jcount := [],
      crc := BitVec.allOnes 64, owner := 2 } } := by
  refine congrArg Host.Outcome.next ((if_neg (by simp [up, mode, waits, kind])).trans
    ((if_neg (by simp [paired])).trans ((if_pos waits).trans ?_)))
  unfold ghostAgain
  dsimp only
  rw [if_pos waits]

end

/-! ### The host of a ghost (13 R302, R303, R307) -/

section
variable {s : State} {g : GhostRec}

@[simp] theorem unposted_hostAnswer (s : State) (r : GhostRec) : unposted (hostAnswer s r) = unposted s := by
  unfold hostAnswer
  extract_lets dst bytes p
  split <;> simp

theorem helloReason_domain (same : g.domain.toNat = 0 ∨ dcell s 0xC000 3 = 0 ∨ g.domain.toNat = dcell s 0xC000 3) :
    helloReason s g = some 1 := if_pos same

theorem ghostHello_refused {why : Word} (up : loaded s = true) (owned : dnum s 0xC028 1 ≠ 0xFFFFFFFF)
    (bad : helloReason s g = some why) : exec (.ghostHello g) s = .next (hostAnswer s { ghostRecord s 4 0 with reason := why }) := by
  refine congrArg Host.Outcome.next ((if_neg (by simp [up, owned])).trans ?_)
  rw [bad]

theorem ghostHello_taken (up : loaded s = true) (owned : dnum s 0xC028 1 ≠ 0xFFFFFFFF) (good : helloReason s g = none) :
    exec (.ghostHello g) s = .next (hostAnswer
      (dset { s with res := { s.res with hostState := [], hostNew := 0, rx := [] } } 0xC029 9 0) (ghostRecord s 3 0)) := by
  refine congrArg Host.Outcome.next ((if_neg (by simp [up, owned])).trans ?_)
  rw [good]

/-- A hosted stack's state once the epoch stands. -/
def stableOf (v : Nat) : Nat := if v = 0 ∨ v = 6 then v else 2

/-- A hosted stack is made STABLE, unless it is EMPTY or its epoch is lost. -/
def stackStable (t : State) (n : Nat) : State :=
  if mget 0 t.res.hostState n = 0 ∨ mget 0 t.res.hostState n = 6 then t
  else { t with res := { t.res with hostState := mput 0 t.res.hostState n 2 } }

theorem stackStable_spec {t : State} (wf : mwf 0 0 t.res.hostState = true) (n : Nat) :
    mwf 0 0 (stackStable t n).res.hostState = true
      ∧ ∀ i, mget 0 (stackStable t n).res.hostState i
        = if i = n then stableOf (mget 0 t.res.hostState i) else mget 0 t.res.hostState i := by
  unfold stackStable
  split
  · rename_i fixed
    refine ⟨wf, fun i => ?_⟩
    split
    · rename_i same
      rw [same, stableOf, if_pos fixed]
    · rfl
  · rename_i moves
    refine ⟨mwf_mput 2 wf (Nat.zero_le _), fun i => ?_⟩
    split
    · rename_i same
      rw [same, stableOf, if_neg moves]
      exact mget_mput_same 2 wf
    · rename_i other
      exact mget_mput_other 2 wf other

theorem stacksStable_spec (wf : mwf 0 0 s.res.hostState = true) (n : Nat) :
    mwf 0 0 ((List.range n).foldl stackStable s).res.hostState = true
      ∧ ∀ i, mget 0 ((List.range n).foldl stackStable s).res.hostState i
        = if i < n then stableOf (mget 0 s.res.hostState i) else mget 0 s.res.hostState i := by
  induction n with
  | zero => exact ⟨wf, fun i => (if_neg (Nat.not_lt_zero i)).symm⟩
  | succ n ih =>
    obtain ⟨wf', states⟩ := ih
    rw [List.range_succ, List.foldl_concat]
    obtain ⟨wf'', now⟩ := stackStable_spec wf' n
    refine ⟨wf'', fun i => (now i).trans ?_⟩
    rw [states i]
    by_cases same : i = n
    · rw [if_pos same, if_neg (by omega), if_pos (by omega)]
    · rw [if_neg same]
      exact if_congr (by omega) rfl rfl

theorem mem_stackStable (t : State) (n : Nat) : (stackStable t n).mem = t.mem := by
  unfold stackStable
  split <;> rfl

/-- The epoch of the stacks is noted and acknowledged. -/
def epochStands (t : State) : State :=
  hostAnswer (dset { t with res := { t.res with rx := [] } } 0xC029 9 t.res.hostNew.toNat) (ghostRecord t 3 t.res.hostNew)

theorem hostStable_eq (s : State) : hostStable s = epochStands ((List.range 8).foldl stackStable s) := by
  have step (f : State → Nat → State) (same : f = stackStable) :
      epochStands ((List.range 8).foldl f s) = epochStands ((List.range 8).foldl stackStable s) := by rw [same]
  exact step _ rfl

theorem unposted_epochStands (t : State) : unposted (epochStands t) = unposted { t with res := { t.res with rx := [] } } :=
  unposted_hostAnswer _ _

/-- The epoch stands: no unit is awaited, every stack in use is STABLE, and nothing is stored. -/
theorem hostStable_spec (wf : mwf 0 0 s.res.hostState = true) :
    (hostStable s).res.rx = [] ∧ (∀ n < 8, mget 0 (hostStable s).res.hostState n = stableOf (mget 0 s.res.hostState n))
      ∧ (hostStable s).mem = s.mem := by
  obtain ⟨-, states⟩ := stacksStable_spec wf 8
  have mem : ((List.range 8).foldl stackStable s).mem = s.mem := foldl_keeps State.mem mem_stackStable (List.range 8) s
  rw [hostStable_eq]
  generalize (List.range 8).foldl stackStable s = t at states mem ⊢
  have same := unposted_epochStands t
  have res := res_of_unposted same
  refine ⟨congrArg Resil.rx res, fun n small => ?_, (mem_of_unposted same).trans mem⟩
  exact (congrArg (fun r : Resil => mget 0 r.hostState n) res).trans ((states n).trans (if_pos small))

/-- What was received is what a COMMIT says. -/
def commitMatches (s : State) (g : GhostRec) : Prop :=
  g.blocks.toNat = s.res.rx.length
    ∧ g.crc.toNat = crc64 (s.res.rx.flatMap (fun x => readBytes s (hostKey s x.1 x.2) 65536))

/-- A commit is entered. -/
def commitNoted (s : State) (g : GhostRec) : State := { s with res := { s.res with hostNew := g.epoch } }

/-- A stack begins to apply its journal. -/
def applying (t : State) (x : Nat × Nat) : State := { t with res := { t.res with hostState := mput 0 t.res.hostState x.1 5 } }

section
variable (up : loaded s = true) (kind : g.kind = 2) (owned : dnum s 0xC028 1 ≠ 0xFFFFFFFF)
include up kind owned

theorem ghostCommit_refused (bad : ¬ commitMatches s g) :
    ghostCommit g s = hostAnswer (hostDiscard s) (ghostRecord (hostDiscard s) 4 g.epoch) :=
  (if_neg (by simp [up, kind, owned])).trans (if_neg bad)

theorem ghostCommit_stable (good : commitMatches s g) (direct : s.res.rx.filter (inJournal s) = []) :
    ghostCommit g s = hostStable (commitNoted s g) :=
  (if_neg (by simp [up, kind, owned])).trans ((if_pos good).trans (if_pos (by rw [direct]; rfl)))

theorem ghostCommit_applies (good : commitMatches s g) (journal : s.res.rx.filter (inJournal s) ≠ []) :
    ghostCommit g s = (s.res.rx.filter (inJournal s)).foldl applying (commitNoted s g) :=
  (if_neg (by simp [up, kind, owned])).trans ((if_pos good).trans (if_neg (by simp [List.isEmpty_iff, journal])))

end

theorem applying_frame (l : List (Nat × Nat)) (t : State) :
    l.foldl applying t = { t with res := { t.res with hostState := (l.foldl applying t).res.hostState } } := by
  induction l generalizing t with
  | nil => rfl
  | cons x l ih => exact ih (applying t x)

/-- The stacks of the units listed are APPLYING. -/
theorem applying_states {l : List (Nat × Nat)} {t : State} (wf : mwf 0 0 t.res.hostState = true) (i : Nat)
    (listed : (∃ x ∈ l, x.1 = i) ∨ mget 0 t.res.hostState i = 5) : mget 0 (l.foldl applying t).res.hostState i = 5 := by
  induction l generalizing t with
  | nil => exact listed.resolve_left fun ⟨_, empty, _⟩ => List.not_mem_nil empty
  | cons y l ih =>
    refine ih (t := applying t y) (mwf_mput 5 wf (Nat.zero_le _)) ?_
    by_cases here : i = y.1
    · exact .inr (here ▸ mget_mput_same 5 wf)
    · rcases listed with ⟨x, mem, own⟩ | before
      · rcases List.mem_cons.mp mem with rfl | later
        · exact absurd own.symm here
        · exact .inl ⟨x, later, own⟩
      · exact .inr ((mget_mput_other 5 wf here).trans before)

/-- The states of the hosted stacks and the device's own fence, which no store of bytes touches. -/
def hosted (s : State) : SMap Nat × Bool := (s.res.hostState, s.res.fenced)

theorem hosted_writeBytes (s : State) (key : Nat) (data : List Byte) : hosted (writeBytes s key data) = hosted s := by
  induction data generalizing s key with
  | nil => rfl
  | cons b r ih => exact ih (writeByte s key b) (key + 1)

theorem hosted_storeBytes (s : State) (key : Nat) (data : List Byte) (pz : Nat → Bool) :
    hosted (storeBytes s key data pz) = hosted s := by
  have touch (t : State) (k : Nat) : hosted (ghostTouch t k) = hosted t := by
    unfold ghostTouch
    split
    · rfl
    · split <;> rfl
  have touched (t : State) (n : Nat) : hosted (ghostTouchAll t key n) = hosted t := by
    unfold ghostTouchAll
    split
    · rfl
    · exact foldl_keeps hosted touch _ t
  have lines (t : State) (n : Nat) : hosted (specTouch t key n) = hosted t := by
    unfold specTouch
    extract_lets
    split <;> rfl
  have marks (t : State) (n : Nat) : hosted (markWrite t key n pz) = hosted t := by
    unfold markWrite
    refine foldl_keeps hosted (fun u w => ?_) _ t
    dsimp only
    split
    · rfl
    · split <;> rfl
  rw [storeBytes, hosted_writeBytes, marks, lines, touched]

theorem hosted_applyEntry (s : State) (x : Nat × Nat) : hosted (applyEntry s x) = hosted s := by
  unfold applyEntry
  dsimp only
  split
  · rfl
  · exact hosted_storeBytes _ _ _ _

theorem ghostApplyDone_applies (up : loaded s = true) (applies : ∃ n < 8, mget 0 s.res.hostState n = 5) :
    exec .ghostApplyDone s = .next (hostStable ((s.res.rx.filter (inJournal s)).foldl applyEntry s)) := by
  obtain ⟨n, small, five⟩ := applies
  have any : (List.range 8).any (fun n => mget 0 s.res.hostState n == 5) = true :=
    List.any_eq_true.mpr ⟨n, List.mem_range.mpr small, by simp [five]⟩
  exact congrArg Host.Outcome.next (if_pos (by rw [up, any]; rfl))

end

/-- Settles O57: each step of the owner's engine and of the host is its rule, the puts it sends touch nothing that it
keeps, and the states of the hosted stacks move one by one. -/
theorem ghostEpochsKept : Obligations.GhostEpochsKept := by
  unfold Obligations.GhostEpochsKept
  refine ⟨?_, ?_, ?_, ?_, ?_, ?_⟩
  · intro s r due next
    refine ⟨fun judged => congrArg Host.Outcome.next (ghostMark_again judged), fun up paired runs fresh => ⟨fun undue => ?_,
      fun due waits => ?_, fun due idle some => ?_⟩⟩
    · exact congrArg Host.Outcome.next (ghostMark_undue up fresh undue)
    · refine congrArg Host.Outcome.next ((ghostMark_due up fresh due paired runs).trans (takeMark_skips ?_))
      simpa using waits
    · obtain ⟨direct, books, mem⟩ := takeMark_closes idle some
      refine ⟨takeMark (markJudged s), congrArg Host.Outcome.next (ghostMark_due up fresh due paired runs), ?_⟩
      rw [books]
      exact ⟨rfl, rfl, rfl, rfl, rfl, rfl, rfl, rfl, rfl, rfl, mem⟩
  · intro s i rest r closing open_ owner planes
    obtain ⟨res, mem⟩ := ghostBlockSend_sends closing open_ owner planes
    refine ⟨ghostBlockSend s, rfl, ?_⟩
    rw [res]
    exact ⟨rfl, rfl, rfl, rfl, rfl, rfl, mem⟩
  · intro s r c closing open_ owner
    refine ⟨fun acked => ?_, fun waits => ?_⟩
    · exact congrArg Host.Outcome.next ((ghostBlockSend_none closing).trans (ghostCommitOut_commits closing open_ owner acked))
    · exact congrArg Host.Outcome.next ((ghostBlockSend_none closing).trans (ghostCommitOut_waits (.inr waits)))
  · intro s g r up mode runs
    exact ⟨fun kind => ⟨fun unpaired first => ghostAck_pairs up mode runs kind unpaired first,
        fun paired waits same => ghostAck_ends up mode kind paired waits same,
        fun paired other => ghostAck_other up mode runs kind paired other⟩,
      fun kind => ⟨fun unpaired => ghostRefuse_stops up mode runs kind unpaired,
        fun paired waits => ghostRefuse_again up mode kind paired waits⟩⟩
  · intro s g up owned
    exact ⟨fun same => ghostHello_refused up owned (helloReason_domain same), fun good => ghostHello_taken up owned good⟩
  · intro s g rx good st up kind owned wf
    refine ⟨fun good direct => ⟨_, congrArg Host.Outcome.next (ghostCommit_stable up kind owned good direct), ?_⟩,
      fun good journal => ⟨_, congrArg Host.Outcome.next (ghostCommit_applies up kind owned good journal), ?_, ?_⟩,
      fun bad => congrArg Host.Outcome.next (ghostCommit_refused up kind owned bad),
      fun applies => ⟨_, ghostApplyDone_applies up applies, ?_⟩⟩
    · obtain ⟨none, states, -⟩ := hostStable_spec (s := commitNoted s g) wf
      exact ⟨none, states⟩
    · exact applying_frame _ (commitNoted s g)
    · exact fun x listed => applying_states (t := commitNoted s g) wf x.1 (.inl ⟨x, listed, rfl⟩)
    · have same : ((rx.filter (inJournal s)).foldl applyEntry s).res.hostState = s.res.hostState :=
        congrArg Prod.fst (foldl_keeps hosted hosted_applyEntry (rx.filter (inJournal s)) s)
      have spec := hostStable_spec (s := (rx.filter (inJournal s)).foldl applyEntry s) ((congrArg (mwf 0 0 · = true) same).mpr wf)
      obtain ⟨none, states, mem⟩ := spec
      exact ⟨none, fun n small => (states n small).trans (congrArg (fun m => stableOf (mget 0 m n)) same), mem⟩

end Sys2Proof.Machine
end

section
/-! The PCIe function: vectors, its state, host reads, the loss of the link and resets (14 R317 to R327; 17 R369): O49. -/

namespace Sys2Proof.Machine

/-! ### Vectors (14 R323) -/

section
variable {s : State} {v : Nat}

theorem deliverPending_open (opened : vectorOpen s v = true) (pending : mget false s.host.pba v = true) :
    deliverPending s v = bump (emit { s with host := { s.host with pba := mput false s.host.pba v false } }
      (.msix v (mget MsixEntry.init s.host.msix v).addr (mget MsixEntry.init s.host.msix v).data)) 0x80D0 4 1 :=
  (if_pos (by rw [opened, pending]; rfl)).trans (if_pos opened)

theorem deliverPending_shut (shut : vectorOpen s v = false) : deliverPending s v = s :=
  if_neg (by rw [shut]; exact Bool.false_ne_true)

theorem deliverPending_none (none : mget false s.host.pba v = false) : deliverPending s v = s :=
  if_neg (by rw [none, Bool.and_false]; exact Bool.false_ne_true)

/-- A vector is unmasked. -/
def unmasked (s : State) (v : Nat) : State :=
  { s with host := { s.host with
      msix := mput MsixEntry.init s.host.msix v { mget MsixEntry.init s.host.msix v with masked := false } } }

theorem entry_unmasked (s : State) (v : Nat) :
    mget MsixEntry.init (unmasked s v).host.msix v = { mget MsixEntry.init s.host.msix v with masked := false } := by
  refine mget_mput_new s.host.msix v fun same => ?_
  have masked : false = true := congrArg MsixEntry.masked same
  exact Bool.false_ne_true masked

theorem vectorOpen_unmasked (ready : hostReady s = true) (enabled : s.host.msixEnable = true) (clear : s.host.fnMask = false) :
    vectorOpen (unmasked s v) v = true := by
  unfold vectorOpen
  rw [entry_unmasked, show hostReady (unmasked s v) = true from ready, show (unmasked s v).host.msixEnable = true from enabled,
    show (unmasked s v).host.fnMask = false from clear]
  rfl

end

/-! ### Requests again (14 R317, R322 rule 7) -/

section
variable {s t : State}

/-- No queue has an issued descriptor. -/
def NoJobs (s : State) : Prop := s.queues.all (fun e => e.2.jobs.isEmpty) = true

/-- Copies and puts go on. -/
def jobsResume (s : State) : State :=
  s.queues.foldl (fun t e =>
    (e.2.jobs.filter (fun j => usesHost j.words && j.phase == .working)).foldl
      (fun u j => if descType j.words = 6 then copyPump e.1 j.idx 2048 u else putPump e.1 j.idx 2048 u) t) s

theorem jobsResume_idle (idle : NoJobs s) : jobsResume s = s := by
  have each (l : SMap Queue) (empty : l.all (fun e => e.2.jobs.isEmpty) = true) (t : State) : l.foldl (fun t e =>
      (e.2.jobs.filter (fun j => usesHost j.words && j.phase == .working)).foldl
        (fun u j => if descType j.words = 6 then copyPump e.1 j.idx 2048 u else putPump e.1 j.idx 2048 u) t) t = t := by
    induction l generalizing t with
    | nil => rfl
    | cons e l ih =>
      rw [List.all_cons, Bool.and_eq_true, List.isEmpty_iff] at empty
      obtain ⟨none, rest⟩ := empty
      rw [List.foldl_cons, none]
      exact ih rest t
  exact each s.queues idle s

/-- The held writes go out. -/
def heldSent (s : State) : State :=
  s.host.held.foldl (fun t w => postHost t w.addr w.data w.ep w.relaxed) { s with host := { s.host with held := [] } }

/-- The raises that wait are delivered. -/
def raisesDelivered (s : State) : State := s.host.pba.foldl (fun t e => deliverPending t e.1) s

theorem hostResume_ready (ready : hostReady s = true) : hostResume s = raisesDelivered (jobsResume (heldSent s)) :=
  if_neg (by rw [ready]; exact Bool.false_ne_true)

theorem hostResume_shut (shut : hostReady s = false) : hostResume s = s := if_pos (by rw [shut]; rfl)

theorem heldSent_none (none : s.host.held = []) : heldSent s = s := by
  unfold heldSent
  rw [none]
  show { s with host := { s.host with held := [] } } = s
  rw [← none]

theorem hostResume_idle (idle : NoJobs s) (none : s.host.held = []) (ready : hostReady s = true) :
    hostResume s = raisesDelivered s := by
  rw [hostResume_ready ready, heldSent_none none, jobsResume_idle idle]

/-- The one raise that waits for vector `v` is delivered, if it can be. -/
def resumed (v : Nat) (t : State) : State :=
  let e := mget MsixEntry.init t.host.msix v
  if vectorOpen t v then bump (emit { t with host := { t.host with pba := [] } } (.msix v e.addr e.data)) 0x80D0 4 1 else t

theorem hostResume_one {v : Nat} (idle : NoJobs s) (none : s.host.held = []) (one : s.host.pba = [(v, true)]) :
    hostResume s = resumed v s := by
  have gone : mput false s.host.pba v false = [] := by rw [one]; simp [mput]
  have pending : mget false s.host.pba v = true := by rw [one]; simp [mget, mfind]
  have single : raisesDelivered s = deliverPending s v := by unfold raisesDelivered; rw [one]; rfl
  unfold resumed
  cases opened : vectorOpen s v with
  | true =>
    have ready : hostReady s = true := by
      unfold vectorOpen at opened
      simp only [Bool.and_eq_true] at opened
      exact opened.1.1.1
    rw [hostResume_idle idle none ready, single, deliverPending_open opened pending, gone]
    rfl
  | false =>
    cases ready : hostReady s with
    | true => rw [hostResume_idle idle none ready, single, deliverPending_shut opened]; rfl
    | false => rw [hostResume_shut ready]; rfl

/-- Every raise that waits waits for a vector that is shut. -/
def RaisesShut (s : State) : Prop := ∀ e ∈ s.host.pba, vectorOpen s e.1 = false

theorem hostResume_raisesShut (idle : NoJobs s) (none : s.host.held = []) (shut : RaisesShut s) : hostResume s = s := by
  cases ready : hostReady s with
  | false => exact hostResume_shut ready
  | true =>
    rw [hostResume_idle idle none ready]
    unfold raisesDelivered
    have each (l : SMap Bool) (within : ∀ e ∈ l, e ∈ s.host.pba) : l.foldl (fun t e => deliverPending t e.1) s = s := by
      induction l with
      | nil => rfl
      | cons e l ih =>
        rw [List.foldl_cons, deliverPending_shut (shut e (within e List.mem_cons_self))]
        exact ih fun x hx => within x (List.mem_cons_of_mem e hx)
    exact each _ fun _ h => h

theorem mem_mput {α : Type} [DecidableEq α] {d : α} {m : SMap α} {i : Nat} {x : α} {e : Nat × α} (h : e ∈ mput d m i x) :
    e.1 = i ∨ e ∈ m := by
  induction m with
  | nil =>
    unfold mput at h
    split at h
    · exact absurd h List.not_mem_nil
    · exact .inl (congrArg Prod.fst (List.mem_singleton.mp h))
  | cons y r ih =>
    obtain ⟨k, w⟩ := y
    unfold mput at h
    split at h
    · rcases List.mem_cons.mp h with rfl | later
      · exact .inr List.mem_cons_self
      · exact (ih later).imp_right (List.mem_cons_of_mem _)
    · split at h
      · split at h
        · exact .inr (List.mem_cons_of_mem _ h)
        · rcases List.mem_cons.mp h with rfl | later
          · exact .inl rfl
          · exact .inr (List.mem_cons_of_mem _ later)
      · split at h
        · exact .inr h
        · rcases List.mem_cons.mp h with rfl | before
          · exact .inl rfl
          · exact .inr before

theorem raisesShut_raiseVector (shut : RaisesShut s) (v : Nat) : RaisesShut (raiseVector s v) := by
  unfold raiseVector
  split
  · exact shut
  · rename_i closed
    intro e he
    rcases mem_mput he with same | before
    · rw [same]
      exact Bool.eq_false_of_not_eq_true closed
    · exact shut e before

theorem raisesShut_sticky (shut : RaisesShut s) (idx sub bit : Nat) : RaisesShut (sticky s idx sub bit) := by
  have noted : RaisesShut (journal (dputBit s idx sub bit true) idx sub bit) := by
    unfold journal
    extract_lets
    split <;> exact shut
  unfold sticky
  split
  · exact shut
  · exact raisesShut_raiseVector (s := addDebt _ _) noted _

end

section
variable {s : State}

theorem resumed_quiet (idle : NoJobs s) (quiet : s.host.pba = []) : raisesDelivered (jobsResume s) = s := by
  rw [jobsResume_idle idle]
  unfold raisesDelivered
  rw [quiet]
  rfl

/-- The one write that was held goes out when bus mastering is on again. -/
theorem hostResume_held {w : HeldWrite} (idle : NoJobs s) (ready : hostReady s = true) (quiet : s.host.pba = [])
    (held : s.host.held = [w]) :
    hostResume s = postHost { s with host := { s.host with held := [] } } w.addr w.data w.ep w.relaxed := by
  have posted : postHost { s with host := { s.host with held := [] } } w.addr w.data w.ep w.relaxed
      = bump (emit { s with host := { s.host with held := [] } } (.hostWrite w.addr w.data w.ep w.relaxed)) 0x80D0 2 w.data.length :=
    if_pos ready
  have sent : heldSent s = postHost { s with host := { s.host with held := [] } } w.addr w.data w.ep w.relaxed := by
    unfold heldSent
    rw [held]
    rfl
  rw [hostResume_ready ready, sent, posted]
  exact resumed_quiet idle quiet

/-- The link has trained: a training after the first is counted. -/
def linkTrained (s : State) (width rate : Byte) : State :=
  { (if s.host.width = 0 then s else bump s 0x80D0 3 1) with
    host := { s.host with linkUp := true, width := width, rate := rate, perst := false } }

theorem execHostLinkTrained_up (on : hubOn s = true) (width rate : Byte) :
    exec (.hostLinkTrained width rate) s = .next (hostResume (if width.toNat < 16 ∨ rate.toNat < 6 then
      sticky (linkTrained s width rate) 0xA0D0 2 0 else linkTrained s width rate)) := by
  refine congrArg Host.Outcome.next ((if_neg (by rw [on]; exact Bool.false_ne_true)).trans ?_)
  unfold linkTrained
  by_cases first : s.host.width = 0
  · rw [if_pos first]
  · rw [if_neg first]
    rfl

theorem linkTrained_queues (s : State) (width rate : Byte) : (linkTrained s width rate).queues = s.queues := by
  unfold linkTrained
  split <;> rfl

end

/-! ### Host reads (14 R322) -/

section
variable {s : State} {r : HostRead} {ep : Bool} {data : List Byte}

/-- A read that has taken some more bytes. -/
def moreRead (r : HostRead) (ep : Bool) (data : List Byte) : HostRead :=
  { r with got := r.got ++ data, marks := r.marks ++ List.replicate data.length ep }

/-- The one read has taken them: they are counted. -/
def readTaken (s : State) (r : HostRead) (ep : Bool) (data : List Byte) : State :=
  bump { s with host := { s.host with reads := [moreRead r ep data] } } 0x80D0 1 data.length

/-- The one read has ended. -/
def readEnded (s : State) : State := { s with host := { s.host with reads := [] } }

theorem readTaken_ends : { readTaken s r ep data with host := { (readTaken s r ep data).host with reads := [] } }
    = bump (readEnded s) 0x80D0 1 data.length := rfl

theorem find_own (only : s.host.reads = [r]) : s.host.reads.find? (fun x => x.tag == r.tag) = some r := by
  rw [only]
  simp

theorem find_other {tag : Nat} (only : s.host.reads = [r]) (other : tag ≠ r.tag) :
    s.host.reads.find? (fun x => x.tag == tag) = none := by
  rw [only]
  simp [other.symm]

theorem hostReadCompletion_sc (only : s.host.reads = [r]) :
    exec (.hostReadCompletion r.tag .sc ep data) s = .next (readData s r ep data) := by
  refine congrArg Host.Outcome.next ?_
  unfold hostReadCompletion
  rw [find_own only]

/-- Data for a read that is no copy: bytes still missing, it waits on; whole, it ends. -/
theorem readData_noCopy (only : s.host.reads = [r]) (noCopy : ∀ q i off, r.use ≠ .copy q i off)
    (fits : r.got.length + data.length ≤ r.len) :
    readData s r ep data = if r.got.length + data.length < r.len then readTaken s r ep data
      else readWhole (bump (readEnded s) 0x80D0 1 data.length) (moreRead r ep data) := by
  have whole : data.take (r.len - r.got.length) = data := List.take_of_length_le (by omega)
  have swap : s.host.reads.map (fun x => if x == r then moreRead r ep data else x) = [moreRead r ep data] := by
    rw [only]
    simp
  have length : (moreRead r ep data).got.length = r.got.length + data.length := List.length_append
  have copies (t : State) : (match r.use with
      | .copy q i off => copyDeliver t q i (off + r.got.length) data (fun _ => ep)
      | _ => t) = t := by
    split
    · rename_i q i off use
      exact absurd use (noCopy q i off)
    · rfl
  have swapped : (bump { s with host := { s.host with reads := s.host.reads.map (fun x => if x == r then moreRead r ep data else x) } }
      0x80D0 1 data.length) = readTaken s r ep data := by
    rw [swap]
    rfl
  have gone : (readTaken s r ep data).host.reads.erase (moreRead r ep data) = [] := by
    show [moreRead r ep data].erase (moreRead r ep data) = []
    simp
  unfold readData
  rw [whole]
  extract_lets piece at_ r' src s1 s2 src2
  have hr : r' = moreRead r ep data := rfl
  have h1 : s1 = readTaken s r ep data := swapped
  have h2 : s2 = readTaken s r ep data := (copies s1).trans h1
  have h3 : src2 = (readTaken s r ep data).host := congrArg State.host h2
  rw [h2, h3, hr, length]
  refine if_congr Iff.rfl rfl (congrArg (readWhole · (moreRead r ep data)) ?_)
  show { readTaken s r ep data with host := { (readTaken s r ep data).host with
    reads := (readTaken s r ep data).host.reads.erase (moreRead r ep data) } } = _
  rw [gone]
  exact readTaken_ends

/-- A descriptor's 128 bytes have come at once. -/
theorem readWhole_fetch {t : State} {q : Nat} {i : BitVec 32} (use : r.use = .fetch q i) (none : r.got = []) (unmarked : r.marks = [])
    (fresh : (t.queue q).fetched.any (fun f => f.idx == i) = false) :
    readWhole t (moreRead r ep data) = takeDescriptor t q ⟨i, wordsFrom 16 data,
      firstMark (fun k => (List.replicate data.length ep).getD (8 * k) false)⟩ := by
  unfold readWhole moreRead
  rw [use, none, unmarked]
  exact if_neg (by rw [fresh]; exact Bool.false_ne_true)

theorem readFailed_copy {q : Nat} {i : BitVec 32} {off : Nat} (only : s.host.reads = [r]) (use : r.use = .copy q i off) :
    readFailed s r = failJob (sticky (readEnded s) 0xA0D0 3 0) q i 0x40 (bitsOf r.addr 43 12) := by
  have gone : s.host.reads.erase r = [] := by
    rw [only]
    simp
  unfold readFailed
  rw [use, gone]
  rfl

theorem hostRead_fails {c : Instr} (only : s.host.reads = [r])
    (fails : c = .hostReadCompletion r.tag .ur ep data ∨ c = .hostReadCompletion r.tag .ca ep data ∨ c = .hostReadTimeout r.tag) :
    exec c s = .next (readFailed s r) := by
  have own := find_own only
  rcases fails with rfl | rfl | rfl <;> refine congrArg Host.Outcome.next ?_
  · unfold hostReadCompletion
    rw [own]
  · unfold hostReadCompletion
    rw [own]
  · rw [own]

theorem hostRead_strange {tag : Nat} (only : s.host.reads = [r]) (other : tag ≠ r.tag) :
    exec (.hostReadTimeout tag) s = .next s ∧ exec (.hostReadCompletion tag .sc ep data) s = .next s := by
  have none := find_other only other
  refine ⟨congrArg Host.Outcome.next ?_, congrArg Host.Outcome.next ?_⟩
  · rw [none]
  · unfold hostReadCompletion
    rw [none]

theorem firstMark_all (ep : Bool) : firstMark (fun k => (List.replicate 128 ep).getD (8 * k) false) = if ep then some 0 else none := by
  cases ep <;> decide

end

/-! ### The loss of the link (14 R327) -/

section
variable {s : State}

/-- The link is down: what was held for the host is lost. -/
def linkCut (s : State) : State := { s with host := { s.host with linkUp := false, held := [] } }

/-- The link has gone down, with its bit. -/
def linkDowned (s : State) : State := sticky (linkCut s) 0xA0D0 1 0

theorem unposted_linkDowned (s : State) : unposted (linkDowned s) = unposted (linkCut s) := unposted_sticky _ _ _ _

/-- A queue with a ring in host memory stops. -/
def hostRingStop (t : State) (q : Nat) : State :=
  if (t.queue q).ringBase.getLsbD 63 || (t.queue q).cqBase.getLsbD 63 then stopQueue t q (t.queue q).head else t

theorem linkLoss_up (up : s.host.linkUp = true) :
    linkLoss s = (((linkDowned s).queues.map (·.1)).foldl hostRingStop
      ((((linkDowned s).queues.map (·.1)).foldl failHostJobs (linkDowned s)).host.reads.foldl readFailed
        (((linkDowned s).queues.map (·.1)).foldl failHostJobs (linkDowned s)))) :=
  if_neg (by rw [up]; exact Bool.false_ne_true)

theorem linkDowned_queues (s : State) : (linkDowned s).queues = s.queues :=
  (congrArg State.queues (unposted_linkDowned s) :)

theorem linkLoss_one {q : Nat} {x : Queue} (up : s.host.linkUp = true) (one : s.queues = [(q, x)])
    (none : (failHostJobs (linkDowned s) q).host.reads = []) :
    linkLoss s = hostRingStop (failHostJobs (linkDowned s) q) q := by
  rw [linkLoss_up up, linkDowned_queues, one]
  show hostRingStop ((failHostJobs (linkDowned s) q).host.reads.foldl readFailed (failHostJobs (linkDowned s) q)) q = _
  rw [none]
  rfl

end

/-! ### The function's reset (14 R326; 17 R369) -/

section
variable {s t : State} {q : Nat}

/-- What a reset of the function leaves of it: the link, the tags, and the mailbox's buffers. -/
def hostLasting (s : State) : HostIf :=
  { HostIf.init with
    linkUp := s.host.linkUp, width := s.host.width, rate := s.host.rate, perst := s.host.perst, nextTag := s.host.nextTag,
    mbxStatus := s.host.mbxStatus, mbxDone := s.host.mbxDone, reqLen := s.host.reqLen, reqBuf := s.host.reqBuf,
    rspBuf := s.host.rspBuf }

/-- The queues, and what a reset leaves of the function. -/
def functionOf (s : State) : SMap Queue × HostIf := (s.queues, hostLasting s)

theorem functionOf_of_unposted (h : unposted t = unposted s) : functionOf t = functionOf s := (congrArg functionOf h :)

theorem hostLasting_of_unposted (h : unposted t = unposted s) : hostLasting t = hostLasting s := (congrArg hostLasting h :)

theorem reads_of_unposted (h : unposted t = unposted s) : t.host.reads = s.host.reads :=
  (congrArg (fun u : State => u.host.reads) h :)

theorem held_of_unposted (h : unposted t = unposted s) : t.host.held = s.host.held :=
  (congrArg (fun u : State => u.host.held) h :)

theorem queues_of_unposted (h : unposted t = unposted s) : t.queues = s.queues := (congrArg State.queues h :)

/-! #### The remote-cache region -/

theorem functionOf_d2dReqs (s : State) (x : List D2dReq) : functionOf { s with d2dReqs := x } = functionOf s := rfl

theorem functionOf_bump (s : State) (idx sub n : Nat) : functionOf (bump s idx sub n) = functionOf s := rfl

theorem functionOf_fab (s : State) (x : Fab) : functionOf { s with fab := x } = functionOf s := rfl

theorem functionOf_writeBack (s : State) (d : Nat) (l : RcLine) (use : D2dFor) :
    functionOf (writeBack s d l use).2 = functionOf s := by
  have entered (x : List D2dReq) :
      functionOf { bump (freshTag s).2 0x8083 (d + 1) 1 with d2dReqs := x } = functionOf s :=
    (functionOf_d2dReqs _ x).trans ((functionOf_bump _ _ _ _).trans (functionOf_fab s _))
  unfold writeBack
  dsimp only
  split
  · exact (functionOf_of_unposted (unposted_of_unsent (unsent_sendMsg _ _ _ _))).trans (entered _)
  · split
    · exact (functionOf_of_unposted (unposted_sendOn _ _ _)).trans (entered _)
    · exact (functionOf_fab _ _).trans (entered _)

theorem functionOf_rcEvict (s : State) (d : Nat) (l : RcLine) : functionOf (rcEvict s d l) = functionOf s := by
  unfold rcEvict
  split
  · exact functionOf_writeBack s d l (.store l.tag)
  · rfl

theorem functionOf_rcResize (s : State) (d : Nat) : functionOf (rcResize s d) = functionOf s := by
  unfold rcResize
  split
  · rfl
  · split
    · rfl
    · exact foldl_keeps functionOf (fun t l => functionOf_rcEvict t d l) _ s

/-! #### One queue -/

/-- A queue whose wait has been given up. -/
def unwaited (x : Queue) : Queue := { x with waitAt := none, watch := none, notified := false, waitOpen := false }

theorem unposted_sendUnwatch (s : State) (d b : Nat) (tag : BitVec 16) : unposted (sendUnwatch s d b tag) = unposted s := by
  unfold sendUnwatch
  exact (unposted_of_unsent (unsent_sendMsg _ _ _ _)).trans rfl

theorem unposted_dropWait (s : State) (q : Nat) :
    unposted (dropWait s q) = unposted (s.setQueue q (unwaited (s.queue q))) := by
  have sent (t : State) (same : unposted t = unposted s) (x : Queue) : unposted (t.setQueue q x) = unposted (s.setQueue q x) :=
    (congrArg (fun u : State => u.setQueue q x) same :)
  unfold dropWait
  dsimp only
  split
  · exact sent _ (unposted_sendUnwatch s _ _ _) _
  · rfl

theorem hostLasting_dropSpecs (s : State) (q : Nat) (pick : SpecFill → Bool) : hostLasting (dropSpecs s q pick) = hostLasting s := by
  unfold dropSpecs
  extract_lets
  split <;> rfl

/-- A queue whose decoded descriptors have been discarded. -/
def discarded (x : Queue) : Queue := { unwaited x with fetched := [], fetchAt := x.head }

theorem discardDecoded_queues (wf : mwf Queue.init 0 s.queues = true) :
    (discardDecoded s q).queues = mput Queue.init (mput Queue.init s.queues q (unwaited (s.queue q))) q (discarded (s.queue q)) := by
  have queues : (dropFetches (dropSpecs (dropWait s q) q (fun _ => true)) q (fun _ => true)).queues
      = mput Queue.init s.queues q (unwaited (s.queue q)) :=
    (dropSpecs_queues (dropWait s q) q _).trans (queues_of_unposted (unposted_dropWait s q))
  have own : (dropFetches (dropSpecs (dropWait s q) q (fun _ => true)) q (fun _ => true)).queue q = unwaited (s.queue q) :=
    (congrArg (mget Queue.init · q) queues).trans (mget_mput_same _ wf)
  unfold discardDecoded
  extract_lets t x
  have read : x = unwaited (s.queue q) := own
  rw [read]
  exact congrArg (mput Queue.init · q (discarded (s.queue q))) queues

theorem hostLasting_discardDecoded (s : State) (q : Nat) : hostLasting (discardDecoded s q) = hostLasting s :=
  (hostLasting_dropSpecs (dropWait s q) q _).trans ((hostLasting_of_unposted (unposted_dropWait s q)).trans rfl)

/-- An issued descriptor keeps the completion ring that its queue had. -/
def ringKept (x : Queue) (j : Job) : Job :=
  { j with cqOld := match j.cqOld with | some c => some c | none => some (x.cqBase, x.cqLog2, x.cqTail) }

/-- A queue after the reset. -/
def queueReset (x : Queue) : Queue := { Queue.init with jobs := x.jobs.map (ringKept x) }

/-- A queue none of whose descriptors needs the host is reset, and nothing of another one moves. -/
theorem flrQueue_spec (wf : mwf Queue.init 0 s.queues = true) (noHost : failHostJobs s q = s) :
    mwf Queue.init 0 (flrQueue s q).queues = true ∧ (flrQueue s q).queue q = queueReset (s.queue q)
      ∧ (∀ p, p ≠ q → (flrQueue s q).queue p = s.queue p) ∧ hostLasting (flrQueue s q) = hostLasting s := by
  have wf1 : mwf Queue.init 0 (discardDecoded s q).queues = true := by
    rw [discardDecoded_queues wf]
    exact mwf_mput _ (mwf_mput _ wf (Nat.zero_le _)) (Nat.zero_le _)
  have own : (discardDecoded s q).queue q = discarded (s.queue q) := by
    refine (congrArg (mget Queue.init · q) (discardDecoded_queues wf)).trans ?_
    exact mget_mput_same _ (mwf_mput _ wf (Nat.zero_le _))
  have eq : flrQueue s q = (discardDecoded s q).setQueue q (queueReset (s.queue q)) := by
    unfold flrQueue
    rw [noHost]
    extract_lets s1 x
    have read : x = discarded (s.queue q) := own
    rw [read]
    rfl
  rw [eq]
  refine ⟨queues_setQueue wf1 q _, queue_setQueue wf1 q _, fun p other => ?_, hostLasting_discardDecoded s q⟩
  refine (queue_setQueue_other wf1 _ other).trans ((congrArg (mget Queue.init · p) (discardDecoded_queues wf)).trans ?_)
  exact (mget_mput_other _ (mwf_mput _ wf (Nat.zero_le _)) other).trans (mget_mput_other _ wf other)

/-! #### The queues of a function without issued descriptors -/

/-- No queue has an issued descriptor, and their map is canonical. -/
def Idle (s : State) : Prop := mwf Queue.init 0 s.queues = true ∧ ∀ q, (s.queue q).jobs = []

theorem mem_of_mfind {α : Type} {m : SMap α} {i : Nat} {x : α} (h : mfind m i = some x) : (i, x) ∈ m := by
  induction m with
  | nil => cases h
  | cons e r ih =>
    obtain ⟨k, w⟩ := e
    unfold mfind at h
    split at h
    · exact List.mem_cons_of_mem _ (ih h)
    · split at h
      · rename_i same
        cases h
        rw [same]
        exact List.mem_cons_self
      · cases h

theorem idle_of_noJobs (wf : mwf Queue.init 0 s.queues = true) (none : NoJobs s) : Idle s := by
  refine ⟨wf, fun q => ?_⟩
  show (mget Queue.init s.queues q).jobs = []
  unfold mget
  cases found : mfind s.queues q with
  | none => rfl
  | some x => exact List.isEmpty_iff.mp (List.all_eq_true.mp none _ (mem_of_mfind found))

theorem failHostJobs_none (none : (s.queue q).jobs = []) : failHostJobs s q = s := by
  unfold failHostJobs
  rw [none]
  rfl

theorem queue_unlisted (unlisted : q ∉ s.queues.map (·.1)) : s.queue q = Queue.init := by
  show mget Queue.init s.queues q = Queue.init
  unfold mget
  cases found : mfind s.queues q with
  | none => rfl
  | some x => exact absurd (List.mem_map.mpr ⟨_, mem_of_mfind found, rfl⟩) unlisted

/-- The queues listed are reset in turn. -/
theorem flrQueues_idle (l : List Nat) (idle : Idle s) :
    Idle (l.foldl flrQueue s) ∧ hostLasting (l.foldl flrQueue s) = hostLasting s
      ∧ ∀ q, (l.foldl flrQueue s).queue q = if q ∈ l then Queue.init else s.queue q := by
  induction l generalizing s with
  | nil => exact ⟨idle, rfl, fun q => rfl⟩
  | cons p l ih =>
    obtain ⟨wf, none⟩ := idle
    obtain ⟨wf', own, others, lasting⟩ := flrQueue_spec wf (failHostJobs_none (none p))
    have reset : (flrQueue s p).queue p = Queue.init := by rw [own, queueReset, none p]; rfl
    have idle' : Idle (flrQueue s p) := ⟨wf', fun q => by
      by_cases same : q = p
      · rw [same, reset]
        rfl
      · rw [others q same]
        exact none q⟩
    obtain ⟨idle'', lasting', now⟩ := ih idle'
    refine ⟨idle'', lasting'.trans lasting, fun q => (now q).trans ?_⟩
    by_cases same : q = p
    · rw [same, reset, ite_self, if_pos List.mem_cons_self]
    · rw [others q same]
      exact if_congr (by simp [same]) rfl rfl

/-- What a reset of the function leaves of the queues and of the function. -/
theorem functionOf_resized (s : State) : functionOf ((List.range 8).foldl rcResize s) = functionOf s :=
  foldl_keeps functionOf functionOf_rcResize _ s

/-- The function may issue no request. -/
def masterOff (s : State) : State := { s with host := { s.host with busMaster := false } }

theorem functionReset_host (s : State) : (functionReset s).host
    = hostLasting ((s.queues.map (·.1)).foldl flrQueue (masterOff s)) :=
  congrArg Prod.snd (functionOf_resized _)

theorem functionReset_queue (s : State) (q : Nat) : (functionReset s).queue q
    = ((s.queues.map (·.1)).foldl flrQueue (masterOff s)).queue q :=
  congrArg (mget Queue.init · q) (congrArg Prod.fst (functionOf_resized _) : (functionReset s).queues = _)

theorem functionReset_idle (idle : Idle s) :
    (∀ q, (functionReset s).queue q = Queue.init) ∧ (functionReset s).host = hostLasting s := by
  obtain ⟨-, lasting, now⟩ := flrQueues_idle (s := masterOff s)
    (s.queues.map (·.1)) idle
  refine ⟨fun q => (functionReset_queue s q).trans ((now q).trans ?_), (functionReset_host s).trans lasting⟩
  split
  · rfl
  · rename_i unlisted
    exact queue_unlisted unlisted

/-! #### The link's loss without issued descriptors -/

theorem Idle.of_queues (idle : Idle s) (same : t.queues = s.queues) : Idle t := by
  obtain ⟨wf, none⟩ := idle
  exact ⟨same ▸ wf, fun q => (congrArg (fun m => (mget Queue.init m q).jobs) same).trans (none q)⟩

theorem Idle.setQueue (idle : Idle s) (q : Nat) {x : Queue} (empty : x.jobs = []) : Idle (s.setQueue q x) := by
  obtain ⟨wf, none⟩ := idle
  refine ⟨queues_setQueue wf q x, fun p => ?_⟩
  by_cases same : p = q
  · rw [same, queue_setQueue wf, empty]
  · rw [queue_setQueue_other wf x same, none p]

/-- A queue whose vector has been raised. -/
def justRaised (s : State) (q : Nat) : State :=
  s.setQueue q { s.queue q with lastRaise := some (clock s), raiseHeld := false }

theorem justRaised_idle (idle : Idle s) (q : Nat) : Idle (justRaised s q) := idle.setQueue q (idle.2 q)

theorem raiseNow_idle (idle : Idle s) (q : Nat) : Idle (raiseNow s q) ∧ hostLasting (raiseNow s q) = hostLasting s := by
  have raised : unposted (raiseNow s q) = unposted (justRaised s q) := unposted_raiseVector _ _
  exact ⟨(justRaised_idle idle q).of_queues (queues_of_unposted raised), (hostLasting_of_unposted raised).trans rfl⟩

theorem stopQueue_idle (idle : Idle s) (q : Nat) (i : BitVec 32) :
    Idle (stopQueue s q i) ∧ hostLasting (stopQueue s q i) = hostLasting s := by
  have waits := unposted_dropWait s q
  have unwait : Idle (s.setQueue q (unwaited (s.queue q))) := idle.setQueue q (idle.2 q)
  have dropped : Idle (dropFetches (dropWait s q) q (fun _ => true)) :=
    unwait.of_queues (t := dropFetches (dropWait s q) q _) ((dropFetches_queues _ _ _).trans (queues_of_unposted waits))
  have stops : Idle (raiseNow ((dropFetches (dropWait s q) q (fun _ => true)).setQueue q
        { (dropFetches (dropWait s q) q (fun _ => true)).queue q with state := .error, head := i, fetched := [], fetchAt := i }) q)
      ∧ hostLasting (raiseNow ((dropFetches (dropWait s q) q (fun _ => true)).setQueue q
        { (dropFetches (dropWait s q) q (fun _ => true)).queue q with state := .error, head := i, fetched := [], fetchAt := i }) q)
        = hostLasting s := by
    obtain ⟨idle', lasting⟩ := raiseNow_idle (dropped.setQueue q (x := { (dropFetches (dropWait s q) q (fun _ => true)).queue q with
      state := .error, head := i, fetched := [], fetchAt := i }) (dropped.2 q)) q
    exact ⟨idle', lasting.trans ((hostLasting_of_unposted waits).trans rfl)⟩
  unfold stopQueue
  split
  · exact stops
  · exact stops
  · exact raiseNow_idle idle q
  · exact ⟨idle, rfl⟩

theorem hostRingStops_idle (l : List Nat) (idle : Idle s) :
    Idle (l.foldl hostRingStop s) ∧ hostLasting (l.foldl hostRingStop s) = hostLasting s := by
  induction l generalizing s with
  | nil => exact ⟨idle, rfl⟩
  | cons q l ih =>
    have one : Idle (hostRingStop s q) ∧ hostLasting (hostRingStop s q) = hostLasting s := by
      unfold hostRingStop
      split
      · exact stopQueue_idle idle q _
      · exact ⟨idle, rfl⟩
    obtain ⟨idle', lasting⟩ := one
    obtain ⟨idle'', lasting'⟩ := ih idle'
    exact ⟨idle'', lasting'.trans lasting⟩

theorem linkLoss_idle (idle : Idle s) (none : s.host.reads = []) :
    Idle (linkLoss s) ∧ hostLasting (linkLoss s) = { hostLasting s with linkUp := false } := by
  cases up : s.host.linkUp with
  | false =>
    have same : linkLoss s = s := if_pos (by rw [up]; rfl)
    rw [same]
    refine ⟨idle, ?_⟩
    unfold hostLasting
    rw [up]
  | true =>
    have down := unposted_linkDowned s
    have idle' : Idle (linkDowned s) := idle.of_queues (linkDowned_queues s)
    have fails (l : List Nat) : l.foldl failHostJobs (linkDowned s) = linkDowned s := by
      induction l with
      | nil => rfl
      | cons q l ih => rw [List.foldl_cons, failHostJobs_none (idle'.2 q), ih]
    have reads : (linkDowned s).host.reads = [] := (reads_of_unposted down).trans none
    rw [linkLoss_up up, fails, reads]
    obtain ⟨idle'', lasting⟩ := hostRingStops_idle ((linkDowned s).queues.map (·.1)) idle'
    exact ⟨idle'', lasting.trans ((hostLasting_of_unposted down).trans rfl)⟩

theorem functionLevelReset_on (hub : hubOn s = true) : exec .functionLevelReset s = .next (functionReset s) :=
  congrArg Host.Outcome.next (if_pos hub)

/-- PERST_N stands. -/
def perstNoted (s : State) : State := { s with host := { s.host with perst := true } }

theorem queue_perstNoted (s : State) (q : Nat) : (perstNoted s).queue q = s.queue q := rfl

theorem host_perstNoted (s : State) : (perstNoted s).host = { s.host with perst := true } := rfl

theorem perstN_on (hub : hubOn s = true) : exec .perstN s = .next (perstNoted (functionReset (linkLoss s))) :=
  congrArg Host.Outcome.next (if_pos hub)

/-! #### A queue with one issued descriptor -/

/-- A descriptor that moves no data to or from the host stays, with its completion ring. -/
theorem functionReset_one {x : Queue} {j : Job} (one : s.queues = [(q, x)]) (job : x.jobs = [j]) (old : j.cqOld = none)
    (noHost : usesHost j.words = false) : (functionReset s).queue q
      = { Queue.init with jobs := [{ j with cqOld := some (x.cqBase, x.cqLog2, x.cqTail) }] } := by
  have own : s.queue q = x := by
    show mget Queue.init s.queues q = x
    rw [one]
    simp [mget, mfind]
  have busy : x ≠ Queue.init := by
    intro same
    rw [same] at job
    cases job
  have wf : mwf Queue.init 0 s.queues = true := by
    rw [one]
    simp [mwf, busy]
  have kept : failHostJobs (masterOff s) q = masterOff s := by
    unfold failHostJobs
    rw [show (masterOff s).queue q = x from own, job, List.filter_cons, noHost]
    rfl
  obtain ⟨-, reset, -, -⟩ := flrQueue_spec (s := masterOff s) wf kept
  have ring : ringKept x j = { j with cqOld := some (x.cqBase, x.cqLog2, x.cqTail) } := by
    unfold ringKept
    rw [old]
  rw [functionReset_queue, one]
  refine reset.trans ?_
  rw [show (masterOff s).queue q = x from own, queueReset, job, List.map_singleton, ring]

end

/-- Settles O49: each clause is the rule of its command, and a reset leaves of the function what its definition keeps,
since nothing on the way touches it. -/
theorem hostFunction : Obligations.HostFunction := by
  unfold Obligations.HostFunction
  refine ⟨?_, ?_, ?_, ?_, ?_, ?_⟩
  · intro v s h e open_ up
    have run : exec (.msixUnmask (some v)) s = .next (deliverPending (unmasked s v) v) :=
      congrArg Host.Outcome.next (if_neg (by rw [up]; exact Bool.false_ne_true))
    refine ⟨fun ready enabled clear pending => run.trans (congrArg Host.Outcome.next ?_), fun none => ?_⟩
    · rw [deliverPending_open (vectorOpen_unmasked ready enabled clear) pending, entry_unmasked]
      rfl
    · exact run.trans (congrArg Host.Outcome.next (deliverPending_none none))
  · intro s v on width rate h resumed_ trained up hub idle
    have trainedQueues := linkTrained_queues s width rate
    have trainedIdle : NoJobs (linkTrained s width rate) :=
      (congrArg (fun m : SMap Queue => m.all (fun e => e.2.jobs.isEmpty) = true) trainedQueues).mpr idle
    refine ⟨fun w quiet held link power => ?_, fun held one => ⟨?_, ?_, ?_, fun wide fast => ?_⟩, fun held quiet slow => ?_⟩
    · refine congrArg Host.Outcome.next ((if_pos hub).trans ?_)
      have ready : hostReady { s with host := { s.host with busMaster := true } } = true := by
        show (s.host.linkUp && true && !s.host.d3hot) = true
        rw [show s.host.linkUp = true from link, show s.host.d3hot = false from power]
        rfl
      exact hostResume_held (s := { s with host := { s.host with busMaster := true } }) idle ready quiet held
    · exact congrArg Host.Outcome.next ((if_pos hub).trans
        (hostResume_one (s := { s with host := { s.host with busMaster := on } }) idle held one))
    · exact congrArg Host.Outcome.next ((if_pos hub).trans
        (hostResume_one (s := { s with host := { s.host with d3hot := on } }) idle held one))
    · exact congrArg Host.Outcome.next ((if_neg (by rw [hub]; exact Bool.false_ne_true)).trans
        (hostResume_one (s := { s with host := { s.host with fnMask := false, msixEnable := true } }) idle held one))
    · rw [execHostLinkTrained_up hub, if_neg (by omega)]
      exact congrArg Host.Outcome.next (hostResume_one (s := linkTrained s width rate) trainedIdle held one)
    · rw [execHostLinkTrained_up hub, if_pos slow]
      have same := unposted_sticky (linkTrained s width rate) 0xA0D0 2 0
      have quiet' : RaisesShut (linkTrained s width rate) := fun e he => absurd (quiet ▸ he : e ∈ []) List.not_mem_nil
      refine congrArg Host.Outcome.next (hostResume_raisesShut ?_ ?_ (raisesShut_sticky quiet' _ _ _))
      · exact (congrArg (fun m : SMap Queue => m.all (fun e => e.2.jobs.isEmpty) = true) (queues_of_unposted same)).mpr trainedIdle
      · exact (held_of_unposted same).trans held
  · intro s r ep data c h done only
    refine ⟨fun q i use none unmarked len full fresh => ?_, fun noCopy less => ?_, fun fails q i off use => ?_,
      fun tag other => hostRead_strange only other⟩
    · have noCopy (q i off) : r.use ≠ .copy q i off := by rw [use]; exact fun h => nomatch h
      have whole : ¬ r.got.length + data.length < r.len := by rw [none, len, full]; decide
      have taken := readWhole_fetch (t := bump (readEnded s) 0x80D0 1 data.length) (ep := ep) (data := data) use none unmarked fresh
      rw [hostReadCompletion_sc only, readData_noCopy only noCopy (by rw [none, len, full]; decide), if_neg whole, taken, full,
        firstMark_all]
      rfl
    · rw [hostReadCompletion_sc only, readData_noCopy only noCopy (Nat.le_of_lt less), if_pos less]
      rfl
    · rw [hostRead_fails only fails, readFailed_copy only use]
      rfl
  · intro s q x down failed y hub up none one reads
    exact congrArg Host.Outcome.next ((if_pos hub).trans (linkLoss_one up one reads))
  · intro s h reset hub inv none
    have idle := idle_of_noJobs inv.queues none
    refine ⟨⟨_, functionLevelReset_on hub, functionReset_idle idle⟩, fun reads => ?_⟩
    obtain ⟨idle', lasting⟩ := linkLoss_idle idle reads
    obtain ⟨queues, host⟩ := functionReset_idle idle'
    refine ⟨_, perstN_on hub, fun q => (queue_perstNoted _ q).trans (queues q), ?_⟩
    rw [host_perstNoted, host, lasting]
    rfl
  · intro s q x j hub one job old noHost unwatched
    exact ⟨_, functionLevelReset_on hub, functionReset_one one job old noHost⟩

end Sys2Proof.Machine
end

section
/-! Neighbours, the shadow join, the health score and its state (13 R299, R310, R312 to R314). -/

namespace Sys2Proof.Machine

/-! ### The neighbour detector (13 R299) -/

section
variable {s : State} {d : Fin 6} {p : Nat}

/-- The neighbour last heard is entered as suspected. -/
def suspectNoted (s : State) (d p : Nat) : State := dset s 0xC003 (d + 2) (2 ^ 31 + (s.port p).peer.toNat)

theorem neighbourSuspected_unheard (unheard : lastHeard s d.val = none) : neighbourSuspected d s = s := by
  unfold neighbourSuspected
  rw [unheard]

theorem neighbourSuspected_early (heard : lastHeard s d.val = some p)
    (early : (clock s - (s.port p).heard).toNat < beats (dnum s 0xC003 1)) : neighbourSuspected d s = s := by
  unfold neighbourSuspected
  rw [heard]
  exact if_pos (by rw [decide_eq_true early, Bool.or_true, Bool.true_or])

theorem neighbourSuspected_silent (up : loaded s = true) (heard : lastHeard s d.val = some p)
    (silent : beats (dnum s 0xC003 1) ≤ (clock s - (s.port p).heard).toNat) (fresh : dcell s 0xC003 (d.val + 2) = 0) :
    neighbourSuspected d s = if dbit (suspectNoted s d.val p) 0xA0C0 2 d.val then raiseError (suspectNoted s d.val p)
      else sticky (suspectNoted s d.val p) 0xA0C0 2 d.val := by
  unfold neighbourSuspected
  rw [heard]
  exact if_neg (by rw [up, decide_eq_false (not_lt.mpr silent), fresh]; decide)

theorem dkey_apart {i j k l : Nat} (other : i ≠ j) (low : k < 256) (low' : l < 256) : dkey i k ≠ dkey j l := by
  unfold dkey
  omega

theorem dcell_suspectNoted (s : State) (d p : Nat) : dcell (suspectNoted s d p) 0xC003 (d + 2) = 2 ^ 31 + (s.port p).peer.toNat := by
  refine dcell_dset ?_
  have small := (s.port p).peer.isLt
  unfold dictAbsent
  omega

theorem mfind_raiseError {t : State} {k : Nat} (other : k ≠ dkey 0x80D0 4) : mfind (raiseError t).dict k = mfind t.dict k :=
  mfind_raiseVector other _

/-- A silent neighbour is entered, with its bit set. -/
theorem neighbourSuspected_enters (wf : DictWf s) (up : loaded s = true) (heard : lastHeard s d.val = some p)
    (silent : beats (dnum s 0xC003 1) ≤ (clock s - (s.port p).heard).toNat) (fresh : dcell s 0xC003 (d.val + 2) = 0) :
    dcell (neighbourSuspected d s) 0xC003 (d.val + 2) = 2 ^ 31 + (s.port p).peer.toNat
      ∧ dbit (neighbourSuspected d s) 0xA0C0 2 d.val = true
      ∧ (dbit s 0xA0C0 2 d.val = true → neighbourSuspected d s = raiseError (suspectNoted s d.val p)) := by
  have noted := dcell_suspectNoted s d.val p
  have bit : dbit (suspectNoted s d.val p) 0xA0C0 2 d.val = dbit s 0xA0C0 2 d.val :=
    congrArg (Nat.testBit · d.val) (dcell_of_mfind (mfind_dset_other wf _ (dkey_apart (by decide) (by decide) (by omega))))
  rw [neighbourSuspected_silent up heard silent fresh]
  cases set : dbit (suspectNoted s d.val p) 0xA0C0 2 d.val with
  | true =>
    rw [if_pos rfl]
    refine ⟨?_, ?_, fun _ => rfl⟩
    · exact (dcell_of_mfind (mfind_raiseError (dkey_apart (by decide) (by omega) (by decide)))).trans noted
    · exact (congrArg (Nat.testBit · d.val)
        (dcell_of_mfind (mfind_raiseError (dkey_apart (by decide) (by decide) (by decide))))).trans set
  | false =>
    rw [if_neg Bool.false_ne_true]
    refine ⟨?_, dbit_sticky (by omega) (by decide) (by decide), fun before => ?_⟩
    · refine (dcell_of_mfind (mfind_sticky (by omega) ?_ ?_ ?_)).trans noted <;>
        exact dkey_apart (by decide) (by omega) (by decide)
    · rw [bit, before] at set
      exact absurd set.symm Bool.false_ne_true

end

/-! ### The shadow join (13 R310) -/

section
variable {s : State} {x b : Shadow}

/-- The pair that a digest has on the other side. -/
def samePair (x y : Shadow) : Bool := y.queue == x.queue && y.idx == x.idx

/-- The leader's digest is kept. -/
def theirsKept (s : State) (x : Shadow) : State :=
  { s with res := { s.res with theirs := s.res.theirs ++ [x], ours := s.res.ours } }

section
variable (role : dcell s 0xC030 1 = 2) (joins : dcell s 0xC031 1 = 1) (theirs : s.res.theirs.find? (samePair x) = none)
include role joins theirs

theorem shadowTake_waits (ours : s.res.ours.find? (samePair x) = none) (few : s.res.theirs.length < 4095)
    (few' : s.res.ours.length < 4096) : shadowTake s x true = theirsKept s x := by
  have room : ¬ (4096 ≤ (theirsKept s x).res.theirs.length ∨ 4096 ≤ (theirsKept s x).res.ours.length) := by
    simp only [theirsKept, List.length_append, List.length_singleton]
    omega
  unfold shadowTake
  rw [if_neg (by omega)]
  dsimp only
  rw [show (fun y : Shadow => y.queue == x.queue && y.idx == x.idx) = samePair x from rfl, theirs, ours]
  exact if_neg room

theorem shadowTake_pairs (ours : s.res.ours.find? (samePair x) = some b) :
    shadowTake s x true = shadowCompare (theirsKept s x) x b := by
  unfold shadowTake
  rw [if_neg (by omega)]
  dsimp only
  rw [show (fun y : Shadow => y.queue == x.queue && y.idx == x.idx) = samePair x from rfl, theirs, ours]
  rfl

end

/-- A pair of digests has been taken out. -/
def pairTaken (s : State) (b : Shadow) : State := { s with res := { s.res with ours := s.res.ours.erase b } }

/-- The leader's digest has no pair on its own side, so that it is the one that goes. -/
theorem erase_kept {l : List Shadow} (none : l.find? (samePair x) = none) : (l ++ [x]).erase x = l := by
  have out : x ∉ l := by
    intro mem
    have other := List.find?_eq_none.mp none x mem
    simp [samePair] at other
  rw [List.erase_append_right _ out]
  simp

/-- A pair that is equal is counted. -/
def pairCounted (s : State) (b : Shadow) : State :=
  dset (pairTaken s b) 0xC031 2 (dcell s 0xC031 2 + 1)

/-- The join has passed. -/
def joinPassed (s : State) : State := dset { s with res := { s.res with passedOk := true } } 0xC031 1 2

theorem pairTaken_compare (theirs : s.res.theirs.find? (samePair x) = none) (f : State → State) :
    f { theirsKept s x with res := { (theirsKept s x).res with
      theirs := (theirsKept s x).res.theirs.erase x, ours := (theirsKept s x).res.ours.erase b } } = f (pairTaken s b) := by
  show f { s with res := { s.res with theirs := (s.res.theirs ++ [x]).erase x, ours := s.res.ours.erase b } } = _
  rw [erase_kept theirs]
  rfl

theorem shadowCompare_equal (theirs : s.res.theirs.find? (samePair x) = none) (sound : x.poisoned = false)
    (sound' : b.poisoned = false) (same : b.digest = x.digest) :
    shadowCompare (theirsKept s x) x b = if dnum (pairCounted s b) 0xC030 4 ≤ dcell s 0xC031 2 + 1
      then joinPassed (pairCounted s b) else pairCounted s b := by
  unfold shadowCompare
  rw [sound, sound', if_neg (by simp), if_neg (fun h => h same.symm)]
  exact pairTaken_compare theirs (fun t => if dnum (dset t 0xC031 2 (dcell t 0xC031 2 + 1)) 0xC030 4 ≤ dcell t 0xC031 2 + 1
    then joinPassed (dset t 0xC031 2 (dcell t 0xC031 2 + 1)) else dset t 0xC031 2 (dcell t 0xC031 2 + 1))

theorem shadowCompare_unequal (theirs : s.res.theirs.find? (samePair x) = none) (sound : x.poisoned = false)
    (sound' : b.poisoned = false) (other : b.digest ≠ x.digest) :
    shadowCompare (theirsKept s x) x b = shadowFault (pairTaken s b) x 3 := by
  unfold shadowCompare
  rw [sound, sound', if_neg (by simp), if_pos (fun h => other h.symm)]
  exact pairTaken_compare theirs (fun t => shadowFault t x 3)

theorem shadowFault_records {result : Nat} (small : result < 2 ^ 64) (queue : x.queue < 65536) (s : State) :
    dcell (shadowFault s x result) 0xC031 1 = result ∧ dcell (shadowFault s x result) 0xC031 3 = x.queue * 2 ^ 48 + x.idx.toNat
      ∧ dbit (shadowFault s x result) 0xA0C0 7 0 = true := by
  have listed : x.queue * 2 ^ 48 + x.idx.toNat ≠ dictAbsent := by
    have := x.idx.isLt
    unfold dictAbsent
    omega
  have listed' : result ≠ dictAbsent := by
    unfold dictAbsent
    omega
  have kept (sub : Nat) (low : sub < 256) : dcell (shadowFault s x result) 0xC031 sub
      = dcell (dset (dset s 0xC031 1 result) 0xC031 3 (x.queue * 2 ^ 48 + x.idx.toNat)) 0xC031 sub := by
    refine dcell_of_mfind (mfind_sticky (by decide) ?_ ?_ ?_) <;> exact dkey_apart (by decide) low (by decide)
  refine ⟨(kept 1 (by decide)).trans ?_, (kept 3 (by decide)).trans (dcell_dset listed), dbit_sticky (by decide) (by decide) (by decide)⟩
  exact (dcell_of_mfind (mfind_dset_listed listed (by decide))).trans (dcell_dset listed')

/-- The digest that a leader's record carries. -/
theorem shadowRecord_reads {q : Nat} (small : q < 65536) (i : BitVec 32) (g : Word) (more : List Byte) (up : loaded s = true) :
    exec (.shadowRecord (natLe 2 q ++ [0, 0] ++ natLe 4 i.toNat ++ natLe 8 g.toNat ++ more)) s
      = .next (shadowTake s { queue := q, idx := i, digest := g, poisoned := false } true) := by
  have queue : leNat (slice (natLe 2 q ++ [0, 0] ++ natLe 4 i.toNat ++ natLe 8 g.toNat ++ more) 0 2) = q := by
    simp only [slice, List.drop_zero, List.append_assoc]
    rw [List.take_left' (natLe_length 2 q)]
    exact leNat_natLe_of_lt (by simpa using small)
  have idx : leNat (slice (natLe 2 q ++ [0, 0] ++ natLe 4 i.toNat ++ natLe 8 g.toNat ++ more) 4 4) = i.toNat := by
    have front : (natLe 2 q ++ [0, 0]).length = 4 := by simp
    simp only [slice, List.append_assoc]
    rw [← List.append_assoc (natLe 2 q), List.drop_left' front, List.take_left' (natLe_length 4 _)]
    exact leNat_natLe_of_lt (by simpa using i.isLt)
  have digest : leNat (slice (natLe 2 q ++ [0, 0] ++ natLe 4 i.toNat ++ natLe 8 g.toNat ++ more) 8 8) = g.toNat := by
    have front : (natLe 2 q ++ [0, 0] ++ natLe 4 i.toNat).length = 8 := by simp
    simp only [slice, List.append_assoc]
    rw [← List.append_assoc (natLe 2 q), ← List.append_assoc (natLe 2 q ++ [0, 0]), List.drop_left' front,
      List.take_left' (natLe_length 8 _)]
    exact leNat_natLe_of_lt (by simpa using g.isLt)
  refine congrArg Host.Outcome.next ((if_pos up).trans ?_)
  rw [queue, idx, digest, BitVec.ofNat_toNat, BitVec.ofNat_toNat, BitVec.setWidth_eq, BitVec.setWidth_eq]

end

/-! ### The health score (13 R312, R313) -/

section
variable {s t : State}

theorem clampK_le (v : Int) : clampK v ≤ 1000 := by
  unfold clampK
  omega

theorem healthV_le (s : State) : healthV s ≤ 1000 := by
  unfold healthV
  dsimp only
  split
  · decide
  · exact clampK_le _

theorem healthT_le (s : State) : healthT s ≤ 1000 := by
  unfold healthT
  dsimp only
  split
  · decide
  · exact clampK_le _

theorem healthO_le (s : State) : healthO s ≤ 1000 := by
  unfold healthO
  dsimp only
  split
  · decide
  · exact (Nat.min_le_left _ _).trans (clampK_le _)

theorem healthE_le (s : State) : healthE s ≤ 1000 := Nat.sub_le 1000 _

theorem healthScore_le (s : State) : healthScore s ≤ 1000 :=
  ((Nat.min_le_left _ _).trans (Nat.min_le_left _ _)).trans (healthV_le s)

theorem listed_of_small {v : Nat} (small : v < 2 ^ 64) : v ≠ dictAbsent := by
  unfold dictAbsent
  omega

theorem listed_of_score {v : Nat} (le : v ≤ 1000) : v ≠ dictAbsent := listed_of_small (by omega)

/-- The entries of the score stand apart from every other. -/
theorem mfind_scoreHealth {k : Nat} (other : ∀ sub ∈ [1, 3, 4, 5, 6], k ≠ dkey 0x30C0 sub) :
    mfind (scoreHealth s).dict k = mfind s.dict k := by
  unfold scoreHealth
  dsimp only
  rw [mfind_dset_listed (listed_of_score (healthE_le s)) (other 6 (by decide)),
    mfind_dset_listed (listed_of_score (healthO_le s)) (other 5 (by decide)),
    mfind_dset_listed (listed_of_score (healthT_le s)) (other 4 (by decide)),
    mfind_dset_listed (listed_of_score (healthV_le s)) (other 3 (by decide)),
    mfind_dset_listed (listed_of_score (healthScore_le s)) (other 1 (by decide))]

theorem mfind_scoreHealth_index {i k : Nat} (other : i ≠ 0x30C0) (low : k < 256) :
    mfind (scoreHealth s).dict (dkey i k) = mfind s.dict (dkey i k) :=
  mfind_scoreHealth fun sub listed => dkey_apart other low (by
    simp only [List.mem_cons, List.not_mem_nil, or_false] at listed
    omega)

theorem dcell_scoreHealth (s : State) : dcell (scoreHealth s) 0x30C0 1 = healthScore s := by
  have own : dcell (scoreHealth s) 0x30C0 1 = dcell (dset s 0x30C0 1 (healthScore s)) 0x30C0 1 := by
    unfold scoreHealth
    refine dcell_of_mfind ?_
    dsimp only
    rw [mfind_dset_listed (listed_of_score (healthE_le s)) (by decide),
      mfind_dset_listed (listed_of_score (healthO_le s)) (by decide),
      mfind_dset_listed (listed_of_score (healthT_le s)) (by decide),
      mfind_dset_listed (listed_of_score (healthV_le s)) (by decide)]
  exact own.trans (dcell_dset (listed_of_score (healthScore_le s)))

theorem healthState_scoreHealth (s : State) : healthState (scoreHealth s) = healthState s :=
  dcell_of_mfind (mfind_scoreHealth (by decide))

/-- The score rests on the domains, the health books, the fibres and the margins entered. -/
theorem healthScore_congr (stage : t.stage = s.stage) (health : t.health = s.health) (fibres : t.fibres = s.fibres)
    (margins : ∀ d, d < 30 → dcell t 0x6040 (d + 1) = dcell s 0x6040 (d + 1))
    (slacks : ∀ d, d < 30 → dcell t 0x6041 (d + 1) = dcell s 0x6041 (d + 1)) : healthScore t = healthScore s := by
  have on : domainOn t = domainOn s := by
    funext d
    unfold domainOn
    rw [stage]
  have fibre : t.fibre = s.fibre := by
    funext f
    unfold State.fibre
    rw [fibres]
  have some (d : Nat) (listed : d ∈ (List.range 30).filter (domainOn s)) : d < 30 := by
    rw [List.mem_filter, List.mem_range] at listed
    exact listed.1
  have v : healthV t = healthV s := by
    unfold healthV
    rw [on, health]
    dsimp only
    rw [List.map_congr_left fun d h => congrArg f32Milli (margins d (some d h))]
  have x : healthT t = healthT s := by
    unfold healthT
    rw [on, health]
    dsimp only
    rw [List.map_congr_left fun d h => congrArg f32Milli (slacks d (some d h))]
  have done : opticalDone t = opticalDone s := by
    unfold opticalDone
    rw [fibre]
  have margin : fibreMargin t = fibreMargin s := by
    funext f
    unfold fibreMargin
    rw [fibre]
  have reserve : fibreReserve t = fibreReserve s := by
    funext f
    unfold fibreReserve
    rw [fibre]
  have o : healthO t = healthO s := by
    unfold healthO
    rw [done, fibre, health, margin, reserve]
  have e : healthE t = healthE s := by
    unfold healthE
    rw [health]
  unfold healthScore
  rw [v, x, o, e]

theorem healthScore_scoreHealth (s : State) : healthScore (scoreHealth s) = healthScore s :=
  healthScore_congr rfl rfl rfl (fun d h => dcell_of_mfind (mfind_scoreHealth_index (by decide) (by omega)))
    (fun d h => dcell_of_mfind (mfind_scoreHealth_index (by decide) (by omega)))

/-! ### The health state (13 R314) -/

/-- The health books but for the debt and what a run finds. -/
def healthBooks (s : State) : Health := { s.health with debt := 0, found := 0 }

theorem healthBooks_sticky (s : State) (idx sub bit : Nat) : healthBooks (sticky s idx sub bit) = healthBooks s := by
  unfold sticky
  split
  · rfl
  · unfold healthBooks raiseError
    rw [raiseVector_health]
    unfold addDebt
    rw [journal_health]
    rfl

/-- A health state entered, before its bit. -/
def healthEntered (s : State) (v : Nat) : State :=
  let t := dset (dset s 0x30C0 2 v) 0x30C0 7 (beat s).toNat
  raiseError { t with health := { t.health with beatIn := beat s } }

theorem enterHealth_eq (s : State) (v : Nat) :
    enterHealth s v = if v = 3 then sticky (healthEntered s v) 0xA0C0 8 0 else healthEntered s v := rfl

theorem mfind_healthEntered {v k : Nat} (small : v < 2 ^ 64) (state : k ≠ dkey 0x30C0 2) (since : k ≠ dkey 0x30C0 7)
    (vectors : k ≠ dkey 0x80D0 4) : mfind (healthEntered s v).dict k = mfind s.dict k := by
  unfold healthEntered
  refine (mfind_raiseError vectors).trans ?_
  exact (mfind_dset_listed (listed_of_small (beat s).isLt) since).trans (mfind_dset_listed (listed_of_small small) state)

theorem healthState_healthEntered {v : Nat} (small : v < 2 ^ 64) : healthState (healthEntered s v) = v := by
  have kept : mfind (healthEntered s v).dict (dkey 0x30C0 2) = mfind (dset s 0x30C0 2 v).dict (dkey 0x30C0 2) := by
    unfold healthEntered
    exact (mfind_raiseError (by decide)).trans (mfind_dset_listed (listed_of_small (beat s).isLt) (by decide))
  exact (dcell_of_mfind kept).trans (dcell_dset (listed_of_small small))

theorem healthEntered_health (s : State) (v : Nat) : (healthEntered s v).health = { s.health with beatIn := beat s } := by
  unfold healthEntered raiseError
  rw [raiseVector_health]
  rfl

/-- What the entry of a state other than FAILING, and that of FAILING, leave. -/
theorem enterHealth_keeps {v k : Nat} (small : v < 2 ^ 64) (state : k ≠ dkey 0x30C0 2) (since : k ≠ dkey 0x30C0 7)
    (vectors : k ≠ dkey 0x80D0 4) (failing : k ≠ dkey 0xA0C0 8) (lost : k ≠ dkey 0xA0FF 3) :
    mfind (enterHealth s v).dict k = mfind s.dict k := by
  rw [enterHealth_eq]
  split
  · exact (mfind_sticky (by decide) failing lost vectors).trans (mfind_healthEntered small state since vectors)
  · exact mfind_healthEntered small state since vectors

theorem healthState_enterHealth {v : Nat} (small : v < 2 ^ 64) : healthState (enterHealth s v) = v := by
  rw [enterHealth_eq]
  split
  · exact (dcell_of_mfind (mfind_sticky (by decide) (by decide) (by decide) (by decide))).trans (healthState_healthEntered small)
  · exact healthState_healthEntered small

theorem enterHealth_judged (s : State) (v : Nat) : (enterHealth s v).health.judgedAt = s.health.judgedAt := by
  have entered := congrArg Health.judgedAt (healthEntered_health s v)
  rw [enterHealth_eq]
  split
  · exact (congrArg Health.judgedAt (healthBooks_sticky _ _ _ _)).trans entered
  · exact entered

theorem dbit_failing (s : State) : dbit (enterHealth s 3) 0xA0C0 8 0 = true := by
  rw [enterHealth_eq, if_pos rfl]
  exact dbit_sticky (by decide) (by decide) (by decide)

/-- The beat is judged, with its score. -/
def scored (s : State) : State := scoreHealth { s with health := { s.health with judgedAt := beat s } }

/-- A state of the evaluation after `scored`: it keeps the score and the judgement. -/
structure ScoreJudged (s t : State) : Prop where
  at_ : t.health.judgedAt = beat s
  score : dcell t 0x30C0 1 = healthScore s

theorem judged_scored (s : State) : ScoreJudged s (scored s) := ⟨rfl, dcell_scoreHealth _⟩

theorem judged_enterHealth (s : State) {v : Nat} (small : v < 2 ^ 64) : ScoreJudged s (enterHealth (scored s) v) :=
  ⟨enterHealth_judged _ v, (dcell_of_mfind (enterHealth_keeps small (by decide) (by decide) (by decide) (by decide) (by decide))).trans
    (judged_scored s).score⟩

/-- The dwell of a better state has passed. -/
def dwellPast (s : State) : Prop :=
  dnum s 0x30C1 4 ≤ (beat s - (if s.health.beatIn < s.health.failBeat then s.health.failBeat else s.health.beatIn)).toNat

theorem dnum_scored (s : State) (k : Nat) (low : k < 256) : dnum (scored s) 0x30C1 k = dnum s 0x30C1 k :=
  dnum_of_mfind (mfind_scoreHealth_index (by decide) low)

theorem healthState_scored (s : State) : healthState (scored s) = healthState s := healthState_scoreHealth _

/-- A better state is entered where its condition holds and has held through the dwell, and else stays as it is. -/
theorem dwell_scored (s : State) (ok : Bool) : ScoreJudged s (dwell (scored s) ok 1)
    ∧ (ok = true → dwellPast s → healthState (dwell (scored s) ok 1) = 1)
    ∧ (¬ (ok = true ∧ dwellPast s) → healthState (dwell (scored s) ok 1) = healthState s) := by
  have keep := healthState_scored s
  have past : dwellPast (scored s) ↔ dwellPast s := by
    unfold dwellPast
    rw [dnum_scored s 4 (by decide)]
    rfl
  cases ok with
  | false => exact ⟨⟨rfl, (judged_scored s).score⟩, fun h => absurd h Bool.false_ne_true, fun _ => keep⟩
  | true =>
    by_cases held : dwellPast s
    · have enters : dwell (scored s) true 1 = enterHealth (scored s) 1 := (if_neg (by decide)).trans (if_pos (past.mpr held))
      rw [enters]
      exact ⟨judged_enterHealth s (by decide), fun _ _ => healthState_enterHealth (by decide), fun h => absurd ⟨rfl, held⟩ h⟩
    · have stays : dwell (scored s) true 1 = scored s := (if_neg (by decide)).trans (if_neg fun h => held (past.mp h))
      rw [stays]
      exact ⟨judged_scored s, fun _ h => absurd h held, fun _ => keep⟩

/-- What an evaluation does once in its beat. -/
theorem healthEvaluation_fresh (up : loaded s = true) (fresh : beat s ≠ s.health.judgedAt) :
    healthEvaluation s = if healthState s = 3 then scored s
      else if healthScore s < dnum s 0x30C1 3 then enterHealth (scored s) 3
      else if healthState s = 1 then (if healthScore s < dnum s 0x30C1 2 then enterHealth (scored s) 2 else scored s)
      else if healthState s = 2 then dwell (scored s) (decide (dnum s 0x30C1 1 ≤ healthScore s)) 1
      else dwell (scored s) (decide (dnum s 0x30C1 1 ≤ healthScore s) && dcell s 0x6043 1 == 1 && opticalDone s) 1 := by
  have survey : dcell (scored s) 0x6043 1 = dcell s 0x6043 1 :=
    dcell_of_mfind (mfind_scoreHealth_index (by decide) (by decide))
  rw [← healthState_scored s, ← dnum_scored s 3 (by decide), ← dnum_scored s 2 (by decide), ← dnum_scored s 1 (by decide), ← survey]
  exact if_neg (by rw [up]; simp [fresh])

theorem healthEvaluation_again (judged : beat s = s.health.judgedAt) : healthEvaluation s = s :=
  if_pos (by simp [judged])

/-- How the state moves at an evaluation (13 Table 13.8). -/
theorem healthEvaluation_moves (up : loaded s = true) (fresh : beat s ≠ s.health.judgedAt) :
    ScoreJudged s (healthEvaluation s)
      ∧ (healthState s = 3 → healthState (healthEvaluation s) = 3)
      ∧ (healthState s ≠ 3 → healthScore s < dnum s 0x30C1 3 → healthState (healthEvaluation s) = 3
        ∧ dbit (healthEvaluation s) 0xA0C0 8 0 = true)
      ∧ (healthState s ≠ 3 → dnum s 0x30C1 3 ≤ healthScore s →
        (healthState s = 1 → (healthScore s < dnum s 0x30C1 2 → healthState (healthEvaluation s) = 2)
          ∧ (dnum s 0x30C1 2 ≤ healthScore s → healthState (healthEvaluation s) = 1))
        ∧ (healthState s = 2 → (dnum s 0x30C1 1 ≤ healthScore s → dwellPast s → healthState (healthEvaluation s) = 1)
          ∧ (¬ (dnum s 0x30C1 1 ≤ healthScore s ∧ dwellPast s) → healthState (healthEvaluation s) = 2))
        ∧ (healthState s = 0 → (dnum s 0x30C1 1 ≤ healthScore s → dwellPast s → dcell s 0x6043 1 = 1 → opticalDone s = true →
            healthState (healthEvaluation s) = 1)
          ∧ (¬ (dnum s 0x30C1 1 ≤ healthScore s ∧ dwellPast s ∧ dcell s 0x6043 1 = 1 ∧ opticalDone s = true) →
            healthState (healthEvaluation s) = 0))) := by
  have keep := healthState_scored s
  rw [healthEvaluation_fresh up fresh]
  by_cases three : healthState s = 3
  · rw [if_pos three]
    exact ⟨judged_scored s, fun _ => keep.trans three, fun h => absurd three h, fun h => absurd three h⟩
  rw [if_neg three]
  by_cases fails : healthScore s < dnum s 0x30C1 3
  · rw [if_pos fails]
    exact ⟨judged_enterHealth s (by decide), fun h => absurd h three,
      fun _ _ => ⟨healthState_enterHealth (by decide), dbit_failing _⟩, fun _ h => absurd h (not_le.mpr fails)⟩
  rw [if_neg fails]
  by_cases one : healthState s = 1
  · rw [if_pos one]
    by_cases watch : healthScore s < dnum s 0x30C1 2
    · rw [if_pos watch]
      exact ⟨judged_enterHealth s (by decide), fun h => absurd h three, fun _ h => absurd h fails, fun _ _ =>
        ⟨fun _ => ⟨fun _ => healthState_enterHealth (by decide), fun h => absurd h (not_le.mpr watch)⟩,
          fun h => by omega, fun h => by omega⟩⟩
    · rw [if_neg watch]
      exact ⟨judged_scored s, fun h => absurd h three, fun _ h => absurd h fails, fun _ _ =>
        ⟨fun _ => ⟨fun h => absurd h watch, fun _ => keep.trans one⟩, fun h => by omega, fun h => by omega⟩⟩
  rw [if_neg one]
  by_cases two : healthState s = 2
  · rw [if_pos two]
    obtain ⟨judged, rises, stays⟩ := dwell_scored s (decide (dnum s 0x30C1 1 ≤ healthScore s))
    refine ⟨judged, fun h => absurd h three, fun _ h => absurd h fails, fun _ _ => ⟨fun h => absurd h one, fun _ =>
      ⟨fun up held => rises (decide_eq_true up) held, fun not => (stays fun h => not ⟨of_decide_eq_true h.1, h.2⟩).trans two⟩,
      fun h => by omega⟩⟩
  · rw [if_neg two]
    obtain ⟨judged, rises, stays⟩ := dwell_scored s
      (decide (dnum s 0x30C1 1 ≤ healthScore s) && dcell s 0x6043 1 == 1 && opticalDone s)
    refine ⟨judged, fun h => absurd h three, fun _ h => absurd h fails, fun _ _ => ⟨fun h => absurd h one,
      fun h => absurd h two, fun zero => ⟨fun up held survey optical => rises (by simp [up, survey, optical]) held,
        fun not => (stays fun h => not ?_).trans zero⟩⟩⟩
    obtain ⟨conditions, held⟩ := h
    simp only [Bool.and_eq_true, decide_eq_true_eq, beq_iff_eq] at conditions
    exact ⟨conditions.1.1, held, conditions.1.2, conditions.2⟩

theorem eventDebtDecay_due (up : hubOn s = true) (due : beats 1024 ≤ (clock s - s.health.decayAt).toNat) :
    exec .eventDebtDecay s = .next { s with health := { s.health with
      debt := s.health.debt - 1, decayAt := s.health.decayAt + BitVec.ofNat 64 (beats 1024) } } :=
  congrArg Host.Outcome.next (if_pos (by rw [up, decide_eq_true (show beats 1024 ≤ since s s.health.decayAt from due)]; rfl))

theorem eventDebtDecay_early (early : (clock s - s.health.decayAt).toNat < beats 1024) : exec .eventDebtDecay s = .next s :=
  congrArg Host.Outcome.next (if_neg (by
    rw [decide_eq_false (not_le.mpr (show since s s.health.decayAt < beats 1024 from early)), Bool.and_false]
    exact Bool.false_ne_true))

end

end Sys2Proof.Machine
end

section
/-! The verdict of a requalification (13 R315, Table 13.9), and O56. -/

namespace Sys2Proof.Machine

/-! ### What the findings of a run leave: the bytes stored, and the arrays retired -/

/-- The bytes stored and the arrays retired. -/
def stored (s : State) : List Host.Cell × BitVec 64 := (s.mem, s.flash.retired)

section
variable {s t u : State}

theorem stored_of_unposted (h : unposted t = unposted s) : stored t = stored s := (congrArg stored h :)

/-- Nothing stored has changed, and an array retired stays so. -/
structure StoresStay (s t : State) : Prop where
  mem : t.mem = s.mem
  retired : ∀ a, s.flash.retired.getLsbD a = true → t.flash.retired.getLsbD a = true

theorem StoresStay.of_stored (h : stored t = stored s) : StoresStay s t :=
  ⟨congrArg Prod.fst h, fun a ha => (congrArg (fun x : List Host.Cell × BitVec 64 => x.2.getLsbD a) h).trans ha⟩

theorem StoresStay.trans (h : StoresStay s t) (k : StoresStay t u) : StoresStay s u :=
  ⟨k.mem.trans h.mem, fun a ha => k.retired a (h.retired a ha)⟩

theorem StoresStay.foldl {α : Type} {f : State → α → State} (each : ∀ t x, StoresStay t (f t x)) (l : List α) (s : State) :
    StoresStay s (l.foldl f s) := by
  induction l generalizing s with
  | nil => exact ⟨rfl, fun _ h => h⟩
  | cons x l ih => exact (each s x).trans (ih (f s x))

end

section
variable (s : State)

@[simp] theorem stored_sticky (idx sub bit : Nat) : stored (sticky s idx sub bit) = stored s :=
  stored_of_unposted (unposted_sticky s idx sub bit)

@[simp] theorem stored_bump (idx sub n : Nat) : stored (bump s idx sub n) = stored s := rfl
@[simp] theorem stored_dset (idx sub v : Nat) : stored (dset s idx sub v) = stored s := rfl
@[simp] theorem stored_setHbm (d : Nat) (x : Hbm) : stored (s.setHbm d x) = stored s := rfl
@[simp] theorem stored_setTier (d : Nat) (x : Tier) : stored (s.setTier d x) = stored s := rfl
@[simp] theorem stored_setTherm (d : Nat) (x : Therm) : stored (s.setTherm d x) = stored s := rfl
@[simp] theorem stored_setArr (a : Nat) (x : Arr) : stored (s.setArr a x) = stored s := rfl
@[simp] theorem stored_setRc (d : Nat) (x : Rc) : stored (s.setRc d x) = stored s := rfl
@[simp] theorem stored_setCp (d : Nat) (x : Cp) : stored (s.setCp d x) = stored s := rfl
@[simp] theorem stored_setPair (a b : Nat) (x : Pair) : stored (s.setPair a b x) = stored s := rfl
@[simp] theorem stored_setMemRec (d : Nat) (x : MemRec) : stored (s.setMemRec d x) = stored s := rfl
@[simp] theorem stored_markWord (w : Nat) (b : Bool) : stored (markWord s w b) = stored s := rfl
@[simp] theorem stored_saveLanes (a b : Nat) : stored (saveLanes s a b) = stored s := rfl
@[simp] theorem stored_modJob (q : Nat) (i : BitVec 32) (f : Job → Job) : stored (s.modJob q i f) = stored s := rfl
@[simp] theorem stored_finish (q : Nat) (i : BitVec 32) (status : Byte) (detail : Nat) :
    stored (finish s q i status detail) = stored s := rfl
@[simp] theorem stored_d2dReqs (x : List D2dReq) : stored { s with d2dReqs := x } = stored s := rfl

@[simp] theorem stored_memRecordWrite : stored (memRecordWrite s) = stored s := by
  unfold memRecordWrite
  extract_lets f next toA
  unfold stored
  dsimp only
  split <;> rfl

/-! #### Words of HBM and of a tier (07 R160 to R172) -/

@[simp] theorem stored_startRetire (d p : Nat) : stored (startRetire s d p) = stored s := by
  unfold startRetire
  dsimp only
  split
  · rfl
  · split <;> simp

@[simp] theorem stored_triggerRetire (d p : Nat) : stored (triggerRetire s d p) = stored s := by
  unfold triggerRetire
  dsimp only
  split
  · rfl
  · split
    · simp
    · split <;> simp

@[simp] theorem stored_chargeCorrected (d p : Nat) : stored (chargeCorrected s d p) = stored s := by
  unfold chargeCorrected
  dsimp only
  split <;> simp

@[simp] theorem stored_chargeUncorrectable (d p row : Nat) : stored (chargeUncorrectable s d p row) = stored s := by
  unfold chargeUncorrectable
  dsimp only
  split <;> simp

@[simp] theorem stored_onDieCorrected (d p : Nat) : stored (onDieCorrected s d p) = stored s := by
  simp [onDieCorrected]

@[simp] theorem stored_hbmFind (d : Nat) (w : WordFind) : stored (hbmFind s d w) = stored s := by
  unfold hbmFind
  dsimp only
  split
  · simp
  · rw [stored_chargeCorrected, stored_bump]
    split <;> simp
  · split <;> simp

@[simp] theorem stored_writeBack (d : Nat) (l : RcLine) (use : D2dFor) : stored (writeBack s d l use).2 = stored s := by
  have entered (x : List D2dReq) : stored { bump (freshTag s).2 0x8083 (d + 1) 1 with d2dReqs := x } = stored s :=
    (stored_d2dReqs _ x).trans ((stored_bump _ _ _ _).trans (stored_of_unposted (unposted_freshTag s)))
  unfold writeBack
  dsimp only
  split
  · exact (stored_of_unposted (unposted_of_unsent (unsent_sendMsg _ _ _ _))).trans (entered _)
  · split
    · exact (stored_of_unposted (unposted_sendOn _ _ _)).trans (entered _)
    · exact (stored_of_unposted (unposted_fab _ _)).trans (entered _)

@[simp] theorem stored_rcEvict (d : Nat) (v : RcLine) : stored (rcEvict s d v) = stored s := by
  unfold rcEvict
  split
  · exact stored_writeBack s d v _
  · rfl

@[simp] theorem stored_rcLend (d : Nat) : stored (rcLend s d) = stored s := by
  unfold rcLend
  dsimp only
  split <;> simp

@[simp] theorem stored_spareRow (d row : Nat) : stored (spareRow s d row) = stored s := by
  unfold spareRow
  dsimp only
  split
  · rfl
  · split
    · simp
    · split <;> simp

@[simp] theorem stored_spareColumn (d bank : Nat) (rows : List Nat) : stored (spareColumn s d bank rows) = stored s := by
  unfold spareColumn
  dsimp only
  split
  · simp
  · exact foldl_keeps stored (fun t r => stored_spareRow t d r) rows s

@[simp] theorem stored_tierCorrected (d row word bit : Nat) : stored (tierCorrected s d row word bit) = stored s := by
  unfold tierCorrected
  extract_lets t pos finds words inBank rows rowBad colBad left s1 s2
  have spared : stored s2 = stored s := by
    unfold s2
    split
    · exact stored_spareRow s1 d row
    · rfl
  split
  · exact (stored_spareColumn s2 _ _ _).trans spared
  · exact spared

@[simp] theorem stored_tierFind (d : Nat) (w : WordFind) : stored (tierFind s d w) = stored s := by
  unfold tierFind
  dsimp only
  split
  · rfl
  · simp
  · split
    · rfl
    · rw [stored_spareRow, stored_sticky]
      split <;> rfl

@[simp] theorem stored_wordFind (d : Nat) (w : WordFind) : stored (wordFind s d w) = stored s := by
  unfold wordFind
  split
  · split
    · rfl
    · exact stored_tierFind s d w
  · split
    · exact stored_hbmFind s d w
    · rfl

@[simp] theorem stored_readErrs (errs : List ReadErr) : stored (readErrs s errs) = stored s :=
  foldl_keeps stored (fun (t : State) (e : ReadErr) => stored_wordFind t e.die.val e.word) errs s

/-! #### Lanes and the stepped survey (08 R187 to R190; 16 R364) -/

@[simp] theorem stored_reroute (a b : Nat) : stored (reroute s a b) = stored s := by
  have hop (t : State) (m : D2dMsg) : stored (sendHop t a m) = stored t :=
    (stored_of_unposted (unposted_pump _ _ _)).trans rfl
  exact (foldl_keeps stored hop _ _).trans rfl

@[simp] theorem stored_chooseRelay (a b : Nat) : stored (chooseRelay s a b) = stored s := by simp [chooseRelay]

@[simp] theorem stored_relaysAgain : stored (relaysAgain s) = stored s := by
  refine foldl_keeps stored (fun t k => ?_) _ s
  unfold relayAgain
  extract_lets l ok
  split
  · rfl
  · exact stored_chooseRelay t _ _

@[simp] theorem stored_dropLane (a b lane : Nat) : stored (dropLane s a b lane) = stored s := by
  unfold dropLane
  extract_lets p lanes s1 s2
  have dropped : stored s2 = stored s := by
    unfold s2
    split
    · rfl
    · exact stored_sticky s1 _ _ _
  split
  · rw [stored_relaysAgain, stored_chooseRelay, stored_sticky, dropped]
  · exact dropped

@[simp] theorem stored_laneAtTraining (x : Die9 × Die9 × Lam) : stored (laneAtTraining s x) = stored s := by
  unfold laneAtTraining
  dsimp only
  split
  · split <;> simp
  · split <;> simp

@[simp] theorem stored_quadrantOut (d q : Nat) : stored (quadrantOut s d q) = stored s := by
  unfold quadrantOut
  dsimp only
  split <;> simp

@[simp] theorem stored_viaEstimate (d : Nat) (ratios : List Nat) : stored (viaEstimate s d ratios) = stored s := by
  unfold viaEstimate
  split
  · rfl
  · extract_lets limits lost power s1 s2 k s3 x
    have noted : stored s2 = stored s := by
      unfold s2
      split
      · exact stored_sticky s1 _ _ _
      · rfl
    split
    · exact noted
    · split
      · refine (foldl_keeps stored (fun t q => ?_) _ s2).trans noted
        split <;> simp
      · exact noted

@[simp] theorem stored_steppedSurvey (vmin : List Nat) (slackPs : List Int) (ratios : List (List Nat)) :
    stored (steppedSurvey s vmin slackPs ratios) = stored s := by
  refine Eq.trans ?_ (foldl_keeps stored (g := fun (t : State) (d : Nat) =>
    if !domainOn t d then t
    else
      viaEstimate (dset (dset (dset t 0x6042 (d + 1) (ratF32 (vmin.getD d 0) 1)) 0x6040 (d + 1)
        (ratF32 ((nominalMv d : Int) - (vmin.getD d 0 : Nat)) 1)) 0x6041 (d + 1) (ratF32 (slackPs.getD d 0) 1)) d (ratios.getD d []))
    (fun t d => ?_) (List.range 30) s)
  · rfl
  · split <;> simp

@[simp] theorem stored_clearSuspects : stored (clearSuspects s) = stored s :=
  foldl_keeps stored (fun t n => by simp) _ s

@[simp] theorem stored_ghostAllDirty (n : Nat) : stored (ghostAllDirty s n) = stored s := by
  unfold ghostAllDirty
  split <;> rfl

end

/-! ### Arrays (02 R53 to R56; 07 R163) -/

section
variable {s t : State}

/-- An array retired: nothing else stored moves. -/
theorem stored_retireArray (s : State) (a : Nat) :
    stored (retireArray s a) = (s.mem, s.flash.retired ||| BitVec.ofNat 64 (2 ^ a)) := by
  unfold retireArray
  extract_lets tiles flash s1 x s2 s3
  have retired : stored s3 = (s.mem, s.flash.retired ||| BitVec.ofNat 64 (2 ^ a)) := stored_sticky s2 0xA020 1 a
  refine (foldl_keeps stored (fun t e => ?_) tiles s3).trans retired
  extract_lets u
  split
  · split
    · rfl
    · rfl
  · rfl

theorem retireArray_spec (s : State) (a : Nat) :
    StoresStay s (retireArray s a) ∧ (a < 64 → (retireArray s a).flash.retired.getLsbD a = true) := by
  have now := stored_retireArray s a
  have bits (k : Nat) : (retireArray s a).flash.retired.getLsbD k
      = (s.flash.retired.getLsbD k || (decide (k < 64) && decide (a = k))) := by
    rw [show (retireArray s a).flash.retired = _ from congrArg Prod.snd now, BitVec.getLsbD_or, getLsbD_twoPow]
  refine ⟨⟨congrArg Prod.fst now, fun k hk => ?_⟩, fun small => ?_⟩
  · rw [bits, hk, Bool.true_or]
  · rw [bits, decide_eq_true small, decide_eq_true rfl, Bool.and_true, Bool.or_true]

theorem retireArrays_spec (l : List Nat) (s : State) :
    StoresStay s (l.foldl retireArray s) ∧ ∀ a ∈ l, a < 64 → (l.foldl retireArray s).flash.retired.getLsbD a = true := by
  induction l generalizing s with
  | nil => exact ⟨⟨rfl, fun _ h => h⟩, fun a h => absurd h List.not_mem_nil⟩
  | cons b l ih =>
    obtain ⟨stay, own⟩ := retireArray_spec s b
    obtain ⟨stay', later⟩ := ih (retireArray s b)
    refine ⟨stay.trans stay', fun a listed small => ?_⟩
    rcases List.mem_cons.mp listed with rfl | h
    · exact stay'.retired a (own small)
    · exact later a h small

theorem stored_countSpares (s : State) (a : Nat) (feed : Bool) (n : Nat) : stored (countSpares s a feed n) = stored s := by
  unfold countSpares
  dsimp only
  split
  · rfl
  · exact (stored_memRecordWrite _).trans rfl

theorem stored_settleRows (s : State) (a : Nat) : stored (settleRows s a) = stored s := by
  unfold settleRows
  extract_lets x acc feed
  split
  · rfl
  · rw [stored_countSpares, stored_countSpares]
    rfl

theorem failRow_stays (s : State) (a : Nat) (feed : Bool) (r : Nat) : StoresStay s (failRow s a feed r) := by
  unfold failRow
  extract_lets x m out used
  by_cases listed : out.contains r = true
  · rw [if_pos listed]
    exact .of_stored rfl
  · rw [if_neg listed]
    by_cases full : (if feed then 16 else 32) ≤ used
    · rw [if_pos full]
      exact (retireArray_spec s a).1
    · rw [if_neg full]
      exact .of_stored ((stored_settleRows _ a).trans rfl)

theorem poisonTile_stored (s : State) (a c : Nat) (rows : List Nat) : stored (poisonTile s a c rows) = stored s := by
  unfold poisonTile
  dsimp only
  split <;> rfl

theorem bufFind_stays (a c : Nat) (s : State) (e : BufErr) : StoresStay s (bufFind a c s e) := by
  have corrected (bit : Nat) : StoresStay s (bufCorrected s a e bit) := by
    unfold bufCorrected
    extract_lets s0 x finds mine words inCol rows bad left
    exact StoresStay.trans (t := s0.setArr a _) (.of_stored rfl) (StoresStay.foldl (fun t r => failRow_stays t a e.feed r) bad _)
  have failed : StoresStay s (bufFailed s a c e) := by
    unfold bufFailed
    extract_lets x s1
    have poisoned : stored s1 = stored s := by
      unfold s1
      split
      · split
        · exact poisonTile_stored _ _ _ _
        · rfl
      · split
        · exact poisonTile_stored _ _ _ _
        · rfl
    exact StoresStay.trans (.of_stored ((stored_sticky s1 _ _ _).trans poisoned)) (failRow_stays _ a e.feed e.row)
  unfold bufFind
  split
  · exact .of_stored rfl
  · split
    · exact corrected _
    · exact failed

theorem requalBuffers_stays (e : RequalEnv) (s : State) : StoresStay s (requalBuffers e s) := by
  have each (t : State) (x : ArrId × BufErr) : StoresStay t (settleRows (bufFind x.1.val 16 t x.2) x.1.val) :=
    StoresStay.trans (t := bufFind x.1.val 16 t x.2) (bufFind_stays x.1.val 16 t x.2) (.of_stored (stored_settleRows _ x.1.val))
  unfold requalBuffers
  exact StoresStay.foldl each e.buffers s

/-- The arrays in service are those fused in that no retirement took. -/
theorem inService_testBit (s : State) (a : Nat) : (inService s).testBit a = (decide (a < 64) && s.fuses.mask.getLsbD a
    && !(s.flash.retired.getLsbD a || !s.stackMask.getLsbD (a / 8))) := by
  have upTo (n : Nat) : ((List.range n).filter s.fuses.mask.toNat.testBit).foldl (fun v a =>
        if s.flash.retired.getLsbD a || !s.stackMask.getLsbD (a / 8) then v else v + 2 ^ a) 0 < 2 ^ n
      ∧ ∀ k, (((List.range n).filter s.fuses.mask.toNat.testBit).foldl (fun v a =>
        if s.flash.retired.getLsbD a || !s.stackMask.getLsbD (a / 8) then v else v + 2 ^ a) 0).testBit k
          = (decide (k < n) && s.fuses.mask.getLsbD k && !(s.flash.retired.getLsbD k || !s.stackMask.getLsbD (k / 8))) := by
    induction n with
    | zero => exact ⟨Nat.one_pos, fun k => by simp⟩
    | succ n ih =>
      obtain ⟨below, bits⟩ := ih
      rw [List.range_succ, List.filter_append, List.foldl_append]
      generalize ((List.range n).filter s.fuses.mask.toNat.testBit).foldl _ 0 = v at below bits ⊢
      have here : s.fuses.mask.toNat.testBit n = s.fuses.mask.getLsbD n := rfl
      have wide : v < 2 ^ (n + 1) := Nat.lt_of_lt_of_le below (Nat.pow_le_pow_right (by decide) (Nat.le_succ n))
      have out (k : Nat) (no : (s.fuses.mask.getLsbD n && !(s.flash.retired.getLsbD n || !s.stackMask.getLsbD (n / 8))) = false) :
          v.testBit k = (decide (k < n + 1) && s.fuses.mask.getLsbD k
            && !(s.flash.retired.getLsbD k || !s.stackMask.getLsbD (k / 8))) := by
        rw [bits k]
        by_cases same : k = n
        · rw [same, Bool.and_assoc, Bool.and_assoc, no, Bool.and_false, Bool.and_false]
        · rw [decide_eq_decide.mpr (show k < n ↔ k < n + 1 by omega)]
      cases fused : s.fuses.mask.getLsbD n with
      | false =>
        rw [List.filter_cons, here, fused, if_neg Bool.false_ne_true, List.filter_nil]
        exact ⟨wide, fun k => out k (by rw [fused, Bool.false_and])⟩
      | true =>
        rw [List.filter_cons, here, fused, if_pos rfl, List.filter_nil, List.foldl_cons, List.foldl_nil]
        cases gone : (s.flash.retired.getLsbD n || !s.stackMask.getLsbD (n / 8)) with
        | true => exact ⟨wide, fun k => out k (by rw [gone, Bool.not_true, Bool.and_false])⟩
        | false =>
          rw [if_neg Bool.false_ne_true]
          have sum : v + 2 ^ n = 2 ^ n * 1 ||| v := by rw [← Nat.two_pow_add_eq_or_of_lt below 1]; omega
          refine ⟨by rw [Nat.pow_succ]; omega, fun k => ?_⟩
          rw [sum, Nat.mul_one, Nat.testBit_or, Nat.testBit_two_pow, bits k]
          by_cases same : k = n
          · rw [same, decide_eq_true rfl, fused, gone, decide_eq_true (Nat.lt_succ_self n)]
            rfl
          · rw [decide_eq_false (Ne.symm same), Bool.false_or, decide_eq_decide.mpr (show k < n ↔ k < n + 1 by omega)]
  exact (upTo 64).2 a

theorem requalKat_spec (e : RequalEnv) (done : Bool) (s : State) : StoresStay s (requalKat e done s)
    ∧ ∀ a : Fin 64, (inService s).testBit a.val = true → e.katFail.getLsbD a.val = true →
      (requalKat e done s).flash.retired.getLsbD a.val = true := by
  obtain ⟨stay, gone⟩ := retireArrays_spec ((onesBelow 64 (inService s)).filter (fun a => e.katFail.getLsbD a)) s
  have passes (l : List Nat) (t : State) : stored (l.foldl katPassed t) = stored t := foldl_keeps stored (g := katPassed) (fun t a => rfl) l t
  unfold requalKat
  extract_lets live bad t
  have listed (a : Fin 64) (up : (inService s).testBit a.val = true) (fails : e.katFail.getLsbD a.val = true) : a.val ∈ bad :=
    List.mem_filter.mpr ⟨List.mem_filter.mpr ⟨List.mem_range.mpr a.isLt, up⟩, fails⟩
  have kept : StoresStay t (if done then (live.filter (fun a => !bad.contains a)).foldl katPassed t else t) := by
    split
    · exact .of_stored (passes _ t)
    · exact .of_stored rfl
  exact ⟨stay.trans kept, fun a up fails => kept.retired a.val (gone a.val (listed a up fails) a.isLt)⟩

end

/-! ### What the phases find, and what they zero (13 Table 13.9) -/

section
variable {s t u : State}

/-- Cells have at most gone, and an array retired stays so. -/
structure Shrinks (s t : State) : Prop where
  mem : ∀ c, c ∈ t.mem → c ∈ s.mem
  retired : ∀ a, s.flash.retired.getLsbD a = true → t.flash.retired.getLsbD a = true

theorem StoresStay.shrinks (h : StoresStay s t) : Shrinks s t := ⟨fun _ hc => h.mem ▸ hc, h.retired⟩

theorem Shrinks.of_stored (h : stored t = stored s) : Shrinks s t := (StoresStay.of_stored h).shrinks

theorem Shrinks.trans (h : Shrinks s t) (k : Shrinks t u) : Shrinks s u :=
  ⟨fun c hc => h.mem c (k.mem c hc), fun a ha => k.retired a (h.retired a ha)⟩

/-- No cell of a range is written. -/
def Blank (s : State) (lo hi : Nat) : Prop := ∀ c ∈ s.mem, ¬ (lo ≤ c.1 ∧ c.1 < hi)

theorem Blank.shrinks {lo hi : Nat} (blank : Blank s lo hi) (h : Shrinks s t) : Blank t lo hi :=
  fun c hc => blank c (h.mem c hc)

theorem Blank.reads {lo hi k : Nat} (blank : Blank s lo hi) (low : lo ≤ k) (high : k < hi) : readByte s k = 0 := by
  unfold readByte mget
  cases found : mfind s.mem k with
  | none => rfl
  | some v => exact absurd ⟨low, high⟩ (blank _ (mem_of_mfind found))

theorem shrinks_zeroRange (s : State) (lo hi : Nat) : Shrinks s (zeroRange s lo hi) :=
  ⟨fun _ hc => (List.mem_filter.mp hc).1, fun _ h => h⟩

theorem blank_zeroRange (s : State) (lo hi : Nat) : Blank (zeroRange s lo hi) lo hi := by
  intro c hc inside
  have out := (List.mem_filter.mp hc).2
  simp only [Bool.or_eq_true, decide_eq_true_eq] at out
  omega

/-- A pass that zeroes a range of each die listed leaves it blank. -/
theorem zeroPass_spec {f : State → Nat → State} {lo hi : Nat → Nat} (shrink : ∀ t d, Shrinks t (f t d))
    (zero : ∀ t d, Blank (f t d) (lo d) (hi d)) (l : List Nat) (s : State) :
    Shrinks s (l.foldl f s) ∧ ∀ d ∈ l, Blank (l.foldl f s) (lo d) (hi d) := by
  induction l generalizing s with
  | nil => exact ⟨⟨fun _ h => h, fun _ h => h⟩, fun d h => absurd h List.not_mem_nil⟩
  | cons e l ih =>
    obtain ⟨less, done⟩ := ih (f s e)
    refine ⟨(shrink s e).trans less, fun d listed => ?_⟩
    rcases List.mem_cons.mp listed with rfl | later
    · exact (zero s d).shrinks less
    · exact done d later

/-- What the phases find and zero. -/
structure Found (e : RequalEnv) (reached : Nat → Bool) (s u : State) : Prop where
  arrays : ∀ a : Fin 64, (inService s).testBit a.val = true → e.katFail.getLsbD a.val = true →
    u.flash.retired.getLsbD a.val = true
  tiers : reached 2 = true → ∀ d, dieUp s d = true → Blank u (cellKey d 0) (cellKey d 0x18000000)
  hbm : reached 3 = true → s.health.destroy = true → ∀ d, dieUp s d = true →
    Blank u (cellKey d 0x1000000000) (cellKey d 0x2000000000)

theorem Found.stays {e : RequalEnv} {reached : Nat → Bool} (found : Found e reached s t) (h : Shrinks t u) :
    Found e reached s u :=
  ⟨fun a up fails => h.retired _ (found.arrays a up fails), fun r d up => (found.tiers r d up).shrinks h,
    fun r y d up => (found.hbm r y d up).shrinks h⟩

theorem requalFinds_spec (e : RequalEnv) (reached : Nat → Bool) (s : State) : Found e reached s (requalFinds e reached s) := by
  have listed (d : Nat) (up : dieUp s d = true) : d ∈ (List.range 8).filter (dieUp s) := by
    have small := up
    unfold dieUp at small
    simp only [Bool.and_eq_true, decide_eq_true_eq] at small
    exact List.mem_filter.mpr ⟨List.mem_range.mpr small.1.1, up⟩
  unfold requalFinds
  extract_lets tier up s1 s2 s3 s4 s5 s6
  obtain ⟨kat, retired⟩ := requalKat_spec e (reached 1) s
  have first : StoresStay (requalKat e (reached 1) s) s1 :=
    StoresStay.trans (t := readErrs (requalKat e (reached 1) s) (e.words.filter tier)) (.of_stored (stored_readErrs _ _))
      (requalBuffers_stays e _)
  have tierPass := zeroPass_spec (f := fun t d => zeroTier { t with rcs := t.rcs.filter (fun e => e.1 != d) } d)
    (lo := fun d => cellKey d 0) (hi := fun d => cellKey d 0x18000000)
    (fun _ _ => ⟨fun _ hc => (List.mem_filter.mp hc).1, fun _ h => h⟩) (fun t d => blank_zeroRange _ _ _) up s1
  have second : Shrinks s1 s2 ∧ (reached 2 = true → ∀ d ∈ up, Blank s2 (cellKey d 0) (cellKey d 0x18000000)) := by
    unfold s2
    split
    · exact ⟨tierPass.1, fun _ => tierPass.2⟩
    · rename_i out
      exact ⟨.of_stored rfl, fun r => absurd r out⟩
  have third : Shrinks s2 s3 := .of_stored (stored_readErrs _ _)
  have stackPass := zeroPass_spec (f := fun t d => ghostAllDirty (zeroHbm t d) d)
    (lo := fun d => cellKey d 0x1000000000) (hi := fun d => cellKey d 0x2000000000)
    (fun t d => (shrinks_zeroRange t _ _).trans (.of_stored (stored_ghostAllDirty _ _)))
    (fun t d => (blank_zeroRange t _ _).shrinks (.of_stored (stored_ghostAllDirty _ _))) up s3
  have fourth : Shrinks s3 s4 ∧ (reached 3 = true → s.health.destroy = true →
      ∀ d ∈ up, Blank s4 (cellKey d 0x1000000000) (cellKey d 0x2000000000)) := by
    unfold s4
    split
    · exact ⟨stackPass.1, fun _ _ => stackPass.2⟩
    · rename_i out
      exact ⟨.of_stored rfl, fun r y => absurd (by rw [r, y]; rfl) out⟩
  have fifth : stored s5 = stored s4 := foldl_keeps stored stored_laneAtTraining e.laneFail s4
  have sixth : stored s6 = stored s5 := by
    unfold s6
    split
    · exact stored_steppedSurvey s5 _ _ _
    · rfl
  have seventh (t : State) (same : stored t = stored s6) : Shrinks s4 t := .of_stored (same.trans (sixth.trans fifth))
  have done : Found e reached s s4 :=
    ⟨fun a live fails => (second.1.trans (third.trans fourth.1)).retired _ (first.retired _ (retired a live fails)),
      fun r d live => (second.2 r d (listed d live)).shrinks (third.trans fourth.1),
      fun r y d live => fourth.2 r y d (listed d live)⟩
  split
  · exact done.stays (seventh _ (stored_clearSuspects s6))
  · exact done.stays (seventh _ rfl)

end

/-! ### The verdict (13 R315) -/

section
variable {s u : State} {e : RequalEnv}

theorem stored_scoreHealth (s : State) : stored (scoreHealth s) = stored s := rfl

theorem stored_healthEntered (s : State) (v : Nat) : stored (healthEntered s v) = stored s := by
  unfold healthEntered
  exact (stored_of_unposted (unposted_raiseVector _ _)).trans rfl

/-- The run has ended: the debt is what was found. -/
def runEnded (u : State) : State :=
  { u with health := { u.health with running := false, debt := min 1000 u.health.found, found := 0 } }

/-- The run failed: the phase of failure is entered. -/
def verdictFailed (u : State) (phase : Nat) : State :=
  sticky (dset (dset (scoreHealth (runEnded u)) 0x30C2 2 3) 0x30C2 5 phase) 0xA0C0 9 0

/-- The run passed: PROBATION. -/
def verdictPassed (u : State) : State := enterHealth (dset (scoreHealth (runEnded u)) 0x30C2 2 2) 0

/-- The phases that a verdict passed. -/
def phasePassed (e : RequalEnv) (k : Nat) : Bool :=
  match e.failed with
  | some f => decide (k < f.val)
  | none => true

/-- The verdict on what was found. -/
def verdictOf (failed : Option (Fin 9)) (u : State) : State :=
  match failed with
  | none => if 500 ≤ healthScore (scoreHealth (runEnded u)) then verdictPassed u else verdictFailed u 9
  | some f => verdictFailed u (f.val + 1)

theorem requalVerdict_eq (up : loaded s = true) (running : s.health.running = true) :
    requalVerdict e s = verdictOf e.failed (requalFinds e (phasePassed e) s) :=
  if_neg (by rw [up, running]; decide)

/-- What every verdict leaves: the run over, its debt, the score, and what is stored. -/
structure RunOver (u t : State) : Prop where
  running : t.health.running = false
  debt : t.health.debt = min 1000 u.health.found
  score : dcell t 0x30C0 1 = healthScore (scoreHealth (runEnded u))
  stays : stored t = stored u

theorem verdictFailed_spec (u : State) {phase : Nat} (small : phase < 2 ^ 64) : RunOver u (verdictFailed u phase)
    ∧ dcell (verdictFailed u phase) 0x30C2 2 = 3 ∧ dcell (verdictFailed u phase) 0x30C2 5 = phase
    ∧ healthState (verdictFailed u phase) = healthState u := by
  have kept {i k : Nat} (other : i ≠ 0x30C2) (failing : i ≠ 0xA0C0) (lost : i ≠ 0xA0FF) (vectors : i ≠ 0x80D0) (low : k < 256) :
      mfind (verdictFailed u phase).dict (dkey i k) = mfind (scoreHealth (runEnded u)).dict (dkey i k) :=
    (mfind_sticky (by decide) (dkey_apart failing low (by decide)) (dkey_apart lost low (by decide))
      (dkey_apart vectors low (by decide))).trans
      ((mfind_dset_listed (listed_of_small small) (dkey_apart other low (by decide))).trans
        (mfind_dset_listed (by decide) (dkey_apart other low (by decide))))
  have entry (k : Nat) (low : k < 256) : dcell (verdictFailed u phase) 0x30C2 k
      = dcell (dset (dset (scoreHealth (runEnded u)) 0x30C2 2 3) 0x30C2 5 phase) 0x30C2 k :=
    dcell_of_mfind (mfind_sticky (by decide) (dkey_apart (by decide) low (by decide)) (dkey_apart (by decide) low (by decide))
      (dkey_apart (by decide) low (by decide)))
  refine ⟨⟨?_, ?_, ?_, ?_⟩, ?_, ?_, ?_⟩
  · exact congrArg Health.running (healthBooks_sticky _ _ _ _)
  · unfold verdictFailed
    cases set : dbit (dset (dset (scoreHealth (runEnded u)) 0x30C2 2 3) 0x30C2 5 phase) 0xA0C0 9 0 with
    | true =>
      rw [sticky_set set]
      rfl
    | false =>
      rw [sticky_debt set]
      show min 1000 (min 1000 u.health.found + 0) = _
      omega
  · exact (dcell_of_mfind (kept (by decide) (by decide) (by decide) (by decide) (by decide))).trans
      ((dcell_scoreHealth _).trans (healthScore_scoreHealth _).symm)
  · unfold verdictFailed
    rw [stored_sticky, stored_dset, stored_dset, stored_scoreHealth]
    rfl
  · exact (entry 2 (by decide)).trans ((dcell_of_mfind (mfind_dset_listed (listed_of_small small) (by decide))).trans
      (dcell_dset (by decide)))
  · exact (entry 5 (by decide)).trans (dcell_dset (listed_of_small small))
  · have state : healthState (scoreHealth (runEnded u)) = healthState u := healthState_scoreHealth (runEnded u)
    exact (dcell_of_mfind (kept (by decide) (by decide) (by decide) (by decide) (by decide))).trans state

theorem verdictPassed_spec (u : State) : RunOver u (verdictPassed u) ∧ dcell (verdictPassed u) 0x30C2 2 = 2
    ∧ healthState (verdictPassed u) = 0 := by
  have kept {k : Nat} (state : k ≠ dkey 0x30C0 2) (since : k ≠ dkey 0x30C0 7) (vectors : k ≠ dkey 0x80D0 4)
      (failing : k ≠ dkey 0xA0C0 8) (lost : k ≠ dkey 0xA0FF 3) :
      mfind (verdictPassed u).dict k = mfind (dset (scoreHealth (runEnded u)) 0x30C2 2 2).dict k :=
    enterHealth_keeps (by decide) state since vectors failing lost
  have health : (verdictPassed u).health = _ := healthEntered_health (dset (scoreHealth (runEnded u)) 0x30C2 2 2) 0
  refine ⟨⟨?_, ?_, ?_, ?_⟩, ?_, healthState_enterHealth (by decide)⟩
  · rw [health]
    rfl
  · rw [health]
    rfl
  · exact (dcell_of_mfind ((kept (by decide) (by decide) (by decide) (by decide) (by decide)).trans
      (mfind_dset_listed (by decide) (by decide)))).trans ((dcell_scoreHealth _).trans (healthScore_scoreHealth _).symm)
  · exact (stored_healthEntered _ _).trans ((stored_scoreHealth _).trans rfl)
  · exact (dcell_of_mfind (kept (by decide) (by decide) (by decide) (by decide) (by decide))).trans (dcell_dset (by decide))

/-- How a verdict ends the run. -/
theorem verdictOf_spec (failed : Option (Fin 9)) (u : State) : RunOver u (verdictOf failed u)
    ∧ (∀ x, failed = some x → dcell (verdictOf failed u) 0x30C2 2 = 3 ∧ dcell (verdictOf failed u) 0x30C2 5 = x.val + 1
      ∧ healthState (verdictOf failed u) = healthState u)
    ∧ (failed = none → (500 ≤ dcell (verdictOf failed u) 0x30C0 1 ∧ dcell (verdictOf failed u) 0x30C2 2 = 2
        ∧ healthState (verdictOf failed u) = 0)
      ∨ (dcell (verdictOf failed u) 0x30C0 1 < 500 ∧ dcell (verdictOf failed u) 0x30C2 2 = 3
        ∧ dcell (verdictOf failed u) 0x30C2 5 = 9 ∧ healthState (verdictOf failed u) = healthState u)) := by
  cases failed with
  | some f =>
    obtain ⟨ended, result, phase, state⟩ := verdictFailed_spec u (phase := f.val + 1) (by omega)
    refine ⟨ended, fun x same => ?_, fun none => nomatch none⟩
    cases same
    exact ⟨result, phase, state⟩
  | none =>
    by_cases good : 500 ≤ healthScore (scoreHealth (runEnded u))
    · have eq : verdictOf none u = verdictPassed u := if_pos good
      obtain ⟨ended, result, state⟩ := verdictPassed_spec u
      rw [eq]
      exact ⟨ended, fun x same => (nomatch same), fun _ => .inl ⟨ended.score ▸ good, result, state⟩⟩
    · have eq : verdictOf none u = verdictFailed u 9 := if_neg good
      obtain ⟨ended, result, phase, state⟩ := verdictFailed_spec u (phase := 9) (by decide)
      rw [eq]
      exact ⟨ended, fun x same => (nomatch same), fun _ => .inr ⟨ended.score ▸ Nat.lt_of_not_le good, result, phase, state⟩⟩

end

/-- Settles O56: the detector, the join and the evaluation are their rules; what the phases of a run zero and retire stays
so through everything that follows them, and the entries of the verdict stand apart. -/
theorem resilienceAndHealth : Obligations.ResilienceAndHealth := by
  unfold Obligations.ResilienceAndHealth
  refine ⟨?_, ?_, ?_, ?_, ?_, ?_⟩
  · intro s d
    refine ⟨fun unheard => congrArg Host.Outcome.next (neighbourSuspected_unheard unheard), fun p heard =>
      ⟨fun early => congrArg Host.Outcome.next (neighbourSuspected_early heard early), fun up inv silent fresh _ => ?_⟩⟩
    exact ⟨neighbourSuspected d s, rfl, neighbourSuspected_enters inv.dict up heard silent fresh⟩
  · intro s q i g more bytes x r same n small up inv role joins theirs
    have theirs : s.res.theirs.find? (samePair x) = none := theirs
    have run : exec (.shadowRecord bytes) s = .next (shadowTake s x true) := shadowRecord_reads small i g more up
    refine ⟨fun (ours : s.res.ours.find? (samePair x) = none) few few' => run.trans (congrArg Host.Outcome.next (shadowTake_waits role joins theirs ours few few')),
      fun b (ours : s.res.ours.find? (samePair x) = some b) sound listed => ⟨fun equal => ?_, fun other _ => ?_⟩⟩
    · have pairs := (shadowTake_pairs role joins theirs ours).trans (shadowCompare_equal theirs rfl sound equal)
      have limit : dnum (pairCounted s b) 0xC030 4 = dnum s 0xC030 4 :=
        dnum_of_mfind (mfind_dset_listed (Nat.ne_of_lt listed) (by decide))
      have counted : dcell (pairCounted s b) 0xC031 2 = n := dcell_dset (Nat.ne_of_lt listed)
      rw [limit] at pairs
      refine ⟨_, run.trans (congrArg Host.Outcome.next pairs), ?_⟩
      by_cases last : dnum s 0xC030 4 ≤ dcell s 0xC031 2 + 1
      · rw [if_pos last]
        refine ⟨(dcell_of_mfind (mfind_dset_listed (by decide) (by decide))).trans counted, rfl, rfl,
          fun _ => ⟨rfl, dcell_dset (by decide)⟩, fun less => absurd last (not_le.mpr less)⟩
      · rw [if_neg last]
        refine ⟨counted, rfl, rfl, fun h => absurd h last, fun _ => ?_⟩
        exact (dcell_of_mfind (mfind_dset_listed (Nat.ne_of_lt listed) (by decide))).trans joins
    · have pairs := (shadowTake_pairs role joins theirs ours).trans (shadowCompare_unequal theirs rfl sound other)
      exact ⟨_, run.trans (congrArg Host.Outcome.next pairs), shadowFault_records (x := x) (by decide) small (pairTaken s b)⟩
  · intro s score st up h held load inv fresh
    obtain ⟨⟨judged, entered⟩, failing, fails, moves⟩ := healthEvaluation_moves load fresh
    exact ⟨healthEvaluation s, rfl, judged, entered, healthScore_le s, failing,
      fun three low => ⟨(fails three low).1, fun _ => (fails three low).2⟩, moves⟩
  · exact fun s judged => congrArg Host.Outcome.next (healthEvaluation_again judged)
  · intro s h up
    exact ⟨eventDebtDecay_due up, eventDebtDecay_early⟩
  · intro s e past u up running inv
    have found : Found e past s u := requalFinds_spec e past s
    have run : exec (.requalVerdict e) s = .next (verdictOf e.failed u) := congrArg Host.Outcome.next (requalVerdict_eq up running)
    obtain ⟨⟨stop, debt, -, stays⟩, fails, passes⟩ := verdictOf_spec e.failed u
    have final := found.stays (.of_stored stays)
    refine ⟨_, run, stop, debt, fun r d o live low => ?_, fun r y d o live low high => ?_, fun a live kat => ?_, fails, passes⟩
    · exact (final.tiers r d live).reads (by unfold cellKey; omega) (by unfold cellKey; omega)
    · exact (final.hbm r y d live).reads (by unfold cellKey; omega) (by unfold cellKey; omega)
    · rw [inService_testBit, final.arrays a live kat, Bool.true_or, Bool.not_true, Bool.and_false]

end Sys2Proof.Machine
end


section
/-! O58: how a management request comes to its turn, and how it is answered. -/

namespace Sys2Proof.Machine

/-! ### The request buffer (14 R325) -/

section
variable {s t : State} {m : BdpMsg}

theorem Inv.reqBuf (h : Inv s) : mwf 0 0 s.host.reqBuf = true := by
  obtain ⟨-, -, -, -, -, -, -, -, -, -, -, -, -, -, -, -, -, -, buffer, -⟩ := h.parts
  exact buffer

theorem reqBytes_setRequest (inv : Inv s) {bytes : List Byte} (short : bytes.length ≤ 4096) :
    reqBytes (setRequest s bytes) bytes.length = bytes := by
  have all : bytes.take 4096 = bytes := List.take_of_length_le short
  unfold reqBytes setRequest
  rw [all]
  refine List.ext_getElem (by simp) fun i low low' => ?_
  rw [List.getElem_map, List.getElem_range]
  exact (mget_foldl_mput (byteAt bytes) _ inv.reqBuf i (.inl (List.mem_range.mpr low'))).trans (List.getD_eq_getElem _ _ low')

/-! ### A request comes to its turn (15 R331, R335, R338) -/

theorem isBdp_length (h : isBdp m = true) : 16 ≤ m.bytes.length := by
  simp only [isBdp, Bool.and_eq_true, decide_eq_true_eq] at h
  exact h.1.1

theorem inTurn_idle (idle : s.mgmt.store = none) (x : BdpMsg × List HopEntry) : inTurn s x = takeTurn s x :=
  if_neg (by rw [idle]; decide)

/-- GO on the request of the buffer. -/
theorem mbxRun_request {n : Nat} (circuits : List HopEntry) (src : m.src = .mailbox) (len : s.host.reqLen.toNat = n)
    (short : n ≤ 4096) (bytes : m.bytes = reqBytes s n) (sound : isBdp m = true) (load : loaded s = true)
    (rom : romRuns s = false) (free : s.host.mbxBusy = false) (idle : s.mgmt.store = none) :
    mbxRun s circuits = takeTurn { s with host := { s.host with mbxBusy := true } } (m, circuits) := by
  have long : 16 ≤ n := by
    have := isBdp_length sound
    rw [bytes] at this
    simpa [reqBytes] using this
  unfold mbxRun
  extract_lets count taken asked
  have same : asked = m := by
    show ({ src := .mailbox, bytes := reqBytes s (min s.host.reqLen.toNat 4096) } : BdpMsg) = m
    rw [len, Nat.min_eq_left short, ← bytes, ← src]
  have count' : count = n := len
  rw [same, count', if_neg (by rw [free]; decide), if_neg (by rw [rom]; decide), if_neg (by rw [load]; decide),
    if_neg (by omega), if_neg (by rw [sound]; decide)]
  refine inTurn_idle ?_ _
  exact idle

/-- GO with no bytes, or with more than the buffer holds. -/
theorem mbxRun_badLength {n : BitVec 16} (bad : n = 0 ∨ 4096 < n.toNat) (load : loaded s = true) (rom : romRuns s = false)
    (free : s.host.mbxBusy = false) : mbxRun { s with host := { s.host with reqLen := n } } []
      = bump (mbxFinish { s with host := { s.host with reqLen := n } } 1 []) 0x80E0 10 1 := by
  have load' : loaded { s with host := { s.host with reqLen := n } } = true := load
  have rom' : romRuns { s with host := { s.host with reqLen := n } } = false := rom
  unfold mbxRun
  dsimp only
  rw [if_neg (by rw [free]; decide), if_neg (by rw [rom']; decide), if_neg (by rw [load']; decide)]
  exact if_pos (bad.imp_left fun none => by rw [none]; rfl)

theorem udpArrive_known {a : BitVec 128} (circuits : List HopEntry) (load : loaded s = true) (alone : s.mgmt.dadBad = false)
    (known : sourceKnown s m.src = true) (sound : isBdp m = true) (token : second ≤ bucketOf s a)
    (idle : s.mgmt.store = none) :
    udpArrive s a (m, circuits) = takeTurn (takeToken (bump s 0x80E0 1 1) a).2 (m, circuits) := by
  have rate : dnum (bump s 0x80E0 1 1) 0x20E0 7 = dnum s 0x20E0 7 := dnum_of_mfind (mfind_bump_other 1 (by decide))
  have bucket : bucketOf (bump s 0x80E0 1 1) a = bucketOf s a := by
    unfold bucketOf
    rw [rate]
    rfl
  have ok : (takeToken (bump s 0x80E0 1 1) a).1 = true := decide_eq_true (by rw [bucket]; exact token)
  have known' : sourceKnown (bump s 0x80E0 1 1) m.src = true := known
  unfold udpArrive
  rw [if_neg (by rw [load, alone]; decide)]
  dsimp only
  rw [if_neg (by rw [known']; decide), if_neg (by rw [sound]; decide), if_pos ok]
  refine inTurn_idle ?_ _
  exact idle

/-- A request that arrives comes to its turn. -/
theorem submit_arrives (circuits : List HopEntry) (inv : Inv s) (h : Arrives s m t) :
    submit s m circuits = takeTurn t (m, circuits) := by
  obtain ⟨load, sound, idle, path⟩ := h
  unfold submit
  cases src : m.src with
  | mailbox =>
    rw [src] at path
    obtain ⟨free, rom, short, rfl⟩ := path
    have len : (setRequest s m.bytes).host.reqLen.toNat = m.bytes.length := by
      show (BitVec.ofNat 16 m.bytes.length).toNat = _
      rw [BitVec.toNat_ofNat, Nat.mod_eq_of_lt (by omega)]
    exact (if_neg (by rw [free]; decide)).trans
      (mbxRun_request circuits src len short (reqBytes_setRequest inv short).symm sound load rom free idle)
  | udp a =>
    rw [src] at path
    obtain ⟨alone, known, token, rfl⟩ := path
    exact udpArrive_known circuits load alone (by rw [src]; exact known) sound token idle

/-- The management state but for the tokens of the sources. -/
def tokensApart (s : State) : Mgmt := { s.mgmt with buckets := [] }

/-- What the arrival of a request leaves as it was. -/
theorem Arrives.keeps (h : Arrives s m t) : tokensApart t = tokensApart s ∧ clock t = clock s
    ∧ dnum t 0x20E0 8 = dnum s 0x20E0 8 := by
  obtain ⟨-, -, -, path⟩ := h
  cases src : m.src with
  | mailbox =>
    rw [src] at path
    obtain ⟨-, -, -, rfl⟩ := path
    exact ⟨rfl, rfl, rfl⟩
  | udp a =>
    rw [src] at path
    obtain ⟨-, -, -, rfl⟩ := path
    exact ⟨rfl, rfl, dnum_of_mfind (mfind_bump_other (s := s) 1 (by decide))⟩

end

/-! ### The operations of an unsigned request (15 R333, R335) -/

section
variable {s t : State} {m : BdpMsg}

theorem takeTurn_held {c : Cached} (circuits : List HopEntry)
    (found : t.mgmt.cache.find? (fun c => c.src == m.src && c.seq == msgSeq m && c.req == m.bytes) = some c) :
    takeTurn t (m, circuits) = sendReply t m.src (c.reply.set 10 (byteAt c.reply 10 ||| 4)) (byteAt c.reply 11).toNat := by
  unfold takeTurn
  rw [found]

theorem takeTurn_fresh (circuits : List HopEntry) (fresh : Fresh t m) : takeTurn t (m, circuits) = serve t m circuits := by
  unfold takeTurn
  rw [fresh]

theorem serve_malformed (circuits : List HopEntry) (form : formOk m = false) : serve t m circuits = answer t m 13 false [] :=
  if_pos (by rw [form]; rfl)

/-- A request of a good form goes by its operation. -/
theorem serve_formed (circuits : List HopEntry) (form : formOk m = true) {op : Byte} (is : msgOp m = op) :
    serve t m circuits = match op.toNat with
      | 4 => answer (issueNonce t m.src).2 m 0 false (natLe 16 (Config.nonce t.mgmt.draws).toNat ++ natLe 4 (dnum t 0x20E0 8))
      | 2 => withEntryOf t m (fun t e => doWrite t m e circuits)
      | 3 => withEntryOf t m (fun t e =>
          let (r, u) := authorise t m false
          let (name, w) := if e.sub = 0 then freeName u else ([], u)
          if r ≠ 0 then answer u m r false [] else answer w m 0 false (describeBytes e (msgSub m) name))
      | _ => withEntryOf t m (fun t e =>
          let (r, u) := authorise t m false
          if r ≠ 0 then answer u m r false []
          else
            let (v, w) := if e.sub = 0 then (natLe 1 e.dflt, u) else readEntry u e (msgSub m)
            answer w m 0 false (readBody m e v)) := by
  rw [← is]
  exact if_neg (by rw [form]; decide)

theorem withEntryOf_unknown (act : State → Entry → State) (unknown : indexKnown (msgIndex m) = false) :
    withEntryOf t m act = answer t m 1 false [] := if_pos (by rw [unknown]; rfl)

theorem withEntryOf_named {e : Entry} (act : State → Entry → State) (known : indexKnown (msgIndex m) = true)
    (named : namedEntry (msgIndex m) (msgSub m) = some e) : withEntryOf t m act = act t e := by
  unfold withEntryOf
  rw [named]
  exact if_neg (by rw [known]; decide)

theorem withEntryOf_unnamed (act : State → Entry → State) (known : indexKnown (msgIndex m) = true)
    (unnamed : namedEntry (msgIndex m) (msgSub m) = none) : withEntryOf t m act = answer t m 2 false [] := by
  unfold withEntryOf
  rw [unnamed]
  exact if_neg (by rw [known]; decide)

theorem namedEntry_sub {idx sub : Nat} (sub0 : sub ≠ 0) : namedEntry idx sub = entryOf idx sub := if_neg sub0

theorem namedEntry_zero {idx : Nat} (known : indexKnown idx = true) : namedEntry idx 0 = some (subZero idx) :=
  (if_pos rfl).trans (if_pos known)

theorem subZero_sub (idx : Nat) : (subZero idx).sub = 0 := rfl
theorem subZero_dflt (idx : Nat) : (subZero idx).dflt = highestSub idx := by simp only [subZero]

theorem authorise_unsigned (plain : msgSigned m = false) : authorise t m false = (0, t) :=
  (if_neg (by rw [plain]; decide)).trans (if_neg (by decide))

/-- The two operations that name an entry to look at: READ and DESCRIBE. -/
def Looks (m : BdpMsg) : Prop := msgOp m = 1 ∨ msgOp m = 3

section
variable (form : formOk m = true) (circuits : List HopEntry)
include form

theorem serve_nonce (op : msgOp m = 4) : serve t m circuits = answer (issueNonce t m.src).2 m 0 false
    (natLe 16 (Config.nonce t.mgmt.draws).toNat ++ natLe 4 (dnum t 0x20E0 8)) := serve_formed circuits form op

theorem serve_unknown (op : Looks m) (unknown : indexKnown (msgIndex m) = false) :
    serve t m circuits = answer t m 1 false [] := by
  rcases op with op | op <;> exact (serve_formed circuits form op).trans (withEntryOf_unknown _ unknown)

theorem serve_unnamed (op : Looks m) (known : indexKnown (msgIndex m) = true) (sub : msgSub m ≠ 0)
    (none : entryOf (msgIndex m) (msgSub m) = none) : serve t m circuits = answer t m 2 false [] := by
  rcases op with op | op <;>
    exact (serve_formed circuits form op).trans (withEntryOf_unnamed _ known ((namedEntry_sub sub).trans none))

variable (known : indexKnown (msgIndex m) = true) (plain : msgSigned m = false)
include known plain

/-- A READ of an entry: what is read of sub 00 is the entry's own default, the highest sub. -/
theorem serve_readNamed {e : Entry} (op : msgOp m = 1) (named : namedEntry (msgIndex m) (msgSub m) = some e) :
    serve t m circuits
      = if e.sub = 0 then answer t m 0 false (readBody m e (natLe 1 e.dflt))
        else answer (readEntry t e (msgSub m)).2 m 0 false (readBody m e (readEntry t e (msgSub m)).1) := by
  refine (serve_formed circuits form op).trans ((withEntryOf_named _ known named).trans ?_)
  dsimp only
  rw [authorise_unsigned plain]
  refine (if_neg (fun h => h rfl)).trans ?_
  split <;> rfl

theorem serve_read {e : Entry} (op : msgOp m = 1) (sub : msgSub m ≠ 0) (named : entryOf (msgIndex m) (msgSub m) = some e)
    (inner : e.sub ≠ 0) : serve t m circuits
      = answer (readEntry t e (msgSub m)).2 m 0 false (readBody m e (readEntry t e (msgSub m)).1) :=
  (serve_readNamed form circuits known plain op ((namedEntry_sub sub).trans named)).trans (if_neg inner)

theorem serve_readZero (op : msgOp m = 1) (sub : msgSub m = 0) : serve t m circuits
    = answer t m 0 false (readBody m (subZero (msgIndex m)) (natLe 1 (highestSub (msgIndex m)))) := by
  have named : namedEntry (msgIndex m) (msgSub m) = some (subZero (msgIndex m)) := by
    rw [sub]
    exact namedEntry_zero known
  rw [serve_readNamed form circuits known plain op named, if_pos (subZero_sub _), subZero_dflt]

theorem serve_describe {e : Entry} (op : msgOp m = 3) (sub : msgSub m ≠ 0)
    (named : entryOf (msgIndex m) (msgSub m) = some e) (inner : e.sub ≠ 0) :
    serve t m circuits = answer t m 0 false (describeBytes e (msgSub m) []) := by
  refine (serve_formed circuits form op).trans ((withEntryOf_named _ known ((namedEntry_sub sub).trans named)).trans ?_)
  dsimp only
  rw [authorise_unsigned plain, if_neg inner]
  exact if_neg (fun h => h rfl)

end

/-! ### Replies (14 R325; 15 R339) -/

/-- A result other than OK is counted. -/
def resultNoted (s : State) (result : Nat) : State := if result = 0 then s else bump s 0x80E0 5 1

/-- The bytes of a reply; a refused one carries no body. -/
def replyBytes (m : BdpMsg) (result : Nat) (held : Bool) (body : List Byte) : List Byte :=
  let b := if result = 0 then body else []
  bdpHeader (msgOp m) (msgSeq m) b.length (2 + bitAt held 3) result ++ b

theorem resultNoted_host (s : State) (result : Nat) : (resultNoted s result).host = s.host := by
  unfold resultNoted
  split <;> rfl

theorem vectorOpen_resultNoted (s : State) (result v : Nat) : vectorOpen (resultNoted s result) v = vectorOpen s v := by
  unfold resultNoted
  split <;> rfl

theorem answer_mailbox (src : m.src = .mailbox) (result : Nat) (held : Bool) (body : List Byte) :
    answer t m result held body = bump (mbxFinish (resultNoted t result) (if result = 0 then 0 else 3)
      (replyBytes m result held body)) 0x80E0 10 1 := by
  unfold answer cacheReply sendReply
  rw [src]
  rfl

theorem raiseVector_sent {v : Nat} (shown : vectorOpen s v = true) :
    ∃ a d, Output.msix v a d ∈ (raiseVector s v).out := by
  refine ⟨(mget MsixEntry.init s.host.msix v).addr, (mget MsixEntry.init s.host.msix v).data, ?_⟩
  unfold raiseVector
  rw [if_pos shown]
  exact List.mem_append_right _ (List.mem_singleton.mpr rfl)

theorem raiseVector_pends {v : Nat} (shut : vectorOpen s v = false) : mget false (raiseVector s v).host.pba v = true := by
  unfold raiseVector
  rw [if_neg (ne_true_of_eq_false shut)]
  exact mget_mput_new _ _ (by decide)

/-- The registers of a mailbox that has finished. -/
def mbxFilled (s : State) (status : Byte) (response : List Byte) : State :=
  { s with host := { s.host with mbxBusy := false, mbxDone := true, mbxStatus := status, rspBuf := response } }

theorem mbxFinish_eq (s : State) (status : Byte) (response : List Byte) :
    mbxFinish s status response = raiseVector (mbxFilled s status response) s.host.mgmtVector.toNat := rfl

theorem mbxFinish_registers (s : State) (status : Byte) (response : List Byte) :
    (mbxFinish s status response).host.mbxDone = true ∧ (mbxFinish s status response).host.mbxBusy = false
      ∧ (mbxFinish s status response).host.mbxStatus = status ∧ (mbxFinish s status response).host.rspBuf = response := by
  rw [mbxFinish_eq]
  unfold raiseVector
  split <;> exact ⟨rfl, rfl, rfl, rfl⟩

theorem vectorOpen_mbxFilled (s : State) (status : Byte) (response : List Byte) (v : Nat) :
    vectorOpen (mbxFilled s status response) v = vectorOpen s v := rfl

/-! ### Nonces (15 R342) -/

theorem issueNonce_fewer {src : Source} (few : (t.mgmt.nonces.filter (fun n => n.src == src)).length < 4) :
    (issueNonce t src).2.mgmt.nonces = t.mgmt.nonces ++ [{ src := src, value := Config.nonce t.mgmt.draws, at_ := clock t }] := by
  unfold issueNonce
  dsimp only
  rw [if_neg (Nat.not_le_of_lt few)]

/-! ### The flush of the journal (15 R349) -/

/-- An entry of the journal reaches flash. -/
def flushed (t : State) (e : JEntry) : State :=
  { t with flash := { t.flash with journal := mput JEntry.blank t.flash.journal (t.flash.journalCnt % 4096) e,
                                   journalCnt := t.flash.journalCnt + 1 } }

/-- What a run of fewer than a whole journal of entries leaves: each in its place, and elsewhere what stood there. -/
theorem foldl_flushed (l : List JEntry) (t : State) (short : l.length ≤ 4096)
    (wf : mwf JEntry.blank 0 t.flash.journal = true) :
    (l.foldl flushed t).mgmt = t.mgmt ∧ (l.foldl flushed t).flash.journalCnt = t.flash.journalCnt + l.length
      ∧ (∀ k < l.length, mget JEntry.blank (l.foldl flushed t).flash.journal ((t.flash.journalCnt + k) % 4096)
        = l.getD k JEntry.blank)
      ∧ ∀ i, (∀ k < l.length, i ≠ (t.flash.journalCnt + k) % 4096) →
        mget JEntry.blank (l.foldl flushed t).flash.journal i = mget JEntry.blank t.flash.journal i := by
  induction l generalizing t with
  | nil => exact ⟨rfl, rfl, fun k h => absurd h (Nat.not_lt_zero k), fun _ _ => rfl⟩
  | cons e l ih =>
    rw [List.length_cons] at short
    obtain ⟨mgmt, count, placed, others⟩ := ih (flushed t e) (by omega) (mwf_mput e wf (Nat.zero_le _))
    have next : (flushed t e).flash.journalCnt = t.flash.journalCnt + 1 := rfl
    rw [next] at count placed others
    have away (i : Nat) (other : i ≠ t.flash.journalCnt % 4096) :
        mget JEntry.blank (flushed t e).flash.journal i = mget JEntry.blank t.flash.journal i := mget_mput_other e wf other
    refine ⟨mgmt, by rw [List.foldl_cons, count, List.length_cons]; omega, fun k low => ?_, fun i apart => ?_⟩
    · cases k with
      | zero =>
        refine (others _ fun k low => by omega).trans ?_
        exact mget_mput_same e wf
      | succ k =>
        rw [List.length_cons] at low
        rw [show t.flash.journalCnt + (k + 1) = t.flash.journalCnt + 1 + k by omega]
        exact placed k (by omega)
    · refine (others i fun k low => ?_).trans (away i (apart 0 (by rw [List.length_cons]; omega)))
      rw [show t.flash.journalCnt + 1 + k = t.flash.journalCnt + (k + 1) by omega]
      exact apart (k + 1) (by rw [List.length_cons]; omega)

end

/-! ### The drop (15 R336, R337) -/

section
variable {s : State}

theorem plcaStatus_active (node : dnum s 0x20E0 1 ≠ 255) (standing : s.mgmt.fallback = false) : plcaStatus s = 1 := by
  unfold plcaStatus
  rw [if_neg node, standing]
  rfl

theorem plcaCollision_active (attempt : Nat) (up : loaded s = true) (active : plcaStatus s = 1) :
    execPlcaCollision attempt s = .next (if 16 ≤ attempt
      then bump { sticky (bump s 0x80E0 8 1) 0xA030 5 0 with
        mgmt := { (sticky (bump s 0x80E0 8 1) 0xA030 5 0).mgmt with txq := (sticky (bump s 0x80E0 8 1) 0xA030 5 0).mgmt.txq - 1 } }
        0x80E0 9 1
      else sticky (bump s 0x80E0 8 1) 0xA030 5 0) :=
  congrArg Host.Outcome.next (if_pos (by rw [up, active]; rfl))

/-- The management state but for the journal's books. -/
def mgmtApart (s : State) : Mgmt := { s.mgmt with secondAt := 0, inSecond := 0, jwait := [] }

theorem raiseVector_mgmt (s : State) (v : Nat) : (raiseVector s v).mgmt = s.mgmt := by
  unfold raiseVector
  split <;> rfl

theorem mgmtApart_journal (s : State) (idx sub bit : Nat) : mgmtApart (journal s idx sub bit) = mgmtApart s := by
  unfold journal
  extract_lets m fresh used
  split <;> rfl

theorem mgmtApart_sticky (s : State) (idx sub bit : Nat) : mgmtApart (sticky s idx sub bit) = mgmtApart s := by
  unfold sticky
  split
  · rfl
  · unfold mgmtApart raiseError
    rw [raiseVector_mgmt]
    exact mgmtApart_journal (dputBit s idx sub bit true) idx sub bit

theorem echoRequest_heard (a : BitVec 128) (up : loaded s = true) (alone : s.mgmt.dadBad = false) :
    execEchoRequest a s = .next (if sourceKnown s (.udp a) = true
      then (sendFrame (bump s 0x80E0 1 1) (.frame (129 :: addrBytes a))).2 else bump (bump s 0x80E0 1 1) 0x80E0 3 1) :=
  congrArg Host.Outcome.next (if_neg (by rw [up, alone]; decide))

end

/-- Settles O58: a request that arrives comes to its turn, where its reply is held or its operation serves it; the mailbox
ends with its registers set and its vector raised; the drop, the nonces and the flush are their rules. -/
theorem bdpServed : Obligations.BdpServed := by
  unfold Obligations.BdpServed
  refine ⟨?_, ?_, ?_, ?_, ?_, ?_, ?_⟩
  · intro s t m inv arrives
    obtain ⟨same, time, life⟩ := arrives.keeps
    have cache : t.mgmt.cache = s.mgmt.cache := (congrArg Mgmt.cache same :)
    have draws : t.mgmt.draws = s.mgmt.draws := (congrArg Mgmt.draws same :)
    have nonces : t.mgmt.nonces = s.mgmt.nonces := (congrArg Mgmt.nonces same :)
    have turn : submit s m [] = takeTurn t (m, []) := submit_arrives [] inv arrives
    refine ⟨fun c held => congrArg Host.Outcome.next (turn.trans (takeTurn_held [] (by rw [cache]; exact held))), fun fresh => ?_, ?_⟩
    · have fresh : Fresh t m := by
        unfold Fresh
        rw [cache]
        exact fresh
      have serves {u : State} (h : serve t m [] = u) : Host.Outcome.next (submit s m []) = (.next u : Host.Outcome State Fault Refusal) :=
        congrArg Host.Outcome.next (turn.trans ((takeTurn_fresh [] fresh).trans h))
      refine ⟨fun form => ?_, fun form plain => ⟨fun op => ?_, fun op c either => ?_⟩⟩
      · have bad := serves (serve_malformed [] form)
        exact ⟨bad, bad, bad⟩
      · have answered := serve_nonce (t := t) form [] op
        rw [draws, life] at answered
        exact serves answered
      · have row : exec c s = .next (submit s m []) := by
          rcases either with rfl | rfl <;> rfl
        rw [row]
        exact ⟨fun unknown => serves (serve_unknown form [] op unknown),
          fun known sub none => serves (serve_unnamed form [] op known sub none),
          fun e known sub named inner => ⟨fun read => serves (serve_read form [] known plain read sub named inner),
            fun describe => serves (serve_describe form [] known plain describe sub named inner)⟩,
          fun known sub read => serves (serve_readZero form [] known plain read sub)⟩
    · rcases Nat.lt_or_ge (s.mgmt.nonces.filter (fun n => n.src == m.src)).length 4 with few | full
      · right
        rw [issueNonce_fewer (by rw [nonces]; exact few), nonces, draws, time]
      · exact .inl full
  · intro t m result held body src b u
    have finished : u = bump (mbxFinish (resultNoted t result) (if result = 0 then 0 else 3) (replyBytes m result held body))
        0x80E0 10 1 := answer_mailbox src result held body
    obtain ⟨done, free, status, response⟩ := mbxFinish_registers (resultNoted t result) (if result = 0 then 0 else 3)
      (replyBytes m result held body)
    have raised : mbxFinish (resultNoted t result) (if result = 0 then 0 else 3) (replyBytes m result held body)
        = raiseVector (mbxFilled (resultNoted t result) (if result = 0 then 0 else 3) (replyBytes m result held body))
          t.host.mgmtVector.toNat := by
      rw [mbxFinish_eq, resultNoted_host]
    have shown (v : Nat) : vectorOpen (mbxFilled (resultNoted t result) (if result = 0 then 0 else 3)
        (replyBytes m result held body)) v = vectorOpen t v :=
      (vectorOpen_mbxFilled _ _ _ v).trans (vectorOpen_resultNoted t result v)
    rw [finished]
    refine ⟨done, free, status, response, fun isOpen => ?_, fun shut => ?_⟩
    · obtain ⟨a, d, sent⟩ := raiseVector_sent ((shown _).trans isOpen)
      rw [raised]
      exact ⟨a, d, sent⟩
    · rw [raised]
      exact raiseVector_pends ((shown _).trans shut)
  · intro s n on
    have row : exec (.mbxGo n) s
        = .next (mbxRun (if s.host.mbxBusy then s else { s with host := { s.host with reqLen := n } }) []) :=
      congrArg Host.Outcome.next (if_neg (by rw [on]; decide))
    refine ⟨fun busy => ?_, fun load rom free bad => ?_, fun m src bytes short sound load rom free idle => ?_⟩
    · rw [row, if_pos busy]
      exact congrArg Host.Outcome.next (if_pos busy)
    · rw [row, if_neg (by rw [free]; decide)]
      exact ⟨_, congrArg Host.Outcome.next (mbxRun_badLength bad load rom free), (mbxFinish_registers _ 1 []).1,
        (mbxFinish_registers _ 1 []).2.2⟩
    · rw [row, if_neg (by rw [free]; decide)]
      exact congrArg Host.Outcome.next (mbxRun_request [] src rfl short bytes sound load rom free idle)
  · intro s
    exact ⟨_, rfl, rfl, fun n => List.mem_filter.trans (and_congr_right fun _ => decide_eq_true_iff)⟩
  · intro s n up
    refine ⟨congrArg Host.Outcome.next (if_pos up), fun node standing => ?_⟩
    have active := plcaStatus_active node standing
    refine ⟨fun other => congrArg Host.Outcome.next (if_pos ?_), fun few => ?_, fun many => ?_⟩
    · rw [up, active]
      simpa using other
    · exact (plcaCollision_active n up active).trans (congrArg Host.Outcome.next (if_neg (Nat.not_le_of_lt few)))
    · refine ⟨_, (plcaCollision_active n up active).trans (congrArg Host.Outcome.next (if_pos many)), ?_, rfl⟩
      have queue : (sticky (bump s 0x80E0 8 1) 0xA030 5 0).mgmt.txq = s.mgmt.txq :=
        (congrArg Mgmt.txq (mgmtApart_sticky (bump s 0x80E0 8 1) 0xA030 5 0) :)
      exact congrArg (· - 1) queue
  · intro s a up alone
    have echo := echoRequest_heard a up alone
    refine ⟨fun known => echo.trans (congrArg Host.Outcome.next (if_pos known)),
      fun unknown => echo.trans (congrArg Host.Outcome.next (if_neg (ne_true_of_eq_false unknown))), fun own => ?_, fun other => ?_, ?_, ?_⟩
    · exact congrArg Host.Outcome.next (if_pos (by rw [up, alone, own]; simp))
    · exact congrArg Host.Outcome.next (if_neg (by simp [other]))
    · exact congrArg Host.Outcome.next (if_neg (by rw [up]; decide))
    · exact congrArg Host.Outcome.next (if_neg (by rw [up]; decide))
  · intro s up wf
    have few : (s.mgmt.jwait.take 64).length = min 64 s.mgmt.jwait.length := List.length_take
    obtain ⟨mgmt, count, placed, -⟩ := foldl_flushed (s.mgmt.jwait.take 64)
      { s with mgmt := { s.mgmt with jwait := s.mgmt.jwait.drop 64 } } (by rw [few]; omega) wf
    refine ⟨_, congrArg Host.Outcome.next (if_pos up), congrArg Mgmt.jwait mgmt, ?_, fun k low => ?_⟩
    · rw [few] at count
      exact count
    · have read := placed k (by rw [few]; exact low)
      refine read.trans ?_
      rw [List.getD_eq_getElem?_getD, List.getElem?_take, if_pos (by omega), ← List.getD_eq_getElem?_getD]

end Sys2Proof.Machine
end


section
/-! O59: the writes of dictionary entries, from their frame to their effect (15 R331, R335, R346). -/

namespace Sys2Proof.Machine

/-! ### The frame of a WRITE (15 R332, R333) -/

/-- The type's code of an entry, 0 where there is none. -/
def entryCode (idx sub : Nat) : Nat := ((entryOf idx sub).map (fun e => tyCode e.ty)).getD 0

/-- The body of a WRITE. -/
def writeFrame (idx sub : Nat) (v : List Byte) : List Byte := natLe 2 idx ++ natLe 1 sub ++ natLe 1 (entryCode idx sub) ++ v

section
variable (w : WriteCtx) {idx sub : Nat} {v : List Byte}

theorem writeOf_eq (idx sub : Nat) (v : List Byte) :
    writeOf w idx sub v = bdpRequest w.src 2 w.seq (writeFrame idx sub v) w.trailer := rfl

theorem writeFrame_length (idx sub : Nat) (v : List Byte) : (writeFrame idx sub v).length = 4 + v.length := by
  simp [writeFrame]
  omega

theorem msgOp_writeOf (idx sub : Nat) (v : List Byte) : msgOp (writeOf w idx sub v) = 2 :=
  msgOp_of_header (bdpRequest_bytes w.src 2 w.seq (writeFrame idx sub v) w.trailer)

section
variable (short : v.length < 4096)
include short

theorem msgBody_writeOf : msgBody (writeOf w idx sub v) = writeFrame idx sub v :=
  msgBody_bdpRequest (body := writeFrame idx sub v) w.src 2 w.seq w.trailer (by rw [writeFrame_length]; omega)

theorem msgValue_writeOf : msgValue (writeOf w idx sub v) = v := by
  unfold msgValue
  rw [msgBody_writeOf w short]
  simp [writeFrame, natLe]

theorem msgLen_writeOf : msgLen (writeOf w idx sub v) = 4 + v.length := by
  rw [← writeFrame_length idx sub v]
  exact msgLen_of_header (bdpRequest_bytes w.src 2 w.seq (writeFrame idx sub v) w.trailer) (by rw [writeFrame_length]; omega)

end

/-- The bytes of a WRITE: its header, its entry, its value and its trailer. -/
theorem writeOf_bytes (idx sub : Nat) (v : List Byte) : (writeOf w idx sub v).bytes
    = bdpHeader 2 w.seq (4 + v.length) w.trailer.isSome.toNat 0 ++ (writeFrame idx sub v ++ trailerTail w.trailer) := by
  rw [writeOf_eq, bdpRequest_bytes, writeFrame_length]

theorem msgIndex_writeOf (wide : idx < 65536) : msgIndex (writeOf w idx sub v) = idx := by
  have field : slice (writeOf w idx sub v).bytes 16 2 = natLe 2 idx := by
    simp [writeOf_bytes, bdpHeader, writeFrame, natLe, slice]
  rw [msgIndex, field, leNat_natLe_of_lt wide]

theorem msgSub_writeOf (wide : sub < 256) : msgSub (writeOf w idx sub v) = sub := by
  have field : byteAt (writeOf w idx sub v).bytes 18 = BitVec.ofNat 8 sub := by
    simp [writeOf_bytes, bdpHeader, writeFrame, natLe, byteAt]
  rw [msgSub, field, BitVec.toNat_ofNat, Nat.mod_eq_of_lt wide]

theorem tyCode_lt (ty : EType) : tyCode ty < 256 := by cases ty <;> decide

theorem msgType_writeOf {e : Entry} (named : entryOf idx sub = some e) : msgType (writeOf w idx sub v) = tyCode e.ty := by
  have code : entryCode idx sub = tyCode e.ty := by
    rw [entryCode, named]
    rfl
  have field : byteAt (writeOf w idx sub v).bytes 19 = BitVec.ofNat 8 (entryCode idx sub) := by
    simp [writeOf_bytes, bdpHeader, writeFrame, natLe, byteAt]
  rw [msgType, field, code, BitVec.toNat_ofNat, Nat.mod_eq_of_lt (tyCode_lt e.ty)]

/-- A WRITE is of a good form. -/
theorem formOk_writeOf (short : v.length < 4096) (sig : ∀ x, w.trailer = some x → x.sig.length = 64) :
    formOk (writeOf w idx sub v) = true := by
  have reserved : slice (writeOf w idx sub v).bytes 12 4 = natLe 4 0 := by
    simp [writeOf_bytes, bdpHeader, natLe, slice]
  have result : byteAt (writeOf w idx sub v).bytes 11 = 0 := by simp [writeOf_bytes, bdpHeader, natLe, byteAt]
  have flags : msgFlags (writeOf w idx sub v) = BitVec.ofNat 8 w.trailer.isSome.toNat := msgFlags_of_header (writeOf_bytes w idx sub v)
  have few : (msgFlags (writeOf w idx sub v)).toNat < 16 := by
    rw [flags]
    cases w.trailer.isSome <;> decide
  have whole : (writeOf w idx sub v).bytes.length = 16 + (4 + v.length) + (if w.trailer.isSome then 88 else 0) := by
    rw [writeOf_eq, bdpRequest_length w.src 2 w.seq w.trailer sig, writeFrame_length]
  have signed : msgSigned (writeOf w idx sub v) = w.trailer.isSome := msgSigned_bdpRequest w.src 2 w.seq w.trailer
  unfold formOk
  dsimp only
  rw [reserved, result, msgLen_writeOf w short, whole, signed, msgOp_writeOf, decide_eq_true few]
  simp [leNat, natLe]

end

/-! ### A WRITE that passes its checks (15 R335, R346) -/

theorem entryOf_index {idx sub : Nat} {e : Entry} (named : entryOf idx sub = some e) : e.index = idx := by
  have found := List.find?_some named
  simp only [Bool.and_eq_true, beq_iff_eq] at found
  exact found.1

/-- The checks that an accepted write passes. -/
structure Accepted (t u : State) (m : BdpMsg) (e : Entry) (sub : Nat) (v : List Byte) : Prop where
  writable : e.acc ≠ .ro
  loader : e.acc ≠ .rwl
  plain : e.acc ≠ .w1c
  authorised : authorise t m (needsSignature t m.src e.acc) = (0, u)
  length : lengthOk e v = true
  range : inRange e v = true
  value : valueOk u e sub v = true
  state : stateOk u e sub v = true

/-- A persistent entry's write waits for the store. -/
def storeBegun (u : State) (m : BdpMsg) (e : Entry) (sub : Nat) (v : List Byte) : State :=
  { u with mgmt := { u.mgmt with
    store := some { msg := m, key := dkey e.index sub, value := normalised u e sub v, again := false, silent := false } } }

section
variable {t u : State} {w : WriteCtx} {idx sub : Nat} {v : List Byte} {e : Entry} (circuits : List HopEntry)
variable (named : entryOf idx sub = some e) (sub0 : sub ≠ 0) (narrow : sub < 256) (short : v.length < 4096)
variable (checks : Accepted t u (writeOf w idx sub v) e sub v)
include named sub0 narrow short checks

theorem doWrite_accepted : doWrite t (writeOf w idx sub v) e circuits = acceptWrite u (writeOf w idx sub v) e circuits := by
  obtain ⟨writable, loader, plain, authorised, length, range, value, state⟩ := checks
  unfold doWrite
  dsimp only
  rw [msgSub_writeOf w narrow, msgValue_writeOf w short, authorised, msgType_writeOf w named,
    if_neg (by simp [sub0, writable]), if_neg (by simp [loader])]
  dsimp only
  rw [if_neg (by simp), if_neg (by simp [length]), if_neg (by simp [range, value]), if_neg (by simp [state])]

variable (known : indexKnown idx = true) (wide : idx < 65536) (sig : ∀ x, w.trailer = some x → x.sig.length = 64)
include known wide sig

theorem serve_write : serve t (writeOf w idx sub v) circuits = acceptWrite u (writeOf w idx sub v) e circuits := by
  have names : namedEntry (msgIndex (writeOf w idx sub v)) (msgSub (writeOf w idx sub v)) = some e := by
    rw [msgIndex_writeOf w wide, msgSub_writeOf w narrow, namedEntry_sub sub0, named]
  refine (serve_formed circuits (formOk_writeOf w short sig) (msgOp_writeOf w idx sub v)).trans ?_
  refine (withEntryOf_named _ (by rw [msgIndex_writeOf w wide, known]) names).trans ?_
  exact doWrite_accepted circuits named sub0 narrow short checks

end

section
variable {u : State} {w : WriteCtx} {idx sub : Nat} {v : List Byte} {e : Entry} (circuits : List HopEntry)
variable (narrow : sub < 256) (short : v.length < 4096)
include narrow short

theorem acceptWrite_persistent (keep : e.keep = true) : acceptWrite u (writeOf w idx sub v) e circuits
    = storeBegun u (writeOf w idx sub v) e sub v := by
  unfold acceptWrite
  rw [msgSub_writeOf w narrow, msgValue_writeOf w short]
  exact if_pos keep

theorem acceptWrite_atOnce (named : entryOf idx sub = some e) (keep : e.keep = false) (other : (idx, sub) ≠ (0x7006, 2)) :
    acceptWrite u (writeOf w idx sub v) e circuits = answer (applyWrite u e sub (normalised u e sub v) circuits)
      (writeOf w idx sub v) 0 (heldWrite u idx sub) (writeBody (writeOf w idx sub v)) := by
  have asked : ¬ (idx = 0x7006 ∧ sub = 2) := fun h => other (by rw [h.1, h.2])
  unfold acceptWrite
  rw [msgSub_writeOf w narrow, msgValue_writeOf w short, entryOf_index named]
  exact (if_neg (by rw [keep]; decide)).trans (if_neg asked)

end

/-! ### What an accepted write does, by its entry -/

/-- The entries of this statement whose writes have an effect of their own; none of their indices holds sticky bits. -/
def effectIndices : List Nat := [0xC000, 0xC001, 0xC020, 0xC002, 0x30C2, 0x7002, 0x7005, 0x9001, 0x40A0, 0x5000, 0x9000]

theorem plain_of_named {idx sub : Nat} {e : Entry} (named : entryOf idx sub = some e) (listed : idx ∈ effectIndices) :
    e.acc ≠ .w1c := by
  have table : dictTable.all (fun e => !effectIndices.contains e.index || e.acc != .w1c) = true := by decide +kernel
  have here := List.all_eq_true.mp table e (List.mem_of_find?_eq_some named)
  rw [entryOf_index named, List.contains_iff_mem.mpr listed] at here
  simpa using here

theorem applyWrite_plain {u : State} {e : Entry} (sub : Nat) (v : List Byte) (circuits : List HopEntry) (plain : e.acc ≠ .w1c) :
    applyWrite u e sub v circuits = applyWrite u { e with acc := .rw } sub v circuits := by
  unfold applyWrite
  rw [if_neg plain]
  rfl

/-- A write of such an entry goes by its index. -/
theorem applyWrite_named {u : State} {idx sub : Nat} {e : Entry} (v : List Byte) (circuits : List HopEntry)
    (named : entryOf idx sub = some e) (listed : idx ∈ effectIndices) :
    applyWrite u e sub v circuits = applyWrite u { e with index := idx, acc := .rw } sub v circuits := by
  have here : idx = e.index := (entryOf_index named).symm
  subst here
  exact applyWrite_plain sub v circuits (plain_of_named named listed)

/-! ### The epoch, the fences and the admission (13 R295 to R297, R311) -/

theorem hosted_of_unposted {s t : State} (h : unposted t = unposted s) : hosted t = hosted s :=
  (congrArg hosted h :)

section
variable (s : State)

theorem hosted_sticky (idx sub bit : Nat) : hosted (sticky s idx sub bit) = hosted s :=
  hosted_of_unposted (unposted_sticky s idx sub bit)

theorem hosted_dealColl (k mask : Nat) (p : Packet) : hosted (dealColl s k mask p).2 = hosted s := by
  unfold dealColl
  split
  · rfl
  · refine (hosted_of_unposted (unposted_leaveOn _ _ _ _)).trans ?_
    dsimp only
    split <;> rfl

theorem hosted_collSend (c : Coll) (p : Packet) : hosted (collSend s c p).2 = hosted s := by
  unfold collSend
  split
  · rfl
  · exact hosted_dealColl _ _ _ _

theorem hosted_returnFrees (p : Packet) : hosted (returnFrees p s) = hosted s := by
  have told (port n : Nat) : ∀ t : State, hosted (tellPort port n t) = hosted t := by
    induction n with
    | zero => exact fun _ => rfl
    | succ n ih =>
      intro t
      unfold tellPort
      split
      · exact (ih _).trans (hosted_of_unposted (unposted_leaveFlit _ _ _ _ _))
      · rfl
  unfold returnFrees
  split
  · rfl
  · exact told _ _ s

theorem hosted_releasePacket (p : Packet) : hosted (releasePacket s p) = hosted s := by
  unfold releasePacket
  split
  · rfl
  · split
    · rfl
    · exact hosted_of_unposted (unposted_of_unsent (unsent_tellFrees _ _ _ 7))

theorem hosted_undefineElems (l : List Word) (r : Nat × Nat) : hosted (undefineElems s l r) = hosted s :=
  hosted_storeBytes s _ _ _

theorem hosted_closeColl (c : Coll) {status : Byte} (failed : status ≠ 0) (detail : Nat) :
    hosted (closeColl s c status detail) = hosted s := by
  unfold closeColl
  extract_lets e stale s0 s1 s2 s3
  have h0 : hosted s0 = hosted s :=
    (foldl_keeps hosted (fun t r => hosted_undefineElems t c.words r) _ _).trans
      (foldl_keeps hosted (fun t p => (hosted_returnFrees _ p).trans (hosted_releasePacket t p)) _ s)
  have h1 : hosted s1 = hosted s := by
    refine Eq.trans ?_ h0
    unfold s1 collRelease
    dsimp only
    split <;> rfl
  have h2 : hosted s2 = hosted s := by
    refine Eq.trans ?_ h1
    unfold s2
    split <;> rfl
  have h3 : hosted s3 = hosted s := by
    refine Eq.trans ?_ h2
    unfold s3
    rw [if_neg failed]
    split <;> rfl
  rw [if_neg failed]
  exact h3

theorem hosted_collEpochAbort (epoch : Nat) : hosted (collEpochAbort s epoch) = hosted s := by
  refine foldl_keeps hosted (fun t c => ?_) _ s
  unfold abortColl
  refine (hosted_closeColl _ c (by decide) _).trans ?_
  exact (foldl_keeps hosted (fun u n => hosted_collSend u c _) _ _).trans (hosted_sticky t _ _ _)

end

theorem takeAdmission_unfenced (s : State) (n : Nat) : (takeAdmission s n).res.fenced = false :=
  (congrArg Prod.snd (hosted_collEpochAbort (dset (dset (dset { s with res := { s.res with fenced := false } } 0xC000 2 0)
    0xC030 1 0) 0xC000 1 n) n) :)

/-- A fence of a coordinate. -/
theorem isFenced_of_entry {s : State} (k : Fin 64) {n : Nat} (entry : dcell s 0xC001 (k.val + 1) = n) (on : n.testBit 31 = true) :
    isFenced s (BitVec.ofNat 18 n) = true := by
  refine List.any_eq_true.mpr ⟨k.val, List.mem_range.mpr k.isLt, ?_⟩
  dsimp only
  rw [entry, on]
  simp [bitsOf]

/-- An entry that each step of a fold leaves, the fold leaves. -/
theorem mfind_foldl {f : State → Nat → State} {l : List Nat} {k : Nat}
    (each : ∀ n ∈ l, ∀ t, mfind (f t n).dict k = mfind t.dict k) (s : State) :
    mfind (l.foldl f s).dict k = mfind s.dict k := by
  induction l generalizing s with
  | nil => rfl
  | cons n l ih => exact (ih (fun m h => each m (List.mem_cons_of_mem n h)) _).trans (each n List.mem_cons_self s)

/-- A hosted stack gives up the epoch that comes in, or that it applies. -/
def stackDiscarded (t : State) (n : Nat) : State :=
  let v := mget 0 t.res.hostState n
  if v = 3 then { t with res := { t.res with hostState := mput 0 t.res.hostState n 2 } }
  else if v = 4 then sticky { t with res := { t.res with hostState := mput 0 t.res.hostState n 6 } } 0xA0C0 6 n
  else t

section
variable {s : State} {k : Nat} (own : k ≠ dkey 0xA0C0 6) (lost : k ≠ dkey 0xA0FF 3) (vectors : k ≠ dkey 0x80D0 4)
include own lost vectors

theorem mfind_stackDiscarded (t : State) (n : Nat) (small : n < 65) : mfind (stackDiscarded t n).dict k = mfind t.dict k := by
  unfold stackDiscarded
  extract_lets v
  split
  · rfl
  · split
    · exact mfind_sticky (s := { t with res := { t.res with hostState := mput 0 t.res.hostState n 6 } }) small own lost vectors
    · rfl

theorem mfind_hostDiscard : mfind (hostDiscard s).dict k = mfind s.dict k := by
  unfold hostDiscard
  extract_lets s1
  have first : mfind s1.dict k = mfind s.dict k :=
    mfind_foldl (fun n small t => mfind_stackDiscarded own lost vectors t n (by have := List.mem_range.mp small; omega)) s
  clear_value s1
  split <;> exact first

end

theorem dcell_fenceEntry {s : State} (k : Fin 64) {n : Nat} (small : n < 2 ^ 32) :
    dcell (fenceEntry s k.val n) 0xC001 (k.val + 1) = n := by
  have listed : n ≠ dictAbsent := by unfold dictAbsent; omega
  have low : k.val + 1 < 256 := by omega
  have apart {i j : Nat} (other : 0xC001 ≠ i) (narrow : j < 256) : dkey 0xC001 (k.val + 1) ≠ dkey i j := dkey_apart other low narrow
  have entry : dcell (dset s 0xC001 (k.val + 1) n) 0xC001 (k.val + 1) = n := dcell_dset listed
  have event (t : State) : mfind (sticky t 0xA0C0 11 0).dict (dkey 0xC001 (k.val + 1)) = mfind t.dict (dkey 0xC001 (k.val + 1)) :=
    mfind_sticky (by decide) (apart (by decide) (by decide)) (apart (by decide) (by decide)) (apart (by decide) (by decide))
  unfold fenceEntry
  extract_lets t c t1
  have first : mfind t1.dict (dkey 0xC001 (k.val + 1)) = mfind t.dict (dkey 0xC001 (k.val + 1)) := by
    unfold t1
    split
    · exact mfind_hostDiscard (apart (by decide) (by decide)) (apart (by decide) (by decide)) (apart (by decide) (by decide))
    · rfl
  split
  · exact entry
  · split
    · exact (dcell_of_mfind ((event t1).trans first)).trans entry
    · exact (dcell_of_mfind first).trans entry

/-! ### The ghost's commands (13 R303, R309) -/

/-- A mode other than off, written while it is off. -/
theorem ghostMode_starts {s : State} {v : Nat} (off : s.res.mode = 0) (on : v ≠ 0) : (ghostMode s v).res.mode = v := by
  unfold ghostMode
  extract_lets r t next src t1
  rw [if_neg on, if_neg (by rw [show r.mode = 0 from off]; decide)]
  have mode : t1.res.mode = v := rfl
  clear_value t1
  split
  · exact (congrArg Resil.mode (res_of_unposted (unposted_sticky t1 _ _ _))).trans mode
  · obtain ⟨books, -⟩ := ghostPut_sent t1 0 (dcell t1 0xC020 3) 0 (recordOf (helloRecord t1)) [] 0
    rw [books]
    exact mode

theorem unposted_pullBlock (s : State) (i : Nat) : unposted (pullBlock s i) = unposted s := by
  unfold pullBlock
  extract_lets n dst key
  refine foldl_keeps unposted (fun t p => ?_) _ s
  dsimp only
  split
  · exact unposted_request _ _ _ _ _ _ _
  · rfl

theorem ghostRollback_books (s : State) : (ghostRollback s).res
    = { s.res with openSet := [], closing := [], unacked := [], staged := [], owner := 0 } :=
  res_of_unposted (foldl_keeps unposted unposted_pullBlock _ _)

/-! ### The requalification, the image, dark-through and the coordinate (13 R315, 17 R375, 09 R201, R229) -/

theorem dcell_requalStart (s : State) (v : Nat) : dcell (requalStart s v) 0x30C2 2 = 1 := dcell_dset (by decide)

theorem fwUpdate_raises (s : State) : (fwUpdate s 2).fuses.svn.toNat = max s.fuses.svn.toNat s.boot.imageSvn.toNat := by
  show (if s.fuses.svn < s.boot.imageSvn then s.boot.imageSvn else s.fuses.svn).toNat = _
  split
  · rename_i less
    have less : s.fuses.svn.toNat < s.boot.imageSvn.toNat := less
    omega
  · rename_i least
    have least : ¬ s.fuses.svn.toNat < s.boot.imageSvn.toNat := least
    omega

theorem darkRelease_released (s : State) (circuits : List HopEntry) : (darkRelease s circuits).fab.released = true := by
  unfold darkRelease
  split
  · assumption
  · extract_lets straight src s1
    have taken (t : State) (h : HopEntry) :
        (takeLanes t h.outPort.val (BitVec.ofNat 16 (2 ^ h.lane.val))).fab.released = t.fab.released := rfl
    exact foldl_keeps (fun t : State => t.fab.released) taken straight s1

theorem putStored_tier (s : State) (e : Entry) (sub : Nat) (v : List Byte) (d : Nat) : (putStored s e sub v).tier d = s.tier d := by
  unfold putStored
  split <;> rfl

theorem putStored_named {s : State} {e : Entry} {idx sub : Nat} (v : List Byte) (named : entryOf idx sub = some e) :
    putStored s { e with index := idx, acc := .rw } sub v = putStored s e sub v := by
  have here : idx = e.index := (entryOf_index named).symm
  subst here
  rfl

theorem dnum_dset {s : State} {idx sub n : Nat} (listed : n ≠ dictAbsent) : dnum (dset s idx sub n) idx sub = n := by
  unfold dnum
  rw [show mfind (dset s idx sub n).dict (dkey idx sub) = some n from mfind_mput_new s.dict _ listed]
  rfl

theorem putStored_number {s : State} {e : Entry} (sub : Nat) (v : List Byte) (number : isNumeric e = true) :
    putStored s e sub v = dset s e.index sub (leNat v) := if_pos number

/-! ### The effect of each entry's write -/

section
variable {u : State} {e : Entry} {n : Nat} {v : List Byte} (circuits : List HopEntry)

theorem written_epoch (named : entryOf 0xC000 1 = some e) (value : leNat v = n) :
    applyWrite u e 1 v circuits = collEpochAbort (dset u 0xC000 1 n) n := by
  subst value
  exact (applyWrite_named v circuits named (by decide)).trans rfl

theorem written_fence {k : Fin 64} (named : entryOf 0xC001 (k.val + 1) = some e) (value : leNat v = n) (small : n < 2 ^ 32)
    (on : n.testBit 31 = true) : isFenced (applyWrite u e (k.val + 1) v circuits) (BitVec.ofNat 18 n) = true := by
  have effect : applyWrite u e (k.val + 1) v circuits = fenceEntry u k.val n := by
    subst value
    exact (applyWrite_named v circuits named (by decide)).trans rfl
  rw [effect]
  exact isFenced_of_entry k (dcell_fenceEntry k small) on

theorem written_fenceSelf (named : entryOf 0xC000 2 = some e) : applyWrite u e 2 [1] circuits = enterFenced u :=
  (applyWrite_named [1] circuits named (by decide)).trans rfl

theorem written_fenceSelf_zero (named : entryOf 0xC000 2 = some e) : applyWrite u e 2 [0] circuits = u :=
  (applyWrite_named [0] circuits named (by decide)).trans rfl

theorem written_mode {b : Byte} (named : entryOf 0xC020 1 = some e) : applyWrite u e 1 [b] circuits = ghostMode u b.toNat := by
  have value : leNat [b] = b.toNat := by simp [leNat]
  rw [← value]
  exact (applyWrite_named [b] circuits named (by decide)).trans rfl

theorem written_mode_on {b : Byte} (named : entryOf 0xC020 1 = some e) (other : b ≠ 0) (off : u.res.mode = 0) :
    (applyWrite u e 1 [b] circuits).res.mode = b.toNat := by
  rw [written_mode circuits named]
  exact ghostMode_starts off (fun zero => other (BitVec.eq_of_toNat_eq zero))

theorem written_rollback (named : entryOf 0xC020 12 = some e) :
    (applyWrite u e 12 [1] circuits).res.openSet = [] ∧ (applyWrite u e 12 [1] circuits).res.closing = []
      ∧ (applyWrite u e 12 [1] circuits).res.staged = [] ∧ (applyWrite u e 12 [1] circuits).res.owner = 0 := by
  have effect : applyWrite u e 12 [1] circuits = ghostRollback u := (applyWrite_named [1] circuits named (by decide)).trans rfl
  rw [effect, ghostRollback_books]
  exact ⟨rfl, rfl, rfl, rfl⟩

theorem written_admission (v : List Byte) (named : entryOf 0xC002 1 = some e) : (applyWrite u e 1 v circuits).res.fenced = false := by
  have effect : applyWrite u e 1 v circuits = takeAdmission u (leNat v) := (applyWrite_named v circuits named (by decide)).trans rfl
  rw [effect]
  exact takeAdmission_unfenced u _

theorem written_requal (named : entryOf 0x30C2 1 = some e) :
    (applyWrite u e 1 [1] circuits).health.running = true ∧ dcell (applyWrite u e 1 [1] circuits) 0x30C2 2 = 1 := by
  have effect : applyWrite u e 1 [1] circuits = requalStart u 1 := (applyWrite_named [1] circuits named (by decide)).trans rfl
  rw [effect]
  exact ⟨rfl, dcell_requalStart u 1⟩

theorem written_requal_zero (named : entryOf 0x30C2 1 = some e) : applyWrite u e 1 [0] circuits = u :=
  (applyWrite_named [0] circuits named (by decide)).trans rfl

theorem written_challenge (v : List Byte) (named : entryOf 0x7002 1 = some e) : applyWrite u e 1 v circuits = attest u v :=
  (applyWrite_named v circuits named (by decide)).trans rfl

theorem written_image (v : List Byte) (named : entryOf 0x7005 1 = some e) : applyWrite u e 1 v circuits = fwUpdate u (leNat v) :=
  (applyWrite_named v circuits named (by decide)).trans rfl

/-- The staged image is checked, and a write of it begun. -/
theorem written_update (named : entryOf 0x7005 1 = some e) : applyWrite u e 1 [1] circuits
    = if imageReason u.fuses (stagedImage u) false = 0
      then { u with boot := { u.boot with update := 2, pendingImg := stagedImage u } }
      else sticky { u with boot := { u.boot with update := 4, reason := imageReason u.fuses (stagedImage u) false } } 0xA030 9 0 := by
  rw [written_image circuits [1] named, show leNat [1] = 1 by decide]
  unfold fwUpdate
  exact if_pos rfl

theorem written_svn (named : entryOf 0x7005 1 = some e) :
    (applyWrite u e 1 [2] circuits).fuses.svn.toNat = max u.fuses.svn.toNat u.boot.imageSvn.toNat := by
  rw [written_image circuits [2] named]
  exact fwUpdate_raises u

theorem written_release (named : entryOf 0x9001 2 = some e) : (applyWrite u e 2 [1] circuits).fab.released = true := by
  have effect : applyWrite u e 2 [1] circuits = darkRelease u circuits := (applyWrite_named [1] circuits named (by decide)).trans rfl
  rw [effect]
  exact darkRelease_released u circuits

theorem written_map (named : entryOf 0x40A0 9 = some e) : applyWrite u e 9 [1] circuits = portMapApply u :=
  (applyWrite_named [1] circuits named (by decide)).trans rfl

theorem written_region (d : Die) (named : entryOf 0x5000 (d.val + 1) = some e) (value : leNat v = n) :
    applyWrite u e (d.val + 1) v circuits
      = rcResize ((putStored u e (d.val + 1) v).setTier d.val { u.tier d.val with rcHeld := some n }) d.val := by
  refine (applyWrite_named v circuits named (by decide)).trans ?_
  show rcWrite (putStored u { e with index := 0x5000, acc := .rw } (d.val + 1) v) d.val (leNat v) = _
  rw [putStored_named v named, value, rcWrite, putStored_tier]

theorem written_coordinate (named : entryOf 0x9000 1 = some e) (value : leNat v = n) (small : n < 2 ^ 32) :
    dnum (applyWrite u e 1 v circuits) 0x9000 1 = n := by
  have number : isNumeric e = true := by
    have table : (entryOf 0x9000 1).map isNumeric = some true := by decide +kernel
    rw [named] at table
    exact Option.some.inj table
  have effect : applyWrite u e 1 v circuits = putStored u e 1 v := by
    refine (applyWrite_named v circuits named (by decide)).trans ?_
    show putStored u { e with index := 0x9000, acc := .rw } 1 v = _
    exact putStored_named v named
  rw [effect, putStored_number 1 _ number, entryOf_index named, value]
  exact dnum_dset (by unfold dictAbsent; omega)

end

/-! ### The store (15 R346) -/

theorem storeSeq_writeImage (f : Flash) (recs : SMap (List Byte)) : storeSeq (writeImage f recs) = storeSeq f + 1 := by
  unfold writeImage
  dsimp only
  split
  · have other : (if f.copyB.valid then f.copyB.seq else 0) ≤ storeSeq f := Nat.le_max_right _ _
    exact Nat.max_eq_left (Nat.le_succ_of_le other)
  · have other : (if f.copyA.valid then f.copyA.seq else 0) ≤ storeSeq f := Nat.le_max_left _ _
    exact Nat.max_eq_right (Nat.le_succ_of_le other)

/-- The books of the store in the dictionary. -/
def storeNoted (t : State) : State :=
  dset (dset t 0x30E0 2 (storeSeq t.flash)) 0x30E0 3 (bitAt t.flash.copyA.valid 0 + bitAt t.flash.copyB.valid 1)

/-- The image with a job's record is durable. -/
def storeKept (s : State) (j : StoreJob) : State :=
  storeNoted { s with flash := writeImage s.flash (withRecord s j.key j.value), mgmt := { s.mgmt with store := none } }

section
variable {s : State} {j : StoreJob} (job : s.mgmt.store = some j) (up : loaded s = true) (heard : j.silent = false)
include job up

theorem storeDurable_again (first : j.again = false) : storeDurable false s
    = { storeNoted { s with flash := spoilImage s.flash } with mgmt := { s.mgmt with store := some { j with again := true } } } := by
  unfold storeDurable
  rw [job]
  dsimp only
  rw [if_neg (by rw [up]; decide), if_neg Bool.false_ne_true, if_neg (by rw [first]; decide)]
  rfl

include heard

/-- A durable image takes its entry's effect before its answer. -/
theorem storeDurable_kept {e : Entry} (named : entryOf (j.key / 256) (j.key % 256) = some e) (other : j.key / 256 ≠ 0x20E0) :
    storeDurable true s = drainWaiting (answer (applyWrite (storeKept s j) e (j.key % 256) j.value []) j.msg 0
      (heldWrite (storeKept s j) (j.key / 256) (j.key % 256)) (writeBody j.msg)) := by
  unfold storeDurable
  rw [job]
  dsimp only
  rw [if_neg (by rw [up]; decide), if_pos rfl, named, heard]
  exact (if_neg other).trans rfl

/-- That of a setting of the drop, after it. -/
theorem storeDurable_drop {e : Entry} (named : entryOf (j.key / 256) (j.key % 256) = some e) (drop : j.key / 256 = 0x20E0) :
    storeDurable true s = drainWaiting (applyWrite (answer (storeKept s j) j.msg 0
      (heldWrite (storeKept s j) 0x20E0 (j.key % 256)) (writeBody j.msg)) e (j.key % 256) j.value []) := by
  unfold storeDurable
  rw [job]
  dsimp only
  rw [if_neg (by rw [up]; decide), if_pos rfl, named, heard]
  refine (if_pos drop).trans ?_
  rw [drop]
  rfl

theorem storeDurable_fails (second : j.again = true) : storeDurable false s = drainWaiting (answer
    (sticky { storeNoted { s with flash := spoilImage s.flash } with mgmt := { s.mgmt with store := none } } 0xA030 3 0)
    j.msg 12 false []) := by
  unfold storeDurable
  rw [job]
  dsimp only
  rw [if_neg (by rw [up]; decide), if_neg Bool.false_ne_true, if_pos second, heard]
  rfl

end

/-- Settles O59: a WRITE is of a good form and names its entry, so one that passes its checks is accepted; each entry's
effect is its own operation, and the store's four ends are cases of one. -/
theorem dictionaryWritesTakeEffect : Obligations.DictionaryWritesTakeEffect := by
  unfold Obligations.DictionaryWritesTakeEffect
  refine ⟨?_, ?_, ?_⟩
  · intro s t u c w idx sub v circuits e v8 v16 v32 k d n m rows inv arrives fresh sig short named known wide narrow sub0
      writable loader plain authorised length range value state
    have row : exec c s = .next (submit s (writeOf w idx sub v) circuits) := by
      simp only [List.mem_cons, Prod.mk.injEq, List.not_mem_nil, or_false] at rows
      rcases rows with ⟨rfl, -, -, -, rfl⟩ | ⟨rfl, rfl, rfl, rfl, rfl⟩ | ⟨rfl, rfl, rfl, rfl, rfl⟩ | ⟨rfl, rfl, rfl, -, rfl⟩
        | ⟨rfl, rfl, rfl, rfl, rfl⟩ | ⟨rfl, rfl, rfl, rfl, -⟩ | ⟨rfl, rfl, rfl, rfl, rfl⟩ | ⟨rfl, rfl, rfl, rfl, rfl⟩
        | ⟨rfl, rfl, rfl, rfl, rfl⟩ | ⟨rfl, rfl, rfl, rfl, rfl⟩ | ⟨rfl, rfl, rfl, rfl, rfl⟩ | ⟨rfl, rfl, rfl, rfl, rfl⟩
        | ⟨rfl, rfl, rfl, rfl, rfl⟩ | ⟨rfl, rfl, rfl, rfl, rfl⟩ | ⟨rfl, rfl, rfl, rfl, rfl⟩ | ⟨rfl, rfl, rfl, rfl, rfl⟩ <;> rfl
    have cache : t.mgmt.cache = s.mgmt.cache := (congrArg Mgmt.cache arrives.keeps.1 :)
    have fresh : Fresh t m := by
      unfold Fresh
      rw [cache]
      exact fresh
    have checks : Accepted t u (writeOf w idx sub v) e sub v :=
      ⟨writable, loader, plain, authorised, length, range, value, state⟩
    have turn : submit s m circuits = acceptWrite u m e circuits :=
      (submit_arrives circuits inv arrives).trans ((takeTurn_fresh circuits fresh).trans
        (serve_write circuits named sub0 narrow short checks known wide sig))
    rw [row]
    exact ⟨fun keep => congrArg Host.Outcome.next (turn.trans (acceptWrite_persistent circuits narrow short keep)),
      fun keep other => congrArg Host.Outcome.next (turn.trans (acceptWrite_atOnce circuits narrow short named keep other))⟩
  · intro u n v k e circuits t put small inv
    have two (narrow : n < 65536) : leNat (natLe 2 n) = n := leNat_natLe_of_lt narrow
    have four : leNat (natLe 4 n) = n := leNat_natLe_of_lt small
    exact ⟨fun named narrow => written_epoch circuits named (two narrow), fun named _ on => written_fence circuits named four small on,
      fun named => ⟨written_fenceSelf circuits named, written_fenceSelf_zero circuits named⟩,
      fun named => ⟨written_mode circuits named, rfl, rfl, fun b other off => written_mode_on circuits named other off⟩,
      fun named => written_rollback circuits named, fun named narrow => written_admission circuits (put 2) named,
      fun named => ⟨(written_requal circuits named).1, (written_requal circuits named).2, written_requal_zero circuits named⟩,
      fun named => written_challenge circuits v named, fun named => ⟨written_update circuits named, written_svn circuits named⟩,
      fun named => written_release circuits named, fun named => written_map circuits named,
      fun d named narrow => written_region circuits d named (leNat_natLe_of_lt narrow),
      fun named => written_coordinate circuits named four small⟩
  · intro s j e note t bad sub job up heard
    exact ⟨fun named other => congrArg Host.Outcome.next (storeDurable_kept job up heard named other),
      fun named drop => congrArg Host.Outcome.next (storeDurable_drop job up heard named drop),
      fun first => congrArg Host.Outcome.next (storeDurable_again job up first),
      fun second => congrArg Host.Outcome.next (storeDurable_fails job up heard second),
      storeSeq_writeImage _ _, fun some => mget_mput_new _ _ some⟩

end Sys2Proof.Machine
end


section
/-! What a start leaves of the boot: the image in its slot and the firmware's marks stay so through the loss of a die, the
retirement of a stack and everything that a start does after the firmware runs (17 Table 17.1). -/

namespace Sys2Proof.Machine

/-- What a start leaves of the boot: the image in its slot, the banks' latches, and what is said of the firmware: it runs,
its dictionary is loaded, its boot is complete. -/
structure Bootable where
  image    : List Byte
  latch    : BitVec 2
  firmware : Bool
  loaded   : Bool
  complete : Bool

def bootable (s : State) : Bootable :=
  ⟨s.flash.image, s.stage.latch, s.boot.firmware, s.boot.loaded, s.boot.complete⟩

theorem bootable_of_unposted {s t : State} (h : unposted t = unposted s) : bootable t = bootable s := (congrArg bootable h :)

section
variable (s : State)

@[simp] theorem bootable_free (x : Nat) : bootable { s with free := x } = bootable s := rfl
@[simp] theorem bootable_host (x : HostIf) : bootable { s with host := x } = bootable s := rfl
@[simp] theorem bootable_mgmt (x : Mgmt) : bootable { s with mgmt := x } = bootable s := rfl
@[simp] theorem bootable_queues (x : SMap Queue) : bootable { s with queues := x } = bootable s := rfl
@[simp] theorem bootable_watches (x : List (Nat × Watch)) : bootable { s with watches := x } = bootable s := rfl
@[simp] theorem bootable_flight (x : List Flying) : bootable { s with flight := x } = bootable s := rfl
@[simp] theorem bootable_d2dReqs (x : List D2dReq) : bootable { s with d2dReqs := x } = bootable s := rfl
@[simp] theorem bootable_fab (x : Fab) : bootable { s with fab := x } = bootable s := rfl
@[simp] theorem bootable_coll (x : CollEng) : bootable { s with coll := x } = bootable s := rfl
@[simp] theorem bootable_res (x : Resil) : bootable { s with res := x } = bootable s := rfl
@[simp] theorem bootable_setQueue (q : Nat) (x : Queue) : bootable (s.setQueue q x) = bootable s := rfl
@[simp] theorem bootable_setCp (d : Nat) (x : Cp) : bootable (s.setCp d x) = bootable s := rfl
@[simp] theorem bootable_setVe (d : Nat) (x : Ve) : bootable (s.setVe d x) = bootable s := rfl
@[simp] theorem bootable_setLane (d : Nat) (x : List UpdReq) : bootable (s.setLane d x) = bootable s := rfl
@[simp] theorem bootable_setRc (d : Nat) (x : Rc) : bootable (s.setRc d x) = bootable s := rfl
@[simp] theorem bootable_setPair (a b : Nat) (x : Pair) : bootable (s.setPair a b x) = bootable s := rfl
@[simp] theorem bootable_setPort (p : Nat) (x : PortSt) : bootable (s.setPort p x) = bootable s := rfl
@[simp] theorem bootable_setFibre (f : Nat) (x : Fibre) : bootable (s.setFibre f x) = bootable s := rfl
@[simp] theorem bootable_setBell (b : Nat) (v : Word) : bootable (s.setBell b v) = bootable s := rfl
@[simp] theorem bootable_emit (o : Output) : bootable (emit s o) = bootable s := rfl
@[simp] theorem bootable_dset (idx sub v : Nat) : bootable (dset s idx sub v) = bootable s := rfl
@[simp] theorem bootable_dputBit (idx sub i : Nat) (b : Bool) : bootable (dputBit s idx sub i b) = bootable s := rfl
@[simp] theorem bootable_bump (idx sub n : Nat) : bootable (bump s idx sub n) = bootable s := rfl
@[simp] theorem bootable_addDebt (n : Nat) : bootable (addDebt s n) = bootable s := rfl
@[simp] theorem bootable_spendTag (t : BitVec 16) : bootable (spendTag s t) = bootable s := rfl
@[simp] theorem bootable_writeByte (key : Nat) (b : Byte) : bootable (writeByte s key b) = bootable s := rfl
@[simp] theorem bootable_markWord (w : Nat) (b : Bool) : bootable (markWord s w b) = bootable s := rfl

/-! ### Sticky bits, vectors and stores -/

@[simp] theorem bootable_raiseVector (v : Nat) : bootable (raiseVector s v) = bootable s :=
  bootable_of_unposted (unposted_raiseVector s v)
@[simp] theorem bootable_sticky (idx sub bit : Nat) : bootable (sticky s idx sub bit) = bootable s :=
  bootable_of_unposted (unposted_sticky s idx sub bit)
@[simp] theorem bootable_pump (a b : Nat) : bootable (pump s a b) = bootable s := bootable_of_unposted (unposted_pump s a b)
@[simp] theorem bootable_sendMsg (a b : Nat) (m : D2dMsg) : bootable (sendMsg s a b m) = bootable s :=
  bootable_of_unposted (unposted_of_unsent (unsent_sendMsg s a b m))
@[simp] theorem bootable_tellFrees (a b n : Nat) : bootable (tellFrees a b n s) = bootable s :=
  bootable_of_unposted (unposted_of_unsent (unsent_tellFrees s a b n))
@[simp] theorem bootable_leaveFlit (f kind fc : Nat) (p : PktFlit) : bootable (leaveFlit s f kind fc p) = bootable s :=
  bootable_of_unposted (unposted_leaveFlit s f kind fc p)
@[simp] theorem bootable_leaveOn (e plane : Nat) (p : Packet) : bootable (leaveOn s e plane p).2 = bootable s :=
  bootable_of_unposted (unposted_leaveOn s e plane p)
@[simp] theorem bootable_reply (p : Packet) (typ : BitVec 5) (f : Packet → Packet) : bootable (reply s p typ f) = bootable s :=
  bootable_of_unposted (unposted_reply s p typ f)
@[simp] theorem bootable_sendOn (plane : Nat) (p : Packet) : bootable (sendOn s plane p) = bootable s :=
  bootable_of_unposted (unposted_sendOn s plane p)
@[simp] theorem bootable_sendLoose (k : Nat) (p : Packet) : bootable (sendLoose s k p) = bootable s :=
  bootable_of_unposted (unposted_sendLoose s k p)
@[simp] theorem bootable_freshTag : bootable (freshTag s).2 = bootable s := rfl
@[simp] theorem bootable_request (q : Nat) (i : BitVec 32) (plane : Nat) (circuit : Option (BitVec 12)) (ghost : Bool)
    (p : Packet) : bootable (request s q i plane circuit ghost p) = bootable s :=
  bootable_of_unposted (unposted_request s q i plane circuit ghost p)

@[simp] theorem bootable_postHost (addr : Nat) (data : List Byte) (ep relaxed : Bool) :
    bootable (postHost s addr data ep relaxed) = bootable s := by
  unfold postHost
  split
  · simp
  · split <;> simp

@[simp] theorem bootable_writeBytes (key : Nat) (l : List Byte) : bootable (writeBytes s key l) = bootable s := by
  induction l generalizing s key with
  | nil => rfl
  | cons b r ih => exact ih _ _

@[simp] theorem bootable_markWrite (key len : Nat) (pz : Nat → Bool) :
    bootable (markWrite s key len pz) = bootable s := by
  refine foldl_keeps bootable (fun t w => ?_) _ s
  dsimp only
  split
  · simp
  · split <;> simp

@[simp] theorem bootable_specTouch (key len : Nat) : bootable (specTouch s key len) = bootable s := by
  unfold specTouch
  extract_lets
  split <;> simp

@[simp] theorem bootable_ghostTouch (key : Nat) : bootable (ghostTouch s key) = bootable s := by
  unfold ghostTouch
  split
  · rfl
  · split <;> simp

@[simp] theorem bootable_ghostTouchAll (key len : Nat) : bootable (ghostTouchAll s key len) = bootable s := by
  unfold ghostTouchAll
  split
  · rfl
  · exact foldl_keeps bootable bootable_ghostTouch _ s

@[simp] theorem bootable_storeBytes (key : Nat) (data : List Byte) (pz : Nat → Bool) :
    bootable (storeBytes s key data pz) = bootable s := by simp [storeBytes]

@[simp] theorem bootable_carryRead (key len : Nat) : bootable (carryRead s key len) = bootable s := by
  unfold carryRead
  extract_lets
  split <;> simp

/-! ### Die-to-die traffic (08) -/

@[simp] theorem bootable_sendHop (a : Nat) (m : D2dMsg) : bootable (sendHop s a m) = bootable s := by simp [sendHop]

@[simp] theorem bootable_sendDealt (k : Nat) (p : Packet) : bootable (sendDealt s k p) = bootable s := by
  unfold sendDealt
  split <;> simp

@[simp] theorem bootable_selfErr (p : Packet) (status : Nat) : bootable (selfErr s p status) = bootable s := by
  simp [selfErr]

/-! ### Bells (06) -/

@[simp] theorem bootable_notifyWatches (b : Nat) : bootable (notifyWatches s b) = bootable s := by
  simp [notifyWatches, foldl_keeps bootable]

@[simp] theorem bootable_strike (b : Nat) (v : Word) : bootable (strike s b v) = bootable s := by
  unfold strike
  dsimp only
  split <;> simp

@[simp] theorem bootable_packageStrike (d b : Nat) (v : Word) : bootable (packageStrike s d b v) = bootable s := by
  unfold packageStrike
  split <;> simp

@[simp] theorem bootable_remoteStrike (q : Nat) (dst : BitVec 18) (b : Nat) (v : Word) (tick : Option Word) :
    bootable (remoteStrike s q dst b v tick) = bootable s := by
  unfold remoteStrike
  split <;> simp

@[simp] theorem bootable_headerStrike (q : Nat) (l : List Word) : bootable (headerStrike s q l) = bootable s := by
  unfold headerStrike
  split
  · rfl
  · split <;> simp

/-! ### Write-backs (08 R197) -/

@[simp] theorem bootable_writeBack (d : Nat) (l : RcLine) (use : D2dFor) :
    bootable (writeBack s d l use).2 = bootable s := by
  have fresh := bootable_freshTag s
  unfold writeBack
  dsimp only
  split
  · rw [bootable_sendMsg]
    simpa [bootable] using fresh
  · split
    · rw [bootable_sendOn]
      simpa [bootable] using fresh
    · rw [bootable_selfErr]
      simpa [bootable] using fresh

@[simp] theorem bootable_writeBackAll (d : Nat) (pick : RcLine → Bool) (use : D2dFor) :
    bootable (writeBackAll s d pick use).2 = bootable s := by
  have each : ∀ (l : List RcLine) (acc : List (BitVec 16) × State),
      bootable (l.foldl (fun (acc : List (BitVec 16) × State) l =>
        let (tag, t) := writeBack acc.2 d l use
        (acc.1 ++ [tag], t)) acc).2 = bootable acc.2 := by
    intro l
    induction l with
    | nil => intro acc; rfl
    | cons x r ih => intro acc; exact (ih _).trans (bootable_writeBack acc.2 d x use)
  exact each _ ([], s)

@[simp] theorem bootable_startRelease (d tag : Nat) (use : D2dFor) :
    bootable (startRelease s d tag use).2 = bootable s := by
  unfold startRelease
  split
  · rfl
  · exact bootable_writeBackAll _ d _ use

/-! ### Queues and their descriptors (06) -/

@[simp] theorem bootable_modJob (q : Nat) (i : BitVec 32) (f : Job → Job) : bootable (s.modJob q i f) = bootable s := by
  simp [State.modJob]

@[simp] theorem bootable_finish (q : Nat) (i : BitVec 32) (status : Byte) (detail : Nat) :
    bootable (finish s q i status detail) = bootable s := by simp [finish]

@[simp] theorem bootable_finishOk (q : Nat) (i : BitVec 32) : bootable (finishOk s q i) = bootable s := by
  unfold finishOk
  split <;> simp

@[simp] theorem bootable_oneDone (q : Nat) (i : BitVec 32) : bootable (oneDone s q i) = bootable s := by
  unfold oneDone
  extract_lets t
  split
  · split <;> simp [t]
  · simp [t]

@[simp] theorem bootable_dropRequests (q : Nat) (i : BitVec 32) : bootable (dropRequests s q i) = bootable s :=
  foldl_keeps bootable bootable_spendTag _ _

@[simp] theorem bootable_raiseNow (q : Nat) : bootable (raiseNow s q) = bootable s := by simp [raiseNow]

@[simp] theorem bootable_raiseQueue (q : Nat) : bootable (raiseQueue s q) = bootable s := by
  unfold raiseQueue
  extract_lets
  split
  · split <;> simp
  · simp

@[simp] theorem bootable_dropFetches (q : Nat) (pick : BitVec 32 → Bool) :
    bootable (dropFetches s q pick) = bootable s := by
  simp [dropFetches]

@[simp] theorem bootable_dropWait (q : Nat) : bootable (dropWait s q) = bootable s :=
  (bootable_of_unposted (unposted_dropWait s q)).trans rfl

@[simp] theorem bootable_stopQueue (q : Nat) (i : BitVec 32) : bootable (stopQueue s q i) = bootable s := by
  unfold stopQueue
  split <;> simp

@[simp] theorem bootable_ringSticky (cpu : Nat) (p : Place) : bootable (ringSticky s cpu p) = bootable s := by
  unfold ringSticky
  split
  · split <;> simp
  · unfold faultSticky
    split <;> simp

@[simp] theorem bootable_putRecord (q : Nat) (j : Job) (base : Word) (log2 : Nat) (tail : BitVec 32) :
    bootable (putRecord s q j base log2 tail) = bootable s := by
  unfold putRecord
  dsimp only
  split
  · simp
  · split
    · simp
    · split <;> simp

@[simp] theorem bootable_writeRecord (q : Nat) (j : Job) : bootable (writeRecord s q j) = bootable s := by
  unfold writeRecord
  split
  · split <;> simp
  · simp

@[simp] theorem bootable_refuse (q : Nat) (f : Fetched) (status : Byte) (detail : Nat) :
    bootable (refuse s q f status detail) = bootable s := by simp [refuse]

@[simp] theorem bootable_reachParked (q : Nat) : bootable (reachParked s q) = bootable s := by simp [reachParked]

@[simp] theorem bootable_settleQueue (q : Nat) : bootable (settleQueue s q) = bootable s := by
  have released := bootable_startRelease s (queueDie q) (queueLocal q) (.park q)
  unfold settleQueue
  dsimp only
  split
  · rfl
  · split
    · split <;> simp [released]
    · split
      · split <;> simp [released]
      · rfl
    · rfl

@[simp] theorem bootable_tellReplay (j : Job) : bootable (tellReplay s j) = bootable s := by
  unfold tellReplay
  split <;> simp

@[simp] theorem bootable_completeJob (q : Nat) (j : Job) : bootable (completeJob s q j) = bootable s := by
  unfold completeJob
  extract_lets s1 x s2 t s3 s4
  have h2 : bootable s2 = bootable s := by simp [s2, s1]
  have h3 : bootable s3 = bootable s := by
    dsimp only [s3]
    split
    · simp [h2]
    · split <;> simp [t, h2]
  have h4 : bootable s4 = bootable s := by
    dsimp only [s4]
    split <;> simp [h3]
  simp [h4]

@[simp] theorem bootable_completeAll (q : Nat) (status : Byte) (detail : Nat) :
    bootable (completeAll s q status detail) = bootable s :=
  foldl_keeps bootable (fun t _ => bootable_completeJob t q _) _ s

@[simp] theorem bootable_loseQueues (d : Nat) (retired : Bool) : bootable (loseQueues s d retired) = bootable s := by
  refine foldl_keeps bootable (fun t q => ?_) _ s
  have dropped : ∀ (l : List (BitVec 32)) (v : State),
      bootable (l.foldl (fun v i => dropRequests v q i) v) = bootable v :=
    foldl_keeps bootable (fun v i => bootable_dropRequests v q i)
  dsimp only
  split
  · simp [dropped]
  · split <;> simp [dropped]

/-! ### Collectives (11) -/

@[simp] theorem bootable_dealColl (k mask : Nat) (p : Packet) : bootable (dealColl s k mask p).2 = bootable s := by
  unfold dealColl
  split
  · simp
  · rw [bootable_leaveOn]
    dsimp only
    split <;> simp [bootable]

@[simp] theorem bootable_collSend (c : Coll) (p : Packet) : bootable (collSend s c p).2 = bootable s := by
  unfold collSend
  split <;> simp

@[simp] theorem bootable_undefineElems (l : List Word) (r : Nat × Nat) : bootable (undefineElems s l r) = bootable s :=
  (bootable_storeBytes s (collKey l 7 (collFmt l) r.1) _ _ : _)

@[simp] theorem bootable_tellPort (port n : Nat) : bootable (tellPort port n s) = bootable s := by
  induction n generalizing s with
  | zero => rfl
  | succ n ih =>
    unfold tellPort
    split <;> simp [ih]

@[simp] theorem bootable_returnFrees (p : Packet) : bootable (returnFrees p s) = bootable s := by
  unfold returnFrees
  split <;> simp

@[simp] theorem bootable_releasePacket (p : Packet) : bootable (releasePacket s p) = bootable s := by
  unfold releasePacket
  split
  · simp [countPort]
  · split <;> simp [countCross]

@[simp] theorem bootable_collRelease (c : Coll) : bootable (collRelease s c) = bootable s := by
  unfold collRelease
  dsimp only
  split <;> simp

@[simp] theorem bootable_closeColl (c : Coll) (status : Byte) (detail : Nat) :
    bootable (closeColl s c status detail) = bootable s := by
  unfold closeColl
  extract_lets e stale s0 s1 s2 s3
  have h0 : bootable s0 = bootable s :=
    (foldl_keeps bootable (fun t r => bootable_undefineElems t c.words r) _ _).trans
      (foldl_keeps bootable (fun t p => by simp) _ s)
  have h1 : bootable s1 = bootable s := by simp [s1, h0]
  have h2 : bootable s2 = bootable s := by
    dsimp only [s2]
    split <;> simp [h1]
  have h3 : bootable s3 = bootable s := by
    dsimp only [s3]
    split
    · simp [h2]
    · split <;> simp [h2]
  split <;> simp [h3]

@[simp] theorem bootable_collDieLost (d : Nat) : bootable (collDieLost s d) = bootable s := by
  refine foldl_keeps bootable (fun t c => ?_) _ s
  exact (bootable_closeColl _ c _ _).trans (foldl_keeps bootable (fun u n => bootable_collSend u c _) _ t)

/-! ### Requests of the dies (08) -/

@[simp] theorem bootable_setVeRun (d : Nat) (upd : Bool) (r : VeRun) : bootable (setVeRun s d upd r) = bootable s := by
  simp [setVeRun]

@[simp] theorem bootable_endUpdate (d : Nat) (status : Byte) (detail : Nat) :
    bootable (endUpdate s d status detail) = bootable s := by
  unfold endUpdate
  split <;> simp [nextUpdate]

@[simp] theorem bootable_settleUpdate (d : Nat) : bootable (settleUpdate s d) = bootable s := by
  unfold settleUpdate
  split
  · rfl
  · split <;> simp

@[simp] theorem bootable_failUpdate (d detail : Nat) (lost : Bool) :
    bootable (failUpdate s d detail lost) = bootable s := by
  unfold failUpdate
  split
  · rfl
  · extract_lets s1 v s2
    have h1 : bootable s1 = bootable s := by
      dsimp only [s1]
      split <;> simp [freeSlice]
    simp [s2, h1]

@[simp] theorem bootable_failVe (d : Nat) (status : Byte) (detail : Nat) :
    bootable (failVe s d status detail) = bootable s := by
  unfold failVe
  dsimp only
  split <;> simp

@[simp] theorem bootable_failJob (q : Nat) (i : BitVec 32) (status : Byte) (detail : Nat) :
    bootable (failJob s q i status detail) = bootable s := by simp [failJob]

@[simp] theorem bootable_sendTear (c : Circuit) (waits : Bool) : bootable (sendTear s c waits) = bootable s := by
  unfold sendTear
  extract_lets new p s1
  have h1 : bootable s1 = bootable s := by
    dsimp only [s1]
    split <;> simp [dropLanes]
  split <;> simp [h1]

@[simp] theorem bootable_tryClose (id : BitVec 12) : bootable (tryClose s id) = bootable s := by
  unfold tryClose
  split
  · rfl
  · split <;> simp [modCircuit]

@[simp] theorem bootable_afterPut (j : Option Job) : bootable (afterPut s j) = bootable s := by
  unfold afterPut
  split
  · split <;> simp
  · rfl

@[simp] theorem bootable_dropReq (r : D2dReq) : bootable (dropReq s r) = bootable s := by simp [dropReq]

@[simp] theorem bootable_dropTag (d : Nat) (tag : BitVec 16) :
    bootable (dropTag s d tag) = bootable s := by simp [dropTag]

@[simp] theorem bootable_rcDrop (d slot die line : Nat) : bootable (rcDrop s d slot die line) = bootable s := by
  simp [rcDrop]

@[simp] theorem bootable_postedFailed (r : D2dReq) (tag q : Nat) (i : BitVec 32) (status : Byte) :
    bootable (postedFailed s r tag q i status) = bootable s := by
  unfold postedFailed
  split
  · split
    · split <;> simp
    · rfl
  · extract_lets v t
    have ht : bootable t = bootable s := by
      dsimp only [t]
      split <;> simp
    simp [ht]

@[simp] theorem bootable_writeFailed (r : D2dReq) (status : Byte) : bootable (writeFailed s r status) = bootable s := by
  unfold writeFailed
  extract_lets s1 s2
  have h1 : bootable s1 = bootable s := by simp [s1]
  have h2 : bootable s2 = bootable s := by
    dsimp only [s2]
    split <;> simp [h1]
  split <;> simp [h1, h2]

@[simp] theorem bootable_requestFailed (r : D2dReq) (status : Byte) :
    bootable (requestFailed s r status) = bootable s := by
  unfold requestFailed
  extract_lets detail s0 s1 s2
  have h0 : bootable s0 = bootable s := by
    dsimp only [s0]
    split <;> simp
  have h1 : bootable s1 = bootable s := by
    dsimp only [s1]
    split <;> simp [h0]
  have h2 : bootable s2 = bootable s := by simp [s2, h1]
  split
  · split
    · split
      · split <;> simp [h2]
      · exact h2
    · simp [h2]
  · simp [h1]
  · simp [h1]
  · simp [h1]

@[simp] theorem bootable_loseRequests (d : Nat) : bootable (loseRequests s d) = bootable s :=
  foldl_keeps bootable (fun t r => bootable_requestFailed t r 0x1B) _ s

/-! ### Waits, bells, lines, links and planes of a lost die (06 R153; 08 R197; 09 R200) -/

@[simp] theorem bootable_loseHeadWait (d q : Nat) : bootable (loseHeadWait s d q) = bootable s := by
  unfold loseHeadWait
  dsimp only
  split
  · split <;> simp
  · rfl

@[simp] theorem bootable_loseReplayWait (d q : Nat) : bootable (loseReplayWait s d q) = bootable s := by
  unfold loseReplayWait
  split
  · rfl
  · split
    · split
      · split <;> simp
      · rfl
    · rfl

@[simp] theorem bootable_loseWaits (d : Nat) : bootable (loseWaits s d) = bootable s :=
  foldl_keeps bootable (fun t q => by simp) _ s

@[simp] theorem bootable_loseBells (d : Nat) : bootable (loseBells s d) = bootable s := rfl

@[simp] theorem bootable_loseLines (d : Nat) : bootable (loseLines s d) = bootable s := by
  refine foldl_keeps bootable (fun t h => ?_) _ s
  dsimp only
  split
  · rfl
  · split <;> simp

@[simp] theorem bootable_losePlane (d : Nat) : bootable (losePlane s d) = bootable s := by
  refine (foldl_keeps bootable (fun t k => ?_) _ _).trans (foldl_keeps bootable (fun t k => by simp [portDown]) _ s)
  dsimp only
  split <;> simp

@[simp] theorem bootable_reroute (a b : Nat) : bootable (reroute s a b) = bootable s :=
  foldl_keeps bootable (fun t m => bootable_sendHop t a m) _ _

@[simp] theorem bootable_saveLanes (a b : Nat) : bootable (saveLanes s a b) = bootable s := rfl

@[simp] theorem bootable_relayAgain (a b : Nat) : bootable (relayAgain s a b) = bootable s := by
  unfold relayAgain
  extract_lets
  split <;> simp [chooseRelay]

@[simp] theorem bootable_relaysAgain : bootable (relaysAgain s) = bootable s :=
  foldl_keeps bootable (fun t _ => bootable_relayAgain t _ _) _ s

@[simp] theorem bootable_downPairs (d : Nat) : bootable (downPairs s d) = bootable s := by
  unfold downPairs
  extract_lets again t held keep
  have ht : bootable t = bootable s := foldl_keeps bootable (fun t b => by simp) _ s
  refine (foldl_keeps bootable (fun u m => bootable_sendHop u _ m) _ _).trans ?_
  simp [ht]

@[simp] theorem bootable_clearDie (d : Nat) : bootable (clearDie s d) = bootable s := rfl

theorem bootable_dieGone (d : Nat) (retired : Bool) : bootable (dieGone s d retired) = bootable s := by
  unfold dieGone
  dsimp only
  rw [bootable_losePlane, bootable_downPairs, bootable_loseWaits, bootable_loseBells, bootable_loseLines,
    bootable_loseRequests, bootable_clearDie, bootable_collDieLost, bootable_loseQueues]
  rfl

end

end Sys2Proof.Machine
end


section
/-! A start from its firmware on leaves the image and the firmware's marks (17 Table 17.1). -/

namespace Sys2Proof.Machine

section
variable (s : State)

/-! ### Stacks and domains (01 R27, 16 Table 16.4) -/

@[simp] theorem bootable_memRecordWrite : bootable (memRecordWrite s) = bootable s := by
  unfold memRecordWrite
  dsimp only
  split <;> rfl

@[simp] theorem bootable_dropRecord (d : Nat) : bootable (dropRecord s d) = bootable s := by
  unfold dropRecord
  dsimp only
  split
  · rfl
  · exact bootable_memRecordWrite _

@[simp] theorem bootable_retireStack (n : Nat) : bootable (retireStack s n) = bootable s := by
  unfold retireStack
  split
  · rfl
  · extract_lets bit s1 s2 s3 init s4 dark s5 own on
    have h1 : bootable s1 = bootable s := bootable_sticky _ _ _ _
    clear_value s1
    have h2 : bootable s2 = bootable s1 := bootable_dieGone s1 n true
    clear_value s2
    have h4 : bootable s4 = bootable s2 := bootable_dropRecord _ _
    clear_value s4
    have h5 : bootable s5 = bootable s4 := foldl_keeps bootable (fun t b => by simp) _ s4
    clear_value s5
    exact h5.trans (h4.trans (h2.trans h1))

/-- A fault of a domain that does not fail the module. -/
theorem bootable_domainFault {d : Nat} (stands : failsModule d = false) : bootable (domainFault d s) = bootable s := by
  unfold domainFault
  split
  · rfl
  · rw [if_neg (ne_true_of_eq_false stands)]
    dsimp only
    refine (foldl_keeps bootable bootable_retireStack (faultStacks d) _).trans ?_
    split
    · exact bootable_sticky _ _ _ _
    · rfl

/-! ### Bumps and lanes (01 R16 to R19, 08 R187 to R190) -/

@[simp] theorem bootable_chooseRelay (a b : Nat) : bootable (chooseRelay s a b) = bootable s := bootable_reroute _ a b

@[simp] theorem bootable_dropLane (a b lane : Nat) : bootable (dropLane s a b lane) = bootable s := by
  unfold dropLane
  extract_lets p lanes s1 s2
  have h1 : bootable s1 = bootable s := rfl
  have h2 : bootable s2 = bootable s := by
    unfold s2
    split
    · exact h1
    · exact (bootable_sticky s1 _ _ _).trans h1
  split
  · rw [bootable_relaysAgain, bootable_chooseRelay, bootable_sticky, h2]
  · exact h2

@[simp] theorem bootable_lamLost (a b l : Nat) : bootable (lamLost s a b l) = bootable s := by
  have failed (lane : Nat) : bootable (laneFailed s a b lane) = bootable s := by
    unfold laneFailed
    dsimp only
    split
    · rfl
    · split
      · exact bootable_dropLane s a b lane
      · exact bootable_pump _ _ _
  unfold lamLost
  dsimp only
  split
  · exact failed _
  · split <;> rfl

@[simp] theorem bootable_lanePump (f n : Nat) : bootable (lanePump f n s) = bootable s := by
  induction n generalizing s with
  | zero => rfl
  | succ n ih =>
    unfold lanePump
    dsimp only
    split
    · rfl
    · exact (ih _).trans (bootable_leaveFlit _ _ _ _ _)

theorem bootable_sendLane (f : Nat) (m : LaneMsg) : bootable (sendLane s f m) = bootable s := bootable_lanePump _ f 1

@[simp] theorem bootable_txFault (f l : Nat) : bootable (txFault s f l) = bootable s := by
  unfold txFault propose
  dsimp only
  split
  · split
    · rfl
    · split
      · split <;> rfl
      · exact bootable_sendLane _ _ _
  · rfl

@[simp] theorem bootable_rxLose (f l : Nat) : bootable (rxLose s f l) = bootable s := by
  unfold rxLose
  dsimp only
  split
  · rfl
  · split
    · exact bootable_sendLane _ _ _
    · split
      · rfl
      · exact bootable_sendLane _ _ _

@[simp] theorem bootable_quadrantOut (d q : Nat) : bootable (quadrantOut s d q) = bootable s := by
  unfold quadrantOut
  dsimp only
  split
  · rfl
  · exact bootable_sticky _ _ _ _

@[simp] theorem bootable_tierPortRetired (d p : Nat) : bootable (tierPortRetired s d p) = bootable s := by
  unfold tierPortRetired
  dsimp only
  split
  · rfl
  · split
    · exact bootable_sticky _ _ _ _
    · exact (bootable_quadrantOut _ _ _).trans (bootable_sticky _ _ _ _)

@[simp] theorem bootable_triggerRetire (d p : Nat) : bootable (triggerRetire s d p) = bootable s := by
  have started : bootable (startRetire s d p) = bootable s := by
    unfold startRetire
    dsimp only
    split
    · rfl
    · split
      · exact bootable_sticky _ _ _ _
      · rfl
  unfold triggerRetire
  dsimp only
  split
  · rfl
  · split
    · exact started
    · split <;> rfl

theorem bootable_readFailed (r : HostRead) : bootable (readFailed s r) = bootable s := by
  have noted : bootable (sticky { s with host := { s.host with reads := s.host.reads.erase r } } 0xA0D0 3 0) = bootable s :=
    bootable_sticky _ _ _ _
  unfold readFailed
  dsimp only
  split
  · split
    · exact noted
    · split
      · exact (bootable_refuse _ _ _ _ _).trans noted
      · exact noted
  · exact (bootable_failJob _ _ _ _ _).trans noted
  · exact (bootable_failJob _ _ _ _ _).trans noted
  · exact noted

theorem bootable_linkLoss : bootable (linkLoss s) = bootable s := by
  have jobs (t : State) (q : Nat) : bootable (failHostJobs t q) = bootable t :=
    foldl_keeps bootable (fun u j => (bootable_failJob _ _ _ _ _).trans (bootable_sticky u _ _ _)) _ t
  have rings (t : State) (q : Nat) : bootable (if (t.queue q).ringBase.getLsbD 63 || (t.queue q).cqBase.getLsbD 63
      then stopQueue t q (t.queue q).head else t) = bootable t := by
    split
    · exact bootable_stopQueue _ _ _
    · rfl
  unfold linkLoss
  split
  · rfl
  · exact (foldl_keeps bootable rings _ _).trans ((foldl_keeps bootable bootable_readFailed _ _).trans
      ((foldl_keeps bootable jobs _ _).trans (bootable_sticky _ _ _ _)))

theorem bootable_hostNarrow : bootable (hostNarrow s) = bootable s := by
  unfold hostNarrow
  dsimp only
  split
  · rfl
  · split
    · exact bootable_linkLoss s
    · exact bootable_sticky _ _ _ _

@[simp] theorem bootable_exhausted (g : BumpGroup) : bootable (exhausted s g) = bootable s := by
  unfold exhausted
  split
  · rfl
  · extract_lets src s0
    have h0 : bootable s0 = bootable s := rfl
    clear_value s0
    rw [← h0]
    split
    · split <;> exact bootable_lamLost _ _ _ _
    · split <;> exact bootable_lamLost _ _ _ _
    · dsimp only
      split
      · exact bootable_txFault _ _ _
      · exact bootable_rxLose _ _ _
    · exact bootable_triggerRetire _ _ _
    · exact bootable_triggerRetire _ _ _
    · split
      · exact bootable_retireStack _ _
      · rfl
    · split
      · exact bootable_retireStack _ _
      · rfl
    · exact bootable_tierPortRetired _ _ _
    · exact bootable_tierPortRetired _ _ _
    · exact bootable_tierPortRetired _ _ _
    · exact bootable_hostNarrow _
    · split <;> rfl

/-! ### Stacks at a start (07 R156, R172, R176; 01 R16, R19) -/

@[simp] theorem bootable_trainRetire (d p : Nat) : bootable (trainRetire s d p) = bootable s := by
  have started : bootable (startHbm s d) = bootable s := rfl
  unfold trainRetire
  dsimp only
  split
  · rfl
  · split
    · exact started
    · split
      · exact bootable_sticky _ _ _ _
      · rw [bootable_sticky, bootable_sticky]
        exact (bootable_memRecordWrite _).trans started

@[simp] theorem bootable_bumpAtTraining (g : BumpGroup) : bootable (bumpAtTraining s g) = bootable s := by
  unfold bumpAtTraining
  split
  · rfl
  · split
    · split
      · exact bootable_trainRetire _ _ _
      · exact bootable_exhausted s g
    · exact bootable_sticky _ _ _ _

theorem bootable_deadPcAtStart (zero : Bool) (d : Nat) (g : BumpGroup) : bootable (deadPcAtStart zero d s g) = bootable s := by
  unfold deadPcAtStart
  split
  · split
    · rfl
    · split
      · exact bootable_trainRetire _ _ _
      · exact bootable_triggerRetire _ _ _
  · rfl

theorem bootable_startStack (env : BootEnv) (zero : Bool) (d : Nat) : bootable (startStack env zero s d) = bootable s := by
  unfold startStack
  split
  · rfl
  · extract_lets s1 s2 s3 s4
    have h2 : bootable s2 = bootable s := by
      unfold s2
      split <;> rfl
    have h3 : bootable s3 = bootable s2 := foldl_keeps bootable (fun t g => bootable_deadPcAtStart t zero d g) _ s2
    have h4 : bootable s4 = bootable s3 := foldl_keeps bootable bootable_bumpAtTraining _ s3
    have before := h4.trans (h3.trans h2)
    split
    · exact before
    · exact (foldl_keeps bootable (fun t _ => bootable_trainRetire t d _) _ s4).trans before

@[simp] theorem bootable_laneAtTraining (x : Die9 × Die9 × Lam) : bootable (laneAtTraining s x) = bootable s := by
  unfold laneAtTraining
  dsimp only
  split
  · split <;> simp
  · split <;> simp

theorem bootable_startPair (a b : Nat) : bootable (startPair s a b) = bootable s := by
  unfold startPair
  dsimp only
  refine (foldl_keeps bootable (fun u l => ?_) (deadLams s a b) _).trans rfl
  exact bootable_laneAtTraining u _

theorem bootable_startPairs (pick : Nat × Nat → Bool) : bootable (startPairs s pick) = bootable s := by
  unfold startPairs
  rw [bootable_relaysAgain]
  refine foldl_keeps bootable (fun t e => ?_) ((livePairs s).filter pick) s
  exact bootable_startPair t e.1 e.2

theorem bootable_pairsVacate (b l : Nat) : bootable (pairsVacate s b l) = bootable s := by
  unfold pairsVacate
  extract_lets used t
  have moved : bootable t = bootable s := by
    refine foldl_keeps bootable (fun u e => ?_) used s
    exact bootable_lamLost u e.1 e.2 l
  clear_value t
  exact moved

theorem bootable_sourceAtStart (k : Nat) : bootable (sourceAtStart s k) = bootable s := by
  unfold sourceAtStart
  split
  · exact (bootable_pairsVacate _ _ _).trans (bootable_sticky (setSource s (k / 18) (k % 18) 4) _ _ _)
  · rfl

theorem bootable_arrayAtStart (a : Nat) : bootable (arrayAtStart s a) = bootable s := by
  unfold arrayAtStart
  split
  · rfl
  · exact bootable_sticky _ _ _ _

theorem bootable_recordStart (env : BootEnv) (ds : List Nat) : bootable (recordStart s env ds).2 = bootable s := by
  unfold recordStart
  extract_lets f g load
  split
  · rfl
  · exact (bootable_sticky _ _ _ _).trans (bootable_memRecordWrite _)

theorem bootable_viaEstimate (d : Nat) (ratios : List Nat) : bootable (viaEstimate s d ratios) = bootable s := by
  unfold viaEstimate
  split
  · rfl
  · extract_lets limits lost power s1 s2 k s3 x
    have noted : bootable s2 = bootable s := by
      unfold s2
      split
      · exact bootable_sticky s1 _ _ _
      · rfl
    split
    · exact noted
    · split
      · refine (foldl_keeps bootable (fun t q => ?_) _ s2).trans noted
        split <;> simp
      · exact noted

theorem bootable_steppedSurvey (vmin : List Nat) (slackPs : List Int) (ratios : List (List Nat)) :
    bootable (steppedSurvey s vmin slackPs ratios) = bootable s := by
  unfold steppedSurvey
  extract_lets one t
  have each (u : State) (d : Nat) : bootable (one u d) = bootable u := by
    unfold one
    dsimp only
    split
    · rfl
    · exact bootable_viaEstimate _ _ _
  have all : bootable t = bootable s := foldl_keeps bootable each _ s
  clear_value t
  exact all

theorem bootable_measureDigest (typ : Byte) (digest : List Byte) : bootable (measureDigest s typ digest) = bootable s := by
  unfold measureDigest
  dsimp only
  split <;> rfl

end

end Sys2Proof.Machine
end


section
/-! O53: starts and resets (17 R367 to R377, Tables 17.1, 17.3, 17.6, 17.7). -/

namespace Sys2Proof.Machine

/-! ### The firmware's start (17 Table 17.1) -/

section
variable (s : State) (env : BootEnv)

theorem bootable_putStored (e : Entry) (sub : Nat) (v : List Byte) : bootable (putStored s e sub v) = bootable s := by
  unfold putStored
  split <;> rfl

theorem bootable_loadRecord (key : Nat) (v : List Byte) : bootable (loadRecord s key v).1 = bootable s := by
  unfold loadRecord
  split
  · rfl
  · split
    · rfl
    · split
      · exact bootable_putStored _ _ _ _
      · rfl

theorem bootable_writeImage (recs : SMap (List Byte)) :
    bootable { s with flash := writeImage s.flash recs } = bootable s := by
  unfold writeImage
  dsimp only
  split <;> rfl

/-- The load of the dictionary marks it loaded. -/
theorem bootable_loadDict (powerUp : Bool) : bootable (loadDict s env powerUp) = { bootable s with loaded := true } := by
  unfold loadDict
  extract_lets srcA a srcB b recs srcF s0 marks
  split
  rename_i s1 bad folded
  have each (acc : State × Nat) (e : Nat × List Byte) : bootable (let (t, n) := loadRecord acc.1 e.1 e.2
      (t, acc.2 + n)).1 = bootable acc.1 := bootable_loadRecord acc.1 e.1 e.2
  have h1 : bootable s1 = bootable s := by
    have all := foldl_keeps (fun acc : State × Nat => bootable acc.1) each recs (s0, 0)
    rw [folded] at all
    exact all
  extract_lets srcBoot s2 s3 s4 s5 n t s6
  have h2 : bootable s2 = { bootable s with loaded := true } := by
    rw [← h1]
    rfl
  have h4 : bootable s4 = bootable s2 := by
    unfold s4
    split
    · rfl
    · exact bootable_sticky s3 _ _ _
  have h5 : bootable s5 = bootable s4 := by
    unfold s5
    split
    · exact bootable_sticky s4 _ _ _
    · split
      · rfl
      · exact bootable_sticky s4 _ _ _
  have h6 : bootable s6 = bootable s5 := by
    unfold s6
    split
    · exact bootable_writeImage s5 _
    · rfl
  exact h6.trans (h5.trans (h4.trans h2))

theorem bootable_measure (typ : Byte) (data : List Byte) : bootable (measure s typ data) = bootable s :=
  bootable_measureDigest s typ _

theorem bootable_seatBank (bay : Nat) (m : Option BankMem) : bootable (seatBank s bay m) = bootable s := by
  unfold seatBank bootable
  split <;> rfl

theorem bootable_reseated (on : BitVec 30) (banks : SMap Bank) :
    bootable { s with stage := { s.stage with domains := on }, dieReset := 0, banks := banks } = bootable s := rfl

/-- A domain that has failed, where one has. -/
theorem bootable_faultIf (c : Prop) [Decidable c] {d : Nat} (stands : failsModule d = false) :
    bootable (if c then domainFault d s else s) = bootable s := by
  split
  · exact bootable_domainFault s stands
  · rfl

/-- Bay A has its bank, its domain and its latch. -/
structure BankReady (env : BootEnv) (latch : BitVec 2) : Prop where
  domain : env.noGood.getLsbD 28 = false
  bank : env.bankOk.getLsbD 0 = true
  closed : latch.getLsbD 0 = true

/-- The firmware runs with its dictionary loaded, and the boot is not complete. -/
theorem bootable_startFirmware (zero powerUp recovered : Bool) (ready : BankReady env s.stage.latch) :
    bootable (startFirmware s env zero powerUp recovered) = ⟨s.flash.image, s.stage.latch, true, true, false⟩ := by
  unfold startFirmware
  extract_lets b img s0 s1 inUse s2 s3 s4 s5 s6 mgmt s7 seated bankBad on stage bank
  have h1 : bootable s1 = ⟨s.flash.image, s.stage.latch, true, true, false⟩ := bootable_loadDict s0 env powerUp
  clear_value s1
  have h2 : bootable s2 = bootable s1 := bootable_measure s1 5 _
  clear_value s2
  have h3 : bootable s3 = bootable s2 := by
    unfold s3
    split
    · rfl
    · exact bootable_sticky _ _ _ _
  have h4 : bootable s4 = bootable s3 := by
    unfold s4
    split
    · exact bootable_sticky _ _ _ _
    · rfl
  have h5 : bootable s5 = bootable s4 := by
    unfold s5
    split
    · exact bootable_sticky _ _ _ _
    · rfl
  have h6 : bootable s6 = bootable s5 := by
    unfold s6
    split
    · rfl
    · exact bootable_sticky _ _ _ _
  have h7 : bootable s7 = bootable s6 := by
    unfold s7
    split
    · exact bootable_sticky _ _ _ _
    · rfl
  have seats : bootable seated = bootable s7 := foldl_keeps bootable (fun t k => bootable_seatBank t k _) _ s7
  have before : bootable seated = ⟨s.flash.image, s.stage.latch, true, true, false⟩ :=
    seats.trans (h7.trans (h6.trans (h5.trans (h4.trans (h3.trans (h2.trans h1))))))
  have latch : seated.stage.latch = s.stage.latch := congrArg Bootable.latch before
  clear_value seated
  split
  rename_i kept s8 record
  have read (t : State) (ds : List Nat) {p : Bool × State} (is : recordStart t env ds = p) : bootable p.2 = bootable t :=
    is ▸ bootable_recordStart t env ds
  have h8 : bootable s8 = bootable seated := (read _ _ record).trans (bootable_reseated seated on _)
  clear record
  extract_lets s9 s10 ctlDead s11 s12 s13 s14 s15 s16 s17 s18
  have h9 : bootable s9 = bootable s8 := bootable_faultIf s8 _ (by decide)
  have h10 : bootable s10 = bootable s9 := bootable_faultIf s9 _ (by decide)
  have good : bankBad 0 = false := by
    show (!env.bankOk.getLsbD 0 || env.noGood.getLsbD 28 || !seated.stage.latch.getLsbD 0) = false
    rw [latch, ready.bank, ready.domain, ready.closed]
    rfl
  rw [if_neg (by rw [good]; decide)]
  have h11 : bootable s11 = bootable s10 := foldl_keeps bootable bootable_retireStack _ s10
  have h12 : bootable s12 = bootable s11 := bootable_startPairs s11 _
  clear_value s12
  have h13 : bootable s13 = bootable s12 :=
    foldl_keeps bootable (fun t d => bootable_startStack t env (zero || !kept) d) (List.range 8) s12
  clear_value s13
  have h14 : bootable s14 = bootable s13 := foldl_keeps bootable bootable_bumpAtTraining _ s13
  clear_value s14
  have h15 : bootable s15 = bootable s14 := foldl_keeps bootable bootable_arrayAtStart _ s14
  clear_value s15
  have h16 : bootable s16 = bootable s15 := bootable_measureDigest _ 6 _
  clear_value s16
  have h17 : bootable s17 = bootable s16 := foldl_keeps bootable bootable_laneAtTraining env.laneFail s16
  clear_value s17
  have h18 : bootable s18 = bootable s17 := foldl_keeps bootable bootable_sourceAtStart _ s17
  clear_value s18
  rw [bootable_steppedSurvey, bootable_relaysAgain, h18, h17, h16, h15, h14, h13, h12, h11, h10, h9, h8, before]

end

end Sys2Proof.Machine
end


section
/-! The boot ROM from a hub that leaves reset, and what each reset clears (17 Tables 17.1, 17.7). -/

namespace Sys2Proof.Machine

/-! ### Measured boot (17 R371) -/

section
variable (s : State)

/-- An event that finds room in the log. -/
def logged (b : Boot) (e : LogEntry) : Boot := { b with log := b.log ++ [e], running := sha512 (b.running ++ e.digest) }

theorem measureDigest_room (typ : Byte) (digest : List Byte) (room : s.boot.log.length < 256) :
    measureDigest s typ digest = { s with boot := logged s.boot { typ := typ, tick := now s, digest := digest } } :=
  if_neg (Nat.not_le_of_lt room)

end

/-! ### The boot ROM (17 R367, R370, R374; 01 R19, R26) -/

section
variable (s : State) (env : BootEnv)

/-- The hub has left reset. -/
def romReset : State :=
  { s with
    stage := { s.stage with straps := env.straps, moduleFailed := false, domains := s.stage.domains ||| 0x7000000 },
    tempo := .init }

/-- The hub is dead: the ROM stays in its state 5. -/
def romDead : State :=
  { romReset s env with stage := { (romReset s env).stage with moduleFailed := true },
                        boot := { (romReset s env).boot with dead := true, rom := 5 } }

/-- Both control groups of a twin are exhausted. -/
def twinsDead (f : Flash) : Bool :=
  f.bumpDead.any (fun g => match g with
    | .hubCtl k t => f.bumpDead.contains (.hubCtl k (!t))
    | _ => false)

/-- What is measured of the fuses. -/
def fuseBytes (f : Fuses) : List Byte :=
  natLe 8 f.mask.toNat ++ natLe 2 f.svn.toNat ++ natLe 1 f.keyRevoked.toNat ++ f.serial

/-- The ROM and the fuses are measured, and a free value is used up. -/
def romLogged : State :=
  { romReset s env with
    free := s.free + 1,
    boot := logged (logged s.boot { typ := 1, tick := 0, digest := Config.romMeasure })
      { typ := 3, tick := 0, digest := sha512 (fuseBytes s.fuses) } }

/-- The domains of the hub report power good. -/
structure HubGood (env : BootEnv) : Prop where
  first : env.noGood.getLsbD 24 = false
  second : env.noGood.getLsbD 25 = false
  third : env.noGood.getLsbD 26 = false

variable {s env} (good : HubGood env) (zero powerUp : Bool)
include good

theorem startRom_clocks (lost : env.viaLost = 3 ∨ env.pllLocked = false) : startRom s env zero powerUp
    = { romDead s env with dict := mput dictAbsent s.dict (dkey 0xA010 7) 1 } := by
  unfold startRom
  rw [good.first, good.second, good.third]
  exact (if_neg (by decide)).trans (if_pos lost)

variable (vias : env.viaLost ≠ 3) (locked : env.pllLocked = true)
include vias locked

theorem startRom_twins (dead : twinsDead s.flash = true) : startRom s env zero powerUp = romDead s env := by
  unfold startRom
  rw [good.first, good.second, good.third]
  exact (if_neg (by decide)).trans ((if_neg (not_or.mpr ⟨vias, by simp [locked]⟩)).trans (if_pos dead))

variable (twins : twinsDead s.flash = false) (reads : env.flashOk = true) (whole : s.flash.imageTorn = false)
include twins reads whole

/-- The ROM judges the image of the slot. -/
theorem startRom_image (room : s.boot.log.length < 255) : startRom s env zero powerUp
    = if imageReason s.fuses s.flash.image s.flash.factory ≠ 0
      then { romLogged s env with boot := { (romLogged s env).boot with
        rom := 2, reason := imageReason s.fuses s.flash.image s.flash.factory } }
      else startFirmware (measure (romLogged s env) 2 (s.flash.image.take 192)) env zero powerUp false := by
  unfold startRom
  rw [good.first, good.second, good.third]
  refine (if_neg (by decide)).trans ((if_neg (not_or.mpr ⟨vias, by simp [locked]⟩)).trans ((if_neg (ne_true_of_eq_false twins)).trans ?_))
  extract_lets stage s2 fuses s3 after
  have h2 : s2 = { romReset s env with boot := logged s.boot { typ := 1, tick := 0, digest := Config.romMeasure } } :=
    measureDigest_room (romReset s env) 1 _ (Nat.lt_succ_of_lt room)
  have h3 : freeWord s3 = (Config.freeWord s.free, romLogged s env) := by
    have more : s2.boot.log.length < 256 := by
      rw [h2]
      simpa [logged] using Nat.succ_lt_succ room
    unfold s3 fuses
    rw [measure, measureDigest_room s2 3 _ more, h2]
    rfl
  rw [h3]
  have judged (w : Word) : (if (!env.flashOk) = true then (7 : Byte)
      else if (romLogged s env).flash.imageTorn = true then if w.getLsbD 0 = true then 7 else 4
      else imageReason (romLogged s env).fuses (romLogged s env).flash.image (romLogged s env).flash.factory)
      = imageReason s.fuses s.flash.image s.flash.factory :=
    (if_neg (by rw [reads]; decide)).trans (if_neg (ne_true_of_eq_false whole))
  dsimp only
  rw [judged]
  rfl

end

/-! ### What a reset clears, and what it keeps (17 Table 17.7) -/

/-- Everything is cleared but flash, fuses and the input stage. -/
def emptied (s : State) (stage : Stage) : State :=
  { State.reset with pending := s.pending, free := s.free, out := s.out, fuses := s.fuses, flash := s.flash, stage := stage }

theorem allOff_idle {s : State} (idle : s.mgmt.store = none) (still : s.boot.update ≠ 2) :
    allOff s = emptied s { s.stage with domains := 0 } := by
  unfold allOff
  rw [interruptFlash_quiet idle still]
  rfl

/-- Is a byte of an HBM stack? -/
def inHbm (k : Nat) : Bool := decide (k / 2 ^ 48 < 8) && decide (0x1000000000 ≤ k % 2 ^ 48)

/-- A reset of the hub keeps HBM, the stacks and the tiers. -/
def hubKept (s : State) (cause : Byte) : State :=
  { emptied s { s.stage with resetCause := cause } with
    stackMask := s.stackMask, mem := s.mem.filter (fun c => inHbm c.1), poison := s.poison.filter (fun w => inHbm (8 * w)),
    tiers := s.tiers, hbms := s.hbms, boot := { Boot.init with watchdog := cause == 3 } }

/-- The hosted ghosts of a hub that has started again are lost (13 Table 13.4). -/
def ghostsLost (hosted : List Nat) (u : State) : State :=
  if u.boot.loaded then
    hosted.foldl (fun v n => sticky { v with res := { v.res with hostState := mput 0 v.res.hostState n 6 } } 0xA0C0 6 n) u
  else u

theorem ghostsLost_unloaded {u : State} (hosted : List Nat) (unloaded : u.boot.loaded = false) : ghostsLost hosted u = u :=
  if_neg (ne_true_of_eq_false unloaded)

theorem ghostsLost_none (u : State) : ghostsLost [] u = u := by
  unfold ghostsLost
  split <;> rfl

theorem bootable_ghostsLost (hosted : List Nat) (u : State) : bootable (ghostsLost hosted u) = bootable u := by
  unfold ghostsLost
  split
  · refine foldl_keeps bootable (fun v n => ?_) hosted u
    exact bootable_sticky { v with res := { v.res with hostState := mput 0 v.res.hostState n 6 } } _ _ _
  · rfl

theorem hubReset_idle {s : State} (idle : s.mgmt.store = none) (still : s.boot.update ≠ 2) (env : BootEnv) (cause : Byte) :
    hubReset env cause s = ghostsLost ((List.range 8).filter (fun n => mget 0 s.res.hostState n != 0))
      (startRom (hubKept s cause) env false false) := by
  unfold hubReset
  rw [interruptFlash_quiet idle still]
  rfl

/-- A state that a reset has cleared. -/
structure Cleared (s base : State) (domains : BitVec 30) : Prop where
  domains : base.stage.domains = domains
  latch : base.stage.latch = s.stage.latch
  fuses : base.fuses = s.fuses
  tempo : base.tempo = Tempo.init
  dict : base.dict = []
  log : base.boot.log = []
  firmware : base.boot.firmware = false
  loaded : base.boot.loaded = false

/-- The hub dead after a reset. -/
theorem romDead_cleared {s base : State} {domains : BitVec 30} (h : Cleared s base domains) (env : BootEnv) :
    romDead base env = { base with
      stage := { base.stage with straps := env.straps, moduleFailed := true, domains := domains ||| 0x7000000 },
      boot := { base.boot with dead := true, rom := 5 } } := by
  unfold romDead romReset
  rw [← h.domains, ← h.tempo]

/-- The resets, each with the state in which the ROM starts. -/
inductive Resets (env : BootEnv) (s : State) : Instr → State → Prop
  | power (off : s.stage.inputGood = false) :
    Resets env s (.inputGood env) (emptied s { s.stage with domains := 0, inputGood := true, resetCause := 0 })
  | pin (on : s.stage.inputGood = true) : Resets env s (.moduleResetN env) (emptied s { s.stage with domains := 0, resetCause := 1 })
  | module (due : asked s .module = true) :
    Resets env s (.resetCmdModule env) (emptied s { s.stage with domains := 0, resetCause := 1 })
  | hub (due : asked s .hub = true) : Resets env s (.resetCmdHub env) (hubKept s 2)
  | watchdog (up : loaded s = true) : Resets env s (.watchdogExpiry env) (hubKept s 3)

/-- The domains on when the ROM starts, but for the hub's. -/
def domainsKept (env : BootEnv) (s : State) (c : Instr) : BitVec 30 :=
  if c = .resetCmdHub env ∨ c = .watchdogExpiry env then s.stage.domains else 0

section
variable {env : BootEnv} {s base : State} {c : Instr}

theorem Resets.cleared (h : Resets env s c base) : Cleared s base (domainsKept env s c) := by
  cases h with
  | power off => exact ⟨(if_neg (by simp)).symm, rfl, rfl, rfl, rfl, rfl, rfl, rfl⟩
  | pin on => exact ⟨(if_neg (by simp)).symm, rfl, rfl, rfl, rfl, rfl, rfl, rfl⟩
  | module due => exact ⟨(if_neg (by simp)).symm, rfl, rfl, rfl, rfl, rfl, rfl, rfl⟩
  | hub due => exact ⟨(if_pos (.inl rfl)).symm, rfl, rfl, rfl, rfl, rfl, rfl, rfl⟩
  | watchdog up => exact ⟨(if_pos (.inr rfl)).symm, rfl, rfl, rfl, rfl, rfl, rfl, rfl⟩

/-- Each of them starts the ROM. -/
theorem Resets.starts (h : Resets env s c base) (idle : s.mgmt.store = none) (still : s.boot.update ≠ 2) :
    ∃ hosted zero powerUp, exec c s = .next (ghostsLost hosted (startRom base env zero powerUp)) := by
  have off := allOff_idle idle still
  cases h with
  | power unpowered =>
    refine ⟨[], true, true, congrArg Host.Outcome.next ?_⟩
    rw [ghostsLost_none, inputGood, off]
    exact if_neg (ne_true_of_eq_false unpowered)
  | pin on =>
    refine ⟨[], true, false, congrArg Host.Outcome.next ?_⟩
    rw [ghostsLost_none, moduleReset, off]
    exact if_pos on
  | module due =>
    refine ⟨[], true, false, congrArg Host.Outcome.next ?_⟩
    rw [ghostsLost_none, moduleReset, off]
    exact if_pos due
  | hub due => exact ⟨_, false, false, congrArg Host.Outcome.next ((if_pos due).trans (hubReset_idle idle still env 2))⟩
  | watchdog up => exact ⟨_, false, false, congrArg Host.Outcome.next ((if_pos up).trans (hubReset_idle idle still env 3))⟩

end

end Sys2Proof.Machine
end


section
/-! Die reset, boot complete, firmware update and the loader (17 R368, R374 to R377), and O53. -/

namespace Sys2Proof.Machine

/-! ### A reset that is asked for (17 R376, R377) -/

section
variable {s : State} {env : BootEnv}

theorem asked_early (r : ResetAsk) (early : (clock s - s.boot.resetAt).toNat < 10000000) : asked s r = false := by
  have late : ¬ 10000000 ≤ since s s.boot.resetAt := Nat.not_le_of_lt early
  simp [asked, late]

theorem asked_due {r : ResetAsk} (up : hubOn s = true) (is : s.boot.reset = some r)
    (due : 10000000 ≤ (clock s - s.boot.resetAt).toNat) : asked s r = true := by
  have late : 10000000 ≤ since s s.boot.resetAt := due
  simp [asked, up, is, late]

theorem resetCmdDie_early (early : (clock s - s.boot.resetAt).toNat < 10000000) : resetCmdDie env s = s := by
  unfold resetCmdDie
  split
  · exact if_pos (by rw [asked_early _ early]; rfl)
  · rfl

/-- The mask of one die in service names that die. -/
theorem onesBelow_die (d : Die) {mask : Byte} (live : mask.getLsbD d.val = true) :
    onesBelow 8 (BitVec.ofNat 8 (2 ^ d.val) &&& mask).toNat = [d.val] := by
  have bit (k : Nat) : (BitVec.ofNat 8 (2 ^ d.val) &&& mask).toNat.testBit k = (k == d.val) := by
    have := d.isLt
    rw [BitVec.testBit_toNat, BitVec.getLsbD_and, getLsbD_twoPow]
    by_cases same : k = d.val
    · rw [same, live]
      simp
    · simp [same, Ne.symm same]
  have one : ∀ d : Die, (List.range 8).filter (fun k => k == d.val) = [d.val] := by decide
  exact (List.filter_congr (fun k _ => bit k)).trans (one d)

/-- The die that the reset names starts again. -/
theorem resetCmdDie_one (d : Die) (up : hubOn s = true) (is : s.boot.reset = some (.die (BitVec.ofNat 8 (2 ^ d.val))))
    (due : 10000000 ≤ (clock s - s.boot.resetAt).toNat) (live : s.stackMask.getLsbD d.val = true) :
    resetCmdDie env s
      = dieReset env
        (recordStart { s with boot := { s.boot with reset := none }, stage := { s.stage with resetCause := 5 } } env [d.val]).1
        (recordStart { s with boot := { s.boot with reset := none }, stage := { s.stage with resetCause := 5 } } env [d.val]).2
        d.val := by
  unfold resetCmdDie
  rw [is]
  dsimp only
  rw [if_neg (by rw [asked_due up is due]; decide), onesBelow_die d live]
  rfl

theorem recordStart_stackMask (ds : List Nat) : (recordStart s env ds).2.stackMask = s.stackMask := by
  have written (t : State) : (memRecordWrite t).stackMask = t.stackMask := by
    unfold memRecordWrite
    dsimp only
  unfold recordStart
  extract_lets f g load
  split
  · rfl
  · exact (congrArg Standing.stackMask (standing_sticky _ _ _ _)).trans (written _)

/-- A die of a stack in service that is back from its reset, before it starts: the module has lost it. -/
def dieBack (s : State) (d : Nat) : State :=
  let gone := dieGone { s with dieReset := s.dieReset ||| BitVec.ofNat 8 (2 ^ d) } d false
  { gone with dieReset := gone.dieReset &&& ~~~(BitVec.ofNat 8 (2 ^ d)) }

section
variable (kept : Bool) {d : Nat} (live : s.stackMask.getLsbD d = true)
include live

theorem dieReset_bad (bad : stackBad env d = true) : dieReset env kept s d = retireStack (dieBack s d) d := by
  unfold dieReset
  rw [if_neg (by rw [live]; decide)]
  exact if_pos bad

theorem dieReset_good (good : stackBad env d = false) (lanes : env.laneFail = []) : dieReset env kept s d
    = ghostAllDirty (startStack env (!kept) (startPairs (dieBack s d) (fun e => e.1 == d || e.2 == d)) d) d := by
  unfold dieReset
  rw [if_neg (by rw [live]; decide)]
  extract_lets bit s1 s2 s3 s4
  rw [if_neg (by rw [good]; decide), lanes]
  rfl

end

/-! ### Boot complete and the flash write (17 R368, R375) -/

theorem bootComplete_logs (up : loaded s = true) (first : s.boot.complete = false) (room : s.boot.log.length < 255) :
    bootComplete s
      = let t : State := { s with boot := { logged (logged s.boot
            { typ := 7, tick := now s, digest := sha512 (natLe 1 (dcell s 0x7004 1)) })
            { typ := 8, tick := now s, digest := sha512 [] } with complete := true } }
        if dcell s 0x7004 1 = 1 then sticky t 0xA030 11 0 else t := by
  let b7 : Boot := logged s.boot { typ := 7, tick := now s, digest := sha512 (natLe 1 (dcell s 0x7004 1)) }
  have first7 : measure s 7 (natLe 1 (dcell s 0x7004 1)) = { s with boot := b7 } :=
    measureDigest_room s 7 _ (Nat.lt_succ_of_lt room)
  have then8 : measure { s with boot := b7 } 8 []
      = { s with boot := logged b7 { typ := 8, tick := now s, digest := sha512 [] } } :=
    measureDigest_room _ 8 _ (by simpa [b7, logged] using Nat.succ_lt_succ room)
  unfold bootComplete
  rw [if_neg (by rw [up, first]; decide), first7]
  dsimp only
  rw [then8]
  rfl

theorem fwUpdateFlashDone_holds (up : loaded s = true) (writing : s.boot.update = 2) (room : s.boot.log.length < 256) :
    fwUpdateFlashDone true s
      = { s with flash := { s.flash with image := s.boot.pendingImg, imageTorn := false, factory := false },
                 boot := logged { s.boot with update := 3, pendingImg := [] }
                   { typ := 10, tick := now s, digest := sha512 (s.boot.pendingImg.take 192) } } := by
  unfold fwUpdateFlashDone
  dsimp only
  rw [if_neg (by rw [up, writing]; decide), if_pos rfl]
  refine (measureDigest_room _ 10 _ ?_).trans rfl
  exact room

theorem fwUpdateFlashDone_torn (up : loaded s = true) (writing : s.boot.update = 2) :
    fwUpdateFlashDone false s
      = sticky { s with flash := { s.flash with imageTorn := true, factory := false },
                        boot := { s.boot with update := 4, reason := 7, pendingImg := [] } } 0xA030 9 0 := by
  unfold fwUpdateFlashDone
  dsimp only
  rw [if_neg (by rw [up, writing]; decide)]
  rfl

/-- An event of a sticky bit leaves flash and boot. -/
theorem flash_sticky (idx sub bit : Nat) : (sticky s idx sub bit).flash = s.flash :=
  (congrArg State.flash (unposted_sticky s idx sub bit) :)

theorem boot_sticky (idx sub bit : Nat) : (sticky s idx sub bit).boot = s.boot :=
  (congrArg State.boot (unposted_sticky s idx sub bit) :)

/-! ### The loader (17 R374) -/

theorem unposted_mbxFinish (status : Byte) (response : List Byte) :
    unposted (mbxFinish s status response) = unposted (mbxFilled s status response) := unposted_raiseVector _ _

theorem romReply_registers (op : Byte) (body : List Byte) : (romReply s op body).host.mbxDone = true
    ∧ (romReply s op body).host.mbxStatus = 0 ∧ (romReply s op body).host.rspBuf.drop 16 = body := by
  obtain ⟨done, -, status, response⟩ := mbxFinish_registers s 0
    (bdpHeader op (BitVec.ofNat 32 (leNat ((reqBytes s 8).drop 4))) body.length 2 0 ++ body)
  refine ⟨done, status, ?_⟩
  rw [romReply, response]
  exact List.drop_left' (bdpHeader_length _ _ _ _ _)

theorem romReply_flash (op : Byte) (body : List Byte) : (romReply s op body).flash = s.flash :=
  (congrArg State.flash (unposted_mbxFinish 0 _) :)

theorem romReply_boot (op : Byte) (body : List Byte) : (romReply s op body).boot = s.boot :=
  (congrArg State.boot (unposted_mbxFinish 0 _) :)

theorem romReply_stage (op : Byte) (body : List Byte) : (romReply s op body).stage = s.stage :=
  (congrArg State.stage (unposted_mbxFinish 0 _) :)

section
variable {len : BitVec 32} (rom : romRuns s = true) (waits : s.boot.rom = 2)
include rom waits

theorem recoveryLoad_refused (bad : imageReason s.fuses (pushedImage s len.toNat) false ≠ 0) : recoveryLoad len env s
    = romReply { s with boot := { s.boot with rom := 2, reason := imageReason s.fuses (pushedImage s len.toNat) false } } 0x21
      [2, imageReason s.fuses (pushedImage s len.toNat) false] := by
  unfold recoveryLoad
  rw [if_neg (by rw [rom]; decide), if_neg (by rw [waits]; decide)]
  exact if_pos bad

/-- An image that passes is measured and reported. -/
def recoveryReported (s : State) (img : List Byte) : State :=
  let t := measure s 4 (img.take 192)
  romReply { t with boot := { t.boot with rom := 4 } } 0x21 [4, 0]

variable (sound : imageReason s.fuses (pushedImage s len.toNat) false = 0)
include sound

theorem recoveryLoad_unread (torn : env.flashOk = false) : recoveryLoad len env s
    = { recoveryReported s (pushedImage s len.toNat) with
      flash := { (recoveryReported s (pushedImage s len.toNat)).flash with
        image := pushedImage s len.toNat, imageTorn := true, factory := false },
      boot := { (recoveryReported s (pushedImage s len.toNat)).boot with rom := 2, reason := 7 } } := by
  unfold recoveryLoad
  rw [if_neg (by rw [rom]; decide), if_neg (by rw [waits]; decide)]
  dsimp only
  rw [if_neg (not_not.mpr sound), if_pos (by rw [torn]; rfl)]
  rfl

/-- The slot holds the image, and RESET_CAUSE says so. -/
def recoveryWritten (s : State) (img : List Byte) : State :=
  let t := recoveryReported s img
  { t with flash := { t.flash with image := img, imageTorn := false, factory := false }, stage := { t.stage with resetCause := 4 } }

theorem recoveryLoad_boots (reads : env.flashOk = true) : recoveryLoad len env s
    = startFirmware (measure (recoveryWritten s (pushedImage s len.toNat)) 2 ((pushedImage s len.toNat).take 192)) env
      (s.stage.resetCause.toNat < 2) (s.stage.resetCause == 0) true := by
  unfold recoveryLoad
  rw [if_neg (by rw [rom]; decide), if_neg (by rw [waits]; decide)]
  dsimp only
  rw [if_neg (not_not.mpr sound), if_neg (by rw [reads]; decide)]
  rfl

end

theorem bootable_recoveryWritten (img : List Byte) : (bootable (recoveryWritten s img)).image = img
    ∧ (bootable (recoveryWritten s img)).latch = s.stage.latch := by
  refine ⟨rfl, ?_⟩
  have stage : (recoveryReported s img).stage = (measure s 4 (img.take 192)).stage := romReply_stage _ _
  have latch : (measure s 4 (img.take 192)).stage.latch = s.stage.latch := congrArg Bootable.latch (bootable_measure s 4 _)
  exact (congrArg Stage.latch stage).trans latch

/-- The request of ROM_STATUS, with the sequence number that stands in the buffer. -/
def statusRequest (s : State) : List Byte := bdpHeader 0x20 (BitVec.ofNat 32 (leNat ((reqBytes s 8).drop 4))) 0 0 0

/-- The loader answers ROM_STATUS. -/
theorem romStatus_answers (rom : romRuns s = true) (free : s.host.mbxBusy = false) (inv : Inv s) :
    exec .romStatus s = .next (romStatusReply (setRequest s (statusRequest s))) := by
  have len : (statusRequest s).length = 16 := bdpHeader_length _ _ _ _ _
  have held : reqBytes (setRequest s (statusRequest s)) (statusRequest s).length = statusRequest s :=
    reqBytes_setRequest inv (by rw [len]; decide)
  have size : min (setRequest s (statusRequest s)).host.reqLen.toNat 4096 = (statusRequest s).length := by
    simp [setRequest, len]
  have frame : ({ src := .mailbox, bytes := statusRequest s } : BdpMsg).bytes
      = bdpHeader 0x20 (BitVec.ofNat 32 (leNat ((reqBytes s 8).drop 4))) 0 0 0 ++ [] := (List.append_nil _).symm
  have op : byteAt (statusRequest s) 3 = 0x20 := msgOp_of_header frame
  refine congrArg Host.Outcome.next ((if_neg (ne_true_of_eq_false free)).trans ?_)
  refine (if_neg (ne_true_of_eq_false free)).trans ((if_pos rom).trans (if_pos ?_))
  rw [← statusRequest, size, held, isBdp_of_header frame, op]
  decide

end

end Sys2Proof.Machine
end


section
/-! The hub starts again after a reset, the loader starts what it is sent, and O53 (17 R369 to R371, R374, R376). -/

namespace Sys2Proof.Machine

/-! ### What the ROM makes of a reset (17 Tables 17.1, 17.7) -/

section
variable {s base : State} {env : BootEnv} {c : Instr}

theorem Resets.flash (h : Resets env s c base) : base.flash = s.flash := by
  cases h <;> rfl

/-- The domains on when the ROM has started. -/
def domainsUp (env : BootEnv) (s : State) (c : Instr) : BitVec 30 := domainsKept env s c ||| 0x7000000

/-- The state after a reset whose hub is dead. -/
def resetDead (env : BootEnv) (s base : State) (c : Instr) : State :=
  { base with stage := { base.stage with straps := env.straps, moduleFailed := true, domains := domainsUp env s c },
              boot := { base.boot with dead := true, rom := 5 } }

variable (h : Resets env s c base) (idle : s.mgmt.store = none) (still : s.boot.update ≠ 2) (good : HubGood env)
include h idle still

/-- A reset whose ROM starts no firmware ends as the ROM leaves it. -/
theorem Resets.ends {u : State} (ends : ∀ zero powerUp, startRom base env zero powerUp = u) (unloaded : u.boot.loaded = false) :
    exec c s = .next u := by
  obtain ⟨hosted, zero, powerUp, runs⟩ := h.starts idle still
  rw [runs, ends zero powerUp, ghostsLost_unloaded hosted unloaded]

include good

theorem Resets.clocks (lost : env.viaLost = 3 ∨ env.pllLocked = false) :
    exec c s = .next { resetDead env s base c with dict := [(dkey 0xA010 7, 1)] } := by
  refine h.ends idle still (fun zero powerUp => ?_) h.cleared.loaded
  rw [startRom_clocks good zero powerUp lost, romDead_cleared h.cleared, h.cleared.dict]
  rfl

variable (vias : env.viaLost ≠ 3) (locked : env.pllLocked = true)
include vias locked

theorem Resets.twins (dead : twinsDead s.flash = true) : exec c s = .next (resetDead env s base c) := by
  refine h.ends idle still (fun zero powerUp => ?_) h.cleared.loaded
  rw [startRom_twins good zero powerUp vias locked (by rw [h.flash, dead]), romDead_cleared h.cleared]
  rfl

variable (twins : twinsDead s.flash = false) (reads : env.flashOk = true) (whole : s.flash.imageTorn = false)
include twins reads whole

omit idle still in
theorem Resets.judges (zero powerUp : Bool) : startRom base env zero powerUp
    = if imageReason s.fuses base.flash.image base.flash.factory ≠ 0
      then { romLogged base env with boot := { (romLogged base env).boot with
        rom := 2, reason := imageReason s.fuses base.flash.image base.flash.factory } }
      else startFirmware (measure (romLogged base env) 2 (base.flash.image.take 192)) env zero powerUp false := by
  rw [startRom_image good zero powerUp vias locked (by rw [h.flash, twins]) reads (by rw [h.flash, whole])
    (by rw [h.cleared.log]; decide), h.cleared.fuses]

/-- A bad image leaves the ROM in its loader. -/
theorem Resets.refuses (bad : imageReason s.fuses base.flash.image base.flash.factory ≠ 0) :
    ∃ t, exec c s = .next t ∧ t.mem = base.mem ∧ t.boot.firmware = false ∧ t.boot.rom = 2
      ∧ t.boot.reason = imageReason s.fuses base.flash.image base.flash.factory
      ∧ t.boot.log.map LogEntry.typ = [1, 3] ∧ t.stage.domains = domainsUp env s c := by
  have judged := h.judges good vias locked twins reads whole
  refine ⟨_, h.ends idle still (fun zero powerUp => (judged zero powerUp).trans (if_pos bad)) h.cleared.loaded,
    rfl, h.cleared.firmware, rfl, rfl, ?_, ?_⟩
  · simp [romLogged, logged, romReset, h.cleared.log]
  · simp [romLogged, romReset, domainsUp, h.cleared.domains]

/-- A good image starts. -/
theorem Resets.boots (sound : imageReason s.fuses base.flash.image base.flash.factory = 0) (ready : BankReady env s.stage.latch) :
    ∃ t, exec c s = .next t ∧ t.boot.firmware = true ∧ t.boot.loaded = true ∧ t.boot.complete = false := by
  obtain ⟨hosted, zero, powerUp, runs⟩ := h.starts idle still
  let measured := measure (romLogged base env) 2 (base.flash.image.take 192)
  have latch : measured.stage.latch = s.stage.latch :=
    (congrArg Bootable.latch (bootable_measure (romLogged base env) 2 _)).trans h.cleared.latch
  have judged : startRom base env zero powerUp = startFirmware measured env zero powerUp false :=
    (h.judges good vias locked twins reads whole zero powerUp).trans (if_neg (not_not.mpr sound))
  have started : bootable (ghostsLost hosted (startRom base env zero powerUp))
      = ⟨measured.flash.image, measured.stage.latch, true, true, false⟩ := by
    rw [bootable_ghostsLost, judged]
    exact bootable_startFirmware measured env zero powerUp false (by rw [latch]; exact ready)
  exact ⟨_, runs, congrArg Bootable.firmware started, congrArg Bootable.loaded started, congrArg Bootable.complete started⟩

end

/-! ### The loader and the image pushed to it (17 R374) -/

section
variable {s : State} {env : BootEnv} {len : BitVec 32} (rom : romRuns s = true) (waits : s.boot.rom = 2)
include rom waits

theorem recoveryLoad_keeps_flash (bad : imageReason s.fuses (pushedImage s len.toNat) false ≠ 0) :
    (recoveryLoad len env s).flash = s.flash := by
  rw [recoveryLoad_refused rom waits bad, romReply_flash]

theorem recoveryLoad_reports (bad : imageReason s.fuses (pushedImage s len.toNat) false ≠ 0) :
    let t := recoveryLoad len env s
    t.boot = { s.boot with reason := imageReason s.fuses (pushedImage s len.toNat) false }
      ∧ t.host.mbxDone = true ∧ t.host.mbxStatus = 0
      ∧ t.host.rspBuf.drop 16 = [2, imageReason s.fuses (pushedImage s len.toNat) false] := by
  dsimp only
  rw [recoveryLoad_refused rom waits bad]
  refine ⟨(romReply_boot _ _).trans ?_, romReply_registers _ _⟩
  rw [← waits]

theorem recoveryLoad_starts (sound : imageReason s.fuses (pushedImage s len.toNat) false = 0) (reads : env.flashOk = true)
    (ready : BankReady env s.stage.latch) :
    bootable (recoveryLoad len env s) = ⟨pushedImage s len.toNat, s.stage.latch, true, true, false⟩ := by
  obtain ⟨image, latch⟩ := bootable_recoveryWritten (s := s) (pushedImage s len.toNat)
  let measured := measure (recoveryWritten s (pushedImage s len.toNat)) 2 ((pushedImage s len.toNat).take 192)
  have kept : bootable measured = bootable (recoveryWritten s (pushedImage s len.toNat)) := bootable_measure _ _ _
  have imageKept : measured.flash.image = pushedImage s len.toNat := (congrArg Bootable.image kept).trans image
  have latchKept : measured.stage.latch = s.stage.latch := (congrArg Bootable.latch kept).trans latch
  have started := bootable_startFirmware measured env (s.stage.resetCause.toNat < 2) (s.stage.resetCause == 0) true
    (by rw [latchKept]; exact ready)
  rw [imageKept, latchKept] at started
  exact (congrArg bootable (recoveryLoad_boots rom waits sound reads)).trans started

end

/-! ### The die that RESET_CMD names (17 R377) -/

section
variable {s : State} {env : BootEnv} (d : Die)

/-- The state in which the reset of a die has been taken. -/
def dieAsked (s : State) : State :=
  { s with boot := { s.boot with reset := none }, stage := { s.stage with resetCause := 5 } }

variable (up : hubOn s = true) (is : s.boot.reset = some (.die (BitVec.ofNat 8 (2 ^ d.val))))
  (due : 10000000 ≤ (clock s - s.boot.resetAt).toNat) (live : s.stackMask.getLsbD d.val = true)
include up is due live

theorem resetCmdDie_bad (bad : stackBad env d.val = true) :
    resetCmdDie env s = retireStack (dieBack (recordStart (dieAsked s) env [d.val]).2 d.val) d.val :=
  (resetCmdDie_one d up is due live).trans (dieReset_bad _ (by rw [recordStart_stackMask]; exact live) bad)

theorem resetCmdDie_good (fine : stackBad env d.val = false) (lanes : env.laneFail = []) :
    resetCmdDie env s = ghostAllDirty (startStack env (!(recordStart (dieAsked s) env [d.val]).1)
      (startPairs (dieBack (recordStart (dieAsked s) env [d.val]).2 d.val) (fun e => e.1 == d.val || e.2 == d.val)) d.val)
      d.val :=
  (resetCmdDie_one d up is due live).trans (dieReset_good _ (by rw [recordStart_stackMask]; exact live) fine lanes)

end

/-- Settles O53: each reset clears its state and starts the ROM, whose checks decide on what runs; the other starts by the
equation of their row. -/
theorem startsAndResets : Obligations.StartsAndResets := by
  unfold Obligations.StartsAndResets
  refine ⟨?_, ?_, ?_, ?_, ?_, ?_, ?_⟩
  · intro s base env c hbm off kept on img why how idle still flash free n24 n25 n26 twins
    have good : HubGood env := ⟨n24, n25, n26⟩
    have cleared (stage : Stage) (is : base = off) (at_ : base.stage = stage) : base = emptied s stage := by
      refine is.trans ?_
      unfold off
      rw [free, flash, at_]
      rfl
    have hubCleared (cause : Byte) (is : base = kept) (at_ : base.stage = { s.stage with resetCause := cause })
        (dog : (c == .watchdogExpiry env) = (cause == 3)) : base = hubKept s cause := by
      refine is.trans ?_
      unfold kept off
      rw [free, flash, at_, dog]
      rfl
    have h : Resets env s c base := by
      obtain ⟨rfl, unpowered, is, at_⟩ | ⟨rfl, powered, is, at_⟩ | ⟨rfl, due, is, at_⟩ | ⟨rfl, due, is, at_⟩ | ⟨rfl, up, is, at_⟩ := how
      · exact cleared _ is at_ ▸ .power unpowered
      · exact cleared _ is at_ ▸ .pin powered
      · exact cleared _ is at_ ▸ .module due
      · exact hubCleared 2 is at_ (by simp) ▸ .hub due
      · exact hubCleared 3 is at_ (by simp) ▸ .watchdog up
    refine ⟨fun lost => ⟨_, h.clocks idle still good lost, rfl⟩,
      fun vias locked dead => ⟨_, h.twins idle still good vias locked dead, rfl⟩,
      fun vias locked alive reads _ whole => ⟨h.refuses idle still good vias locked alive reads whole,
        fun sound domain bank closed => h.boots idle still good vias locked alive reads whole sound ⟨domain, bank, closed⟩⟩⟩
  · intro s env d bit s1 kept s2 gone back up is due live lanes
    exact ⟨fun bad => congrArg Host.Outcome.next (resetCmdDie_bad d up is due live bad),
      fun fine => congrArg Host.Outcome.next (resetCmdDie_good d up is due live fine lanes)⟩
  · intro s env early
    have notYet (r : ResetAsk) : asked s r = false := asked_early r early
    exact ⟨congrArg Host.Outcome.next (if_neg (ne_true_of_eq_false (notYet .module))),
      congrArg Host.Outcome.next (if_neg (ne_true_of_eq_false (notYet .hub))),
      congrArg Host.Outcome.next (resetCmdDie_early early)⟩
  · intro s up first room e7 e8 t
    have both : s.boot.log ++ [e7, e8] = s.boot.log ++ [e7] ++ [e8] := by simp
    refine congrArg Host.Outcome.next ((bootComplete_logs up first room).trans ?_)
    unfold t
    rw [both]
    rfl
  · intro s up writing
    refine ⟨fun room => ⟨_, congrArg Host.Outcome.next (fwUpdateFlashDone_holds up writing room), rfl, rfl, rfl, rfl⟩,
      _, congrArg Host.Outcome.next (fwUpdateFlashDone_torn up writing), ?_⟩
    rw [flash_sticky, boot_sticky]
    exact ⟨rfl, rfl, rfl, rfl⟩
  · intro s env len img why rom waits
    refine ⟨fun bad => ⟨_, rfl, ?_⟩, fun torn => ⟨_, rfl, ?_⟩, fun reads domain bank closed => ⟨_, rfl, ?_⟩⟩
    · obtain ⟨boot, answered⟩ := recoveryLoad_reports (env := env) rom waits bad
      exact ⟨boot, recoveryLoad_keeps_flash rom waits bad, answered⟩
    · split
      next sound =>
        rw [recoveryLoad_unread rom waits sound torn]
        exact ⟨rfl, rfl, rfl⟩
      next bad => exact recoveryLoad_keeps_flash rom waits bad
    · split
      next sound =>
        have started := recoveryLoad_starts rom waits sound reads ⟨domain, bank, closed⟩
        exact ⟨congrArg Bootable.image started, congrArg Bootable.firmware started, congrArg Bootable.loaded started⟩
      next bad => exact recoveryLoad_keeps_flash rom waits bad
  · intro s rom free inv
    exact ⟨_, romStatus_answers rom free inv, romReply_registers _ _⟩

end Sys2Proof.Machine
end
